-- ==== Sys2Proof/Word.lean ====
section
/-!
DEFINITION. The words of the model: bytes, and tables keyed by a number.
-/

namespace Sys2Proof

/-- One byte of memory or of a message (R4, R5). -/
abbrev Byte := BitVec 8

/-- A table of values by number: pairs in ascending key order, one per key. A key that is
not listed holds the default its reader gives. -/
abbrev Tab (α : Type) := List (Nat × α)

end Sys2Proof
end

