-- ==== Sys2Proof/Syntax.lean ====
section
/-!
DEFINITION. The commands of the block: one constructor of `Instr` per row of
spec/opcode_table.json, with the operands that row needs.
-/

namespace Sys2Proof

/-- A submission descriptor as its queue fetched it: queue, sequence and the 44 body bytes
16 to 59 (R291). The opcode is the command's own. -/
structure Desc where
  queue : BitVec 16
  seq   : BitVec 16
  body  : BitVec 352
  deriving DecidableEq, Repr

/-- What a fetch of 64 bytes from a ring in host memory returned (R293): used only when the
submission ring lies in the host window. -/
structure FetchData where
  bytes  : BitVec 512
  poison : Bool
  deriving DecidableEq, Repr

/-- Bytes read from another device or another PCIe function, with the 64-byte line numbers,
counted from the first, that came poisoned (R209, R287, R318). -/
structure RemoteData where
  bytes  : List Byte
  poison : List Nat
  deriving DecidableEq, Repr

/-- Why a sequence program ends early (R99). -/
inductive SeqFault where
  | outsideLease (addr : BitVec 48)
  | illegal      (pc : BitVec 64)
  | poisonedLoad
  deriving DecidableEq, Repr

/-- Who issued the tier 2 request that was not served (R245). -/
inductive T2Issuer where
  | transfer (queue seq : BitVec 16) (offset : Nat)
  | update   (queue seq : BitVec 16) (element : Nat)
  | move     (obj : Nat)
  | coreLoad (agent line : Nat)
  deriving DecidableEq, Repr

/-- The causes of a late tier 2 request (R245), in the order of Table TIR-9. -/
inductive LateCause where
  | retrain | eccRetry | codecBacklog | controllerFault
  deriving DecidableEq, Repr

/-- The agreement fields of a Peruo flit header (Table PRU-2). -/
structure XHdr where
  src    : Nat
  dst    : Nat
  xtag   : BitVec 12
  epoch  : BitVec 32
  digest : BitVec 64
  view   : BitVec 32
  deriving DecidableEq, Repr

/-- A received block after FEC decoding (R303): whether a codeword was uncorrectable, how many symbols were
corrected, and the 512 bytes of its flit. -/
structure Block where
  uncorrectable : Bool
  corrected     : Nat
  flit          : List Byte
  deriving DecidableEq, Repr

/-- PUT of Table PRU-4 with its data and the poison mask bits of its lines (R318); `pod` is its scope in
its flags. -/
structure PutRec where
  queue  : BitVec 16
  step   : Nat
  addr   : Nat
  region : Nat
  length : Nat
  pod    : Bool
  data   : RemoteData
  deriving DecidableEq, Repr

/-- GET of Table PRU-4. -/
structure GetRec where
  queue  : BitVec 16
  step   : Nat
  addr   : Nat
  region : Nat
  length : Nat
  deriving DecidableEq, Repr

/-- ATOM of Table PRU-4 with the operand bytes of its OPERAND record. -/
structure AtomRec where
  op      : Nat
  width   : Nat
  step    : Nat
  addr    : Nat
  operand : List Byte
  deriving DecidableEq, Repr

/-- SIGNAL of Table PRU-4. -/
structure SignalRec where
  mode      : Nat
  die       : Nat
  step      : Nat
  token     : Nat
  increment : BitVec 32
  deriving DecidableEq, Repr

/-- RSP of Table PRU-4. -/
structure RspRec where
  status : Byte
  old    : BitVec 128
  detail : BitVec 32
  data   : RemoteData
  deriving DecidableEq, Repr

/-- COLL of Table PRU-4, with the descriptor's other agreed fields. -/
structure CollRec where
  kind    : Nat
  group   : Nat
  step    : Nat
  collSeq : BitVec 32
  rows    : Nat
  cols    : Nat
  opfIn   : Byte
  h       : Nat
  deriving DecidableEq, Repr

/-- A member's contribution that arrives in EXP records and DATA flits (R323, R327): its
exponents by skein and its elements in row-major order, or its bytes, and the positions of the elements
or 64-byte lines that lie on poisoned source lines. -/
structure ExpRec where
  group     : Nat
  collSeq   : BitVec 32
  exponents : List Int
  elements  : List Int
  bytes     : List Byte
  poison    : List Nat
  deriving DecidableEq, Repr

/-- BARRIER of Table PRU-4. -/
structure BarrierRec where
  group   : Nat
  flag    : Bool
  step    : Nat
  digest  : BitVec 64
  collSeq : BitVec 32
  deriving DecidableEq, Repr

/-- HELLO of Table PRU-4. -/
structure HelloRec where
  pod        : Nat
  view       : BitVec 32
  viewDigest : BitVec 64
  epoch      : BitVec 32
  digest     : BitVec 64
  deriving DecidableEq, Repr

/-- Operation of an atomic (Table COH-9), numbered as AOP of Table PRU-10; 10 and 11 are LR and SC, which
PRU-10 has not. -/
structure AtomicOp where
  op      : Nat
  width   : Nat
  operand : Nat
  compare : Nat
  deriving DecidableEq, Repr

/-- How the host link changed (R297). -/
inductive EpochCause where
  | perst (lowNs : Nat) | hotReset | flr | linkDown
  deriving DecidableEq, Repr

/-- Which admin block (R281, R290). -/
inductive AdminBlock where
  | hostBlock | localBlock
  deriving DecidableEq, Repr

/-- Which map a register write arrives through (R280, R281). -/
inductive RegSpace where
  | bar0 | control
  deriving DecidableEq, Repr

/-- What a configuration request asks (R279, R282). -/
inductive CfgRequest where
  | read
  | resizeBar2 (log2Bytes : Nat)
  deriving DecidableEq, Repr

/-- The transport a DAP or SPDM message arrives on (R344 to R346). -/
inductive Transport where
  | t1s | mctp | mailbox
  deriving DecidableEq, Repr

/-- A DAP request as received (Table DFT-6): the header fields, the body and the last 32 bytes.
`hopLimit` and `multicast` belong to the 10BASE-T1S wrapping (R344). -/
structure DapMsg where
  transport : Transport
  hopLimit  : Nat
  multicast : Bool
  version   : Byte
  reqId     : BitVec 16
  session   : BitVec 32
  nonce     : BitVec 64
  length    : BitVec 16
  result    : Byte
  reserved  : Byte
  body      : List Byte
  tag       : List Byte
  deriving DecidableEq, Repr

/-- An SPDM request after its code byte: param1, param2 and the rest (R407, R408). -/
structure SpdmMsg where
  transport : Transport
  version   : Byte
  param1    : Byte
  param2    : Byte
  rest      : List Byte
  deriving DecidableEq, Repr

/-- What the start sequence meets (R428 to R430): the roots that lock, whether the OTP's VENDOR_PK and IDS
and its IDENTITY_CERT agree with their CRCs (R399), the stored energy, the dies that fail training or
self-test, and its duration. -/
structure StartEnv where
  root0Locks : Bool
  root1Locks : Bool
  otpOk      : Bool
  certOk     : Bool
  holdupMj   : Nat
  failedDies : List Nat
  lanesUp    : List Nat
  durationMs : Nat
  deriving DecidableEq, Repr

/-- The byte of a line that a core accesses. -/
structure ByteAt where
  line   : Nat
  offset : Nat
  deriving DecidableEq, Repr

/-- The byte of a line that a core reads, as data or to fetch an instruction. -/
structure LoadAt where
  line   : Nat
  offset : Nat
  fetch  : Bool
  deriving DecidableEq, Repr

/-- A line of an agent, and what its cores have stored in it by then: the whole line, or nothing (R252). -/
structure StoredLine where
  line   : Nat
  stored : List Byte
  deriving DecidableEq, Repr

/-- A management signal driven low from outside, or a detection by the module (R420). -/
inductive PwrFailSource where
  | fastFall (mv : Nat)
  | below59  (mv : Nat)
  | driven   (lowNs : Nat)
  deriving DecidableEq, Repr

/-- The limit that engages pacing (R419), in the order of Table PWR-7. -/
inductive PaceCause where
  | power | current | peak | thermal
  deriving DecidableEq, Repr

/-- A coolant or air excursion has begun or has ended, each held for 10 s (R444). -/
inductive CoolantEvent where
  | tempOut (deci : Int) | flowOut (centi : Nat) | inside (deci : Int) (centi : Nat)
  deriving DecidableEq, Repr

/-- An ambient excursion has begun or has ended (R444). -/
inductive AirEvent where
  | out (deci : Int) | inside (deci : Int)
  deriving DecidableEq, Repr

/-- A command to the block: one constructor per row of spec/opcode_table.json. -/
inductive Instr where
  -- queue control, doorbells and fetches (12)
  | qctlNop (d : Desc)
  | qctlStep (d : Desc)
  | qctlFlush (d : Desc)
  | sqDb (q : BitVec 16) (width : Nat) (value : BitVec 32)
  | cqDb (q : BitVec 16) (width : Nat) (value : BitVec 32)
  | descriptorFetch (q : BitVec 16) (f : FetchData)
  | dbRetryExpiry (q : BitVec 16)
  | flushReadReturn (q : BitVec 16)
  -- shuttles, creels and multicast (09)
  | shutCopy (d : Desc)
  | shutCopy2d (d : Desc)
  | transferAccept (q seq : BitVec 16)
  | transferComplete (q seq : BitVec 16)
  | shutMcast (d : Desc)
  | mcastDelivery (q seq : BitVec 16) (die loom : Nat)
  | mcastSet (d : Desc)
  | creelSet (d : Desc)
  | shutLimit (d : Desc)
  | slotEmpty (die ring : Nat)
  -- looms (03)
  | loomPick (d : Desc)
  | pickAccept (die loom : Nat)
  | pickComplete (die loom : Nat)
  | loomChainDrop (d : Desc)
  | loomSetMode (d : Desc)
  -- vector engines and control cores (04)
  | vecEw2 (d : Desc)
  | vecEw1 (d : Desc)
  | vecFma (d : Desc)
  | vecReduce (d : Desc)
  | vecArgmax (d : Desc)
  | vecRequant (d : Desc)
  | vecConvert (d : Desc)
  | vecCurve (d : Desc)
  | vecGather (d : Desc)
  | vecInstructionComplete (die engine : Nat)
  | seqLoad (d : Desc)
  | seqStart (d : Desc)
  | seqStop (d : Desc)
  | ecall (die core : Nat) (a7 a0 : BitVec 64)
  | seqAccessFault (die core : Nat) (f : SeqFault)
  | tiSubmit (die core : Nat) (rd : BitVec 5) (rs1 rs2 : BitVec 64)
  | tiWait (die core : Nat) (rd : BitVec 5) (rs1 : BitVec 64)
  | tiPoll (die core : Nat) (rd : BitVec 5) (rs1 : BitVec 64)
  | tiStep (die core : Nat) (rd : BitVec 5)
  | tiFence (die core : Nat)
  | controlCoreRetire (die core : Nat)
  -- reed and backward (05, 06)
  | reedConv (d : Desc)
  | bwdPick (d : Desc)
  | bwdAttn (d : Desc)
  | stashPut (d : Desc)
  | stashRoomFreed (lease : Nat)
  | stashFullWaitExpiry (q seq : BitVec 16)
  | stashGet (d : Desc)
  | stashDrop (d : Desc)
  | treadleBind (d : Desc)
  | treadleGrant (die : Nat)
  | treadleWait (d : Desc)
  | treadleSignal (d : Desc)
  | mbAdmit (d : Desc)
  | mbRetire (d : Desc)
  -- update and temple (07, 08)
  | updStat (d : Desc)
  | updApply (d : Desc)
  | barrierOutcomeHeld (q seq : BitVec 16)
  | templeOpen (d : Desc)
  | templeAttach (d : Desc)
  | templeTally (d : Desc)
  | templeSeal (d : Desc)
  | templeDecide (d : Desc)
  | templeClose (d : Desc)
  -- tiers and leases (10)
  | tierRegister (d : Desc)
  | tierFree (d : Desc)
  | tierPromote (d : Desc)
  | tierEvict (d : Desc)
  | tierPack (d : Desc)
  | moveEnds (obj : Nat)
  | t2LateThresholdExpiry (hub : Nat) (cause : LateCause) (fCycles : Nat)
  | t2StallTimeoutExpiry (issuer : T2Issuer)
  | demotionRetry (obj : Nat)
  | hubRetire (hub : Nat)
  | leaseGrant (value : Byte)
  | leaseRelease (lease : BitVec 16)
  -- Peruo (13)
  | pruPut (d : Desc)
  | pruAtomic (d : Desc)
  | pruSignal (d : Desc)
  | pruGroup (d : Desc)
  | pruReduce (d : Desc)
  | pruGather (d : Desc)
  | pruBarrier (d : Desc)
  | pruRegion (d : Desc)
  | laneTrained (lane : Nat)
  | laneMarker (lane pod linkDie laneNo : Nat) (credits : List Nat)
  | flitReceive (lane : Nat) (b : Block)
  | nak (lane : Nat) (ack : BitVec 12)
  | laneFail (lane : Nat)
  | put (h : XHdr) (r : PutRec)
  | get (h : XHdr) (r : GetRec)
  | atom (h : XHdr) (r : AtomRec)
  | signal (h : XHdr) (r : SignalRec)
  | rsp (h : XHdr) (r : RspRec)
  | coll (h : XHdr) (r : CollRec)
  | exp (h : XHdr) (r : ExpRec)
  | barrier (h : XHdr) (r : BarrierRec)
  | hello (h : XHdr) (r : HelloRec)
  | peerDown (h : XHdr) (lost : Nat) (view : BitVec 32)
  | xactTimeoutExpiry (peer : Nat)
  | ethFrameReceive (frame : List Byte)
  | ethRtoExpiry (peer : Nat)
  | farDatagramReceive (frame : List Byte)
  -- coherence (11)
  | rdS (agent : Nat) (access : LoadAt)
  | rdX (agent : Nat) (access : ByteAt)
  | upg (agent : Nat) (access : ByteAt)
  | rdNc (line : Nat)
  | wrNc (line : Nat) (mask : BitVec 64) (data : List Byte)
  | wb (agent : Nat) (left : StoredLine)
  | cln (agent line : Nat)
  | atomN (agent line offset : Nat) (op : AtomicOp)
  | snpS (agent : Nat) (found : StoredLine)
  | snpX (agent : Nat) (found : StoredLine)
  | snpCur (agent : Nat) (found : StoredLine)
  | snpInv (agent line : Nat)
  | lrSnoopDelayExpiry (agent line : Nat)
  | rspI (agent line : Nat)
  | rspS (agent line : Nat)
  | rspO (agent line : Nat)
  | rspFwd (agent line : Nat) (dirty : Bool)
  | grant (agent line : Nat)
  | ack (agent line : Nat)
  | wbAck (agent line : Nat)
  | data (agent line : Nat)
  | agentSnoopLimitExpiry (agent : Nat)
  | agentDead (agent : Nat)
  | privSnoopTimeoutExpiry (line : Nat)
  | snpdata (line : Nat)
  | snpinv (line : Nat)
  | snpcur (line : Nat)
  | snoopDeadlineMiss (agent line : Nat)
  | birsp (line : Nat) (hostData : Option (List Byte)) (keeps : Bool)
  -- host port (12)
  | memrd (offset : Nat)
  | memwr (offset : Nat) (mask : BitVec 64) (data : List Byte) (poison : Bool)
  | bar2Read (offset length : Nat)
  | bar2Write (offset : Nat) (data : List Byte) (poison : Bool)
  | peerTimeout (q seq : BitVec 16)
  | hostEpochChange (cause : EpochCause)
  | portReady (gts width : Nat)
  | create (b : AdminBlock)
  | destroy (b : AdminBlock)
  | reattach (b : AdminBlock)
  | attach (b : AdminBlock)
  | regionRegister (b : AdminBlock)
  | regionRelease (b : AdminBlock)
  | registerWrite (sp : RegSpace) (offset width : Nat) (value : BitVec 64)
  | queueAbort (q : BitVec 16)
  -- Draft (14)
  | identify (m : DapMsg)
  | sessionOpen (m : DapMsg)
  | sessionClose (m : DapMsg)
  | sessionIdleTimeout (session : BitVec 32)
  | read (m : DapMsg)
  | write (m : DapMsg)
  | describe (m : DapMsg)
  | enumerate (m : DapMsg)
  | arm (m : DapMsg)
  | armAtStep (m : DapMsg)
  | armCancel (m : DapMsg)
  | discard (m : DapMsg)
  | stagedList (m : DapMsg)
  | eventRead (m : DapMsg)
  | spdmTunnel (m : DapMsg)
  | mbxDoorbell (value : BitVec 32)
  | mbxAck (value : BitVec 32)
  | neighborSolicitation (target source : List Byte) (hopLimit : Nat)
  | echoRequest (target source payload : List Byte)
  | setEndpointId (eid : Byte)
  | getEndpointId
  | getMctpVersionSupport (mtype : Byte)
  | getMessageTypeSupport
  | getVendorDefinedMessageSupport (selector : Byte)
  -- SPDM (16)
  | getVersion (m : SpdmMsg)
  | getCapabilities (m : SpdmMsg)
  | negotiateAlgorithms (m : SpdmMsg)
  | getDigests (m : SpdmMsg)
  | getCertificate (m : SpdmMsg)
  | challenge (m : SpdmMsg)
  | getMeasurements (m : SpdmMsg)
  | chunkSend (m : SpdmMsg)
  | chunkGet (m : SpdmMsg)
  | spdmUnsupportedRequest (code : Byte) (m : SpdmMsg)
  -- counter clears and probes (each chapter)
  | fmtCountersClear (value : Byte)
  | loomCountersClear (value : Byte)
  | vecCountersClear (value : Byte)
  | reedCountersClear (value : Byte)
  | bwdCountersClear (value : Byte)
  | updCountersClear (value : Byte)
  | templeCountersClear (value : Byte)
  | templeAlarmClear (value : Byte)
  | strCountersClear (value : Byte)
  | tirCountersClear (value : Byte)
  | cohCountersClear (value : Byte)
  | dirProbeAddr (value : BitVec 64)
  | hstCountersClear (value : Byte)
  | pruCountersClear (value : Byte)
  | configDefaults (session : BitVec 32)
  | dftCountersClear (value : Byte)
  -- commit, journal, firmware (15)
  | stepCommit (body stamps : BitVec 64)
  | groupRestore (first count : BitVec 32) (entries : BitVec 64)
  | outcomeAdopt (step : BitVec 64) (flag : Byte) (members : BitVec 32) (sum : BitVec 64)
  | commitRebase (step : BitVec 64)
  | boltNote (step digest label : BitVec 64)
  | fwImage (offset : Nat) (last : Bool) (bytes : List Byte)
  | fwInstall (value : Byte)
  | fwActivate (value : Byte) (failing : Option Nat)
  | recCountersClear (value : Byte)
  -- trust (16)
  | ownerKey (key : List Byte)
  | operatorKey (key : List Byte)
  | ownerRelease (value : Byte)
  | secCountersClear (value : Byte)
  -- power, clocks, module (17, 18)
  | moduleReset (value : Byte)
  | rootSwitch (value : Byte)
  | pwrCountersClear (value : Byte)
  | modCountersClear (value : Byte)
  | journalPageProgrammed
  | checkpoint
  | lifetime
  | nandDieFail (die : Nat)
  | wearLevelRelocation (die : Nat)
  | rowRepair (die channel bank row : Nat) (lines uncorrectable : List Nat)
  | mgmtSwitchover
  | noManagementDie
  | rootLossOfLock
  | pwrfailN (src : PwrFailSource)
  | inputLow (mv : Nat)
  | inputHighBand (mv : Nat)
  | overvoltageShutdown (mv : Nat)
  | stageFailure (stage : Nat)
  | pacingEngage (cause : PaceCause)
  | pacingAdjust (cleared : Bool)
  | thermalShutdown (die : Nat) (deci : Int)
  | holdupLow (mj : Nat)
  | coldStart (env : StartEnv)
  | mrstN (lowMs : Nat)
  | warmStart (env : StartEnv)
  | coolantExcursion (e : CoolantEvent)
  | airExcursion (e : AirEvent)
  | lossOfInput
  | standbyRootLock (locked : Bool)
  | hartStart (hart : Nat) (addr opaque_ : BitVec 64)
  | configurationRequest (r : CfgRequest)
  | cxlCacheResponse (line : Nat) (hostData : Option (List Byte))
  | peerReadCompletion (q seq : BitVec 16) (r : RemoteData)
  | unknownMtype (mtype : Byte) (m : DapMsg)
  | badCommand (b : AdminBlock) (code : Byte)
  deriving DecidableEq, Repr

end Sys2Proof
end

