-- ==== Sys2Proof/Decode.lean ====
section
/-!
DEFINITION. The decoder of table words. No row of spec/opcode_table.json gives bits: the commands are
events, register writes and messages, and none is spelt by a word of the table's numbering.
-/

namespace Sys2Proof

/-- The command that a table word spells: none, for no row gives bits (log 1). -/
def decodeTableWord (_nbits _w : Nat) : Option Instr := none

end Sys2Proof
end

