-- ==== Sys2Proof/Config.lean ====
section
/-!
DEFINITION. What the manual leaves to the module or leaves open: constants without a body, so
that no proof can lean on a value.
-/

namespace Sys2Proof.Config

/-- DESIGN CHOICE: a value the manual leaves open, drawn fresh at each use (log 10). -/
opaque freeValue : Nat → Nat

/-- DESIGN CHOICE: the random source of DEVICE_NONCE (R351), 16 bytes per draw (log 10). -/
opaque randomByte : Nat → Nat → Byte

/-- DESIGN CHOICE: host memory that the device has neither written nor received (R286, log 6). -/
opaque hostMemory : Nat → Byte

/-- DESIGN CHOICE: a byte of a device line that the host holds exclusively (R275, log 44). -/
opaque hostCopy : Nat → Byte

/-- DESIGN CHOICE: MODULE_SERIAL (R15) is per module (log 7). -/
opaque moduleSerial : Nat → Byte

/-- DESIGN CHOICE: MGMT_MAC (R364) is per module (log 7). -/
opaque mgmtMac : Nat → Byte

/-- DESIGN CHOICE: VENDOR_PK (R399) is in the OTP of each module (log 7). -/
opaque vendorPk : Nat → Byte

/-- DESIGN CHOICE: the identity seed IDS (R399), per module (log 7). -/
opaque ids : Nat → Byte

/-- DESIGN CHOICE: SHA-256 of the management ROM, MR0 (R406), per module (log 7). -/
opaque romDigest : Nat → Byte

/-- DESIGN CHOICE: IDENTITY_CERT (R399), per module (log 7). -/
opaque identityCert : List Byte

/-- DESIGN CHOICE: the firmware image of slot A as shipped (R395, R403), per module (log 7). -/
opaque factoryImage : List Byte

/-- DESIGN CHOICE: PPR_LEFT of memory die d as shipped (R398), per die (log 7). -/
opaque pprLeft : Nat → Nat

/-- DESIGN CHOICE: the Vendor ID of R278 is assigned outside the manual (log 7). -/
opaque vendorId : BitVec 16

/-- PRESUMED: key generation of FIPS 205 from the three seeds, the public key (R401, log 11). -/
opaque slhKeygen : List Byte → List Byte

/-- PRESUMED: an SLH-DSA signature of FIPS 205: seeds, message, signature (R402, R408, log 11). -/
opaque slhSign : List Byte → List Byte → List Byte

/-- PRESUMED: SLH-DSA verification of FIPS 205: public key, message, signature (R404, log 11). -/
opaque slhVerify : List Byte → List Byte → List Byte → Bool

/-- PRESUMED: the public key inside an X.509 certificate in DER (R404, log 11). -/
opaque certKey : List Byte → List Byte

/-- PRESUMED: the DER bytes of the alias certificate over its public key and measurements
(R402, log 11). -/
opaque aliasCert : List Byte → List Byte → List Byte

/-- PRESUMED: CTExponent of CAPABILITIES, which the manual does not give (log 64). -/
opaque spdmTimeExponent : Byte

/-- PRESUMED: MaxSPDMmsgSize of CAPABILITIES, which the manual does not give (log 64). -/
opaque spdmMaxMessage : Nat

/-- PRESUMED: an MCTP version entry (four bytes) for a message type, which R345 does not give (log 65). -/
opaque mctpVersion : Byte → Nat → Byte

/-- DESIGN CHOICE: which of several spares of one kind steps in (R14, log 12): an index into
the ascending list of spares, reduced modulo its length. -/
opaque sparePick : Nat → Nat

/-- DESIGN CHOICE: sqrt24 of a negative number m × 2^e, which R160 does not define: a mantissa and
an exponent (log 32). -/
opaque sqrtNegative : Int → Int → Int × Int

/-- DESIGN CHOICE: a 24-bit quotient whose divisor is zero, which R160 does not define: a mantissa
and an exponent, by those of the dividend (log 32). -/
opaque quotientByZero : Int → Int → Int × Int

end Sys2Proof.Config
end

