-- ==== Sys2Proof/Machine/State.lean ====
section
/-!
DEFINITION. The state of the module as plain data, every register and buffer the manual names,
and the state right after reset.
-/

namespace Sys2Proof.Machine

open Sys2Proof

/-! ### Memory -/

/-- The 48-bit local byte space (R225) as a canonical list of cells, and the poisoned lines
(R265) as ascending line numbers. -/
structure Mem where
  cells  : List Host.Cell
  poison : List Nat
  deriving DecidableEq, Repr

/-! ### Queues (12) -/

/-- Table HST-5. -/
inductive QState where
  | free | active | orphaned | revoked
  deriving DecidableEq, Repr

/-- An engine in the sense of R98, within the die that serves the queue. -/
inductive Engine where
  | dispatch | loom (n : Nat) | anyLoom | vec (n : Nat) | anyVec | reed | attnLooms
  | shuttle (n : Nat) | seqCores | update | tier | collective
  deriving DecidableEq, Repr

/-- Where a fetched descriptor stands: with the dispatch core, at its engine, or completed with
a record not yet written (R97, R294). -/
inductive Phase where
  | waiting
  | running (e : Engine)
  | done (status : Byte) (detail detail2 : BitVec 32)
  deriving DecidableEq, Repr

/-- A fetched descriptor that has no written record yet (R293, R294). `granted` is the
treadle's grant (R129). -/
structure Fetched where
  seq     : BitVec 16
  opcode  : Byte
  irq     : Bool
  body    : BitVec 352
  granted : Bool
  phase   : Phase
  deriving DecidableEq, Repr

/-- A completion record (Table HST-14) before its PHASE is known. -/
structure CRec where
  seq     : BitVec 16
  status  : Byte
  opcode  : Byte
  detail  : BitVec 32
  detail2 : BitVec 32
  irq     : Bool
  deriving DecidableEq, Repr

/-- The context of Table HST-4, with what the rules of R293 to R300 keep beside it. -/
structure QCtx where
  state       : QState
  lease       : Nat
  die         : Nat
  sqBase      : Nat
  cqBase      : Nat
  depth       : Nat
  vector      : BitVec 16
  irqOnError  : Bool
  nextSeq     : BitVec 16
  sqTail      : BitVec 16
  cqHead      : BitVec 16
  cqWritten   : BitVec 16
  cqConfirmed : BitVec 16
  step        : Nat
  limit       : Nat
  /-- fetched and without a written record, in sequence order -/
  fetched     : List Fetched
  /-- failed fetches of NEXT_SEQ (R293) -/
  fails       : Nat
  /-- the re-fetch delay is running (R293) -/
  retryWait   : Bool
  /-- records written since the last zero-length read (R295) -/
  sinceFlush  : Nat
  /-- CQ_WRITTEN at the issue of each outstanding zero-length read, oldest first (R295) -/
  flushReads  : List (BitVec 16)
  /-- the tail up to which an abort completes unfetched descriptors (R300) -/
  abortTail   : Option (BitVec 16)
  /-- records written but not confirmed, oldest first (R298) -/
  unconfirmed : List CRec
  /-- FIRST and LAST of QUNCERTAIN with VALID (R297) -/
  uncertain   : Option (BitVec 16 × BitVec 16)
  /-- the FIRST that REATTACH expects (R299) -/
  replayFrom  : BitVec 16
  /-- records held for replay, uncertain ones first (R298) -/
  held        : List CRec
  /-- status and detail of the last record written for each sequence number (R100) -/
  results     : Tab (Byte × BitVec 32)
  deriving DecidableEq, Repr

/-- A queue after power-on or DESTROY (Table HST-5). -/
def QCtx.init : QCtx :=
  { state := .free, lease := 0, die := 0, sqBase := 0, cqBase := 0, depth := 0, vector := 0,
    irqOnError := false, nextSeq := 0, sqTail := 0, cqHead := 0, cqWritten := 0,
    cqConfirmed := 0, step := 0, limit := 0, fetched := [], fails := 0, retryWait := false,
    sinceFlush := 0, flushReads := [], abortTail := none, unconfirmed := [], uncertain := none,
    replayFrom := 0, held := [], results := [] }

/-! ### Host port and admin (12) -/

/-- ATTACH_STATE of Table HST-3. -/
inductive AttachState where
  | attached | detached | lost
  deriving DecidableEq, Repr

/-- The registers of one admin block (Table HST-7). -/
structure Admin where
  queue  : BitVec 16
  lease  : BitVec 16
  die    : BitVec 8
  aflags : BitVec 8
  depth  : BitVec 16
  vector : BitVec 16
  cqHead : BitVec 16
  region : BitVec 16
  sqBase : BitVec 64
  cqBase : BitVec 64
  target : BitVec 64
  length : BitVec 64
  epoch  : BitVec 32
  result : Nat
  value  : BitVec 16
  deriving DecidableEq, Repr

def Admin.init : Admin :=
  { queue := 0, lease := 0, die := 0, aflags := 0, depth := 0, vector := 0, cqHead := 0,
    region := 0, sqBase := 0, cqBase := 0, target := 0, length := 0, epoch := 0, result := 0,
    value := 0 }

/-- A registered region of BAR2 (R283). `enabled` follows R284; `lost` says that its lease has been
revoked or released. -/
structure Region where
  enabled   : Bool
  lost      : Bool
  rd        : Bool
  wr        : Bool
  lease     : Nat
  first     : Nat
  apertures : Nat
  target    : Nat
  length    : Nat
  deriving DecidableEq, Repr

/-- The host interface (12). -/
structure HostIf where
  epoch       : BitVec 32
  attach      : AttachState
  eventVector : BitVec 16
  /-- BAR2 and HDM size in bytes (R282) -/
  bar2Size    : Nat
  portReady   : Bool
  /-- link speed in GT/s and width (0x4800.01 PCIE_LINK) -/
  gts         : Nat
  width       : Nat
  linkUp      : Bool
  cxlUp       : Bool
  adminHost   : Admin
  adminLocal  : Admin
  regions     : Tab Region
  /-- the bytes written to the MSI-X table and the CXL component registers, by BAR0 offset
  (Table HST-2) -/
  regBytes  : Tab Byte
  deriving DecidableEq, Repr

/-! ### Leases and objects (10) -/

/-- Sub-index 0x01 of LEASE_VIEW. -/
inductive LeaseState where
  | free | active | revoked
  deriving DecidableEq, Repr

/-- A lease (Table TIR-4). -/
structure Lease where
  state    : LeaseState
  grantSeq : Nat
  t1Base   : Nat
  t1Bytes  : Nat
  t1Quota  : Nat
  t2Base   : Nat
  t2Bytes  : Nat
  t2Quota  : Nat
  q1       : Nat
  q2       : Nat
  dieMask  : BitVec 64
  queues   : Nat
  host     : Bool
  deriving DecidableEq, Repr

def Lease.init : Lease :=
  { state := .free, grantSeq := 0, t1Base := 0, t1Bytes := 0, t1Quota := 0, t2Base := 0,
    t2Bytes := 0, t2Quota := 0, q1 := 0, q2 := 0, dieMask := 0, queues := 0, host := false }

/-- The object states of R239, in the order of OBJECT_STATE. -/
inductive ObjState where
  | residentT2 | promoting | residentT1 | demoting
  deriving DecidableEq, Repr

/-- A registered tier object (R238, R239). -/
structure TierObj where
  state    : ObjState
  packed   : Bool
  owner    : Nat
  opf      : Byte
  rows     : Nat
  cols     : Nat
  size     : Nat
  /-- sectors that its tier 2 frames hold while they stand behind a tier 1 copy, or hold packed (R229,
  OBJECT_STATE [39:0]) -/
  sectors  : Nat
  /-- how many tier 2 frames stand behind a tier 1 copy -/
  logical  : Nat
  /-- pinning leases -/
  pins     : List Nat
  /-- leases whose pin was made by the move in progress -/
  movePins : List Nat
  /-- the tier 2 frames that stand while tier 1 is authoritative (R239) -/
  backing  : Mem
  /-- descriptors (queue, sequence, opcode) that wait for the move -/
  waiters  : List (BitVec 16 × BitVec 16 × Byte)
  /-- the demotion was begun by the device for a revocation (R242) -/
  byDevice : Bool
  /-- the move in progress touched a hub that has retired, and fails with the ledger's restoration (R243) -/
  doomed   : Bool
  deriving DecidableEq, Repr

/-! ### Looms (03) and multicast (09) -/

/-- The configuration values a descriptor reads at dispatch (R357): tabby mode (R194),
ROUND_DEFAULT as "is RNE", SR_SEED, and the step in force on its queue. -/
structure NumCfg where
  tabby : Bool
  rne   : Bool
  seed  : BitVec 64
  step  : Nat
  deriving DecidableEq, Repr

/-- An element mantissa: a value or NaR (R32). -/
inductive Elem where
  | val (m : Int)
  | nar
  deriving DecidableEq, Repr

/-- One merge register with its group's alignment (R39, R42, R69). `emax = none` while no
product qualifies. -/
structure MergeCell where
  emax : Option Int
  sum  : Int
  nar  : Bool
  deriving DecidableEq, Repr

/-- An open chain of a loom (R69 to R72): the START's queue and body, the next K_INDEX, the
merge bank of each output, and the status of a failed pass. -/
structure Chain where
  queue  : BitVec 16
  bwd    : Bool
  body   : BitVec 352
  nextK  : Nat
  merge  : List (List MergeCell)
  failed : Option (Byte × BitVec 32 × BitVec 32)
  /-- its END has been accepted -/
  ending : Bool
  deriving DecidableEq, Repr

/-- The warp a loom holds (R61, R77): extents, format and mantissas in row-major order. -/
structure Warp where
  kt    : Nat
  nt    : Nat
  opf   : Byte
  elems : List Elem
  deriving DecidableEq, Repr

/-- The contents of a creel slot as a consumer took them: its bytes, whether it was FAULTED, and the
offsets in lines of 64 bytes that were poisoned (R217, R218). -/
structure Drained where
  bytes   : List Byte
  faulted : Bool
  poison  : List Nat
  deriving DecidableEq, Repr

/-- A pick handed to a loom (R78). `need` creel slots are still to be taken and `drained` holds
those already taken, with whether each was faulted (R216 to R218); `mc` are the multicast
deliveries it has consumed, with their poison mark (R74, R221). The cycle fields are what remains
of its phases (R59, R63, R65). `slot` is its drain slot and `buf` the warp buffer of its first pass, the
two parts of a pass tag (R60); `fetched` counts the weft rows that have come to the feeder, and `tiles` the
heddle tiles asked for (R127). `ends` is the outcome of a pick that fails at its acceptance and completes in
its turn (R78). -/
structure Pick where
  queue     : BitVec 16
  seq       : BitVec 16
  bwd       : Bool
  body      : BitVec 352
  cfg       : NumCfg
  need      : Nat
  drained   : List Drained
  mc        : List (List Byte × Bool)
  recLeft   : Nat
  preLeft   : Nat
  warpLeft  : Nat
  setupLeft : Nat
  rowsLeft  : Nat
  started   : Bool
  slot      : Nat
  buf       : Nat
  fetched   : Nat
  tiles     : Nat
  ends      : Option (Byte × BitVec 32 × BitVec 32)
  deriving DecidableEq, Repr

/-- What a weft row carries through the array and the drain: its warp buffer and drain slot (R60), and
whether an output row leaves with it. -/
structure RowTag where
  buf    : Nat
  slot   : Nat
  output : Bool
  deriving DecidableEq, Repr

/-- One loom. `mcastHome` is its table of multicast entries (R219); `shapeMode` its mode
(R65). `pipe` holds the rows that entered in the last 13 cycles that were not frozen, the newest first: a
row stands at place s in stage s of the array for s below 8, and then in the drain (R59). `fifo` counts the
rows in the drain's output FIFO (R68), and `lastBuf` is the warp buffer of the last pass accepted (R61). -/
structure Loom where
  shapeMode : Bool
  chain     : Option Chain
  warp      : Option Warp
  picks     : List Pick
  waiting   : List Pick
  mcastHome : Tab Nat
  pipe      : List (Option RowTag)
  fifo      : Nat
  lastBuf   : Nat
  deriving DecidableEq, Repr

def Loom.init : Loom :=
  { shapeMode := false, chain := none, warp := none, picks := [], waiting := [], mcastHome := [],
    pipe := [], fifo := 0, lastBuf := 1 }

/-- A tile buffer of a heddle (R127): the pick it serves, whether its rows are weft or warp rows, the
cycles left of its fill and the rows left in it. -/
structure HeddleTile where
  loom     : Nat
  queue    : BitVec 16
  seq      : BitVec 16
  weft     : Bool
  fillLeft : Nat
  rowsLeft : Nat
  deriving DecidableEq, Repr

/-- A held delivery of a SHUT_MCAST (R221): index, bytes, poison and the members (loom numbers
8 × die + loom) that have not received it. -/
structure Delivery where
  index   : Nat
  bytes   : List Byte
  poison  : Bool
  pending : List Nat
  deriving DecidableEq, Repr

/-- A SHUT_MCAST in flight (R220 to R222). -/
structure McastSend where
  queue    : BitVec 16
  seq      : BitVec 16
  die      : Nat
  group    : Nat
  tag      : Nat
  bytes    : Nat
  src      : Nat
  count    : Nat
  stride   : Nat
  next     : Nat
  held     : List Delivery
  firstBad : Option (Byte × Nat)
  deriving DecidableEq, Repr

/-! ### Vector engines and control cores (04) -/

/-- An instruction an engine has accepted (R84), with its creel slots as for a pick. -/
structure VecJob where
  queue    : BitVec 16
  seq      : BitVec 16
  opcode   : Byte
  body     : BitVec 352
  cfg      : NumCfg
  need     : Nat
  drained  : List Drained
  busyLeft : Nat
  started  : Bool
  deriving DecidableEq, Repr

/-- A sequencer core (R97 to R102): its instruction SRAM, the running program with the
SEQ_START that waits for it, and its integer registers. -/
structure CtrlCore where
  retired   : Bool
  dispatch  : Bool
  running   : Bool
  imem      : List Byte
  pc        : BitVec 64
  regs      : Tab (BitVec 64)
  startQ    : BitVec 16
  startSeq  : BitVec 16
  queueBase : Nat
  queueCnt  : Nat
  /-- descriptors that this core submitted and whose records it may still wait for (R100) -/
  tickets   : List (BitVec 16 × BitVec 16)
  deriving DecidableEq, Repr

def CtrlCore.init : CtrlCore :=
  { retired := false, dispatch := false, running := false, imem := [], pc := 0, regs := [],
    startQ := 0, startSeq := 0, queueBase := 0, queueCnt := 0, tickets := [] }

/-! ### Shuttles and creels (09) -/

/-- A transfer of a shuttle (R201, R202), or another descriptor that runs on one (R335), held until
`accepted`. `slot` is the creel slot a producer reserved (R215); `got` are the remote source bytes
that have arrived, by offset; `reads` the outstanding reads of peer ranges, `todo` the transactions
still to be issued (offset, address, length), oldest first; `sent` that the remote destination has
been issued its data, `zeroRead` that the read of R287 is out, `signalled` that the signal of R320
has been sent; `bad` the first failure met, with its offset; `heldOnce` that an OVERLAP_HOLD has
been counted. -/
structure Xfer where
  queue     : BitVec 16
  seq       : BitVec 16
  opcode    : Byte
  body      : BitVec 352
  die       : Nat
  shuttle   : Nat
  step      : Nat
  accepted  : Bool
  slot      : Option Nat
  got       : Tab RemoteData
  reads     : List (Nat × Nat)
  todo      : List (Nat × Nat × Nat)
  sent      : Bool
  zeroRead  : Bool
  signalled : Bool
  bad       : Option (Byte × Nat)
  heldOnce  : Bool
  deriving DecidableEq, Repr

/-- Table STR-6. -/
inductive SlotSt where
  | empty | filling | full | faulted | draining
  deriving DecidableEq, Repr

/-- An accepted consumer's claim on the next `left` slots of a ring, in acceptance order (R216), of which it has
received the contents of the first `taken`; `released` once the consumer has completed without them (R218). -/
structure Claim where
  queue    : BitVec 16
  seq      : BitVec 16
  left     : Nat
  taken    : Nat
  released : Bool
  deriving DecidableEq, Repr

/-- A creel ring (R213, R214). The consumer-reserve pointer stands `left` slots beyond HEAD, summed
over `claims`. -/
structure Ring where
  configured : Bool
  slots      : Nat
  slotBytes  : Nat
  base       : Nat
  head       : Nat
  tail       : Nat
  slotTab    : List SlotSt
  claims     : List Claim
  /-- slots that have left before HEAD reached them (R218) -/
  gone       : List Nat
  deriving DecidableEq, Repr

def Ring.init : Ring :=
  { configured := false, slots := 0, slotBytes := 0, base := 0, head := 0, tail := 0,
    slotTab := [], claims := [], gone := [] }

/-! ### Stash and treadle (06) -/

/-- A stash entry (R135): placed in tier 1 or tier 2, `live` once its PUT has completed
(R139). -/
structure StashEntry where
  mb       : Nat
  layer    : Nat
  part     : Nat
  tier2    : Bool
  eligible : Bool
  step     : Nat
  length   : Nat
  units    : Nat
  live     : Bool
  bytes    : List Byte
  /-- the first poisoned line of the entry, if any -/
  poison   : Option Nat
  /-- running STASH_GETs of the entry, and whether a reclaim, drop or release of it has begun -/
  gets     : Nat
  dying    : Bool
  queue    : BitVec 16
  seq      : BitVec 16
  deriving DecidableEq, Repr

/-- A STASH_PUT that waits for room (R137). -/
structure StashWait where
  queue : BitVec 16
  seq   : BitVec 16
  body  : BitVec 352
  step  : Nat
  deriving DecidableEq, Repr

/-- The stash of one lease: entries, the full latch and the waiting puts. -/
structure Stash where
  entries : List StashEntry
  latch   : Option Nat
  waits   : List StashWait
  deriving DecidableEq, Repr

def Stash.init : Stash := { entries := [], latch := none, waits := [] }

/-- An admitted segment of a micro-batch on a die (R145). -/
structure Seg where
  die     : Nat
  mb      : Nat
  segment : Nat
  tokens  : Nat
  deriving DecidableEq, Repr

/-! ### Update, barriers, temple (07, 08, 13) -/

/-- The active values of the configuration, with the previous ones and the step from which they no longer
hold (R357, R358). -/
structure ConfPair where
  active     : Tab (List Byte)
  prevActive : Tab (List Byte)
  prevStep   : Option Nat
  deriving DecidableEq, Repr

/-- An update descriptor or decision that waits for the barrier outcome of its step (R156,
R183). -/
structure OutcomeWait where
  queue  : BitVec 16
  seq    : BitVec 16
  opcode : Byte
  body   : BitVec 352
  /-- the configuration in force at its dispatch (R357) -/
  conf   : ConfPair
  deriving DecidableEq, Repr

/-- A TEMPLE_SEAL that the dispatch core holds, with the watched descriptors that it waits for
(R180). -/
structure SealWait where
  queue   : BitVec 16
  seq     : BitVec 16
  waitFor : List (BitVec 16 × BitVec 16)
  deriving DecidableEq, Repr

/-- A barrier outcome (0x5400.SS BARRIER_OUTCOME, R328). -/
structure Outcome where
  step    : Nat
  flag    : Bool
  members : Nat
  sum     : BitVec 64
  deriving DecidableEq, Repr

/-- Table NUM-1. -/
inductive CtxState where
  | closed | opened | sealed
  deriving DecidableEq, Repr

/-- A temple context (R175 to R190). -/
structure Ctx where
  state     : CtxState
  perch     : Bool
  step      : Nat
  ls        : Int
  clean     : Nat
  grace     : Bool
  graceLeft : Nat
  inWindow  : Nat
  consec    : Nat
  decided   : Nat
  skips     : Nat
  skipMap   : List Nat
  formats   : List Nat
  runs      : List Nat
  tallyBase : Nat
  flag      : Bool
  flagNext  : Bool
  alarm     : Bool
  deriving DecidableEq, Repr

def Ctx.init : Ctx :=
  { state := .closed, perch := false, step := 0, ls := 0, clean := 0, grace := false,
    graceLeft := 0, inWindow := 0, consec := 0, decided := 0, skips := 0, skipMap := [],
    formats := [], runs := [], tallyBase := 0, flag := false, flagNext := false, alarm := false }

/-! ### Coherence (11) -/

/-- Directory states of Table COH-4. -/
inductive DirSt where
  | i | s | em | o
  deriving DecidableEq, Repr

/-- A directory entry (Table COH-4) with the order of its allocation (R254). BUSY is set while `txns`
holds the line. The host die's snoop filter (R273) has its entries in the same form. -/
structure DirEntry where
  st      : DirSt
  owner   : Nat
  sharers : List Nat
  alloc   : Nat
  deriving DecidableEq, Repr

def DirEntry.none : DirEntry := { st := .i, owner := 0, sharers := [], alloc := 0 }

/-- MOESI (Table COH-3); I is the absence of the line. -/
inductive Moesi where
  | m | o | e | s
  deriving DecidableEq, Repr

/-- A line in an agent's caches, or in its write-back buffer (R259), where `gone` says that a snoop has
since taken it. -/
structure CacheLine where
  agent : Nat
  line  : Nat
  st    : Moesi
  bytes : List Byte
  gone  : Bool
  deriving DecidableEq, Repr

/-- Requests of Table COH-5. -/
inductive ReqKind where
  | rdS | rdX | upg | rdNc | wrNc | wb | cln | atomN
  deriving DecidableEq, Repr

/-- A request at its home: the requester (an agent number, or one of those Machine/Fabric.lean gives
to engines, the home itself and the host), the masked data of a write, an atomic's operation, the byte of
the line that a core asked for, and whether it fetched an instruction. -/
structure Req where
  kind   : ReqKind
  agent  : Nat
  line   : Nat
  mask   : BitVec 64
  bytes  : List Byte
  offset : Nat
  op     : Option AtomicOp
  fetch  : Bool
  deriving DecidableEq, Repr

/-- A transaction in progress on a line: the request, the agents whose answer is awaited, whether the
host's answer is (R273), whether an owner has forwarded, whether its notice of that is still to come, whether
a snoop was sent, whether a grant awaits its ACK, the data once it has come to the home, whether the
requester has died, and whether the data went to it and is lost (R269). -/
structure Txn where
  req       : Req
  waitFor   : List Nat
  needHost  : Bool
  refused   : Bool
  forwarded : Bool
  fwdDue    : Bool
  snooped   : Bool
  granted   : Bool
  bytes     : Option (List Byte)
  dropped   : Bool
  lost      : Bool
  deriving DecidableEq, Repr

/-- Snoops of Table COH-5. -/
inductive SnoopKind where
  | snpS | snpX | snpCur | snpInv
  deriving DecidableEq, Repr

/-- A snoop to an agent; `dest` is where forwarded data goes, and `host` marks the host class (R274). -/
structure Snoop where
  kind  : SnoopKind
  agent : Nat
  line  : Nat
  dest  : Nat
  host  : Bool
  deriving DecidableEq, Repr

/-- Fabric messages in flight (Table COH-5). -/
inductive CohMsg where
  | snoop (x : Snoop)
  | rspI (agent line : Nat) (host : Bool)
  | rspS (agent line : Nat) (host : Bool)
  | rspO (agent line : Nat) (host : Bool)
  | rspFwd (agent line : Nat) (dirty host : Bool)
  | grant (agent line : Nat) (st : Option Moesi) (poison contended alreadyOwner : Bool)
  | ack (agent line : Nat)
  | wbAck (agent line : Nat)
  | data (agent line : Nat) (bytes : List Byte) (poison : Bool)
  deriving DecidableEq, Repr

/-- A request that its agent waits on, and what has arrived for it: DATA, and the GRANT's state with its
flags. -/
structure Fill where
  agent : Nat
  line  : Nat
  req   : Req
  data  : Option (List Byte × Bool)
  grant : Option (Option Moesi × Bool × Bool × Bool)
  deriving DecidableEq, Repr

/-- A far atomic that waits for its line (R262): it runs in the agent's cache when M is granted; `taken`
says that the home snooped another agent for it (R264). -/
structure FarOp where
  agent  : Nat
  line   : Nat
  offset : Nat
  op     : AtomicOp
  taken  : Bool
  deriving DecidableEq, Repr

/-- The exception a server core has taken for an access: its RISC-V cause and tval (R226, R240, R266). -/
structure CoreTrap where
  cause : Nat
  tval  : Nat
  deriving DecidableEq, Repr

/-- An entry of the poison log (Table COH-11). -/
structure PoisonEntry where
  reason : Nat
  agent  : Nat
  line   : Nat
  deriving DecidableEq, Repr

/-- What the retirement of a hub lost (R243): every line homed on it among the hubs that were
active before, except the lines since written in full or stored as poison (`settled`) and the
address ranges granted afterwards (`fresh`, first and length). -/
structure HubLoss where
  hub     : Nat
  before  : List Nat
  settled : List Nat
  fresh   : List (Nat × Nat)
  deriving DecidableEq, Repr

/-- Coherence as a whole. -/
structure Coh where
  dir        : Tab DirEntry
  allocs     : Nat
  lines      : List CacheLine
  wbBuf      : List CacheLine
  txns       : Tab Txn
  waitq      : Tab (List Req)
  msgs       : List CohMsg
  fills      : List Fill
  /-- live LR reservations of cores, as agent and line (R260) -/
  reserved   : List (Nat × Nat)
  /-- snoops whose answer such a reservation delays -/
  lrHeld     : List Snoop
  /-- snoops that the host die has turned into a BISnp (R275) -/
  biWait     : List Snoop
  predictor  : Tab Nat
  /-- atomics that run in their agent's cache once the line has come (R262) -/
  farOps     : List FarOp
  /-- the last access exception of each agent's server cores (R226, R266) -/
  traps      : Tab CoreTrap
  agentState : Tab Nat
  /-- what each hub retirement lost (R243) -/
  losses     : List HubLoss
  poisonLog  : Tab PoisonEntry
  poisonNext : Nat
  probeAddr  : BitVec 64
  probeEntry : BitVec 64
  deriving DecidableEq, Repr

/-! ### Peruo (13) -/

/-- LANE_STATE [31:28] of Table PRU-11. -/
inductive LaneSt where
  | training | up | idle | spare | failed | miscabled | ethernet
  deriving DecidableEq, Repr

/-- A record this device sends to a peer (Table PRU-4). -/
inductive OutRec where
  | put (queue : BitVec 16) (step addr region : Nat) (pod : Bool) (bytes : List Byte)
  | get (queue : BitVec 16) (step addr length : Nat)
  | atom (op width step addr : Nat) (operand : List Byte)
  | signal (mode die step token : Nat) (increment : BitVec 32)
  | rsp (status : Byte) (old : Nat) (detail : BitVec 32) (bytes : List Byte) (poison : List Nat)
  | coll (r : CollRec)
  | exp (r : ExpRec)
  | barrier (r : BarrierRec)
  | hello (r : HelloRec)
  | peerDown (lost : Nat) (view : BitVec 32)
  deriving DecidableEq, Repr

/-- A record handed to a lane, and how many of its flits are not yet acknowledged (R306, R309). -/
structure SentRec where
  id   : Nat
  hdr  : XHdr
  out  : OutRec
  left : Nat
  deriving DecidableEq, Repr

/-- One lane: state, the lane it replaces, the flit counters of R306, its replay buffer (SEQ and record of
each flit), how often its oldest flit has been resent, the times of its forced retrains and uncorrectable
blocks (R309), the credits it holds, those it owes for flits received, and the flits that wait, by virtual
channel and record (R307). -/
structure Lane where
  st       : LaneSt
  replaced : BitVec 8
  txSeq    : BitVec 12
  rxSeq    : BitVec 12
  replay   : List (BitVec 12 × Nat)
  resends  : Nat
  forced   : List Nat
  uncorr   : List Nat
  awaiting : Bool
  credits  : List Nat
  owed     : List Nat
  queued   : List (List Nat)
  recs     : List SentRec
  nextId   : Nat
  deriving DecidableEq, Repr

def Lane.init : Lane :=
  { st := .training, replaced := 0xFF, txSeq := 0, rxSeq := 0xFFF, replay := [], resends := 0,
    forced := [], uncorr := [], awaiting := false, credits := [0, 0, 0, 0],
    owed := [0, 0, 0, 0], queued := [[], [], [], []], recs := [], nextId := 0 }

/-- Table PRU-5. -/
inductive PeerSt where
  | absent | member | lost | cfgMismatch | self | excluded
  deriving DecidableEq, Repr

/-- An outstanding transaction of this device (R312). -/
structure Xact where
  peer   : Nat
  xtag   : BitVec 12
  queue  : BitVec 16
  seq    : BitVec 16
  kind   : Nat
  /-- byte offset and length within the transfer -/
  offset : Nat
  length : Nat
  deriving DecidableEq, Repr

/-- A Peruo region (R319); it is disabled once its lease is revoked or released. -/
structure PRegion where
  registered : Bool
  enabled    : Bool
  perm       : BitVec 3
  lease      : Nat
  target     : Nat
  length     : Nat
  deriving DecidableEq, Repr

/-- A collective group (R321). -/
structure PGroup where
  podScope : Bool
  members  : List Nat
  rank     : Nat
  nextSeq  : BitVec 32
  deriving DecidableEq, Repr

/-- A record that waits for the HELLO exchange with its peer (R316). -/
structure HeldRec where
  peer : Nat
  pod  : Bool
  xtag : BitVec 12
  step : Nat
  out  : OutRec
  deriving DecidableEq, Repr

/-- A member's records of one collective (R322, R323, R328). -/
structure CollMsg where
  group   : Nat
  pod     : Nat
  collSeq : BitVec 32
  coll    : Option CollRec
  exp     : Option ExpRec
  barrier : Option BarrierRec
  deriving DecidableEq, Repr

/-- A collective of this device that waits for its members (R322). -/
structure CollWait where
  queue  : BitVec 16
  seq    : BitVec 16
  opcode : Byte
  body   : BitVec 352
  cfg    : NumCfg
  deriving DecidableEq, Repr

/-- The go-back-N state towards a peer in Ethernet mode (R332). -/
structure EthPeer where
  txPsn  : BitVec 32
  acked  : BitVec 32
  rxPsn  : BitVec 32
  window : Nat
  /-- the next PSN when the window last grew, so that it grows once a round trip (R332) -/
  mark   : BitVec 32
  ceSeen : Bool
  /-- the flits of the packets that wait for the window -/
  queued : List (List Byte)
  /-- those of the packets that are not acknowledged, oldest first -/
  flown  : List (List Byte)
  deriving DecidableEq, Repr

def EthPeer.init : EthPeer :=
  { txPsn := 0, acked := 0xFFFFFFFF, rxPsn := 0xFFFFFFFF, window := 256, mark := 0, ceSeen := false,
    queued := [], flown := [] }

/-- The link stack (13). -/
structure Peruo where
  lanes     : Tab Lane
  /-- spares consumed per link die are seen in `lanes`; this is the count left (0x1011.04) -/
  sparesLeft : Nat
  peers     : Tab PeerSt
  /-- peers with whom HELLO has been exchanged in this view (R316) -/
  greeted   : List Nat
  /-- one entry for each HELLO sent whose counterpart has not arrived -/
  helloOut  : List Nat
  heldRecs  : List HeldRec
  xacts     : List Xact
  nextXtag  : Tab (BitVec 12)
  regions   : Tab PRegion
  groups    : Tab PGroup
  collMsgs  : List CollMsg
  collWaits : List CollWait
  /-- results of atomics by source and tag, with the answer and the time of execution (R318) -/
  atomics   : List (Nat × BitVec 12 × OutRec × Nat)
  eth       : Tab EthPeer
  outcomes  : Tab Outcome
  deriving DecidableEq, Repr

/-! ### The Draft (14) -/

/-- Table DFT-8. -/
inductive DapResult where
  | ok | noObject | access | privilege | range | length | stagingBusy | offset | armRefused
  | armPending | stepPassed | epochExhausted | sessionsFull | malformed | refused
  deriving DecidableEq, Repr

/-- Roles of a session and privileges of an object (R341). -/
inductive Role where
  | observe | operate | own
  deriving DecidableEq, Repr

/-- A kept response (R353): REQ_ID, MTYPE, result and body. -/
structure Kept where
  reqId  : BitVec 16
  mtype  : Byte
  result : DapResult
  body   : List Byte
  deriving DecidableEq, Repr

/-- An open session (R351 to R354). -/
structure Session where
  num       : BitVec 32
  role      : Role
  ownerKey  : Bool
  transport : Transport
  key       : List Byte
  rxNonce   : Nat
  txNonce   : Nat
  kept      : List Kept
  deriving DecidableEq, Repr

/-- An event record (Table DFT-12). -/
structure Event where
  cycles : Nat
  index  : Nat
  sub    : Nat
  source : Nat
  arg1   : Nat
  arg2   : Nat
  deriving DecidableEq, Repr

/-- A stepped ARM that has not switched, with the session that armed it (R358). -/
structure PendingArm where
  byWhom : BitVec 32
  step   : Nat
  epoch  : Nat
  values : Tab (List Byte)
  deriving DecidableEq, Repr

/-- The object dictionary. `active` and `staged` are keyed by 256 × index + sub-index; an
object not listed in `active` has its default. -/
structure Draft where
  active      : Tab (List Byte)
  staged      : Tab (List Byte)
  /-- staged DOMAIN images not yet marked complete (R348) -/
  partials    : Tab (List Byte)
  stagingSess : BitVec 32
  epoch       : Nat
  prevEpoch   : Nat
  /-- binding values before the last stepped switch and the step it named (R313) -/
  prevActive  : Tab (List Byte)
  prevStep    : Option Nat
  pending     : Option PendingArm
  deviceStep  : Nat
  events      : Tab Event
  eventNext   : Nat
  sessions    : List Session
  nextSession : BitVec 32
  mctpEid     : BitVec 8
  /-- the model's own: how the last command object was answered -/
  lastResult  : DapResult
  deriving DecidableEq, Repr

/-- The local mailbox (Table DFT-5). -/
structure Mailbox where
  busy      : Bool
  respReady : Bool
  respLen   : Nat
  reqBuf    : Tab Byte
  rspBuf    : List Byte
  deriving DecidableEq, Repr

/-! ### Journal, commit, firmware, trust (15, 16) -/

/-- A journal record (Table REC-7). -/
structure JRec where
  jtype : Nat
  flags : Byte
  jseq  : Nat
  body  : List Byte
  deriving DecidableEq, Repr

/-- One NAND die (R382, R387, R390): erase counts by pool block, retired blocks, the blocks that hold
log or checkpoint, oldest first, and the bytes programmed in the newest of them. -/
structure Nand where
  failed  : Bool
  erases  : Tab Nat
  retired : List Nat
  live    : List Nat
  used    : Nat
  deriving DecidableEq, Repr

/-- The journal (R382 to R390). `log` holds the accepted records, oldest first; `tailBytes` the
bytes not yet programmed; `sinceCkpt` the bytes programmed since the last checkpoint; `ckpt` what is left to
program of a checkpoint that stands in the tail, and its length. -/
structure Journal where
  log        : List JRec
  nextSeq    : Nat
  tailBytes  : Nat
  sinceCkpt  : Nat
  ckpt       : Option (Nat × Nat)
  nand0      : Nand
  nand1      : Nand
  lifetime   : Tab Nat
  accepting  : Bool
  deriving DecidableEq, Repr

/-- Commit state (R371 to R379, R394). -/
structure Commit where
  last        : Nat
  stampDigest : BitVec 64
  result      : BitVec 64
  restore     : BitVec 64
  lastBolt    : List Byte
  lastBody    : List Byte
  deriving DecidableEq, Repr

/-- Firmware (R395 to R397). -/
structure Firmware where
  image      : List Byte
  imageDone  : Bool
  slotA      : Option (List Byte)
  slotB      : Option (List Byte)
  dieSlot    : Tab Nat
  /-- the journaled target of the FW_SVN burn (R414) -/
  burnTarget : Nat
  deriving DecidableEq, Repr

/-- Trust (R399 to R415). -/
structure Sec where
  owned       : Bool
  ownerKey    : List Byte
  operatorKey : List Byte
  ownerGen    : Nat
  operatorGen : Nat
  fuses0      : List Nat
  fuses1      : List Nat
  bootCounters : List Nat
  mr          : Tab (List Byte)
  aliasPk     : List Byte
  aliasSeed   : List Byte
  checkResult : Nat
  deriving DecidableEq, Repr

/-- An SPDM connection (R407 to R409): how far it has been set up, what its signatures cover (its set-up
messages, those of certificates, those of measurements), the large request that is arriving in chunks, and
the large response that is fetched in chunks. -/
structure Spdm where
  phase     : Nat
  setup     : List Byte
  certs     : List Byte
  meas      : List Byte
  chunkIn   : List Byte
  inSize    : Nat
  inSeq     : Nat
  inHandle  : Byte
  chunkOut  : List Byte
  outSeq    : Nat
  outHandle : Byte
  deriving DecidableEq, Repr

/-! ### Power and module (17, 18) -/

/-- How far the module has come (R416, R428, R429, R431). -/
inductive PowerMode where
  | off | starting | running | resetHeld | halted | thermalOff
  deriving DecidableEq, Repr

structure Power where
  mode         : PowerMode
  startState   : Nat
  /-- the Draft is reachable (R428, step 4) -/
  draftUp      : Bool
  lastStartMs  : Nat
  stopCause    : Nat
  inputMv      : Nat
  inputMa      : Nat
  inputW       : Nat
  ibusMv       : Nat
  holdupMj     : Nat
  stageFailed  : List Nat
  clockRoot    : Nat
  rootLock     : BitVec 2
  aCycles      : Nat
  dieTempMax   : Int
  pacing       : Option PaceCause
  /-- the limit that brought the permitted fraction below 1 (R419) -/
  paceCause    : Option PaceCause
  paceSixteenths : Nat
  resetPending : Bool
  idsLocked    : Bool
  deriving DecidableEq, Repr

/-- The levels of J11 (Table MOD-6) and the sensors and alerts of Table MOD-12. -/
structure Module where
  pwrfailN    : Bool
  alertN      : Bool
  pwrGood     : Bool
  mrstN       : Bool
  perstN      : Bool
  alerts      : BitVec 8
  inletTemp   : Int
  outletTemp  : Int
  flow        : Nat
  ambient     : Int
  deriving DecidableEq, Repr

/-! ### What the module sends out -/

/-- The CXL.cache requests that the host die issues (R273, R276). -/
inductive CacheOp where
  | rdShared | rdOwn | rdCurr | itoMWr | dirtyEvict
  deriving DecidableEq, Repr

/-- A message, response or bus event the module sends, in order of sending. -/
inductive Emit where
  | msix (vector : Nat)
  | zeroRead (queue : BitVec 16)
  | dap (t : Transport) (bytes : List Byte)
  | spdm (t : Transport) (code : Byte) (bytes : List Byte)
  | record (h : XHdr) (r : OutRec)
  | flit (lane : Nat) (bytes : List Byte)
  | frame (bytes : List Byte)
  | nak (lane : Nat) (ack : BitVec 12)
  | resend (lane : Nat) (first : BitVec 12)
  | retryStatus
  | cfgDone
  | bar2Data (bytes : List Byte) (poison : Bool)
  | completerAbort
  | memData (bytes : List Byte) (poison : Bool)
  | memDone
  | hostRsp (line : Nat) (hit : Bool) (bytes : Option (List Byte)) (poison : Bool)
  | biSnp (line : Nat) (inv : Bool)
  | cacheReq (op : CacheOp) (line : Nat) (bytes : Option (List Byte))
  | peerRead (address length : Nat)
  | peerWrite (address : Nat) (bytes : List Byte)
  | neighborAdvert (address : List Byte)
  | echoReply (payload : List Byte)
  | mctp (bytes : List Byte)
  | poisonResponse (agent line : Nat)
  | atomicResult (agent line value : Nat)
  | coreTrap (agent : Nat) (t : CoreTrap)
  deriving DecidableEq, Repr

/-! ### Stops -/

/-- No command of this block ends in a model fault: the manual gives each an effect. The type
is closed and has no constructor, so `Outcome.fault` cannot be built. -/
inductive Fault where
  deriving DecidableEq, Repr

/-- Why a command has no meaning. -/
inductive Refusal where
  /-- Raised only by an arm of Machine/Dispatch.lean for a command not yet modelled; safe. -/
  | notModelled (mnemonic : String)
  deriving DecidableEq, Repr

/-! ### The state -/

structure State where
  pending   : List Instr
  mem       : Mem
  /-- DIE_STATE by die number (Table ARC-4): 0 ACTIVE, 1 SPARE, 2 RETIRED, 3 STANDBY -/
  dies      : Tab Nat
  power     : Power
  module    : Module
  draft     : Draft
  mailbox   : Mailbox
  counters  : Tab Nat
  host      : HostIf
  /-- MSI-X vectors whose pending bit is set (R279) -/
  msixPending : List Nat
  queues    : Tab QCtx
  leases    : Tab Lease
  leaseReq  : List Nat
  leaseResult : BitVec 64
  grantSeq  : Nat
  restoring : Bool
  objects   : Tab TierObj
  /-- tier 2 frames that have been written, by address over 65,536 (R230) -/
  frames    : List Nat
  looms     : Tab Loom
  /-- the tile buffers in use, by 4 × die + heddle, oldest first -/
  heddles   : Tab (List HeddleTile)
  mcast     : Tab (List Nat)
  mcastSends : List McastSend
  vecs      : Tab (List VecJob)
  cores     : Tab CtrlCore
  xfers     : List Xfer
  rings     : Tab Ring
  treadle   : Tab Bool
  /-- bound queues whose head was found ready, earliest first (R131) -/
  readyOrder : List Nat
  tokens    : Tab (BitVec 32)
  stash     : Tab Stash
  segs      : List Seg
  outcomeWaits : List OutcomeWait
  seals     : List SealWait
  ctxs      : Tab Ctx
  attached  : Tab Nat
  coh       : Coh
  peruo     : Peruo
  journal   : Journal
  commit    : Commit
  repairs   : Tab Nat
  fw        : Firmware
  sec       : Sec
  /-- one connection per transport: 0 T1S, 1 MCTP, 2 mailbox -/
  spdm      : Tab Spdm
  /-- server harts that are STOPPED (R380) -/
  hartsStopped : List Nat
  /-- the core die in each of the four slots of R103 -/
  coreSlots : List Nat
  sent      : List Emit
  /-- the model's own: draws of free values (log 10) -/
  fresh     : Nat
  deriving DecidableEq, Repr

/-- DIE_STATE at reset (Table ARC-1). DESIGN CHOICE: binning decides the spares; T24, T25 and
C4 here (log 5). The standby management die is M1. -/
def resetDies : Tab Nat := [(24, 1), (25, 1), (86, 1), (97, 3)]

/-- The thirty-two zero bytes of an unset key (R410). -/
def zeroKey : List Byte := List.replicate 32 0

def Mailbox.init : Mailbox :=
  { busy := false, respReady := false, respLen := 0, reqBuf := [], rspBuf := [] }

def Coh.init : Coh :=
  { dir := [], allocs := 0, lines := [], wbBuf := [], txns := [], waitq := [], msgs := [], fills := [],
    reserved := [], lrHeld := [], biWait := [], predictor := [], farOps := [], traps := [],
    agentState := [], losses := [],
    poisonLog := [], poisonNext := 0, probeAddr := 0, probeEntry := 0 }

def HostIf.init : HostIf :=
  { epoch := 1, attach := .detached, eventVector := 0, bar2Size := 0, portReady := false,
    gts := 0, width := 0, linkUp := false, cxlUp := false, adminHost := Admin.init,
    adminLocal := Admin.init, regions := [], regBytes := [] }

def Peruo.init : Peruo :=
  { lanes := [], sparesLeft := 8, peers := [], greeted := [], helloOut := [], heldRecs := [], xacts := [], nextXtag := [],
    regions := [], groups := [], collMsgs := [], collWaits := [], atomics := [], eth := [],
    outcomes := [] }

def Draft.init : Draft :=
  { active := [], staged := [], partials := [], stagingSess := 0, epoch := 1, prevEpoch := 0,
    prevActive := [], prevStep := none, pending := none, deviceStep := 0, events := [],
    eventNext := 0, sessions := [], nextSession := 1, mctpEid := 0, lastResult := .ok }

def Nand.init : Nand := { failed := false, erases := [], retired := [], live := [], used := 0 }

def Journal.init : Journal :=
  { log := [], nextSeq := 1, tailBytes := 0, sinceCkpt := 0, ckpt := none,
    nand0 := Nand.init, nand1 := Nand.init, lifetime := [], accepting := false }

def Commit.init : Commit :=
  { last := 2 ^ 64 - 1, stampDigest := 0, result := 0, restore := 0,
    lastBolt := List.replicate 24 0, lastBody := [] }

def Firmware.init : Firmware :=
  { image := [], imageDone := false, slotA := some Config.factoryImage, slotB := none, dieSlot := [],
    burnTarget := 0 }

def Sec.init : Sec :=
  { owned := false, ownerKey := zeroKey, operatorKey := zeroKey, ownerGen := 0,
    operatorGen := 0, fuses0 := [0, 0, 0, 0, 0, 0, 0, 0], fuses1 := [0, 0, 0, 0, 0, 0, 0, 0],
    bootCounters := [0, 0, 0, 0, 0, 0, 0, 0], mr := [], aliasPk := List.replicate 32 0,
    aliasSeed := [], checkResult := 0 }

def Spdm.init : Spdm :=
  { phase := 0, setup := [], certs := [], meas := [], chunkIn := [], inSize := 0, inSeq := 0, inHandle := 0,
    chunkOut := [], outSeq := 0, outHandle := 0 }

/-- The module with no input: off, waiting for step 1 of a cold start (R428, log 4). -/
def Power.init : Power :=
  { mode := .off, startState := 1, draftUp := false, lastStartMs := 0, stopCause := 0, inputMv := 0, inputMa := 0,
    inputW := 0, ibusMv := 0, holdupMj := 0, stageFailed := [], clockRoot := 0, rootLock := 3,
    aCycles := 0, dieTempMax := 0, pacing := none, paceCause := none, paceSixteenths := 16, resetPending := false,
    idsLocked := false }

/-- Undriven inputs read high (R440); PWRFAIL_N and ALERT_N are released and PWR_GOOD is low
while the module is off (R442). -/
def Module.init : Module :=
  { pwrfailN := true, alertN := true, pwrGood := false, mrstN := true, perstN := true,
    alerts := 0, inletTemp := 0, outletTemp := 0, flow := 0, ambient := 0 }

/-- The module as it leaves the factory, before its first cold start (log 4). -/
def State.reset : State :=
  { pending := [], mem := { cells := [], poison := [] }, dies := resetDies, power := Power.init,
    module := Module.init, draft := Draft.init, mailbox := Mailbox.init, counters := [],
    host := HostIf.init, msixPending := [], queues := [], leases := [], leaseReq := List.replicate 9 0,
    leaseResult := 0, grantSeq := 0, restoring := false, objects := [], frames := [], looms := [], heddles := [], mcast := [],
    mcastSends := [], vecs := [], cores := [], xfers := [], rings := [], treadle := [],
    readyOrder := [], tokens := [], stash := [], segs := [], outcomeWaits := [], seals := [], ctxs := [],
    attached := [], coh := Coh.init, peruo := Peruo.init, journal := Journal.init,
    commit := Commit.init, repairs := [], fw := Firmware.init, sec := Sec.init,
    spdm := [], hartsStopped := [], coreSlots := [82, 83, 84, 85], sent := [], fresh := 0 }

end Sys2Proof.Machine
end

