-- ==== Sys2Proof/Machine/Ops.lean ====
section
/-!
DEFINITION. The named operations every meaning uses: tables, little-endian fields, the CRC, counters,
free values, events and what the module sends.
-/

namespace Sys2Proof

/-! ### Tables -/

def Tab.find {α : Type} (t : Tab α) (k : Nat) : Option α :=
  match t with
  | [] => none
  | (j, v) :: r => if j = k then some v else Tab.find r k

/-- The value at `k`, or the default `d`. -/
def Tab.read {α : Type} (t : Tab α) (d : α) (k : Nat) : α := (Tab.find t k).getD d

/-- `t` with `v` at `k`, in ascending key order. -/
def Tab.write {α : Type} (t : Tab α) (k : Nat) (v : α) : Tab α :=
  match t with
  | [] => [(k, v)]
  | (j, w) :: r =>
    if k < j then (k, v) :: (j, w) :: r
    else if k = j then (k, v) :: r
    else (j, w) :: Tab.write r k v

def Tab.remove {α : Type} (t : Tab α) (k : Nat) : Tab α := t.filter (fun e => e.1 ≠ k)

def Tab.keys {α : Type} (t : Tab α) : List Nat := t.map Prod.fst

/-- `Tab.write` of each pair in turn. -/
def Tab.writeAll {α : Type} (t : Tab α) (l : List (Nat × α)) : Tab α :=
  l.foldl (fun t e => Tab.write t e.1 e.2) t

/-! ### Little-endian fields (R5) -/

/-- The unsigned number whose bytes, lowest first, are `l`. -/
def leNat (l : List Byte) : Nat :=
  match l with
  | [] => 0
  | b :: r => b.toNat + 256 * leNat r

/-- The low `n` bytes of `v`, lowest first. -/
def toLe (n : Nat) (v : Nat) : List Byte :=
  match n with
  | 0 => []
  | k + 1 => BitVec.ofNat 8 v :: toLe k (v / 256)

/-- Bits [hi:lo] of `v`. -/
def bitsOf (v hi lo : Nat) : Nat := v / 2 ^ lo % 2 ^ (hi + 1 - lo)

def bitOf (v i : Nat) : Bool := v / 2 ^ i % 2 == 1

/-- Two's complement reading of the low `w` bits of `v`. -/
def signedOf (w v : Nat) : Int :=
  let r := v % 2 ^ w
  if r < 2 ^ (w - 1) then Int.ofNat r else Int.ofNat r - 2 ^ w

/-- The low `w` bits of `i` in two's complement. -/
def unsignedOf (w : Nat) (i : Int) : Nat := (i % (2 ^ w : Int)).toNat

/-- Bytes of ASCII text. -/
def ascii (t : String) : List Byte := t.toList.map (fun c => BitVec.ofNat 8 c.toNat)

/-- `n` bytes of `l` from offset `i`, padded with zeros. -/
def slice (l : List Byte) (i n : Nat) : List Byte :=
  let r := (l.drop i).take n
  r ++ List.replicate (n - r.length) 0

/-- `l` with `b` laid over it from offset `i`, extended with zeros where needed. -/
def overlay (l : List Byte) (i : Nat) (b : List Byte) : List Byte :=
  slice l 0 i ++ b ++ l.drop (i + b.length)

def ceilDiv (a b : Nat) : Nat := (a + b - 1) / b

def roundUp (a b : Nat) : Nat := ceilDiv a b * b

/-- The numbers lo, lo + 1, ..., of which there are `n`. -/
def rangeFrom (lo n : Nat) : List Nat := (List.range n).map (fun i => lo + i)

/-- Insertion of a number into an ascending list without repeats. -/
def insertNat (l : List Nat) (n : Nat) : List Nat :=
  match l with
  | [] => [n]
  | m :: r => if n < m then n :: m :: r else if n = m then m :: r else m :: insertNat r n

/-- `l` with `n` added to its entry `i`. -/
def addAt (l : List Nat) (i n : Nat) : List Nat := l.modify i (fun v => v + n)

/-- How many bits of `v` are set, in its low `w` bits. -/
def popCount (w v : Nat) : Nat := ((List.range w).filter (fun i => bitOf v i)).length

/-- The positions of the set bits of `v` below `w`, ascending. -/
def bitList (w v : Nat) : List Nat := (List.range w).filter (fun i => bitOf v i)

/-- The number whose set bits are the positions in `l`, each named once. -/
def maskOf (l : List Nat) : Nat := l.foldl (fun a i => a + 2 ^ i) 0

/-! ### CRC-32C (R448) -/

/-- One bit of the reflected CRC (R448). -/
def crcBit (c : BitVec 32) : BitVec 32 :=
  if c.getLsbD 0 then (c >>> 1) ^^^ 0x82F63B78#32 else c >>> 1

def crcByte (c : BitVec 32) (b : Byte) : BitVec 32 :=
  let x := c ^^^ b.setWidth 32
  crcBit (crcBit (crcBit (crcBit (crcBit (crcBit (crcBit (crcBit x)))))))

/-- The CRC register after the bytes of `l`, from `c`. The match makes each byte's value a numeral before
the next, so that evaluating a long string does not nest. -/
def crcBytes (l : List Byte) (c : Nat) : Nat :=
  match l with
  | [] => c
  | b :: r =>
    match (crcByte (BitVec.ofNat 32 c) b).toNat with
    | 0 => crcBytes r 0
    | n + 1 => crcBytes r (n + 1)

/-- CRC-32C of a byte string (R448). -/
def crc32c (l : List Byte) : BitVec 32 := BitVec.ofNat 32 (crcBytes l 0xFFFFFFFF) ^^^ 0xFFFFFFFF#32

end Sys2Proof

namespace Sys2Proof.Machine

/-- The outcome of a command. -/
abbrev Result := Host.Outcome State Fault Refusal

/-! ### Identifiers -/

/-- The key of a Draft object: index and sub-index. -/
def objKey (index sub : Nat) : Nat := 256 * index + sub

/-- Die numbers of Table ARC-2. -/
def dieHub (k : Nat) : Nat := 26 + k
def dieCore (k : Nat) : Nat := 82 + k
def dieLink (k : Nat) : Nat := 87 + k
def dieHost : Nat := 95
def dieMgmt (k : Nat) : Nat := 96 + k
def dieNand (k : Nat) : Nat := 98 + k
/-- SOURCE of an event of the device as a whole (Table DFT-12). -/
def srcDevice : Nat := 255

/-- DIE_STATE of die number `d` (Table ARC-4). -/
def State.dieState (s : State) (d : Nat) : Nat := Tab.read s.dies 0 d

def State.dieActive (s : State) (d : Nat) : Bool := s.dieState d == 0

/-- The active dies among the numbers lo to lo + n - 1, ascending. -/
def State.activeDies (s : State) (lo n : Nat) : List Nat :=
  (rangeFrom lo n).filter (fun d => s.dieActive d)

/-- The tensor dies that are powered: those in work and the spares (R15). -/
def State.poweredDies (s : State) : List Nat := (List.range 26).filter (fun d => s.dieState d != 2)

def State.activeHubs (s : State) : List Nat :=
  (List.range 8).filter (fun k => s.dieActive (dieHub k))

/-! ### Free values (log 10) -/

/-- A free value and the state that has drawn it. -/
def State.draw (s : State) : Nat × State :=
  (Config.freeValue s.fresh, { s with fresh := s.fresh + 1 })

/-! ### Counters (R53) -/

def counterMax : Nat := 2 ^ 64 - 1

/-- Counter `sub` of object index `index`. -/
def State.counter (s : State) (index sub : Nat) : Nat :=
  Tab.read s.counters 0 (objKey index sub)

/-- Adds `n` to a counter, saturating at 2^64 - 1 (R53). -/
def State.count (s : State) (index sub n : Nat) : State :=
  if n = 0 then s
  else
    let v := min counterMax (s.counter index sub + n)
    { s with counters := Tab.write s.counters (objKey index sub) v }

/-- Zeroes the counters whose keys lie in [lo, hi] (R53). -/
def State.clearCounters (s : State) (lo hi : Nat) : State :=
  { s with counters := s.counters.filter (fun e => e.1 < lo ∨ hi < e.1) }

/-! ### Draft values -/

/-- The active value of a Draft object as a number, when its default is `d`. -/
def State.obj (s : State) (index sub d : Nat) : Nat :=
  match Tab.find s.draft.active (objKey index sub) with
  | some v => leNat v
  | none => d

/-- The active value of a Draft object as bytes, when its default is `d`. -/
def State.objBytes (s : State) (index sub : Nat) (d : List Byte) : List Byte :=
  (Tab.find s.draft.active (objKey index sub)).getD d

/-- The configuration in force. -/
def State.conf (s : State) : ConfPair :=
  { active := s.draft.active, prevActive := s.draft.prevActive, prevStep := s.draft.prevStep }

/-- The machine with configuration `c` in force. -/
def State.withConf (s : State) (c : ConfPair) : State :=
  { s with draft := { s.draft with active := c.active, prevActive := c.prevActive, prevStep := c.prevStep } }

/-- Runs `f` under the configuration `c`, in which its descriptor was dispatched (R357). -/
def State.underConf (s : State) (c : ConfPair) (f : State → State × Outcm) : State × Outcm :=
  let r := f (s.withConf c)
  (r.1.withConf s.conf, r.2)

/-! ### Sending -/

def State.emit (s : State) (e : Emit) : State := { s with sent := s.sent ++ [e] }

/-- The mask bit in the vector's entry of the MSI-X table (R279). It is set until the driver clears it
(PRESUMED from PCIe 6.0, which R12 names: log 28). -/
def State.vectorMasked (s : State) (vector : Nat) : Bool :=
  (Tab.read s.host.regBytes 1 (0x80200C + 16 * vector)).getLsbD 0

/-- Sends MSI-X message `vector` (R295); messages for a host that is not ATTACHED are discarded (R297), and a
masked vector's is pending. -/
def State.msix (s : State) (vector : Nat) : State :=
  if s.host.attach = .attached ∧ vector < 2048 then
    if s.vectorMasked vector then { s with msixPending := insertNat s.msixPending vector }
    else (s.emit (.msix vector)).count 0x7921 0xF 1
  else s

/-- The 32 bytes of an event record (Table DFT-12) whose sequence is `seq`. -/
def Event.bytes (e : Event) (seq : Nat) : List Byte :=
  toLe 4 seq ++ toLe 8 e.cycles ++ toLe 2 e.index ++ toLe 1 e.sub ++ toLe 1 e.source
    ++ toLe 8 e.arg1 ++ toLe 8 e.arg2

/-! ### The journal (R382 to R390) -/

/-- LENGTH of a record with body `b` (Table REC-7). -/
def jrecLength (b : List Byte) : Nat := max 24 (roundUp (20 + b.length) 8)

/-- A record in its framing, with its CRC-32C (Table REC-7). -/
def JRec.bytes (r : JRec) : List Byte :=
  let n := jrecLength r.body
  let b := toLe 2 0x4A4B ++ toLe 1 r.jtype ++ [r.flags] ++ toLe 4 n ++ toLe 8 r.jseq ++ r.body
    ++ List.replicate (n - 20 - r.body.length) 0
  b ++ toLe 4 (crc32c b).toNat

def nandCount (j : Journal) : Nat :=
  (if j.nand0.failed then 0 else 1) + (if j.nand1.failed then 0 else 1)

/-- LIFETIME counter `sub` rises by `n` (Table REC-12). -/
def Journal.live (j : Journal) (sub n : Nat) : Journal :=
  { j with lifetime := Tab.write j.lifetime sub (Tab.read j.lifetime 0 sub + n) }

def pageBytes : Nat := 65536
def blockBytes : Nat := 16777216
def tailLimit : Nat := 8388608 - 65536
/-- Pool blocks 4 to 2,499 (Table REC-6). -/
def poolFirst : Nat := 4
def poolBlocks : Nat := 2496

/-- Good pool blocks of a NAND die. -/
def Nand.good (n : Nand) : Nat := poolBlocks - n.retired.length

/-- The free good pool block with the lowest erase count (R390), the lowest-numbered among equals. -/
def Nand.freeBlock (n : Nand) : Option Nat :=
  let free := (rangeFrom poolFirst poolBlocks).filter (fun b =>
    !n.retired.contains b && !n.live.contains b)
  let cnt := fun b => Tab.read n.erases 0 b
  match free with
  | [] => none
  | f :: r => some (r.foldl (fun m b => if cnt b < cnt m then b else m) f)

/-- A record joins the log and the tails (R384). -/
def Journal.append (j : Journal) (ty : Nat) (flags : Byte) (body : List Byte) : Journal :=
  let r : JRec := { jtype := ty, flags := flags, jseq := j.nextSeq, body := body }
  { j with log := j.log ++ [r], nextSeq := j.nextSeq + 1, tailBytes := j.tailBytes + r.bytes.length }

/-- A block is opened on NAND die `k`: its new erase count is journaled first. A block that reaches 100,000
erases is retired, and another is taken (R390). -/
def Journal.openBlock (j : Journal) (k fuel : Nat) : Journal :=
  match fuel with
  | 0 => j
  | f + 1 =>
    let n := if k = 0 then j.nand0 else j.nand1
    match n.freeBlock with
    | none => j
    | some b =>
      let c := Tab.read n.erases 0 b + 1
      let j := j.append 0x07 0 ([BitVec.ofNat 8 k, 0] ++ toLe 2 b ++ toLe 4 c)
      let e := Tab.write n.erases b c
      let n := if c < 100000 then { n with erases := e, live := n.live ++ [b], used := 0 }
        else { n with erases := e, retired := insertNat n.retired b }
      let j := if k = 0 then { j with nand0 := n } else { j with nand1 := n }
      if c < 100000 then j else j.openBlock k f

/-- One multi-plane page on NAND die `k`, when it is in service. -/
def Journal.programOn (j : Journal) (k : Nat) : Journal :=
  let n := if k = 0 then j.nand0 else j.nand1
  if n.failed then j
  else
    let j := if n.live = [] ∨ blockBytes < n.used + pageBytes then j.openBlock k poolBlocks else j
    let n := if k = 0 then j.nand0 else j.nand1
    let n := { n with used := n.used + pageBytes }
    (if k = 0 then { j with nand0 := n } else { j with nand1 := n }).live 4 pageBytes

/-- The blocks before those that the last `len` bytes of log lie in are free (R386). -/
def Nand.freeBefore (n : Nand) (len : Nat) : Nand :=
  let keep := if n.used < len then 2 else 1
  { n with live := n.live.drop (n.live.length - keep) }

/-- A page has gone out: a checkpoint that it completes is named in the boot map (R386). -/
def Journal.passCkpt (j : Journal) : Journal :=
  match j.ckpt with
  | none => j
  | some (left, len) =>
    if pageBytes < left then { j with ckpt := some (left - pageBytes, len) }
    else { j with ckpt := none, nand0 := j.nand0.freeBefore (len + pageBytes)
                  nand1 := j.nand1.freeBefore (len + pageBytes) }

/-- A full page of the tail is programmed on every NAND die in service, and its space is freed
(R384). -/
def Journal.programPage (j : Journal) : Journal :=
  if j.tailBytes < pageBytes ∨ nandCount j = 0 then j
  else
    let j := { j with tailBytes := j.tailBytes - pageBytes, sinceCkpt := j.sinceCkpt + pageBytes }
    ((j.programOn 0).programOn 1).passCkpt

/-- Blocks retired on both NAND dies. -/
def Journal.retiredBlocks (j : Journal) : Nat := j.nand0.retired.length + j.nand1.retired.length

/-- A record that does not fit waits until enough pages have been programmed. -/
def Journal.makeRoom (j : Journal) (n fuel : Nat) : Journal :=
  match fuel with
  | 0 => j
  | k + 1 => if j.tailBytes + n ≤ tailLimit then j else j.programPage.makeRoom n k

/-- Records can still be accepted: power has not failed and a NAND die is in service (R387,
R388). -/
def State.journalUp (s : State) : Bool := s.journal.accepting && nandCount s.journal != 0

/-- A record is accepted (R384): TAIL_WAITS counts a wait for room (Table REC-13). -/
def State.record (s : State) (ty : Nat) (flags : Byte) (body : List Byte) : State :=
  if !s.journal.accepting then s
  else
    let n := jrecLength body
    let s := if tailLimit < s.journal.tailBytes + n then s.count 0x7951 8 1 else s
    let j := s.journal.makeRoom n 256
    let s := s.count 0x7951 0xB (j.retiredBlocks - s.journal.retiredBlocks)
    ({ s with journal := j.append ty flags body }.count 0x7951 6 1).count 0x7951 7 n

/-- Objects whose events are journaled (Table REC-8). -/
def eventJournaled (index : Nat) : Bool :=
  decide ((0x1000 ≤ index ∧ index ≤ 0x10FF) ∨ (0x2000 ≤ index ∧ index ≤ 0x2FFF) ∨ index = 0x5003
    ∨ (0x6000 ≤ index ∧ index ≤ 0x6FFF) ∨ (0x7000 ≤ index ∧ index ≤ 0x77FF))

/-- Enters an event in the log (R363, Table DFT-12), journals it when Table REC-8 says so, and signals
EVENT_VECTOR (Table HST-3). -/
def State.event (s : State) (index sub source arg1 arg2 : Nat) : State :=
  let e : Event :=
    { cycles := s.power.aCycles, index := index, sub := sub, source := source,
      arg1 := arg1 % 2 ^ 64, arg2 := arg2 % 2 ^ 64 }
  let d := s.draft
  let s := if eventJournaled index then s.record 0x09 0 (e.bytes d.eventNext) else s
  let s := { s with draft :=
    { d with events := Tab.write d.events (d.eventNext % 256) e, eventNext := d.eventNext + 1 } }
  s.msix s.host.eventVector.toNat

/-! ### Readiness (R428, R429) -/

/-- START_STATE 9: the module is ready. -/
def State.ready (s : State) : Bool := s.power.mode == .running

/-- The frame of a write to a CMD object: the Draft is reachable from the end of step 4 (R428), and
the answer is kept. `f` is the effect with its result. -/
def State.onCmd (s : State) (f : State → State × DapResult) : Result :=
  if s.power.draftUp then
    let r := f s
    .next { r.1 with draft := { r.1.draft with lastResult := r.2 } }
  else .next s

/-- The host port, replaced. -/
def State.setHost (s : State) (h : HostIf) : State := { s with host := h }

end Sys2Proof.Machine
end

