-- ==== Sys2Proof/Machine/Digest.lean ====
section
/-!
DEFINITION. SHA-256 (FIPS 180-4) and HMAC-SHA-256 (FIPS 198-1).
-/

namespace Sys2Proof

/-! ### SHA-256

FIPS 180-4 names its constants by what they are: the leading 32 fractional bits of roots of the first
primes. They are computed here from that. A block's working words form two lines of four, one led by
"a" and one by "e", and each step puts one new word at the head of each line. -/

/-- The first 64 primes: no number below 19 × 19 has all its prime factors above 17. -/
def firstPrimes : List Nat :=
  (rangeFrom 2 310).filter (fun n => [2, 3, 5, 7, 11, 13, 17].all (fun q => n == q || n % q != 0))

/-- The largest r with r ^ k ≤ n, among those that extend `r` by its low `bits` bits. -/
def rootDigits (k n bits r : Nat) : Nat :=
  match bits with
  | 0 => r
  | b + 1 => if (r + 2 ^ b) ^ k ≤ n then rootDigits k n b (r + 2 ^ b) else rootDigits k n b r

/-- The first 32 bits of the fraction of the `k`-th root of `p`, for p below 8 ^ k. -/
def rootFraction (k p : Nat) : Nat := rootDigits k (p * 2 ^ (32 * k)) 35 0 % 2 ^ 32

/-- The round constants: cube roots of the first 64 primes. -/
def roundWords : List Nat := firstPrimes.map (rootFraction 3)

/-- The hash value before the first block: square roots of the first 8 primes, four to a line. -/
def hashStart : List Nat × List Nat :=
  let w := (firstPrimes.take 8).map (rootFraction 2)
  (w.take 4, w.drop 4)

def word32 : Nat := 2 ^ 32

/-- `x` turned right by `n` places within 32 bits. -/
def turn (n x : Nat) : Nat := x / 2 ^ n + x % 2 ^ n * 2 ^ (32 - n)

/-- The exclusive or of `x` turned by each of `ns`. -/
def turns (ns : List Nat) (x : Nat) : Nat := ns.foldl (fun a n => Nat.xor a (turn n x)) 0

/-- Bitwise choice: where `e` has a one, `f`'s bit, else `g`'s. -/
def chooseBits (e f g : Nat) : Nat := Nat.xor g (Nat.land e (Nat.xor f g))

/-- Bitwise majority of three. -/
def majorBits (a b c : Nat) : Nat := Nat.lor (Nat.land a b) (Nat.land c (Nat.lor a b))

/-- One step with round constant `k` and message word `w`: the new heads of the two lines. -/
def hashStep (l : List Nat × List Nat) (k w : Nat) : List Nat × List Nat :=
  match l with
  | ([a, b, c, d], [e, f, g, h]) =>
    let t := h + turns [6, 11, 25] e + chooseBits e f g + k + w
    match (t + turns [2, 13, 22] a + majorBits a b c) % word32, (d + t) % word32 with
    | 0, y => ([0, a, b, c], [y, e, f, g])
    | x + 1, y => ([x + 1, a, b, c], [y, e, f, g])
  | l => l

/-- The message word that comes sixteen places after the head of `w`. -/
def laterWord (w : List Nat) : Nat :=
  match w with
  | w0 :: w1 :: r =>
    let p := w1
    let q := r.getD 12 0
    (w0 + Nat.xor (turns [7, 18] p) (p / 2 ^ 3) + r.getD 7 0 + Nat.xor (turns [17, 19] q) (q / 2 ^ 10))
      % word32
  | _ => 0

/-- The steps over the round constants `ks`, when `w` are the next sixteen message words. -/
def hashSteps (l : List Nat × List Nat) (w ks : List Nat) : List Nat × List Nat :=
  match ks with
  | [] => l
  | k :: r => hashSteps (hashStep l k (w.headD 0)) (w.tail ++ [laterWord w]) r

/-- The big-endian number in `l`. -/
def beNat (l : List Byte) : Nat := leNat l.reverse

/-- A block of 64 bytes as sixteen big-endian words. -/
def blockWords (b : List Byte) : List Nat :=
  (List.range 16).map (fun i => beNat (slice b (4 * i) 4))

def addLines (x y : List Nat × List Nat) : List Nat × List Nat :=
  let add := fun (p q : List Nat) => (p.zip q).map (fun v => (v.1 + v.2) % word32)
  (add x.1 y.1, add x.2 y.2)

/-- The hash value after the first `n` blocks of `p`, from `l`; `ks` are the round constants. -/
def hashBlocks (ks : List Nat) (n : Nat) (l : List Nat × List Nat) (p : List Byte) :
    List Nat × List Nat :=
  match n with
  | 0 => l
  | m + 1 => hashBlocks ks m (addLines l (hashSteps l (blockWords (p.take 64)) ks)) (p.drop 64)

/-- The big-endian bytes of `v`, `n` of them. -/
def toBe (n v : Nat) : List Byte := (toLe n v).reverse

/-- A message with its padding: a one bit, zeros, and the length in bits in the last eight bytes. -/
def padded (l : List Byte) : List Byte :=
  let end8 := toBe 8 (8 * l.length)
  let body := l ++ [0x80]
  slice body 0 (roundUp (body.length + 8) 64 - 8) ++ end8

/-- SHA-256, byte 0 first as FIPS 180-4 emits it. -/
def sha256 (l : List Byte) : List Byte :=
  let p := padded l
  let h := hashBlocks roundWords (p.length / 64) hashStart p
  (h.1 ++ h.2).flatMap (toBe 4)

def hmacKey (k : List Byte) : List Byte := slice (if 64 < k.length then sha256 k else k) 0 64

/-- HMAC-SHA-256 (FIPS 198-1). -/
def hmac256 (key msg : List Byte) : List Byte :=
  let k := hmacKey key
  sha256 (k.map (· ^^^ 0x5C#8) ++ sha256 (k.map (· ^^^ 0x36#8) ++ msg))

end Sys2Proof
end

