-- ==== Sys2Proof/Machine/Formats.lean ====
section
/-!
DEFINITION. The operand format byte and the geometry it names (R36 to R38), and scale bytes (Table FMT-2,
R43).
-/

namespace Sys2Proof.Machine

open Sys2Proof

/-! ### Operand format byte (Table FMT-3) -/

inductive Fmt where
  | sk16 | sk8 | sk4 | sk2 | acc64
  deriving DecidableEq, Repr

inductive Dir where
  | row | column | tile
  deriving DecidableEq, Repr

/-- A decoded OPF: format, direction and skein size. -/
structure Opf where
  fmt  : Fmt
  dir  : Dir
  size : Nat
  deriving DecidableEq, Repr

def fmtOf (c : Nat) : Option Fmt :=
  match c with
  | 0 => some .sk16
  | 1 => some .sk8
  | 2 => some .sk4
  | 3 => some .sk2
  | 4 => some .acc64
  | _ => none

def dirOf (c : Nat) : Option Dir :=
  match c with
  | 0 => some .row
  | 1 => some .column
  | 2 => some .tile
  | _ => none

/-- SIZE of Table FMT-3. -/
def skeinSize (c : Nat) : Option Nat := if 1 ≤ c ∧ c ≤ 6 then some (2 ^ (c + 2)) else none

/-- An OPF byte, or none where R36 makes it BAD_FIELD. -/
def decodeOpf (v : Nat) : Option Opf :=
  match fmtOf (bitsOf v 7 5), dirOf (bitsOf v 4 3), skeinSize (bitsOf v 2 0) with
  | some f, some d, some n =>
    if d = .tile ∧ (n = 8 ∨ n = 32 ∨ n = 128) then none else some { fmt := f, dir := d, size := n }
  | _, _, _ => none

/-- Bits of one element mantissa (Table FMT-1, R43). -/
def Fmt.bits (f : Fmt) : Nat :=
  match f with
  | .sk16 => 16
  | .sk8 => 8
  | .sk4 => 4
  | .sk2 => 2
  | .acc64 => 64

/-- The largest magnitude M (Table FMT-1). -/
def Fmt.max (f : Fmt) : Nat := 2 ^ (f.bits - 1) - 1

/-- Bytes of one packed row of `cols` elements (R33). -/
def Fmt.rowBytes (f : Fmt) (cols : Nat) : Nat := ceilDiv (cols * f.bits) 8

/-- Bytes of one scale (R34, R43). -/
def Fmt.scaleBytes (f : Fmt) : Nat := if f = .acc64 then 2 else 1

/-- Side of a tile of `n` elements (R36). -/
def tileSide (n : Nat) : Nat :=
  if n = 16 then 4 else if n = 64 then 8 else 16

/-- Rows and columns that one skein covers. -/
def Opf.extent (o : Opf) : Nat × Nat :=
  match o.dir with
  | .row => (1, o.size)
  | .column => (o.size, 1)
  | .tile => (tileSide o.size, tileSide o.size)

/-- The skein-grid extent over `rows` × `cols` elements (R37). -/
def Opf.grid (o : Opf) (rows cols : Nat) : Nat × Nat :=
  (ceilDiv rows o.extent.1, ceilDiv cols o.extent.2)

/-- R38: the geometry of a transposed operand. -/
def Opf.transpose (o : Opf) : Opf :=
  match o.dir with
  | .row => { o with dir := .column }
  | .column => { o with dir := .row }
  | .tile => o

/-! ### Scales (Table FMT-2, R43) -/

inductive Scale where
  | zero
  | nan
  | exp (e : Int)
  deriving DecidableEq, Repr

def scaleOfByte (b : Nat) : Scale :=
  if b = 0x80 then .zero else if b = 0x7F then .nan else .exp (signedOf 8 b)

def scaleOfAcc (v : Nat) : Scale :=
  if v = 0x8000 then .zero else if v = 0x7FFF then .nan else .exp (signedOf 16 v)

end Sys2Proof.Machine
end

