-- ==== Sys2Proof/Machine/Space.lean ====
section
/-!
DEFINITION. The local address space and what stands in it (10, 11): regions, homes, leases, the current
bytes of a line, poison, the omission of dead lines, and the hub counters.
-/

namespace Sys2Proof.Machine

open Sys2Proof

/-! ### Table TIR-1 -/

def t1Size : Nat := 2 ^ 40
def t2Base : Nat := 2 ^ 40
def t2End : Nat := 0x090000000000
def dieStoreBase : Nat := 0x090000000000
def dieStoreStride : Nat := 0x10000000
/-- The populated part of a die-store window: 160 MiB (R225). -/
def dieStoreBytes : Nat := 160 * 2 ^ 20
def controlBase : Nat := 0x100000000000
def hostBase : Nat := 0x400000000000
def objectBase : Nat := 0x800000000000
def objectEnd : Nat := 0xC00000000000
def objectStride : Nat := 2 ^ 34

/-- The regions of Table TIR-1. -/
inductive Space where
  | tier1
  | tier2
  | dieStore (d : Nat)
  | control
  | hostWindow
  | object (j : Nat)
  | unmapped
  deriving DecidableEq, Repr

/-- The region of a local address (R225). -/
def spaceOf (a : Nat) : Space :=
  if a < t1Size then .tier1
  else if a < t2End then .tier2
  else if a < dieStoreBase + 26 * dieStoreStride then
    if (a - dieStoreBase) % dieStoreStride < dieStoreBytes
    then .dieStore ((a - dieStoreBase) / dieStoreStride) else .unmapped
  else if a < controlBase then .unmapped
  else if a < controlBase + 2 ^ 32 then .control
  else if a < hostBase then .unmapped
  else if a < objectBase then .hostWindow
  else if a < objectEnd then .object ((a - objectBase) / objectStride)
  else .unmapped

def inHostWindow (a : Nat) : Bool := decide (hostBase ≤ a ∧ a < objectBase)

/-- A byte range of `len` bytes at `a` touches the host window. -/
def touchesHost (a len : Nat) : Bool := decide (a < objectBase ∧ hostBase < a + len ∧ 0 < len)

/-! ### Bytes (R235, R286) -/

/-- What an address that is not listed reads as: zero, or the host's byte in the host window
(log 6). -/
def memDefault (a : Nat) : Byte := if inHostWindow a then Config.hostMemory (a - hostBase) else 0

/-- The byte at `a` in a list of cells. -/
def cellsGet (l : List Host.Cell) (a : Nat) : Byte :=
  match l with
  | [] => memDefault a
  | c :: r => if c.1 = a then c.2 else cellsGet r a

/-- Writes `b` at `a`, keeping the addresses ascending and no cell equal to its default. -/
def cellsPut (l : List Host.Cell) (a : Nat) (b : Byte) : List Host.Cell :=
  match l with
  | [] => if b = memDefault a then [] else [(a, b)]
  | c :: r =>
    if a < c.1 then (if b = memDefault a then c :: r else (a, b) :: c :: r)
    else if a = c.1 then (if b = memDefault a then r else (a, b) :: r)
    else c :: cellsPut r a b

/-- Writes successive bytes from `a`. -/
def cellsPutAll (l : List Host.Cell) (a : Nat) (bs : List Byte) : List Host.Cell :=
  match bs with
  | [] => l
  | b :: r => cellsPutAll (cellsPut l a b) (a + 1) r

/-- The canonical form of the cells: addresses strictly rising, no cell equal to its default. -/
def cellsWf (l : List Host.Cell) : Bool :=
  match l with
  | [] => true
  | [c] => c.2 != memDefault c.1
  | c :: d :: r => c.2 != memDefault c.1 && decide (c.1 < d.1) && cellsWf (d :: r)

/-- Strictly rising numbers. -/
def risingNats (l : List Nat) : Bool :=
  match l with
  | [] => true
  | [_] => true
  | a :: b :: r => decide (a < b) && risingNats (b :: r)

/-- The canonical form of memory. -/
def Mem.wf (m : Mem) : Bool := cellsWf m.cells && risingNats m.poison

/-! ### Homes (R227, R228) -/

def xor3 (a b c : Nat) : Nat := Nat.xor (Nat.xor a b) c

/-- The home of a tier 1 offset when the hubs `act` are active. -/
def homeT1 (act : List Nat) (a : Nat) : Nat :=
  let h := xor3 (bitsOf a 14 12) (bitsOf a 17 15) (bitsOf a 20 18)
  if act.contains h ∨ act = [] then h else act.getD (bitsOf a 39 15 % act.length) 0

/-- The home of a tier 2 offset when the hubs `act` are active. -/
def homeT2 (act : List Nat) (a : Nat) : Nat :=
  let h := xor3 (bitsOf a 18 16) (bitsOf a 21 19) (bitsOf a 24 22)
  if act.contains h ∨ act = [] then h else act.getD (bitsOf a 42 19 % act.length) 0

/-- The object `j` lies in tier 1 (R239): its tier 1 copy is authoritative. -/
def State.objInT1 (s : State) (j : Nat) : Bool :=
  match Tab.find s.objects j with
  | some o => o.state == .residentT1 || o.state == .demoting
  | none => false

/-- The hub that homes address `a` when the hubs `act` are active; none outside the tiers. -/
def State.homeAmong (s : State) (act : List Nat) (a : Nat) : Option Nat :=
  match spaceOf a with
  | .tier1 => some (homeT1 act a)
  | .tier2 => some (homeT2 act (a - t2Base))
  | .object j =>
    let o := a - objectBase - j * objectStride
    some (if s.objInT1 j then homeT1 act o else homeT2 act o)
  | _ => none

def State.homeHub (s : State) (a : Nat) : Option Nat := s.homeAmong s.activeHubs a

/-- `a` is served by tier 2. -/
def State.inTier2 (s : State) (a : Nat) : Bool :=
  match spaceOf a with
  | .tier2 => true
  | .object j => !s.objInT1 j
  | _ => false

/-! ### Leases (R226, R237) -/

def State.lease (s : State) (n : Nat) : Lease := Tab.read s.leases Lease.init n

def objAddr (j : Nat) : Nat := objectBase + j * objectStride

/-- The end of the piece of lease `n` that contains `a`, if any does (R237). -/
def State.leasePieceEnd (s : State) (n a : Nat) : Option Nat :=
  let l := s.lease n
  match spaceOf a with
  | .tier1 => if l.t1Base ≤ a ∧ a < l.t1Base + l.t1Bytes then some (l.t1Base + l.t1Bytes) else none
  | .tier2 => if l.t2Base ≤ a ∧ a < l.t2Base + l.t2Bytes then some (l.t2Base + l.t2Bytes) else none
  | .dieStore d =>
    if bitOf l.dieMask.toNat d then some (dieStoreBase + d * dieStoreStride + dieStoreBytes) else none
  | .object j =>
    match Tab.find s.objects j with
    | some o =>
      if (o.owner = n ∨ o.pins.contains n) ∧ a < objAddr j + o.size then some (objAddr j + o.size)
      else none
    | none => none
  | .hostWindow => if l.host then some objectBase else none
  | _ => none

/-- `len` bytes at `a` lie within the lease `n`, crossing at most `fuel` pieces. -/
def State.leaseCoversFuel (s : State) (n a len : Nat) (fuel : Nat) : Bool :=
  match fuel with
  | 0 => len == 0
  | f + 1 =>
    if len = 0 then true
    else match s.leasePieceEnd n a with
      | none => false
      | some e => if a + len ≤ e then true else s.leaseCoversFuel n e (a + len - e) f

/-- Every one of `len` bytes at `a` is a byte of lease `n` (R226, R237). A lease has at most 4,096 objects, 26
die stores, two extents and the host window, so 4,200 pieces are enough. -/
def State.leaseCovers (s : State) (n a len : Nat) : Bool :=
  (s.lease n).state == .active && s.leaseCoversFuel n a len 4200

/-- Some lease that exists holds the byte at `a` (R226). -/
def State.leasedByte (s : State) (a : Nat) : Bool :=
  s.leases.any (fun e => e.2.state != .free && (s.leasePieceEnd e.1 a).isSome)

/-! ### Atomic operations (Table COH-9, AOP of Table PRU-10) -/

/-- Table COH-9: the operation exists at this width. -/
def atomicWidthOk (op width : Nat) : Bool :=
  if op = 9 then width == 8 || width == 16 else decide (op < 9) && (width == 4 || width == 8)

/-- The value an atomic leaves (Table COH-9). -/
def atomicResult (op width old x compare : Nat) : Nat :=
  let w := 8 * width
  match op with
  | 0 => x
  | 1 => (old + x) % 2 ^ w
  | 2 => Nat.land old x
  | 3 => Nat.lor old x
  | 4 => Nat.xor old x
  | 5 => if signedOf w x < signedOf w old then x else old
  | 6 => if signedOf w old < signedOf w x then x else old
  | 7 => min old x
  | 8 => max old x
  | _ => if old = compare then x else old

/-- A line's bytes after the atomic `o` at `offset`. -/
def atomicOnLine (o : AtomicOp) (offset : Nat) (line : List Byte) : List Byte :=
  let old := leNat (slice line offset o.width)
  overlay line offset (toLe o.width (atomicResult o.op o.width old o.operand o.compare))

/-! ### Current bytes (R250, R255, R257) -/

/-- Agent 39: the host's copies of device lines (Table COH-1). -/
def hostAgent : Nat := 39

/-- The dirty or exclusive copy that the directory names as owner of a line, if any. What the host holds it
may have changed: that copy is not known here. -/
def Coh.ownerCopy (c : Coh) (line : Nat) : Option CacheLine :=
  match Tab.find c.dir line with
  | some e =>
    if (e.st = .em ∨ e.st = .o) ∧ e.owner ≠ hostAgent then
      match c.lines.find? (fun l => l.line == line && l.agent == e.owner) with
      | some l => some l
      | none => c.wbBuf.find? (fun l => l.line == line && l.agent == e.owner && !l.gone)
    else none
  | none => none

/-- The host holds the line in EM or O, so that only the host knows its bytes (R275, log 44). -/
def Coh.hostOwns (c : Coh) (line : Nat) : Bool :=
  match Tab.find c.dir line with
  | some e => (e.st == .em || e.st == .o) && e.owner == hostAgent
  | none => false

/-- The transaction that a host snoop opens stands beside one of the device's on the same line. -/
def txnKey (host : Bool) (line : Nat) : Nat := if host then line + 2 ^ 44 else line

def Coh.txn (c : Coh) (k : Nat) : Option Txn := Tab.find c.txns k

/-- The bytes of the line with the bytes that `mask` selects replaced. -/
def mergeMask (mask : BitVec 64) (old new : List Byte) : List Byte :=
  (List.range 64).map (fun i => if mask.getLsbD i then new.getD i 0 else old.getD i 0)

/-- The good data on its way to the requester of a read of the line, or arrived there. -/
def Coh.dataSent (c : Coh) (agent line : Nat) : Option (List Byte) :=
  match c.msgs.findSome? (fun m => match m with
    | .data a l b p => if a = agent ∧ l = line ∧ p = false then some b else none
    | _ => none) with
  | some b => some b
  | none => c.fills.findSome? (fun f =>
      if f.agent = agent ∧ f.line = line then
        f.data.bind (fun d => if d.2 then none else some d.1)
      else none)

/-- The line's bytes while they travel: what an owner has forwarded in the transaction under way. -/
def Coh.transit (c : Coh) (line : Nat) : Option (List Byte) :=
  ([c.txn (txnKey false line), c.txn (txnKey true line)].filterMap id).findSome? (fun t =>
    match t.bytes with
    | some b => some b
    | none =>
      if t.req.kind = .rdS ∨ t.req.kind = .rdX ∨ t.req.kind = .upg then c.dataSent t.req.agent line
      else none)

/-- What a request, once it has been served, leaves of a line that read `old`. -/
def Req.applied (r : Req) (old : List Byte) : List Byte :=
  match r.kind with
  | .wrNc => mergeMask r.mask old r.bytes
  | .atomN => (match r.op with
    | some o => atomicOnLine o r.offset old
    | none => old)
  | _ => old

/-- The line in memory, whatever any cache holds. -/
def State.memLine (s : State) (line : Nat) : List Byte :=
  (List.range 64).map (fun i => cellsGet s.mem.cells (64 * line + i))

/-- The bytes that a read of the line returns once the requests that reached its home earlier have been
served (R255). -/
def State.lineNow (s : State) (line : Nat) : List Byte :=
  let base := match s.coh.ownerCopy line with
    | some l => l.bytes
    | none => match s.coh.transit line with
      | some b => b
      | none =>
        if s.coh.hostOwns line then (List.range 64).map (fun i => Config.hostCopy (64 * line + i))
        else s.memLine line
  let busy := match s.coh.txn line with
    | some t => [t.req]
    | none => []
  (busy ++ Tab.read s.coh.waitq [] line).foldl (fun b r => r.applied b) base

/-- No request for the line is at its home, and no host snoop of it is under way. -/
def Coh.idleLine (c : Coh) (line : Nat) : Bool :=
  (c.txn line).isNone && (c.txn (txnKey true line)).isNone && (Tab.read c.waitq [] line).isEmpty

/-- No line has an entry or a request at its home. -/
def Coh.quiet (c : Coh) : Bool := c.dir.isEmpty && c.txns.isEmpty && c.waitq.isEmpty

/-- The byte a non-caching read of `a` returns (RD_NC of Table COH-6). -/
def State.byteAt (s : State) (a : Nat) : Byte :=
  if s.coh.idleLine (a / 64) then
    match s.coh.ownerCopy (a / 64) with
    | some l => l.bytes.getD (a % 64) 0
    | none => if s.coh.hostOwns (a / 64) then Config.hostCopy a else cellsGet s.mem.cells a
  else (s.lineNow (a / 64)).getD (a % 64) 0

/-- `n` successive bytes from `a`. -/
def State.bytesAt (s : State) (a n : Nat) : List Byte :=
  (List.range n).map (fun i => s.byteAt (a + i))

/-- The little-endian number in `n` bytes at `a`. -/
def State.natAt (s : State) (a n : Nat) : Nat := leNat (s.bytesAt a n)

/-- The line numbers that `n` bytes from `a` touch. -/
def linesOf (a n : Nat) : List Nat :=
  if n = 0 then [] else rangeFrom (a / 64) ((a + n - 1) / 64 + 1 - a / 64)

/-- Line `line` was homed on a retired hub and is neither written in full since nor stored as
poison (R243). -/
def State.lineLost (s : State) (line : Nat) : Bool :=
  s.coh.losses.any (fun h =>
    (s.homeAmong h.before (64 * line) == some h.hub)
      && !h.settled.contains line
      && !h.fresh.any (fun r => decide (r.1 ≤ 64 * line ∧ 64 * line < r.1 + r.2)))

/-- Reading line `line` meets poison (R243, R265), or the host window answers with a poison
response (R271, R278). -/
def State.linePoisoned (s : State) (line : Nat) : Bool :=
  s.mem.poison.contains line || s.lineLost line
    || (inHostWindow (64 * line) && !(s.host.attach == .attached && s.host.cxlUp))

/-- The poisoned lines among those that `n` bytes from `a` touch. -/
def State.poisonIn (s : State) (a n : Nat) : List Nat :=
  (linesOf a n).filter (fun l => s.linePoisoned l)

def State.anyPoison (s : State) (a n : Nat) : Bool := (linesOf a n).any (fun l => s.linePoisoned l)

/-! ### Hub counters (Table TIR-9) -/

def hubCounter (hub : Nat) : Nat := 0x7901 + hub

/-! ### Copies -/

/-- Drops every copy of the lines lo to hi with their directory and filter entries and the reservations on
them (WR_NC of Table COH-6). -/
def State.dropCopies (s : State) (lo hi : Nat) : State :=
  let c := s.coh
  let out := fun (l : Nat) => decide (l < lo ∨ hi < l)
  { s with coh := { c with
      lines := c.lines.filter (fun l => out l.line)
      wbBuf := c.wbBuf.map (fun l => if out l.line then l else { l with gone := true })
      dir := c.dir.filter (fun e => out e.1)
      reserved := c.reserved.filter (fun x => out x.2) } }

/-! ### Poison (R231, R265, R267) -/

/-- Stores poison in a line: no cache holds it, it is counted at its home (Table TIR-9), and it enters the
log when it was not poisoned before. -/
def State.storePoison (s : State) (line reason agent : Nat) : State :=
  if s.mem.poison.contains line then s
  else
    let e : PoisonEntry := { reason := reason, agent := agent, line := line }
    let s := s.dropCopies line line
    let s := match s.homeHub (64 * line) with
      | some h => s.count (hubCounter h) (if s.inTier2 (64 * line) then 0xA else 9) 1
      | none => s
    let c := s.coh
    { s with
      mem := { s.mem with poison := insertNat s.mem.poison line }
      coh := { c with poisonLog := Tab.write c.poisonLog (c.poisonNext % 256) e
                      poisonNext := c.poisonNext + 1 } }

/-- Marks a line as settled for every loss (R243). -/
def State.settleLines (s : State) (ls : List Nat) : State :=
  if s.coh.losses = [] then s
  else
    let l := s.coh.losses.map (fun h => { h with settled := ls ++ h.settled })
    { s with coh := { s.coh with losses := l } }

/-! ### Accesses -/

/-- Counts `n` bytes at `a` as read (`w` false) or written, at each home they touch. Bytes in
tier 2 count as logical bytes; how many raw bytes an access moves, and how many frames a write
encodes, is not stated: free values (log 13). -/
def State.countTier (s : State) (a n : Nat) (w : Bool) : State :=
  match spaceOf a with
  | .tier1 | .tier2 | .object _ =>
    (linesOf a n).foldl (fun s l =>
      let lo := max a (64 * l)
      let hi := min (a + n) (64 * l + 64)
      match s.homeHub (64 * l) with
      | none => s
      | some h =>
        if s.inTier2 (64 * l) then
          let r := s.draw
          let f := if w then r.2.draw else (0, r.2)
          ((f.2.count (hubCounter h) (if w then 5 else 4) (hi - lo)).count (hubCounter h)
            (if w then 3 else 2) r.1).count (hubCounter h) 6 f.1
        else s.count (hubCounter h) (if w then 1 else 0) (hi - lo)) s
  | _ => s

/-- The effect of an engine's read beside the data: lost lines take stored poison and enter the
log (R243), and the hub counters count. -/
def State.noteRead (s : State) (a n : Nat) : State :=
  let lost := (linesOf a n).filter (fun l => s.lineLost l && !s.mem.poison.contains l)
  let s := lost.foldl (fun s l => s.storePoison l 5 0xFF) s
  (s.settleLines lost).countTier a n false

/-- The tier 2 frames that `n` bytes from `a` touch have been written (R230). -/
def State.noteFrames (s : State) (a n : Nat) : State :=
  let fs := rangeFrom (a / 65536) ((a + n - 1) / 65536 + 1 - a / 65536)
  { s with frames := fs.foldl insertNat s.frames }

/-! ### Objects (R239, R240) -/

/-- What a write to `n` bytes at `a` meets in the object window: nothing, a move that holds it, or a
PACKED object that is RESIDENT_T2. -/
inductive ObjWrite where
  | free | held | refused
  deriving DecidableEq, Repr

def State.objWrite (s : State) (a : Nat) : ObjWrite :=
  match spaceOf a with
  | .object j =>
    (match Tab.find s.objects j with
     | some o =>
       (match o.state with
        | .promoting | .demoting => .held
        | .residentT2 => if o.packed then .refused else .free
        | .residentT1 => .free)
     | none => .free)
  | _ => .free

/-! ### Skein objects in tier 2 (R229, R238) -/

/-- The layout of a skein object: the offset of its mantissa plane and its size. -/
def skeinLayout (o : Opf) (rows cols : Nat) : Nat × Nat :=
  let g := o.grid rows cols
  let m := roundUp (g.1 * g.2 * o.fmt.scaleBytes) 65536
  (m, roundUp (m + rows * o.fmt.rowBytes cols) 65536)

/-- The element that holds bit `bit` of the mantissa plane, as row and column. -/
def elemAtBit (o : Opf) (cols bit : Nat) : Nat × Nat :=
  let rb := 8 * o.fmt.rowBytes cols
  (bit / rb, bit % rb / o.fmt.bits)

/-- Every element of the line at object offset `off` lies in a zero or not-a-number skein; a line without
elements is not omitted (log 39), and neither is one of class ACC, which Table TIR-2 does not list. -/
def State.lineDead (s : State) (base : Nat) (opf : Byte) (rows cols off : Nat) : Bool :=
  match decodeOpf opf.toNat with
  | none => false
  | some o =>
    let m := (skeinLayout o rows cols).1
    let g := o.grid rows cols
    let at0 := fun (k : Nat) => elemAtBit o cols (8 * (off - m) + k)
    let here := ((List.range 512).map at0).filter (fun p => decide (p.1 < rows ∧ p.2 < cols))
    let sb := o.fmt.scaleBytes
    let dead := fun (p : Nat × Nat) =>
      let a := base + (p.1 / o.extent.1 * g.2 + p.2 / o.extent.2) * sb
      match scaleOfByte (s.natAt a 1) with
      | .exp _ => false
      | _ => true
    o.fmt != .acc64 && decide (m ≤ off) && !here.isEmpty && here.all dead

/-- The frame at `off` of object `j` is encoded: its omitted lines read as zero bytes from now on (R229). -/
def State.omitFrame (s : State) (j : Nat) (o : TierObj) (off : Nat) : State :=
  let a := objAddr j
  { s with mem := { s.mem with cells := s.mem.cells.filter (fun c =>
      !(decide (a + off ≤ c.1 ∧ c.1 < a + off + 65536)
        && s.lineDead a o.opf o.rows o.cols (c.1 / 64 * 64 - a))) } }

/-- The byte at `a` lies in a skein object in tier 2, whose frames omit dead lines. -/
def State.mayOmit (s : State) (a : Nat) : Bool :=
  match spaceOf a with
  | .object j => s.inTier2 a && (Tab.find s.objects j).any (fun o => (decodeOpf o.opf.toNat).isSome)
  | _ => false

/-- The frames that `n` bytes from `a` touch are encoded anew, when they lie in an object in tier 2 whose lines
may be omitted. -/
def State.encodeRange (s : State) (a n : Nat) : State :=
  match spaceOf a with
  | .object j => (match Tab.find s.objects j with
    | some o =>
      if s.mayOmit a ∧ n ≠ 0 then
        let r := a - objAddr j
        (rangeFrom (r / 65536) ((r + n - 1) / 65536 + 1 - r / 65536)).foldl
          (fun (s : State) f => s.omitFrame j o (65536 * f)) s
      else s
    | none => s)
  | _ => s

end Sys2Proof.Machine
end

