-- ==== Sys2Proof/Machine/Fabric.lean ====
section
/-!
DEFINITION. The Olique fabric (11): requests at their homes, snoops at their agents, responses, and what a
requester does with its answer.
-/

namespace Sys2Proof.Machine

open Sys2Proof

/-! ### Agents and homes (R250, R251) -/

/-- A requester that caches nothing: an engine or a port. -/
def engineAgent : Nat := 64
/-- The home itself, for which data of a masked write, an atomic or a recall is forwarded. -/
def homeAgent : Nat := 65
/-- The host, for which a host snoop is answered (R274). -/
def hostSnoop : Nat := 67

def dieOfAgent (a : Nat) : Nat :=
  if a < 26 then a else if a < 31 then 82 + (a - 26) else if a < 39 then 87 + (a - 31)
  else if a = 39 then 95 else 96 + (a - 40)

/-- The agent is one of Table COH-1 and not DEAD. -/
def State.agentLive (s : State) (a : Nat) : Bool :=
  decide (a < 42) && Tab.read s.coh.agentState 0 a == 0 && (s.dieState (dieOfAgent a) == 0
    || s.dieState (dieOfAgent a) == 3)

/-- Host and management dies (R270). -/
def privileged (a : Nat) : Bool := decide (39 ≤ a ∧ a ≤ 41)

/-- The dies of the server cores (Table COH-1). -/
def serverCores (a : Nat) : Bool := decide (26 ≤ a ∧ a < 31)

def hostLine (line : Nat) : Bool := inHostWindow (64 * line)

/-- Cacheable regions of Table COH-2. -/
def cacheable (line : Nat) : Bool :=
  match spaceOf (64 * line) with
  | .tier1 | .tier2 | .object _ | .hostWindow => true
  | _ => false

/-- The line exists and is memory: it has a home (Table COH-2). -/
def homed (line : Nat) : Bool :=
  cacheable line ||
    (match spaceOf (64 * line) with
     | .dieStore _ => true
     | _ => false)

/-- Counts `code` of Table COH-14 at the line's hub. -/
def State.cohCount (s : State) (line code n : Nat) : State :=
  match s.homeHub (64 * line) with
  | some h => s.count (0x7911 + h) code n
  | none => s

/-! ### Directory (R253, R254) -/

def Coh.entry (c : Coh) (line : Nat) : DirEntry := Tab.read c.dir DirEntry.none line

def DirEntry.owned (e : DirEntry) : Bool := e.st == .em || e.st == .o

/-- Every agent that the entry names. -/
def DirEntry.holders (e : DirEntry) : List Nat :=
  if e.owned then e.owner :: e.sharers.filter (fun a => a ≠ e.owner) else e.sharers

def State.setCoh (s : State) (c : Coh) : State := { s with coh := c }

/-- Writes an entry. One in state I is no entry, but that of a BUSY line keeps its way until the transaction
ends. A new entry is the latest allocated. -/
def Coh.setEntry (c : Coh) (line : Nat) (st : DirSt) (owner : Nat) (sharers : List Nat) : Coh :=
  match Tab.find c.dir line with
  | some e =>
    if st = .i ∧ (c.txn line).isNone then { c with dir := Tab.remove c.dir line }
    else { c with dir := Tab.write c.dir line { e with st := st, owner := owner, sharers := sharers } }
  | none =>
    if st = .i then c
    else { c with
      dir := Tab.write c.dir line { st := st, owner := owner, sharers := sharers, alloc := c.allocs }
      allocs := c.allocs + 1 }

/-- The entry loses agent `a`: an owner's line becomes what its sharers leave, and so on. -/
def Coh.dropHolder (c : Coh) (line a : Nat) : Coh :=
  let e := c.entry line
  let sh := e.sharers.filter (fun x => x ≠ a)
  match e.st with
  | .i => c
  | .s => if sh = [] then c.setEntry line .i 0 [] else c.setEntry line .s 0 sh
  | .em => if e.owner = a then c.setEntry line .i 0 [] else c
  | .o =>
    if e.owner = a then (if sh = [] then c.setEntry line .i 0 [] else c.setEntry line .s 0 sh)
    else if sh = [] then c.setEntry line .em e.owner [] else c.setEntry line .o e.owner sh

/-- The transaction `k` is over: an entry left in state I goes. -/
def Coh.endTxn (c : Coh) (k : Nat) : Coh :=
  let c := { c with txns := Tab.remove c.txns k }
  if (Tab.find c.dir k).any (fun e => e.st == .i) then { c with dir := Tab.remove c.dir k } else c

/-- Set of a line and ways: bits [23:6] of the address at a hub (R253), 131,072 sets of 16 in the snoop
filter of the host die (R273). -/
def dirSet (line : Nat) : Nat := if hostLine line then line % 131072 else line % 262144

/-- The entries that share a set with `line`. -/
def State.setMates (s : State) (line : Nat) : List (Nat × DirEntry) :=
  s.coh.dir.filter (fun e => dirSet e.1 == dirSet line && hostLine e.1 == hostLine line
    && s.homeHub (64 * e.1) == s.homeHub (64 * line))

/-- The least recently allocated of the entries in the set, when the set is full and holds no entry of
`line`. -/
def State.victim (s : State) (line : Nat) : Option Nat :=
  let ms := s.setMates line
  if (Tab.find s.coh.dir line).isSome ∨ ms.length < 16 then none
  else match ms with
    | [] => none
    | m :: r => some (r.foldl (fun (v : Nat × DirEntry) e => if e.2.alloc < v.2.alloc then e else v) m).1

/-! ### Messages -/

def Coh.send (c : Coh) (m : CohMsg) : Coh := { c with msgs := c.msgs ++ [m] }

/-- The message is in flight. -/
def Coh.has (c : Coh) (m : CohMsg) : Bool := c.msgs.contains m

/-- One copy of the message has been taken. -/
def Coh.take (c : Coh) (m : CohMsg) : Coh := { c with msgs := c.msgs.erase m }

/-- The line that a message is about. -/
def CohMsg.line (m : CohMsg) : Nat :=
  match m with
  | .snoop x => x.line
  | .rspI _ l _ | .rspS _ l _ | .rspO _ l _ => l
  | .rspFwd _ l _ _ | .data _ l _ _ => l
  | .grant _ l _ _ _ _ => l
  | .ack _ l | .wbAck _ l => l

def Req.isHost (r : Req) : Bool := r.agent == hostSnoop

def Req.key (r : Req) : Nat := txnKey r.isHost r.line

def Coh.setTxn (c : Coh) (k : Nat) (t : Txn) : Coh := { c with txns := Tab.write c.txns k t }

/-! ### What a request needs (Table COH-6) -/

def plainReq (k : ReqKind) (agent line : Nat) : Req :=
  { kind := k, agent := agent, line := line, mask := 0, bytes := [], offset := 0, op := none, fetch := false }

def fullMask (r : Req) : Bool := r.mask == BitVec.allOnes 64

/-- A UPG whose requester the entry still lists. -/
def upgListed (e : DirEntry) (r : Req) : Bool :=
  r.kind == .upg && e.st != .i && e.holders.contains r.agent

/-- The snoops of a request, as kind and agent. A near atomic recalls every copy, its requester's too
(R262). -/
def snoopsFor (e : DirEntry) (r : Req) : List (SnoopKind × Nat) :=
  let others := if r.kind = .atomN then e.holders else e.holders.filter (fun a => a ≠ r.agent)
  let inv := fun (l : List Nat) => l.map (fun a => (SnoopKind.snpInv, a))
  let rest := others.filter (fun a => a ≠ e.owner)
  let owner := fun (k : SnoopKind) => if others.contains e.owner then [(k, e.owner)] else []
  match r.kind with
  | .rdS => if e.owned then owner .snpS else []
  | .rdX => if e.owned then owner .snpX ++ inv rest else inv others
  | .upg =>
    if upgListed e r then inv others
    else if e.owned then owner .snpX ++ inv rest else inv others
  | .rdNc => if e.owned then owner .snpCur else []
  | .wrNc =>
    if fullMask r then inv others
    else if e.owned then owner .snpX ++ inv rest else inv others
  | .atomN => if e.owned then owner .snpX ++ inv rest else inv others
  | .wb => []
  | .cln => []

/-- Where a forward of the request goes. -/
def Req.dest (r : Req) : Nat :=
  match r.kind with
  | .wrNc | .atomN => homeAgent
  | _ => r.agent

/-- Data or ownership must come from the host: a line of the host window that no device agent owns, unless
the request is a write of the whole line, an eviction, or a recall (R273). -/
def needsHost (e : DirEntry) (r : Req) : Bool :=
  hostLine r.line && !e.owned && !r.isHost && r.agent != homeAgent && r.kind != .wb && r.kind != .cln
    && !(r.kind == .wrNc && fullMask r)

/-- The CXL.cache request that the host die issues for it (R273). -/
def Req.cacheOp (r : Req) : CacheOp :=
  match r.kind with
  | .rdS => .rdShared
  | .rdNc => .rdCurr
  | _ => .rdOwn

/-- The host window answers: the driver is attached and the link runs CXL (R271, R278). -/
def State.hostServes (s : State) : Bool := s.host.attach == .attached && s.host.cxlUp

/-! ### Writing at the home -/

/-- The home writes a line to memory; `full` clears poison (R265). -/
def State.putLine (s : State) (line : Nat) (bytes : List Byte) (full : Bool) : State :=
  let s := if s.inTier2 (64 * line) then s.noteFrames (64 * line) 64 else s
  let s := if full then s.settleLines [line] else s
  let s : State := { s with mem :=
    { cells := cellsPutAll s.mem.cells (64 * line) (slice bytes 0 64)
      poison := if full then s.mem.poison.filter (fun l => l ≠ line) else s.mem.poison } }
  s.encodeRange (64 * line) 64

/-- What a device agent or the home wrote to a line of the host window goes to the host (R273). -/
def State.toHost (s : State) (op : CacheOp) (line : Nat) (bytes : List Byte) : State :=
  if hostLine line then s.emit (.cacheReq op line (some (slice bytes 0 64))) else s

/-- The 64 data bytes of a poisoned DATA message are zero (R265). -/
def zeroLine : List Byte := List.replicate 64 0

/-- A line loses its contents with reason `why` and agent `a`, and its entry. -/
def State.poisonLine (s : State) (line why a : Nat) : State :=
  (s.setCoh (s.coh.setEntry line .i 0 [])).storePoison line why a

/-! ### The end of a transaction -/

/-- DATA from memory to agent `a`. -/
def State.dataFromMemory (s : State) (a line : Nat) : State :=
  let bad := s.linePoisoned line
  let d := if bad then zeroLine else s.memLine line
  let s := s.noteRead (64 * line) 64
  s.setCoh (s.coh.send (.data a line d bad))

/-- Table COH-6 for a grant: the next entry and the state R is given. -/
def State.grantTo (s : State) (r : Req) (st : Moesi) (d : DirSt) (owner : Nat) (sh : List Nat)
    (already : Bool) : State :=
  s.setCoh ((s.coh.setEntry r.line d owner sh).send (.grant r.agent r.line (some st) false false already))

/-- The poisoned answer to a read: DATA with POISON set, and no copy is recorded (R265). -/
def State.answerPoison (s : State) (agent line : Nat) : State :=
  s.setCoh ((s.coh.send (.data agent line zeroLine true)).send (.grant agent line none true false false))

/-- A poison response or stored poison ends a read. -/
def State.grantPoison (s : State) (r : Req) : State := (s.noteRead (64 * r.line) 64).answerPoison r.agent r.line

/-- A far atomic learns whether its line came from another agent (R264). -/
def Coh.noteTaken (c : Coh) (agent line : Nat) (taken : Bool) : Coh :=
  { c with farOps := c.farOps.map (fun f =>
      if f.agent = agent ∧ f.line = line then { f with taken := taken } else f) }

/-- A read or upgrade is granted; the line stays BUSY until the ACK. -/
def State.finishGrant (s : State) (t : Txn) : State :=
  let r := t.req
  let e := s.coh.entry r.line
  let listed := upgListed e r
  let s := s.setCoh ((s.coh.setTxn r.key { t with granted := true }).noteTaken r.agent r.line t.snooped)
  if t.refused ∨ (!t.forwarded ∧ !listed ∧ s.linePoisoned r.line) then
    (if t.refused then s.cohCount r.line 9 1 else s).grantPoison r
  else
    let s := if t.forwarded ∨ listed then s else s.dataFromMemory r.agent r.line
    match r.kind with
    | .rdS =>
      (match e.st with
       | .i => s.grantTo r .e .em r.agent [] false
       | .s => s.grantTo r .s .s 0 (insertNat e.sharers r.agent) false
       | _ => s.grantTo r .s .o e.owner (insertNat e.sharers r.agent) false)
    | _ => s.grantTo r .m .em r.agent [] listed

/-- Predictor index of a line address (R264). -/
def predictorIndex (a : Nat) : Nat :=
  Nat.xor (Nat.xor (bitsOf a 15 6) (bitsOf a 25 16)) (Nat.xor (bitsOf a 35 26) (bitsOf a 45 36))

def predictorKey (agent line : Nat) : Nat := agent * 1024 + predictorIndex (64 * line)

/-- A counter moves and saturates at 0 and 15 (R264). -/
def Coh.predict (c : Coh) (agent line : Nat) (up : Bool) (n : Nat) : Coh :=
  let k := predictorKey agent line
  let v := Tab.read c.predictor 0 k
  { c with predictor := Tab.write c.predictor k (if up then min 15 (v + n) else v - n) }

/-- R263: an atomic of `agent` on `line` runs near. One that the device issues for itself always does. -/
def State.runsNear (s : State) (agent line : Nat) : Bool :=
  if !cacheable line then true
  else if hostLine line then false
  else if agent = engineAgent then true
  else match s.obj 0x5801 1 0 with
    | 1 => true
    | 2 => false
    | _ => decide (s.obj 0x5801 2 8 ≤ Tab.read s.coh.predictor 0 (predictorKey agent line))

/-- The bytes of the line as the home holds them once every copy is recalled: what an owner forwarded, or
memory. -/
def Txn.homeBytes (t : Txn) (mem : List Byte) : List Byte := t.bytes.getD mem

/-- A masked or full non-caching write is made at the home. With no byte enabled it is a recall, which writes
back what an owner held. -/
def State.finishWrite (s : State) (t : Txn) : State :=
  let r := t.req
  let full := fullMask r
  let s := s.setCoh (s.coh.setEntry r.line .i 0 [])
  if hostLine r.line ∧ s.host.attach ≠ .attached then s
  else
    let b := mergeMask r.mask (t.homeBytes (s.memLine r.line)) r.bytes
    let s := s.putLine r.line b full
    if r.mask = 0 ∧ t.bytes.isNone then s
    else s.toHost (if full then .itoMWr else .dirtyEvict) r.line b

/-- A near atomic is made at the home; its result and CONTENDED go to R (R262, R264). -/
def State.finishAtomic (s : State) (t : Txn) : State :=
  let r := t.req
  let s := s.setCoh (s.coh.setEntry r.line .i 0 [])
  let waits := !(Tab.read s.coh.waitq [] r.line).isEmpty
  let hit := t.snooped || waits
  let s := if hit then s.cohCount r.line 5 1 else s
  let s := if r.agent < 42 then s.count 0x791A r.agent 1 else s
  match r.op with
  | none => s
  | some o =>
    if s.linePoisoned r.line then
      let s := s.noteRead (64 * r.line) 64
      s.setCoh ((s.coh.send (.data r.agent r.line zeroLine true)).send
        (.grant r.agent r.line none true hit false))
    else
      let mem := t.homeBytes (s.memLine r.line)
      let s := s.putLine r.line (atomicOnLine o r.offset mem) false
      s.setCoh ((s.coh.send (.data r.agent r.line (slice mem r.offset o.width) false)).send
        (.grant r.agent r.line none false hit false))

/-- A write-back that reaches the home (Table COH-6, R259). -/
def State.finishWb (s : State) (r : Req) : State :=
  let e := s.coh.entry r.line
  let s :=
    if e.owned ∧ e.owner = r.agent then
      let s := (s.putLine r.line r.bytes false).toHost .dirtyEvict r.line r.bytes
      s.setCoh (s.coh.dropHolder r.line r.agent)
    else s.cohCount r.line 4 1
  s.setCoh (s.coh.send (.wbAck r.agent r.line))

/-- A clean eviction: an agent that is no longer listed changes nothing (R259). -/
def State.finishCln (s : State) (r : Req) : State :=
  s.setCoh ((s.coh.dropHolder r.line r.agent).send (.wbAck r.agent r.line))

/-- The host die answers a host snoop that hit (R274); the host's memory takes what it receives, and a
device that keeps the line after SnpData keeps it clean (log 45). -/
def State.finishHost (s : State) (t : Txn) : State :=
  let r := t.req
  let e := s.coh.entry r.line
  let s := match t.bytes with
    | some b => s.putLine r.line b false
    | none => s
  let c := match r.kind with
    | .rdS => if e.st = .i then s.coh else s.coh.setEntry r.line .s 0 (e.holders.foldl insertNat [])
    | .rdX => s.coh.setEntry r.line .i 0 []
    | _ => s.coh
  (s.setCoh c).emit (.hostRsp r.line true t.bytes false)

/-- The request of an agent that has died or been answered goes on for the home alone: what its snoops
brought is written, and a line whose data went to the dead agent is lost (R269, log 46). -/
def State.finishDropped (s : State) (t : Txn) : State :=
  let n := t.req.line
  match t.req.kind with
  | .rdX | .upg =>
    if t.lost then
      if hostLine n then (s.count 0x7919 5 1).setCoh (s.coh.setEntry n .i 0 [])
      else s.poisonLine n 3 t.req.agent
    else
      let s := match t.bytes with
        | some b => (s.putLine n b false).toHost .dirtyEvict n b
        | none => s
      s.setCoh (s.coh.setEntry n .i 0 [])
  | .rdS =>
    let e := s.coh.entry n
    if e.st = .o ∧ e.sharers = [] then s.setCoh (s.coh.setEntry n .em e.owner []) else s
  | _ => s

/-- What follows the last answer of a transaction, and whether the line leaves BUSY now. -/
def State.finishTxn (s : State) (t : Txn) : State × Bool :=
  let r := t.req
  if r.isHost then (s.finishHost t, true)
  else if t.dropped ∧ (r.kind = .rdS ∨ r.kind = .rdX ∨ r.kind = .upg ∨ r.kind = .rdNc) then
    (s.finishDropped t, true)
  else match r.kind with
    | .rdS | .rdX | .upg => (s.finishGrant t, false)
    | .rdNc =>
      if t.refused then
        ((s.cohCount r.line 9 1).setCoh (s.coh.send (.data r.agent r.line zeroLine true)), true)
      else if t.forwarded then (s, true)
      else (s.dataFromMemory r.agent r.line, true)
    | .wrNc => (s.finishWrite t, true)
    | .atomN => (s.finishAtomic t, true)
    | .wb => (s.finishWb r, true)
    | .cln => (s.finishCln r, true)

/-- Nothing stands between the transaction and its end. -/
def Txn.settled (t : Txn) : Bool :=
  t.waitFor.isEmpty && !t.needHost && !t.granted && (!t.fwdDue || t.forwarded)

/-- Opens the transaction of request `r` and sends its snoops (R257). A read of a host window that does not
answer is refused (R271). -/
def State.openTxn (s : State) (r : Req) : State :=
  let e := s.coh.entry r.line
  let sn := snoopsFor e r
  let host := needsHost e r
  let t : Txn :=
    { req := r, waitFor := sn.map Prod.snd, needHost := host && s.hostServes
      refused := host && !s.hostServes, forwarded := false, fwdDue := false
      snooped := sn.any (fun k => k.2 != r.agent), granted := false, bytes := none, dropped := false
      lost := false }
  let c := sn.foldl (fun (c : Coh) k => c.send (.snoop
    { kind := k.1, agent := k.2, line := r.line, dest := r.dest, host := r.isHost })) s.coh
  let s := (s.setCoh (c.setTxn r.key t)).cohCount r.line 2 sn.length
  if t.needHost then s.emit (.cacheReq r.cacheOp r.line none) else s

/-- Ends transaction `k` when nothing keeps it. -/
def State.settle (s : State) (k : Nat) : State :=
  match s.coh.txn k with
  | none => s
  | some t =>
    if !t.settled then s
    else
      let d := s.finishTxn t
      if d.2 then d.1.setCoh (d.1.coh.endTxn k) else d.1

/-! ### Requests at the home (R254, R255) -/

/-- The request makes a new entry where the line has none. -/
def Req.takesWay (r : Req) : Bool := r.kind == .rdS || r.kind == .rdX || r.kind == .upg

/-- The request writes, or asks to. -/
def Req.writes (r : Req) : Bool :=
  r.kind == .rdX || r.kind == .upg || r.kind == .wrNc || r.kind == .atomN || r.kind == .wb

/-- A write to an object that moves is held until the move ends (R240). -/
def State.reqHeld (s : State) (r : Req) : Bool := r.writes && s.objWrite (64 * r.line) == .held

/-- A way is free for the request, or its victim can be recalled now. -/
def State.wayReady (s : State) (r : Req) : Bool :=
  !r.takesWay || (match s.victim r.line with
    | some v => (s.coh.txn v).isNone
    | none => true)

/-- The next request that can begin: the first of a line that is not BUSY. -/
def State.nextReq (s : State) : Option Req :=
  s.coh.waitq.findSome? (fun q =>
    if (s.coh.txn q.1).isSome then none
    else q.2.find? (fun r => !s.reqHeld r && s.wayReady r))

/-- The request leaves the queue of its line. -/
def Coh.dequeue (c : Coh) (r : Req) : Coh :=
  let q := (Tab.read c.waitq [] r.line).erase r
  { c with waitq := if q = [] then Tab.remove c.waitq r.line else Tab.write c.waitq r.line q }

/-- A server core takes an access exception (R226, R240, R266); a control core's is given under R99. -/
def State.trapCore (s : State) (agent cause addr : Nat) : State :=
  if serverCores agent then
    let t : CoreTrap := { cause := cause, tval := addr }
    (s.setCoh { s.coh with traps := Tab.write s.coh.traps agent t }).emit (.coreTrap agent t)
  else s

/-- The exception of an access that is refused or finds poison (Table COH-10): load, instruction fetch, or
store and AMO. LR is a load. -/
def Req.cause (r : Req) : Nat :=
  match r.kind with
  | .rdS => if r.fetch then 1 else 5
  | _ => if (r.op.map AtomicOp.op) = some 10 then 5 else 7

def State.trapReq (s : State) (r : Req) : State := s.trapCore r.agent r.cause (64 * r.line + r.offset)

/-- The agent no longer waits for the line. -/
def Coh.dropFill (c : Coh) (agent line : Nat) : Coh :=
  { c with fills := c.fills.filter (fun f => !(f.agent == agent && f.line == line))
           farOps := c.farOps.filter (fun f => !(f.agent == agent && f.line == line)) }

/-- A write to a PACKED object in tier 2 is refused: an access fault in a core (R240). A write-back that finds
one is dropped (log 80). -/
def State.refuseReq (s : State) (r : Req) : State :=
  if r.kind = .wb then s.setCoh (s.coh.send (.wbAck r.agent r.line))
  else (s.setCoh (s.coh.dropFill r.agent r.line)).trapReq r

/-- A request that can begin leaves its queue and begins. -/
def State.beginReq (s : State) (r : Req) : State :=
  let s := s.setCoh (s.coh.dequeue r)
  if r.writes ∧ s.objWrite (64 * r.line) = .refused then s.refuseReq r
  else (s.openTxn r).settle r.line

/-- A recall of the line: every copy is invalidated, and dirty data is written back (R254, log 48). -/
def State.recall (s : State) (line : Nat) : State :=
  let s := if hostLine line then s.count 0x7919 3 1 else s.cohCount line 3 1
  (s.openTxn (plainReq .wrNc homeAgent line)).settle line

/-- Requests begin until none can. `fuel` bounds their number with that of their recalls. -/
def State.beginFuel (s : State) (fuel : Nat) : State :=
  match fuel with
  | 0 => s
  | n + 1 =>
    match s.nextReq with
    | none => s
    | some r =>
      (match (if r.takesWay then s.victim r.line else none) with
       | some v => s.recall v
       | none => s.beginReq r).beginFuel n

/-- The requests that wait at their homes. -/
def Coh.waiting (c : Coh) : Nat := (c.waitq.map (fun q => q.2.length)).sum

def State.beginAll (s : State) : State := s.beginFuel (2 * s.coh.waiting + 2)

/-- A request reaches its home: it waits in the line's queue, in arrival order, and begins when it can. -/
def State.arrive (s : State) (r : Req) : State :=
  let s := s.cohCount r.line 0 1
  let q := Tab.read s.coh.waitq [] r.line ++ [r]
  (s.setCoh { s.coh with waitq := Tab.write s.coh.waitq r.line q }).beginAll

/-- A request that its agent waits on is sent. -/
def State.ask (s : State) (r : Req) : State :=
  (s.setCoh { s.coh with fills := s.coh.fills ++
    [{ agent := r.agent, line := r.line, req := r, data := none, grant := none }] }).arrive r

/-- Goes on with a transaction once an answer has come. -/
def State.advance (s : State) (k : Nat) : State := (s.settle k).beginAll

/-! ### Snoops at their agents (Table COH-7) -/

/-- The copy an agent holds, in its caches. -/
def Coh.copy (c : Coh) (agent line : Nat) : Option CacheLine :=
  c.lines.find? (fun l => l.agent == agent && l.line == line)

/-- The copy that answers a snoop: the caches', or the write-back buffer's (R259). -/
def Coh.answering (c : Coh) (agent line : Nat) : Option CacheLine :=
  match c.copy agent line with
  | some l => some l
  | none => c.wbBuf.find? (fun l => l.agent == agent && l.line == line && !l.gone)

/-- The agent's copy takes state `st`; none makes it Invalid. -/
def Coh.setCopy (c : Coh) (agent line : Nat) (st : Option Moesi) : Coh :=
  let mine := fun (l : CacheLine) => l.agent == agent && l.line == line
  match st with
  | some x =>
    { c with lines := c.lines.map (fun l => if mine l then { l with st := x } else l)
             wbBuf := c.wbBuf.map (fun l => if mine l then { l with st := x } else l) }
  | none =>
    { c with lines := c.lines.filter (fun l => !mine l)
             wbBuf := c.wbBuf.map (fun l => if mine l then { l with gone := true } else l)
             reserved := c.reserved.filter (fun x => x ≠ (agent, line)) }

/-- The agent's copy takes new bytes and is M. -/
def Coh.setBytes (c : Coh) (agent line : Nat) (b : List Byte) : Coh :=
  { c with lines := c.lines.map (fun l =>
      if l.agent == agent && l.line == line then { l with bytes := b, st := .m } else l) }

/-- What the agent's cores have stored into its copy: they write an M line, and an E line that becomes M,
without a request (Table COH-3). None of them writes a line whose object cannot be written now (R240). -/
def State.storedIn (s : State) (agent line : Nat) (b : List Byte) : State :=
  match s.coh.copy agent line with
  | some l =>
    if b.length = 64 ∧ agent ≠ hostAgent ∧ (l.st = .m ∨ l.st = .e) ∧ s.objWrite (64 * line) = .free then
      s.setCoh (s.coh.setBytes agent line b)
    else s
  | none => s

/-- Data goes straight to the requester, or to the home. -/
def Coh.forward (c : Coh) (x : Snoop) (bytes : List Byte) : Coh :=
  if x.dest < homeAgent then c.send (.data x.dest x.line bytes false)
  else
    let k := txnKey x.host x.line
    match c.txn k with
    | some t => c.setTxn k { t with bytes := some bytes }
    | none => c

/-- Table COH-7. After a host's SnpData the holder keeps the line clean (log 45). -/
def Coh.answer (c : Coh) (x : Snoop) : Coh :=
  let a := x.agent
  let n := x.line
  match x.kind, c.answering a n with
  | .snpInv, _ => (c.setCopy a n none).send (.rspI a n x.host)
  | _, none => c.send (.rspI a n x.host)
  | .snpS, some l =>
    if l.st = .s then c.send (.rspS a n x.host)
    else
      let dirty := l.st == .m || l.st == .o
      let c := (c.forward x l.bytes).send (.rspFwd a n dirty x.host)
      if dirty ∧ !x.host then (c.setCopy a n (some .o)).send (.rspO a n x.host)
      else (c.setCopy a n (some .s)).send (.rspS a n x.host)
  | .snpX, some l =>
    if l.st = .s then (c.setCopy a n none).send (.rspI a n x.host)
    else ((c.forward x l.bytes).setCopy a n none).send
      (.rspFwd a n (l.st == .m || l.st == .o) x.host)
  | .snpCur, some l =>
    if l.st = .s then c.send (.rspS a n x.host)
    else (c.forward x l.bytes).send (.rspFwd a n (l.st == .m || l.st == .o) x.host)

/-- A core of the agent holds a live LR reservation of the line (R260). -/
def Coh.delayed (c : Coh) (x : Snoop) : Bool :=
  (x.kind == .snpX || x.kind == .snpInv) && decide (x.agent < 31)
    && c.reserved.contains (x.agent, x.line)

/-- Agent 39 asks the host by a BISnp (R275). -/
def State.askHost (s : State) (x : Snoop) : State :=
  let s : State := { s with coh := { s.coh with biWait := s.coh.biWait ++ [x] } }
  (s.emit (.biSnp x.line (x.kind == .snpX || x.kind == .snpInv))).count 0x7919 4 1

/-- A snoop reaches its agent. -/
def State.snoopArrives (s : State) (x : Snoop) : State :=
  let s := s.setCoh (s.coh.take (.snoop x))
  if x.agent = hostAgent then s.askHost x
  else if s.coh.delayed x then s.setCoh { s.coh with lrHeld := s.coh.lrHeld ++ [x] }
  else s.setCoh (s.coh.answer x)

/-! ### Responses at the home -/

/-- Agent `a` no longer stands between a transaction and its end. -/
def State.answered (s : State) (host : Bool) (a line : Nat) : State :=
  let k := txnKey host line
  match s.coh.txn k with
  | none => s
  | some t =>
    (s.setCoh (s.coh.setTxn k { t with waitFor := t.waitFor.filter (fun x => x ≠ a) })).advance k

/-- RSP_I: the entry no longer names the agent. -/
def State.homeRspI (s : State) (a line : Nat) (host : Bool) : State :=
  (s.setCoh (s.coh.dropHolder line a)).answered host a line

/-- RSP_S: an owner has become a sharer; any other sharer stays one. -/
def Coh.ownerShares (c : Coh) (line a : Nat) : Coh :=
  let e := c.entry line
  if e.owned ∧ e.owner = a then c.setEntry line .s 0 (insertNat e.sharers a) else c

/-- RSP_O: the owner of an EM line is now its O holder. -/
def Coh.ownerOwes (c : Coh) (line a : Nat) : Coh :=
  let e := c.entry line
  if e.st = .em ∧ e.owner = a then c.setEntry line .o a [] else c

/-- The owner's state answer to SNP_S says that it forwards: the notice is still due when it has not come
(Table COH-7). -/
def Coh.noteDue (c : Coh) (host : Bool) (a line : Nat) : Coh :=
  let e := c.entry line
  match c.txn (txnKey host line) with
  | some t =>
    if t.req.kind = .rdS ∧ e.owned ∧ e.owner = a then c.setTxn (txnKey host line) { t with fwdDue := true }
    else c
  | none => c

def State.homeRspS (s : State) (a line : Nat) (host : Bool) : State :=
  (s.setCoh ((s.coh.noteDue host a line).ownerShares line a)).answered host a line

def State.homeRspO (s : State) (a line : Nat) (host : Bool) : State :=
  (s.setCoh ((s.coh.noteDue host a line).ownerOwes line a)).answered host a line

/-- RSP_FWD: data has been sent. After SNP_S the state answer comes by itself (Table COH-7). -/
def State.homeFwd (s : State) (a line : Nat) (host : Bool) : State :=
  let k := txnKey host line
  let s := s.cohCount line 1 1
  match s.coh.txn k with
  | none => s
  | some t =>
    let s := s.setCoh (s.coh.setTxn k { t with forwarded := true })
    if t.req.kind = .rdS then s.advance k else s.answered host a line

/-- The ACK takes the line out of BUSY at the home (R257). -/
def State.homeAck (s : State) (agent line : Nat) : State :=
  match s.coh.txn line with
  | some t =>
    if t.granted ∧ t.req.agent = agent then (s.setCoh (s.coh.endTxn line)).beginAll else s
  | none => s

/-! ### At the requester -/

/-- The bytes of an SC or AMO in a line that the agent holds in M, and its result (R262): LR answers the old
value and reserves the line, SC answers 0 when the reservation stands and 1 when it does not. -/
def State.farRuns (s : State) (f : FarOp) (l : CacheLine) : State :=
  let old := leNat (slice l.bytes f.offset f.op.width)
  let c := s.coh
  let kept := c.reserved.contains (f.agent, f.line)
  let free := c.reserved.filter (fun x => x ≠ (f.agent, f.line))
  let s := match f.op.op with
    | 10 => (s.setCoh { c with reserved := free ++ [(f.agent, f.line)] }).emit
        (.atomicResult f.agent f.line old)
    | 11 =>
      if kept then
        (s.setCoh (({ c with reserved := free } : Coh).setBytes f.agent f.line
          (overlay l.bytes f.offset (toLe f.op.width f.op.operand)))).emit (.atomicResult f.agent f.line 0)
      else s.emit (.atomicResult f.agent f.line 1)
    | _ => (s.setCoh (c.setBytes f.agent f.line (atomicOnLine f.op f.offset l.bytes))).emit
        (.atomicResult f.agent f.line old)
  s.count 0x791B f.agent 1

/-- The atomic that waited for the line runs in the agent's cache; the predictor moves by 2 where the line
came from another agent (R264). -/
def State.farReady (s : State) (agent line : Nat) : State :=
  match s.coh.farOps.find? (fun f => f.agent == agent && f.line == line), s.coh.copy agent line with
  | some f, some l =>
    let s := s.setCoh { s.coh with farOps := s.coh.farOps.erase f }
    let s := if f.taken ∧ f.op.op < 10 then s.setCoh (s.coh.predict agent line true 2) else s
    s.farRuns f l
  | _, _ => s

/-- What the agent waits on for the line. -/
def Coh.fill (c : Coh) (agent line : Nat) : Option Fill :=
  c.fills.find? (fun f => f.agent == agent && f.line == line)

def Coh.setFill (c : Coh) (f : Fill) : Coh :=
  { c with fills := c.fills.map (fun x => if x.agent == f.agent && x.line == f.line then f else x) }

/-- The requester no longer waits: its request is over. -/
def Coh.endFill (c : Coh) (agent line : Nat) : Coh :=
  { c with fills := c.fills.filter (fun f => !(f.agent == agent && f.line == line)) }

/-- The requester has its grant and, when one is due, its data: it installs the line and sends its ACK. A
poisoned answer is an exception in a server core (Table COH-10). The GRANT of a near atomic names no state;
its data is the result. What agent 39 receives goes to the host (R284). -/
def State.settleFill (s : State) (f : Fill) : State :=
  let c := s.coh
  match f.grant, f.data with
  | some (some x, _, _, true), _ =>
    (s.setCoh (((c.endFill f.agent f.line).setCopy f.agent f.line (some x)).send (.ack f.agent f.line))).farReady
      f.agent f.line
  | some (some x, _, _, false), some d =>
    let c := (c.endFill f.agent f.line).setCopy f.agent f.line none
    let l : CacheLine := { agent := f.agent, line := f.line, st := x, bytes := d.1, gone := false }
    let s := s.setCoh (({ c with lines := c.lines ++ [l] } : Coh).send (.ack f.agent f.line))
    let s := if f.agent = hostAgent then s.emit (.memData d.1 false) else s
    s.farReady f.agent f.line
  | some (none, true, _, _), some _ =>
    let s := s.setCoh ((c.dropFill f.agent f.line).send (.ack f.agent f.line))
    if f.agent = hostAgent then s.emit (.memData zeroLine true) else s.trapReq f.req
  | some (none, false, k, _), some d =>
    let c := (c.endFill f.agent f.line)
    let c := if f.agent < 42 then c.predict f.agent f.line k 1 else c
    (s.setCoh c).emit (.atomicResult f.agent f.line (leNat d.1))
  | _, _ => s

/-- GRANT arrives. -/
def State.grantArrives (s : State) (agent line : Nat) (g : Option Moesi × Bool × Bool × Bool) : State :=
  let s := s.setCoh (s.coh.take (.grant agent line g.1 g.2.1 g.2.2.1 g.2.2.2))
  match s.coh.fill agent line with
  | none => s
  | some f =>
    let f := { f with grant := some g }
    (s.setCoh (s.coh.setFill f)).settleFill f

/-- DATA arrives. An engine or port takes it without a copy. -/
def State.dataArrives (s : State) (agent line : Nat) (d : List Byte × Bool) : State :=
  let s := s.setCoh (s.coh.take (.data agent line d.1 d.2))
  match s.coh.fill agent line with
  | none => if d.2 then s.emit (.poisonResponse agent line) else s
  | some f =>
    let f := { f with data := some d }
    (s.setCoh (s.coh.setFill f)).settleFill f

/-- WB_ACK frees the write-back buffer entry (R259). -/
def State.wbAckArrives (s : State) (agent line : Nat) : State :=
  let c := s.coh.take (.wbAck agent line)
  s.setCoh { c with wbBuf := c.wbBuf.filter (fun l => !(l.agent == agent && l.line == line)) }

/-! ### Delivery -/

/-- A message that is in flight reaches its receiver. -/
def State.deliverMsg (s : State) (m : CohMsg) : State :=
  match m with
  | .snoop x => s.snoopArrives x
  | .rspI a l h => (s.setCoh (s.coh.take m)).homeRspI a l h
  | .rspS a l h => (s.setCoh (s.coh.take m)).homeRspS a l h
  | .rspO a l h => (s.setCoh (s.coh.take m)).homeRspO a l h
  | .rspFwd a l _ h => (s.setCoh (s.coh.take m)).homeFwd a l h
  | .grant a l st p k y => s.grantArrives a l (st, p, k, y)
  | .ack a l => (s.setCoh (s.coh.take m)).homeAck a l
  | .wbAck a l => s.wbAckArrives a l
  | .data a l b p => s.dataArrives a l (b, p)

/-- The delay of a snoop by a reservation ends: it is answered (R260). -/
def State.endDelay (s : State) (x : Snoop) : State :=
  s.setCoh (({ s.coh with lrHeld := s.coh.lrHeld.erase x }).answer x)

/-- The host's BIRsp (R275): what it held dirty is in memory now, and it keeps a shared copy or none. -/
def State.hostReturns (s : State) (x : Snoop) (data : Option (List Byte)) (keeps : Bool) : State :=
  let s := s.setCoh { s.coh with biWait := s.coh.biWait.erase x }
  let s := match data with
    | some b => s.putLine x.line (slice b 0 64) false
    | none => s
  let stays := keeps && (x.kind == .snpS || x.kind == .snpCur)
  if stays then s.setCoh (((s.coh.setCopy hostAgent x.line (some .s))).send (.rspS hostAgent x.line x.host))
  else s.setCoh ((s.coh.setCopy hostAgent x.line none).send (.rspI hostAgent x.line x.host))

/-- The bytes that the host holds of a device line. -/
def hostBytes (line : Nat) : List Byte := (List.range 64).map (fun i => Config.hostCopy (64 * line + i))

/-- The next message, delayed answer or answer of the host that a transaction on the line waits for
(`host` allows the last). -/
def State.pushLine (s : State) (line : Nat) (host : Bool) (fuel : Nat) : State :=
  match fuel with
  | 0 => s
  | n + 1 =>
    if s.coh.idleLine line then s
    else match s.coh.msgs.find? (fun m => m.line == line) with
      | some m => (s.deliverMsg m).pushLine line host n
      | none =>
        match s.coh.lrHeld.find? (fun x => x.line == line) with
        | some x => (s.endDelay x).pushLine line host n
        | none =>
          if !host then s
          else match s.coh.biWait.find? (fun x => x.line == line) with
            | some x =>
              (s.hostReturns x (if s.coh.hostOwns line then some (hostBytes line) else none) false).pushLine
                line host n
            | none =>
              match s.coh.txn line with
              | some t =>
                if t.needHost then
                  ((s.setCoh (s.coh.setTxn line { t with needHost := false })).advance line).pushLine
                    line host n
                else s
              | none => s

/-- The requests that reached the home of the lines lo to hi earlier are served: what they need of the fabric
is delivered (R255). -/
def State.drain (s : State) (lo hi : Nat) (host : Bool) : State :=
  if s.coh.txns = [] ∧ s.coh.waitq = [] then s
  else
    let here := fun (l : Nat) => decide (lo ≤ l ∧ l ≤ hi)
    let ls := ((s.coh.txns.map (fun t => t.2.req.line)) ++ s.coh.waitq.map Prod.fst).filter here
    let fuel := 3 * s.coh.msgs.length + 200 * (s.coh.waiting + s.coh.txns.length + 1)
    ls.foldl (fun (s : State) l => s.pushLine l host fuel) s

/-! ### Requests that end early (R245, R269) -/

/-- Forwards that would go to the agent go to the home. -/
def Coh.redirect (c : Coh) (agent line : Nat) : Coh :=
  let turn := fun (x : Snoop) => if x.dest = agent ∧ x.line = line then { x with dest := homeAgent } else x
  { c with
    lrHeld := c.lrHeld.map turn
    biWait := c.biWait.map turn
    msgs := c.msgs.map (fun m => match m with
      | .snoop x => .snoop (turn x)
      | m => m) }

/-- A tier 2 read of the agent is not served in time: it is given up, and the agent receives a poison response
(R245). None where the agent waits for no such read. -/
def State.stallRead (s : State) (agent line : Nat) : Option State :=
  let c := s.coh
  let away := fun (m : CohMsg) => match m with
    | .data a l _ _ => a == agent && l == line
    | .grant a l _ _ _ _ => a == agent && l == line
    | _ => false
  match c.fill agent line with
  | none => none
  | some f =>
    if !s.inTier2 (64 * line) then none
    else
      let gone := (s.cohCount line 9 1)
      if (Tab.read c.waitq [] line).contains f.req then
        some ((gone.setCoh (c.dequeue f.req)).answerPoison agent line)
      else match c.txn line with
        | none => none
        | some t =>
          if t.req.agent ≠ agent ∨ t.forwarded then none
          else if !t.granted then
            some (((gone.setCoh ((c.setTxn line { t with dropped := true }).redirect agent line)).answerPoison
              agent line).advance line)
          else if f.data.isNone ∧ (c.dataSent agent line).isSome then
            let c := { c with msgs := c.msgs.filter (fun m => !away m) }
            let c := ((c.dropHolder line agent).setFill { f with grant := none }).endTxn line
            some ((gone.setCoh c).answerPoison agent line).beginAll
          else none

end Sys2Proof.Machine
end

