-- ==== Sys2Proof/Machine/Memory.lean ====
section
/-!
DEFINITION. Reads and writes by engines: one non-caching access at the line's home (R250, R257).
-/

namespace Sys2Proof.Machine

open Sys2Proof

/-- The lines that `n` bytes from `a` cover whole. -/
def fullLines (a n : Nat) : List Nat :=
  (linesOf a n).filter (fun l => decide (a ≤ 64 * l ∧ 64 * l + 64 ≤ a + n))

/-- Writes back what an owner holds of a line, the host too, into the cells (the merge of a masked WR_NC). -/
def State.recallLine (s : State) (line : Nat) : State :=
  let put := fun (b : List Byte) =>
    ({ s with mem := { s.mem with cells := cellsPutAll s.mem.cells (64 * line) b } } : State)
  match s.coh.ownerCopy line with
  | some l => put l.bytes
  | none => if s.coh.hostOwns line then put (hostBytes line) else s

/-- Drops what a range held: cells, poison, copies and written frames (R235, R237). -/
def State.clearRange (s : State) (a n : Nat) : State :=
  if n = 0 then s
  else
    let s := s.dropCopies (a / 64) ((a + n - 1) / 64)
    { s with
      mem := { cells := s.mem.cells.filter (fun c => decide (c.1 < a ∨ a + n ≤ c.1))
               poison := s.mem.poison.filter (fun l => decide (64 * l + 64 ≤ a ∨ a + n ≤ 64 * l)) }
      frames := s.frames.filter (fun f => decide (65536 * f + 65536 ≤ a ∨ a + n ≤ 65536 * f)) }

/-- A freshly backed range is lost with no hub that retired before (R243). -/
def State.freshRange (s : State) (a n : Nat) : State :=
  if s.coh.losses = [] then s
  else
    let l := s.coh.losses.map (fun h => { h with fresh := (a, n) :: h.fresh })
    { s with coh := { s.coh with losses := l } }

/-- The bytes, poison and copies after `bs` is written from `a` as one engine write: what reached the home
earlier is served first (R255), full lines lose their poison, others keep it (R265), every copy is invalidated
(Table COH-6), and a frame of a skein object is encoded (R229). -/
def State.storeBytes (s : State) (a : Nat) (bs : List Byte) : State :=
  if bs = [] then s
  else
    let n := bs.length
    let lo := a / 64
    let hi := (a + n - 1) / 64
    let s := ((s.drain lo hi true).recallLine lo).recallLine hi
    let s := s.dropCopies lo hi
    let full := fullLines a n
    let s := s.settleLines full
    let s := if s.inTier2 a then s.noteFrames a n else s
    let s : State := { s with mem :=
      { cells := cellsPutAll s.mem.cells a bs
        poison := s.mem.poison.filter (fun l => !full.contains l) } }
    s.encodeRange a n

/-- A host-bound write is discarded while the host is not attached (R297). -/
def State.writeMem (s : State) (a : Nat) (bs : List Byte) : State :=
  if inHostWindow a && !(s.host.attach == .attached) then s
  else (s.storeBytes a bs).countTier a bs.length true

/-- Poison is written to the lines that `n` bytes from `a` touch, after what reached their homes earlier
(R265). -/
def State.poisonRange (s : State) (a n reason agent : Nat) : State :=
  let s := if n = 0 then s else s.drain (a / 64) ((a + n - 1) / 64) true
  (linesOf a n).foldl (fun (s : State) l => s.storePoison l reason agent) s

end Sys2Proof.Machine
end

