-- ==== Sys2Proof/Machine/Flags.lean ====
section
/-!
DEFINITION. Completion status codes (Table SCO-3), flags of detail words, and the opcode map.
-/

namespace Sys2Proof.Machine

open Sys2Proof

/-! ### Table SCO-3 -/

def stDone : Byte := 0x00
def stDoneEmpty : Byte := 0x01
def stDoneSkipped : Byte := 0x02
def stDoneFrozen : Byte := 0x03
def stBadCheck : Byte := 0x10
def stStale : Byte := 0x11
def stBadField : Byte := 0x12
def stBadOpcode : Byte := 0x13
def stNoLease : Byte := 0x20
def stTierStall : Byte := 0x21
def stStashFull : Byte := 0x22
def stPoisonSrc : Byte := 0x30
def stNarOut : Byte := 0x31
def stCfgMismatch : Byte := 0x40
def stStepSkew : Byte := 0x41
def stViewChanged : Byte := 0x42
def stPeerLost : Byte := 0x50
def stHostEpoch : Byte := 0x51
def stAborted : Byte := 0x60

/-- The code is one of Table SCO-3. -/
def statusListed (b : Byte) : Bool :=
  [stDone, stDoneEmpty, stDoneSkipped, stDoneFrozen, stBadCheck, stStale, stBadField, stBadOpcode, stNoLease,
   stTierStall, stStashFull, stPoisonSrc, stNarOut, stCfgMismatch, stStepSkew, stViewChanged, stPeerLost,
   stHostEpoch, stAborted].contains b

/-- Status, DETAIL and DETAIL2 of a completion. -/
abbrev Outcm := Byte × BitVec 32 × BitVec 32

/-- An outcome whose two detail words are given as numbers. -/
def outcm (st : Byte) (detail detail2 : Nat) : Outcm :=
  (st, BitVec.ofNat 32 detail, BitVec.ofNat 32 detail2)

def badField : Outcm := outcm stBadField 0 0
def doneEmpty : Outcm := outcm stDoneEmpty 0 0
def noLease : Outcm := outcm stNoLease 0 0
def doneOk : Outcm := outcm stDone 0 0

/-- Bit 31 of a detail word: DECLINED, ABSENT, ALREADY, REFUSED_PINNED. -/
def bit31 : Nat := 2 ^ 31

/-- The opcodes that the engine chapters list; every other one completes with BAD_OPCODE. -/
def knownOpcode (o : Nat) : Bool :=
  decide (o ≤ 0x02 ∨ (0x10 ≤ o ∧ o ≤ 0x15) ∨ (0x30 ≤ o ∧ o ≤ 0x32) ∨ (0x40 ≤ o ∧ o ≤ 0x48) ∨
    (0x58 ≤ o ∧ o ≤ 0x5A) ∨ o = 0x60 ∨ (0x70 ≤ o ∧ o ≤ 0x79) ∨ (0x80 ≤ o ∧ o ≤ 0x81) ∨
    (0x90 ≤ o ∧ o ≤ 0x95) ∨ (0xA0 ≤ o ∧ o ≤ 0xA4) ∨ (0xB0 ≤ o ∧ o ≤ 0xB7))

end Sys2Proof.Machine
end

