-- ==== Sys2Proof/Machine/Operands.lean ====
section
/-!
DEFINITION. Operand forms: descriptor fields by their byte offset (R291, R5) and global addresses (R25,
R204).
-/

namespace Sys2Proof

/-- The `n` bytes of a body from descriptor byte `off` (16 to 59), as a little-endian number. -/
def fieldOf (body : BitVec 352) (off n : Nat) : Nat :=
  body.toNat / 2 ^ (8 * (off - 16)) % 2 ^ (8 * n)

/-- Bits [hi:lo] of descriptor byte `off`. -/
def fieldBits (body : BitVec 352) (off hi lo : Nat) : Nat := bitsOf (fieldOf body off 1) hi lo

/-- Every byte of [lo, hi) is zero. -/
def fieldZero (body : BitVec 352) (lo hi : Nat) : Bool := fieldOf body lo (hi - lo) == 0

/-- The 44 body bytes of a 64-byte descriptor. -/
def bodyOf (desc : BitVec 512) : BitVec 352 := desc.extractLsb' 128 352

end Sys2Proof

namespace Sys2Proof.Machine

open Sys2Proof

/-! ### Addresses -/

def domainSize (s : State) : Nat := s.obj 0x5000 2 1

/-- DOMAIN_DEVICE: the device's own number in its domain (R25). -/
def ownDevice (s : State) : Nat := s.obj 0x5000 4 0

/-- How a global address is decoded (R25). -/
inductive Target where
  | here (a : Nat)
  | peer (dev a : Nat)
  | bad
  deriving DecidableEq, Repr

/-- Decodes a 64-bit address field (R25, R204). -/
def decodeAddr (s : State) (v : Nat) : Target :=
  let dev := bitsOf v 53 48
  let a := v % 2 ^ 48
  if v / 2 ^ 54 ≠ 0 then .bad
  else if dev = ownDevice s then .here a
  else if domainSize s ≤ dev then .bad
  else .peer dev a

end Sys2Proof.Machine
end

