-- ==== Sys2Proof/Machine/Queue.lean ====
section
/-!
DEFINITION. Queues (12): completion records in sequence order, confirmed flushes, aborts, and
the hand-over of fetched descriptors under R98.
-/

namespace Sys2Proof.Machine

open Sys2Proof

def State.queue (s : State) (q : BitVec 16) : QCtx := Tab.read s.queues QCtx.init q.toNat

def State.setQueue (s : State) (q : BitVec 16) (c : QCtx) : State :=
  { s with queues := Tab.write s.queues q.toNat c }

/-- The lease of a queue. -/
def State.queueLease (s : State) (q : BitVec 16) : Lease := s.lease (s.queue q).lease

/-- Every byte lies within the lease of queue `q` (R226). -/
def State.within (s : State) (q : BitVec 16) (a len : Nat) : Bool :=
  s.leaseCovers (s.queue q).lease a len

/-- How far sequence `b` lies ahead of `a`, modulo 2^16. -/
def seqAhead (a b : BitVec 16) : Nat := (b - a).toNat

def cqInHost (c : QCtx) : Bool := inHostWindow c.cqBase
def sqInHost (c : QCtx) : Bool := inHostWindow c.sqBase

/-- Host-facing (R288). -/
def hostFacing (c : QCtx) : Bool := cqInHost c || sqInHost c

/-! ### Objects of Table HST-16 -/

def State.cqFlushEvery (s : State) : Nat := s.obj 0x4811 3 32

/-! ### Records (R294, R295) -/

/-- PHASE of sequence `q` in a ring of `depth` (R294). -/
def phaseOf (depth : Nat) (q : BitVec 16) : Bool := q.toNat / depth % 2 == 0

/-- The 16 bytes of a record (Table HST-14). -/
def recordBytes (q : BitVec 16) (depth : Nat) (r : CRec) (uncertain replayed : Bool) : List Byte :=
  let fl := (if phaseOf depth r.seq then 1 else 0) + (if uncertain then 2 else 0)
    + (if replayed then 4 else 0)
  toLe 2 r.seq.toNat ++ toLe 2 q.toNat ++ [r.status] ++ toLe 1 fl ++ [r.opcode] ++ [0]
    ++ toLe 4 r.detail.toNat ++ toLe 4 r.detail2.toNat

/-- A zero-length read to the completion ring (R295). -/
def State.issueFlush (s : State) (q : BitVec 16) : State :=
  let c := s.queue q
  (s.setQueue q { c with flushReads := c.flushReads ++ [c.cqWritten], sinceFlush := 0 }).emit
    (.zeroRead q)

/-- The slot of sequence `n` in the completion ring. -/
def QCtx.cqSlot (c : QCtx) (n : BitVec 16) : Nat := c.cqBase + 16 * (n.toNat % c.depth)

/-- Writes one record of `q` with its flags and moves CQ_WRITTEN; MSI-X and confirmation follow
R295. A ring in a PACKED object that lies in tier 2 takes no bytes (R240, log 80). -/
def State.putRecord (s : State) (q : BitVec 16) (r : CRec) (uncertain replayed : Bool) : State :=
  let c := s.queue q
  let a := c.cqSlot r.seq
  let s := if s.objWrite a = .refused then s else s.writeMem a (recordBytes q c.depth r uncertain replayed)
  let s := s.count 0x7921 7 1
  let s := if replayed then s.count 0x7921 0xB 1 else s
  let c := s.queue q
  let c := { c with results := Tab.write c.results r.seq.toNat (r.status, r.detail) }
  let w := r.seq + 1
  let c :=
    if cqInHost c then
      { c with cqWritten := w, unconfirmed := c.unconfirmed ++ [r], sinceFlush := c.sinceFlush + 1 }
    else { c with cqWritten := w, cqConfirmed := w }
  let s := s.setQueue q c
  let s :=
    if (r.irq ∨ (c.irqOnError ∧ 0x10 ≤ r.status.toNat)) ∧ c.vector ≠ 0xFFFF then
      s.msix c.vector.toNat
    else s
  if cqInHost c ∧ s.cqFlushEvery ≤ c.sinceFlush then s.issueFlush q else s

/-- The record of a completed descriptor. -/
def Fetched.record (f : Fetched) (status : Byte) (detail detail2 : BitVec 32) : CRec :=
  { seq := f.seq, status := status, opcode := f.opcode, detail := detail, detail2 := detail2,
    irq := f.irq }

/-- The window of R293 admits sequence NEXT_SEQ. -/
def windowAdmits (c : QCtx) : Bool :=
  decide (max (seqAhead c.cqHead c.nextSeq) (seqAhead c.cqConfirmed c.nextSeq) < c.depth)

/-- A fetched descriptor counts as uncompleted for the flush rule of R295: it is not done and
not a QCTL_FLUSH. -/
def Fetched.open (f : Fetched) : Bool :=
  match f.phase with
  | .done _ _ _ => false
  | _ => f.opcode != 0x02

/-- One turn of the record engine of queue `q`: the front descriptor's record, when it has
completed, is written, or held while the queue is orphaned (R298); a QCTL_FLUSH at the front
completes or asks for its read (R295, R296); an aborted sequence enters the window (R300). None
when there is nothing to do, or a move holds the ring (R240). -/
def State.pumpOnce (s : State) (q : BitVec 16) : Option State :=
  let c := s.queue q
  match c.fetched with
  | [] =>
    match c.abortTail with
    | none => none
    | some t =>
      if c.nextSeq = t then some (s.setQueue q { c with abortTail := none })
      else if c.state = .active ∨ c.state = .revoked then
        if windowAdmits c then
          let f : Fetched :=
            { seq := c.nextSeq, opcode := 0xFF, irq := false, body := 0, granted := false,
              phase := .done stAborted 0 0 }
          some (s.setQueue q { c with fetched := [f], nextSeq := c.nextSeq + 1 })
        else none
      else none
  | f :: r =>
    match f.phase with
    | .done st d1 d2 =>
      let s := s.setQueue q { c with fetched := r }
      let rec_ := f.record st d1 d2
      if c.state = .orphaned then
        some (s.setQueue q { c with fetched := r, held := c.held ++ [rec_] })
      else if s.objWrite (c.cqSlot f.seq) = .held then none
      else some (s.putRecord q rec_ false false)
    | .running .dispatch =>
      if f.opcode = 0x02 then
        if c.state = .orphaned then none
        else if c.cqConfirmed = f.seq then
          some (s.setQueue q { c with fetched := { f with phase := .done stDone 0 0 } :: r })
        else if c.flushReads.getLast? = some c.cqWritten then none
        else some (s.issueFlush q)
      else none
    | _ => none

def State.pumpFuel (s : State) (q : BitVec 16) (fuel : Nat) : State :=
  match fuel with
  | 0 => s
  | n + 1 =>
    match s.pumpOnce q with
    | none => s
    | some t => t.pumpFuel q n

/-- Runs the record engine of `q` until it rests. A host ring gets a zero-length read when no
fetched descriptor is left uncompleted and records stand unconfirmed without one (R295). -/
def State.pump (s : State) (q : BitVec 16) : State :=
  let c := s.queue q
  let s := s.pumpFuel q (3 * c.fetched.length + 3 * c.depth + 4)
  let c := s.queue q
  if cqInHost c ∧ (c.state = .active ∨ c.state = .revoked) ∧ !c.fetched.any Fetched.open
      ∧ c.cqConfirmed ≠ c.cqWritten ∧ c.flushReads.getLast? ≠ some c.cqWritten then
    s.issueFlush q
  else s

/-! ### Completion -/

/-- The fetched descriptor of queue `q` with sequence `n`. -/
def QCtx.entry (c : QCtx) (n : BitVec 16) : Option Fetched := c.fetched.find? (fun f => f.seq == n)

/-- Replaces the fetched descriptor with sequence `n`. -/
def QCtx.updEntry (c : QCtx) (n : BitVec 16) (g : Fetched → Fetched) : QCtx :=
  { c with fetched := c.fetched.map (fun f => if f.seq = n then g f else f) }

/-- An uncompleted entry becomes complete with outcome `o`; a completed one stays. -/
def Fetched.finish (f : Fetched) (o : Outcm) : Fetched :=
  match f.phase with
  | .done _ _ _ => f
  | _ => { f with phase := .done o.1 o.2.1 o.2.2 }

/-- The descriptor completes with outcome `o`, and its record follows in order (R294). -/
def State.complete (s : State) (q n : BitVec 16) (o : Outcm) : State :=
  let c := s.queue q
  (s.setQueue q (c.updEntry n (fun f => f.finish o))).pump q

/-! ### Engines (R98) -/

/-- The engine a descriptor of queue `q` names, by opcode and body (R98, R203, Tables STR-1,
LOM-9, BWD-2, PRU-9). -/
def engineOf (q : BitVec 16) (op : Byte) (body : BitVec 352) : Engine :=
  let o := op.toNat
  let own := Engine.shuttle (q.toNat % 4)
  let sh :=
    let v := fieldBits body 16 2 0
    if v < 4 then Engine.shuttle v else own
  if o = 0x10 ∨ o = 0x11 ∨ o = 0x12 ∨ o = 0xB0 then sh
  else if o = 0x72 ∨ o = 0x73 ∨ o = 0xB1 then own
  else if o = 0x30 ∨ o = 0x70 then
    if bitOf (fieldOf body 22 1) 7 then .anyLoom else .loom (fieldBits body 22 2 0)
  else if 0x40 ≤ o ∧ o ≤ 0x48 then
    if bitOf (fieldOf body 22 1) 7 then .anyVec else .vec (fieldBits body 22 3 0)
  else if 0x58 ≤ o ∧ o ≤ 0x5A then .seqCores
  else if o = 0x60 then .reed
  else if o = 0x71 then .attnLooms
  else if o = 0x80 ∨ o = 0x81 ∨ o = 0x92 then .update
  else if 0xA0 ≤ o ∧ o ≤ 0xA4 then .tier
  else if 0xB4 ≤ o ∧ o ≤ 0xB6 then .collective
  else .dispatch

/-- The engine a fetched descriptor runs on: the one it was handed to, or the one it names. -/
def Fetched.engine (f : Fetched) (q : BitVec 16) : Engine :=
  match f.phase with
  | .running e => e
  | _ => engineOf q f.opcode f.body

/-- R98 and R296: `before` are the earlier fetched descriptors of the queue, oldest first. An
earlier one that still waits holds this one; so does any uncompleted one when the predecessor's
engine is not `e`. -/
def r98Clear (q : BitVec 16) (before : List Fetched) (e : Engine) : Bool :=
  let waits := before.any (fun f => f.phase == .waiting)
  let openOnes := before.any (fun f => match f.phase with | .done _ _ _ => false | _ => true)
  match before.getLast? with
  | none => true
  | some p => !waits && (p.engine q == e || !openOnes)

/-- The fetched descriptors before sequence `n`. -/
def QCtx.before (c : QCtx) (n : BitVec 16) : List Fetched :=
  c.fetched.takeWhile (fun f => f.seq != n)

/-- Queue `q` is in the treadle set of its die (R129). -/
def State.bound (s : State) (q : BitVec 16) : Bool := (Tab.find s.treadle q.toNat).isSome

/-- The device is in a position to check descriptor `d` of opcode `op` and to hand it to engine
`e`: the module is ready (R429), the queue runs, the descriptor is fetched and waiting, R98 does
not hold it, and the treadle has granted it when its queue is bound (R129). -/
def State.canDispatchTo (s : State) (d : Desc) (op : Byte) (e : Engine) : Bool :=
  let c := s.queue d.queue
  s.ready && (c.state == .active || c.state == .orphaned) &&
    (match c.entry d.seq with
     | none => false
     | some f => f.phase == .waiting && f.opcode == op && f.body == d.body
        && r98Clear d.queue (c.before d.seq) e
        && (!s.bound d.queue || f.granted))

def State.canDispatch (s : State) (d : Desc) (op : Byte) : Bool :=
  s.canDispatchTo d op (engineOf d.queue op d.body)

/-- The descriptor's outcome is decided: it completes (R97). -/
def State.finish (s : State) (d : Desc) (o : Outcm) : State := s.complete d.queue d.seq o

/-- The descriptor is handed to engine `e` (R97); DESCRIPTORS_DISPATCHED counts it. -/
def State.handOver (s : State) (d : Desc) (e : Engine) : State :=
  let c := s.queue d.queue
  (s.setQueue d.queue (c.updEntry d.seq (fun f => { f with phase := .running e }))).count 0x7870
    c.die 1

/-- A descriptor that runs whole on its engine when it is handed over: `f` is its effect on the
state beside its completion. -/
def State.runNow (s : State) (d : Desc) (op : Byte) (f : State → State × Outcm) : State :=
  let r := f (s.handOver d (engineOf d.queue op d.body))
  r.1.finish d r.2

/-- The common frame of a descriptor command: nothing happens unless the device can act on it. -/
def State.onDesc (s : State) (d : Desc) (op : Byte) (f : State → State) : Result :=
  if s.canDispatch d op then .next (f s) else .next s

/-- The configuration a descriptor reads at dispatch (R357): tabby mode for queue `q` (R197). -/
def State.stepOf (s : State) (q : BitVec 16) : Nat := (s.queue q).step

/-- The entry is still running on its engine. -/
def State.runningAt (s : State) (q n : BitVec 16) : Bool :=
  match (s.queue q).entry n with
  | some f => match f.phase with | .running _ => true | _ => false
  | none => false

/-- The configured opcode of a fetched descriptor. -/
def State.entryOpcode (s : State) (q n : BitVec 16) : Option Byte :=
  ((s.queue q).entry n).map (fun f => f.opcode)

end Sys2Proof.Machine
end

