-- ==== Sys2Proof/Machine/Pairs.lean ====
section
/-!
DEFINITION. The configuration pair (R313, R359, R361, R362) and the membership view (R314, R315): the
epoch, digest and view that hold at a step.
-/

namespace Sys2Proof.Machine

open Sys2Proof

/-! ### The canonical encoding (Tables DFT-10, DFT-11) -/

/-- A binding object: index, sub-index, type code, length and default. -/
structure BindObj where
  index : Nat
  sub   : Nat
  ty    : Nat
  len   : Nat
  dflt  : Nat
  deriving DecidableEq, Repr

/-- Table DFT-11, in ascending order. -/
def bindingObjects : List BindObj :=
  [⟨0x3403, 2, 5, 8, 16000000000⟩, ⟨0x3801, 1, 2, 1, 1⟩, ⟨0x3801, 2, 5, 8, 0⟩, ⟨0x3802, 1, 6, 1, 16⟩,
   ⟨0x3802, 2, 6, 1, 224⟩, ⟨0x3802, 3, 6, 1, 40⟩, ⟨0x3802, 4, 4, 4, 2000⟩, ⟨0x3803, 1, 2, 1, 1⟩,
   ⟨0x3803, 2, 2, 1, 2⟩, ⟨0x3803, 3, 4, 4, 1024⟩, ⟨0x3803, 4, 3, 2, 64⟩, ⟨0x3810, 1, 3, 2, 0⟩,
   ⟨0x3810, 2, 4, 4, 0⟩, ⟨0x5000, 2, 2, 1, 1⟩, ⟨0x5000, 6, 2, 1, 0⟩, ⟨0x5500, 2, 10, 8, 0⟩]

/-- The value of a binding object in a set of active values. -/
def BindObj.value (b : BindObj) (t : Tab (List Byte)) : List Byte :=
  (Tab.find t (objKey b.index b.sub)).getD (toLe b.len b.dflt)

/-- An entry of Table DFT-10. -/
def BindObj.encode (b : BindObj) (t : Tab (List Byte)) : List Byte :=
  toLe 2 b.index ++ toLe 1 b.sub ++ toLe 1 b.ty ++ toLe 4 b.len ++ b.value t

/-- CANONICAL_IMAGE of a set of active values (R361, R362). -/
def canonicalImage (t : Tab (List Byte)) : List Byte :=
  ascii "KL30CFG1" ++ toLe 4 bindingObjects.length ++ List.replicate 4 0
    ++ (bindingObjects.map (fun b => b.encode t)).flatten

/-- The configuration digest (R361). -/
def configDigest (t : Tab (List Byte)) : List Byte := sha256 (canonicalImage t)

/-- A digest as the Peruo header carries it: its first 8 bytes under R5 (R305, R361). -/
def digest64 (d : List Byte) : BitVec 64 := BitVec.ofNat 64 (leNat (slice d 0 8))

/-- Epoch and 64-bit digest. -/
abbrev CfgPair := BitVec 32 × BitVec 64

/-- The pair in force. -/
def State.pairNow (s : State) : CfgPair :=
  (BitVec.ofNat 32 s.draft.epoch, digest64 (configDigest s.draft.active))

/-- The pair before the last stepped switch. -/
def State.pairPrev (s : State) : CfgPair :=
  (BitVec.ofNat 32 s.draft.prevEpoch, digest64 (configDigest s.draft.prevActive))

/-- The pair that a transaction of step `t` is checked against (R313). -/
def State.pairAt (s : State) (t : Nat) : CfgPair :=
  match s.draft.prevStep with
  | some k => if t < k then s.pairPrev else s.pairNow
  | none => s.pairNow

/-! ### Identity and view (R314, R315) -/

def podOf (domain device : Nat) : Nat := 64 * domain + device

/-- The device's own pod identifier (R314). -/
def State.ownPod (s : State) : Nat := podOf (s.obj 0x5000 3 0) (ownDevice s)

/-- POD_MODE (Table PRU-11). -/
def State.podMode (s : State) : Nat := s.obj 0x5000 6 0

/-- A bitmap of `n` bytes in which bit `i` alone is set. -/
def oneBit (n i : Nat) : List Byte :=
  (List.range n).map (fun k => if k = i / 8 then BitVec.ofNat 8 (2 ^ (i % 8)) else 0)

/-- View 0: the device alone (R315). -/
def State.view0 (s : State) : List Byte := List.replicate 8 0 ++ oneBit 1536 s.ownPod

/-- The view record in force. -/
def State.viewRecord (s : State) : List Byte := s.objBytes 0x5002 3 s.view0

/-- The view record held for step `t` (R315). -/
def State.viewAt (s : State) (t : Nat) : List Byte :=
  match s.draft.prevStep with
  | some k =>
    if t < k then (Tab.find s.draft.prevActive (objKey 0x5002 3)).getD s.view0 else s.viewRecord
  | none => s.viewRecord

def viewNumber (v : List Byte) : Nat := leNat (slice v 0 4)

/-- Bit `p` of the membership bitmap. -/
def viewHas (v : List Byte) (p : Nat) : Bool :=
  decide (p < 12288) && (v.getD (8 + p / 8) 0).getLsbD (p % 8)

/-- The first 64 bits of the SHA-256 digest of a view record (R315), in the byte order of R5. -/
def viewDigest (v : List Byte) : BitVec 64 := digest64 (sha256 v)

/-! ### Headers (Table PRU-2) -/

/-- The agreement fields this device sends to `p` for a transaction of step `t`. -/
def State.header (s : State) (p : Nat) (xtag : BitVec 12) (t : Nat) : XHdr :=
  let c := s.pairAt t
  { src := s.ownPod, dst := p, xtag := xtag, epoch := c.1, digest := c.2
    view := BitVec.ofNat 32 (viewNumber (s.viewAt t)) }

end Sys2Proof.Machine
end

