-- ==== Sys2Proof/Machine/Skein.lean ====
section
/-!
DEFINITION. Skein arithmetic (02, R85, R87, R195): exact values, reduction groups, requantization
and accumulator images. Nothing here touches the state.
-/

namespace Sys2Proof.Machine

open Sys2Proof

/-! ### Exact values -/

/-- An exact value m × 2^e, or NaR. -/
inductive XV where
  | num (m e : Int)
  | nar
  deriving DecidableEq, Repr

/-- v × 2^k, with the floor for negative k (R40). -/
def shiftFloor (v k : Int) : Int := if 0 ≤ k then v * 2 ^ k.toNat else v / 2 ^ (-k).toNat

def XV.isNar (x : XV) : Bool := match x with | .nar => true | _ => false

/-- Not NaR and exactly zero. -/
def XV.isZero (x : XV) : Bool := match x with | .num m _ => m == 0 | .nar => false

/-- a < b for exact values (R50). -/
def ltExact (ma ea mb eb : Int) : Bool :=
  let e := min ea eb
  decide (ma * 2 ^ (ea - e).toNat < mb * 2 ^ (eb - e).toNat)

/-- max of R50: NaR is ignored. DESIGN CHOICE: of two equal values the first operand's form is kept; its
exponent is seen only in an ACC64 output, and R87 does not say which it is (log 75). -/
def XV.max (a b : XV) : XV :=
  match a, b with
  | .nar, b => b
  | a, .nar => a
  | .num ma ea, .num mb eb => if ltExact ma ea mb eb then .num mb eb else .num ma ea

/-- min of R50, with `XV.max`'s choice between equals. -/
def XV.min (a b : XV) : XV :=
  match a, b with
  | .nar, b => b
  | a, .nar => a
  | .num ma ea, .num mb eb => if ltExact mb eb ma ea then .num mb eb else .num ma ea

def XV.neg (a : XV) : XV := match a with | .num m e => .num (-m) e | .nar => .nar
def XV.abs (a : XV) : XV := match a with | .num m e => .num m.natAbs e | .nar => .nar

/-- The exact product (R86). -/
def XV.mul (a b : XV) : XV :=
  match a, b with
  | .num ma ea, .num mb eb => .num (ma * mb) (ea + eb)
  | _, _ => .nar

/-- The exact difference (R141). -/
def XV.sub (a b : XV) : XV :=
  match a, b with
  | .num ma ea, .num mb eb =>
    let e := Min.min ea eb
    .num (ma * 2 ^ (ea - e).toNat - mb * 2 ^ (eb - e).toNat) e
  | _, _ => .nar

/-! ### Values and scales (R34) -/

/-- The value of an element under its scale (R34). -/
def valueOf (k : Scale) (m : Elem) : XV :=
  match k, m with
  | .zero, _ => .num 0 0
  | .nan, _ => .nar
  | .exp _, .nar => .nar
  | .exp e, .val v => .num v e

/-! ### Reduction groups (R39 to R42, R85) -/

/-- A term: its exponent for E_max when it takes part in it, its value scaled so that the sum
stands at E_max less the guard bits, and whether it is NaR. -/
structure Term where
  key : Option Int
  v   : Int
  nar : Bool
  deriving DecidableEq, Repr

def narTerm : Term := { key := none, v := 0, nar := true }
def noTerm : Term := { key := none, v := 0, nar := false }

/-- An element as a term, with `g` guard bits; an ACC64 element carries its own (R85). -/
def elemTerm (g : Nat) (f : Fmt) (k : Scale) (m : Elem) : Term :=
  match k with
  | .zero => noTerm
  | .nan => narTerm
  | .exp e =>
    match m with
    | .nar => { key := some e, v := 0, nar := true }
    | .val x =>
      if f = .acc64 then { key := some (e + g), v := x, nar := false }
      else { key := some e, v := x * 2 ^ g, nar := false }

def Term.neg (t : Term) : Term := { t with v := -t.v }

/-- A product as a term (R39, R41): `ka`, `kb` are the scales of the factors. -/
def prodTerm (g : Nat) (ka kb : Scale) (a b : Elem) : Term :=
  let na := ka == .nan || (ka != .zero && a == .nar)
  let nb := kb == .nan || (kb != .zero && b == .nar)
  match ka, kb, a, b with
  | .exp ea, .exp eb, .val ma, .val mb =>
    { key := some (ea + eb), v := ma * mb * 2 ^ g, nar := false }
  | .exp ea, .exp eb, _, _ => { key := some (ea + eb), v := 0, nar := true }
  | _, _, _, _ => { key := none, v := 0, nar := na || nb }

/-- The larger of two optional exponents. -/
def optMax (a b : Option Int) : Option Int :=
  match a, b with
  | some x, some y => some (max x y)
  | some x, none => some x
  | none, b => b

/-- E_max of a group (R39). -/
def groupMax (ts : List Term) : Option Int := ts.foldl (fun m t => optMax m t.key) none

/-- The aligned sum of a group against `em` (R40). -/
def groupSum (em : Int) (ts : List Term) : Int :=
  ts.foldl (fun a t => match t.key with | some k => a + shiftFloor t.v (k - em) | none => a) 0

/-- Signed 40-bit reading (R195). -/
def wrap40 (v : Int) : Int := signedOf 40 (unsignedOf 40 v)

/-- Guard bits (R195). -/
def guardBits (tabby : Bool) : Nat := if tabby then 4 else 8

/-- The result of a group at `em` whose sum is `s` (R40, R195), and whether it wrapped. -/
def groupResult (tabby : Bool) (em : Option Int) (s : Int) (nar : Bool) : XV × Bool :=
  if nar then (.nar, false)
  else match em with
    | none => (.num 0 0, false)
    | some e =>
      if tabby then (.num (wrap40 s) (e - 4), wrap40 s != s) else (.num s (e - 8), false)

/-- The result of a reduction group (R39 to R42). -/
def groupOf (tabby : Bool) (ts : List Term) : XV × Bool :=
  let em := groupMax ts
  groupResult tabby em (groupSum (em.getD 0) ts) (ts.any Term.nar)

/-! ### Stochastic rounding (R47) -/

def mix64 (z : Nat) : Nat :=
  let z := Nat.xor z (z / 2 ^ 30) * 0xBF58476D1CE4E5B9 % 2 ^ 64
  let z := Nat.xor z (z / 2 ^ 27) * 0x94D049BB133111EB % 2 ^ 64
  Nat.xor z (z / 2 ^ 31)

/-- The 32-bit draw r (R47). -/
def drawSR (step tensor index seed : Nat) : Nat :=
  let k := mix64 ((seed + mix64 (step % 2 ^ 64) + 2 * tensor) % 2 ^ 64)
  let z := mix64 (Nat.xor k (index * 0x9E3779B97F4A7C15 % 2 ^ 64))
  z / 2 ^ 32

/-! ### Requantization (R44 to R47) -/

/-- How an output is rounded: to nearest even or stochastically with the four inputs of R47. -/
structure Rounding where
  rne    : Bool
  fixed  : Option Int
  step   : Nat
  tensor : Nat
  seed   : Nat
  deriving DecidableEq, Repr

/-- v ÷ 2^s rounded to nearest even, for s ≥ 0. -/
def roundEven (v : Int) (s : Nat) : Int :=
  let d : Int := 2 ^ s
  let q := v / d
  let r := v % d
  if 2 * r < d then q else if d < 2 * r then q + 1 else if q % 2 = 0 then q else q + 1

/-- floor(v ÷ 2^s + r ÷ 2^32) (R45). -/
def roundSR (v : Int) (s r : Nat) : Int := (v * 2 ^ 32 + r * 2 ^ s) / 2 ^ (s + 32)

/-- B ≤ M × 2^k. -/
def covers (b m : Nat) (k : Int) : Bool :=
  if 0 ≤ k then decide (b ≤ m * 2 ^ k.toNat) else decide (b * 2 ^ (-k).toNat ≤ m)

/-- The smallest k with B ≤ M × 2^k, for B > 0 and M one less than a power of two (R44). -/
def smallestK (b m : Nat) : Int :=
  let k : Int := (Nat.log2 b : Int) - Nat.log2 m - 1
  if covers b m k then k else if covers b m (k + 1) then k + 1 else k + 2

/-- The least exponent among the numbers of `xs` that are not zero. -/
def minExp (xs : List XV) : Option Int :=
  xs.foldl (fun a x => match x with
    | .num m e => if m = 0 then a else (match a with | some f => some (min e f) | none => some e)
    | .nar => a) none

/-- The largest magnitude among `xs`, at exponent `e`. -/
def maxMag (e : Int) (xs : List XV) : Nat :=
  xs.foldl (fun a x => match x with
    | .num m f => if m = 0 then a else max a (m.natAbs * 2 ^ (f - e).toNat)
    | .nar => a) 0

def clampInt (lo hi v : Int) : Int := max lo (min hi v)

/-- The dynamic output exponent (R44). -/
def dynamicExp (f : Fmt) (xs : List XV) : Int :=
  match minExp xs with
  | none => -127
  | some e => clampInt (-127) 126 (e + smallestK (maxMag e xs) f.max)

/-- One element rounded to exponent `e` (R45), before saturation. -/
def roundTo (rd : Rounding) (index : Nat) (m k e : Int) : Int :=
  if e ≤ k then m * 2 ^ (k - e).toNat
  else if rd.rne then roundEven m (e - k).toNat
  else roundSR m (e - k).toNat (drawSR rd.step rd.tensor index rd.seed)

/-- Counts of one requantization (R45, R46, R53). -/
structure FmtCounts where
  crushed  : Nat
  zeroSk   : Nat
  nanSk    : Nat
  nar      : Nat
  sat      : Nat
  convIn   : Nat
  wrapped  : Nat
  deriving DecidableEq, Repr

def FmtCounts.zero : FmtCounts :=
  { crushed := 0, zeroSk := 0, nanSk := 0, nar := 0, sat := 0, convIn := 0, wrapped := 0 }

def FmtCounts.add (a b : FmtCounts) : FmtCounts :=
  { crushed := a.crushed + b.crushed, zeroSk := a.zeroSk + b.zeroSk, nanSk := a.nanSk + b.nanSk,
    nar := a.nar + b.nar, sat := a.sat + b.sat, convIn := a.convIn + b.convIn,
    wrapped := a.wrapped + b.wrapped }

/-- An output skein: its scale code, and its mantissas unless they are not written (R35). -/
structure OutSkein where
  scale : Nat
  mants : Option (List Elem)
  deriving DecidableEq, Repr

/-- Saturation to ±M (R45). -/
def saturate (m : Nat) (q : Int) : Int := clampInt (-(m : Int)) m q

/-- Requantizes one skein (R44 to R47): `xs` are its present elements with their row-major
indices. -/
def requantSkein (f : Fmt) (rd : Rounding) (xs : List (XV × Nat)) : OutSkein × FmtCounts :=
  let vs := xs.map Prod.fst
  let narN := (vs.filter XV.isNar).length
  if narN = vs.length then
    ({ scale := 0x7F, mants := none }, { FmtCounts.zero with nanSk := 1, nar := narN })
  else
    let e := rd.fixed.getD (dynamicExp f vs)
    let raw := xs.map (fun x => match x.1 with
      | .nar => (Elem.nar, (0 : Int), false)
      | .num m k =>
        let q := roundTo rd x.2 m k e
        (Elem.val (saturate f.max q), q, m != 0))
    let sat := (raw.filter (fun r => match r.1 with
      | .val v => v != r.2.1
      | .nar => false)).length
    let crushed := (raw.filter (fun r => match r.1 with
      | .val v => r.2.2 && v == 0
      | .nar => false)).length
    let out := raw.map (fun r => r.1)
    let c := { FmtCounts.zero with crushed := crushed, nar := narN, sat := sat }
    if out.all (fun r => r == .nar || r == .val 0) then
      if 0 < narN then ({ scale := 0x81, mants := some out }, c)
      else ({ scale := 0x80, mants := none }, { c with zeroSk := 1 })
    else ({ scale := unsignedOf 8 e, mants := some out }, c)

/-- The smallest exponent at or above `e` at which every value's floor fits in 63 bits of
magnitude (R87). -/
def accExp (vs : List XV) (e : Int) (fuel : Nat) : Int :=
  match fuel with
  | 0 => e
  | n + 1 =>
    if vs.all (fun x => match x with
        | .num m k => m == 0 || decide ((shiftFloor m (k - e)).natAbs ≤ 2 ^ 63 - 1)
        | .nar => true) then e
    else accExp vs (e + 1) n

/-- The largest exponent among the non-zero numbers. -/
def maxExp (vs : List XV) : Option Int :=
  vs.foldl (fun a x => match x with
    | .num m e => if m = 0 then a else optMax a (some e)
    | .nar => a) none

/-- An ACC64 output skein at exponent `e` (R43, R87). -/
def accSkeinAt (vs : List XV) (e : Option Int) : OutSkein × FmtCounts :=
  let narN := (vs.filter XV.isNar).length
  let c := { FmtCounts.zero with nar := narN }
  if narN = vs.length then ({ scale := 0x7FFF, mants := none }, c)
  else match e with
    | none =>
      if 0 < narN then
        ({ scale := 0x8001
           mants := some (vs.map (fun x => match x with | .nar => .nar | .num _ _ => .val 0)) }, c)
      else ({ scale := 0x8000, mants := none }, c)
    | some e =>
      ({ scale := unsignedOf 16 e
         mants := some (vs.map (fun x => match x with
           | .nar => .nar
           | .num m k => .val (if m = 0 then 0 else shiftFloor m (k - e)))) }, c)

/-- Bits enough for every magnitude among the numbers. -/
def maxBits (vs : List XV) : Nat :=
  vs.foldl (fun a x => match x with
    | .num m _ => max a (Nat.log2 m.natAbs + 2)
    | .nar => a) 0

/-- An ACC64 output skein (R87). -/
def accSkein (vs : List XV) : OutSkein × FmtCounts :=
  accSkeinAt vs ((maxExp vs).map (fun e => accExp vs e (maxBits vs)))

/-- An output skein of format `f`. -/
def outSkein (f : Fmt) (rd : Rounding) (xs : List (XV × Nat)) : OutSkein × FmtCounts :=
  if f = .acc64 then accSkein (xs.map Prod.fst) else requantSkein f rd xs

/-! ### Element codes (Table FMT-1) -/

def Fmt.narCode (f : Fmt) : Nat := 2 ^ (f.bits - 1)

def Fmt.decode (f : Fmt) (v : Nat) : Elem :=
  if v = f.narCode then .nar else .val (signedOf f.bits v)

def Fmt.encode (f : Fmt) (m : Elem) : Nat :=
  match m with
  | .nar => f.narCode
  | .val v => unsignedOf f.bits v

/-! ### Conversion from binary formats (R51, R52) -/

/-- The exact value of a float with `eb` exponent bits, `fb` fraction bits and subnormal exponent
`se` (Table FMT-6). -/
def floatValue (eb fb : Nat) (se : Int) (v : Nat) : XV :=
  let sgn : Int := if bitOf v (eb + fb) then -1 else 1
  let ex := bitsOf v (eb + fb - 1) fb
  let fr := v % 2 ^ fb
  if ex = 2 ^ eb - 1 then .nar
  else if ex = 0 then .num (sgn * fr) se
  else .num (sgn * (2 ^ fb + fr : Nat)) (se + ex - 1)

/-- VOP of VEC_CONVERT: 0 binary32, 1 binary16, 2 bfloat16. -/
def convertValue (vop v : Nat) : XV :=
  if vop = 0 then floatValue 8 23 (-149) v
  else if vop = 1 then floatValue 5 10 (-24) v
  else floatValue 8 7 (-133) v

end Sys2Proof.Machine
end

