-- ==== Sys2Proof/Machine/Tensor.lean ====
section
/-!
DEFINITION. Tensors in memory: operand records (Table LOM-2), planes read as skeins and written
through requantization (R33, R35, R37, R79), and what a write counts (R53, R178, R179).
-/

namespace Sys2Proof.Machine

open Sys2Proof

/-! ### Configuration at dispatch (R357, R358) -/

/-- The value of a binding object for a descriptor charged to step `n` (R358). -/
def State.bindObj (s : State) (n index sub d : Nat) : Nat :=
  match s.draft.prevStep with
  | some k =>
    if n < k then
      match Tab.find s.draft.prevActive (objKey index sub) with
      | some v => leNat v
      | none => d
    else s.obj index sub d
  | none => s.obj index sub d

/-- Queue `q` runs in tabby mode at step `n` (R194, R197). -/
def State.tabbyAt (s : State) (q : BitVec 16) (n : Nat) : Bool :=
  let f := s.bindObj n 0x3810 1 0
  let c := s.bindObj n 0x3810 2 0
  decide (f ≤ q.toNat ∧ q.toNat < f + c)

/-- The configuration values that a descriptor of queue `q` uses, read at dispatch. -/
def State.numCfg (s : State) (q : BitVec 16) : NumCfg :=
  let n := s.stepOf q
  { tabby := s.tabbyAt q n
    rne := s.bindObj n 0x3801 1 1 == 1
    seed := BitVec.ofNat 64 (s.bindObj n 0x3801 2 0)
    step := n }

/-- RQC is legal (Table FMT-5, R44, R195); `fe` is the fixed exponent byte. -/
def rqcOk (cfg : NumCfg) (rqc fe : Nat) : Bool :=
  let rnd := bitsOf rqc 1 0
  decide (bitsOf rqc 7 3 = 0 ∧ rnd ≠ 3)
    && !(bitOf rqc 2 && (fe == 0x80 || fe == 0x7F))
    && !(cfg.tabby && (rnd == 2 || (rnd == 0 && !cfg.rne)))

/-- The rounding that RQC, the fixed exponent byte and the tensor identifier select (R45, R48). -/
def roundingOf (cfg : NumCfg) (rqc fe tensor : Nat) : Rounding :=
  let rnd := bitsOf rqc 1 0
  { rne := rnd == 1 || (rnd == 0 && cfg.rne)
    fixed := if bitOf rqc 2 then some (signedOf 8 fe) else none
    step := cfg.step, tensor := tensor, seed := cfg.seed.toNat }

/-- An OPF byte under the configuration: R36, and the formats and sizes of tabby mode (R195). -/
def opfUnder (cfg : NumCfg) (v : Nat) : Option Opf :=
  match decodeOpf v with
  | none => none
  | some o =>
    if cfg.tabby ∧ (64 < o.size ∨ o.fmt = .sk2 ∨ o.fmt = .acc64) then none else some o

/-! ### Operand records -/

/-- Table LOM-2. -/
structure OpRec where
  mant    : Nat
  scale   : Nat
  rowStr  : Nat
  sclStr  : Nat
  rows    : Nat
  cols    : Nat
  source  : Nat
  ring    : Nat
  origin  : Nat
  tcols   : Nat
  rsvd    : Bool
  deriving DecidableEq, Repr

def State.readRec (s : State) (a : Nat) : OpRec :=
  let b := s.bytesAt a 48
  let f := fun i n => leNat (slice b i n)
  { mant := f 0 6, scale := f 6 6, rowStr := f 12 4, sclStr := f 16 4, rows := f 20 4, cols := f 24 4,
    source := f 28 1, ring := f 29 1, origin := f 32 8, tcols := f 40 4,
    rsvd := f 30 2 == 0 && f 44 4 == 0 }

/-- `n` bytes at `a` lie in the die store of tensor die `d` (R57). -/
def inDieStore (d a n : Nat) : Bool :=
  let b := dieStoreBase + d * dieStoreStride
  decide (b ≤ a ∧ a + n ≤ b + dieStoreBytes)

/-- Bytes from the first mantissa byte to the end of the last row. -/
def OpRec.mantExtent (r : OpRec) (f : Fmt) : Nat :=
  if r.rows = 0 then 0 else (r.rows - 1) * r.rowStr + f.rowBytes r.cols

/-- Bytes from the first scale to the end of the last row of the skein grid. -/
def OpRec.scaleExtent (r : OpRec) (o : Opf) : Nat :=
  let g := o.grid r.rows r.cols
  if g.1 = 0 then 0 else (g.1 - 1) * r.sclStr + g.2 * o.fmt.scaleBytes

/-- The scale plane lies in the die store of `d` (R57). -/
def OpRec.scaleHere (r : OpRec) (d : Nat) (o : Opf) : Bool :=
  inDieStore d r.scale (r.scaleExtent o)

/-- The mantissa plane lies in the die store of `d`, and ROW_STRIDE is at least the packed row length (Table
LOM-2). DESIGN CHOICE: a record of at most one row has no next row, and any ROW_STRIDE is accepted in it
(log 59). -/
def OpRec.mantHere (r : OpRec) (d : Nat) (f : Fmt) : Bool :=
  inDieStore d r.mant (r.mantExtent f) && (decide (r.rows ≤ 1) || decide (f.rowBytes r.cols ≤ r.rowStr))

/-! ### Reading -/

/-- A tensor as its reader sees it: its shape, format, the scale and element at each place, and
the poisoned lines met there. A view is never stored. -/
structure View where
  rows   : Nat
  cols   : Nat
  fmt    : Fmt
  scale  : Nat → Nat → Scale
  elem   : Nat → Nat → Elem
  poison : Nat → Nat → Bool

/-- The scale at grid place (i, j). -/
def State.scaleAt (s : State) (r : OpRec) (o : Opf) (i j : Nat) : Scale :=
  if o.fmt = .acc64 then scaleOfAcc (s.natAt (r.scale + i * r.sclStr + 2 * j) 2)
  else scaleOfByte (s.natAt (r.scale + i * r.sclStr + j) 1)

/-- The byte offset, within a packed row, of the first byte of element `c` (R33). -/
def elemByte (f : Fmt) (c : Nat) : Nat := c * f.bits / 8

/-- The byte offset of the last byte of element `c`. -/
def elemLast (f : Fmt) (c : Nat) : Nat := (c * f.bits + f.bits - 1) / 8

/-- Element `c` of a packed row whose bytes are `get` (R33). -/
def elemOf (f : Fmt) (get : Nat → Byte) (c : Nat) : Elem :=
  match f with
  | .sk16 => f.decode ((get (2 * c)).toNat + 256 * (get (2 * c + 1)).toNat)
  | .sk8 => f.decode (get c).toNat
  | .sk4 => f.decode (bitsOf (get (c / 2)).toNat (4 * (c % 2) + 3) (4 * (c % 2)))
  | .sk2 => f.decode (bitsOf (get (c / 4)).toNat (2 * (c % 4) + 1) (2 * (c % 4)))
  | .acc64 => f.decode (leNat ((List.range 8).map (fun k => get (8 * c + k))))

/-- No line of the machine can be poisoned. -/
def State.poisonFree (s : State) : Bool := s.mem.poison.isEmpty && s.coh.losses.isEmpty

/-- A plane of `rows` × `cols` under the scale plane of record `r`: `get i k` is byte k of row i, and
`bad i k` says that it is poisoned. The mantissa slot of a zero or not-a-number skein is never read
(Table FMT-2), so it meets no poison. -/
def State.planeView (s : State) (r : OpRec) (o : Opf) (rows cols : Nat) (get : Nat → Nat → Byte)
    (bad : Nat → Nat → Bool) : View :=
  let sc := fun i j => s.scaleAt r o (i / o.extent.1) (j / o.extent.2)
  { rows := rows, cols := cols, fmt := o.fmt, scale := sc
    elem := fun i j => elemOf o.fmt (get i) j
    poison := fun i j =>
      match sc i j with
      | .exp _ => bad i (elemByte o.fmt j) || bad i (elemLast o.fmt j)
      | _ => false }

/-- The plane that a record names. -/
def State.recView (s : State) (r : OpRec) (o : Opf) : View :=
  let row := fun i => r.mant + i * r.rowStr
  s.planeView r o r.rows r.cols (fun i k => s.byteAt (row i + k))
    (fun i k => !s.poisonFree && s.linePoisoned ((row i + k) / 64))

/-- The transposed view (R38, R125). -/
def View.transpose (v : View) : View :=
  { rows := v.cols, cols := v.rows, fmt := v.fmt
    scale := fun i j => v.scale j i
    elem := fun i j => v.elem j i
    poison := fun i j => v.poison j i }

def View.value (v : View) (i j : Nat) : XV := valueOf (v.scale i j) (v.elem i j)

def View.term (v : View) (g i j : Nat) : Term := elemTerm g v.fmt (v.scale i j) (v.elem i j)

/-- Row `i` holds an element on a poisoned line. -/
def View.rowPoisoned (v : View) (i : Nat) : Bool := (List.range v.cols).any (fun j => v.poison i j)

/-- The first of `n` rows for which `p` holds. -/
def firstRow (n : Nat) (p : Nat → Bool) : Option Nat := (List.range n).find? p

/-- A line of the scale plane is poisoned. -/
def State.scalePoisoned (s : State) (r : OpRec) (o : Opf) : Bool :=
  let g := o.grid r.rows r.cols
  !s.poisonFree && (List.range g.1).any (fun i =>
    s.anyPoison (r.scale + i * r.sclStr) (g.2 * o.fmt.scaleBytes))

/-! ### Writing -/

/-- Writes the bytes that are present, each run of them as one access. -/
def State.writeRuns (s : State) (a : Nat) (run : List Byte) (bs : List (Option Byte)) : State :=
  match bs with
  | [] => s.writeMem (a - run.length) run
  | some b :: r => s.writeRuns (a + 1) (run ++ [b]) r
  | none :: r => (s.writeMem (a - run.length) run).writeRuns (a + 1) [] r

/-- The bytes of one mantissa row: `codes` are its elements, none where the element is not
written. A byte that no written element touches is not written; bits beyond the last column of a
written byte are zero (R37). -/
def packRow (f : Fmt) (old : Nat → Byte) (codes : List (Option Nat)) : List (Option Byte) :=
  if f.bits < 8 then
    let per := 8 / f.bits
    (List.range (ceilDiv codes.length per)).map (fun k =>
      let cs := (codes.drop (k * per)).take per
      if cs.all Option.isNone then none
      else
        let v := (List.range per).foldl (fun a i =>
          a + 2 ^ (f.bits * i) * (match cs[i]? with
            | none => 0
            | some none => bitsOf (old k).toNat (f.bits * i + f.bits - 1) (f.bits * i)
            | some (some c) => c)) 0
        some (BitVec.ofNat 8 v))
  else
    (codes.map (fun c => match c with
      | none => List.replicate (f.bits / 8) none
      | some v => (toLe (f.bits / 8) v).map some)).flatten

/-- An output: where it goes, its geometry, and the indices of the stochastic draw (R58). -/
structure OutPlane where
  rcd  : OpRec
  opf  : Opf
  rows : Nat
  cols : Nat
  deriving DecidableEq, Repr

/-- The places of skein (i, j), row-major, absent positions left out (R37). -/
def skeinPlaces (o : Opf) (rows cols i j : Nat) : List (Nat × Nat) :=
  let e := o.extent
  ((List.range e.1).map (fun a => (List.range e.2).map (fun b => (i * e.1 + a, j * e.2 + b)))).flatten.filter
    (fun p => decide (p.1 < rows ∧ p.2 < cols))

/-- The written skeins of an output, by grid place. -/
abbrev SkeinOut := List ((Nat × Nat) × OutSkein)

/-- Requantizes every skein that lies wholly in the first `limit` rows (R79, R96). -/
def formSkeins (p : OutPlane) (rd : Rounding) (limit : Nat) (val : Nat → Nat → XV) :
    SkeinOut × FmtCounts :=
  let g := p.opf.grid p.rows p.cols
  let places := ((List.range g.1).map (fun i => (List.range g.2).map (fun j => (i, j)))).flatten
  let keep := places.filter (fun ij =>
    (skeinPlaces p.opf p.rows p.cols ij.1 ij.2).all (fun rc => decide (rc.1 < limit)))
  keep.foldl (fun acc ij =>
    let pl := skeinPlaces p.opf p.rows p.cols ij.1 ij.2
    let r := outSkein p.opf.fmt rd
      (pl.map (fun rc => (val rc.1 rc.2, p.rcd.origin + rc.1 * p.rcd.tcols + rc.2)))
    (acc.1 ++ [(ij, r.1)], acc.2.add r.2)) ([], FmtCounts.zero)

/-- The code written for element (r, c), if its skein is written with mantissas. -/
def codeAt (p : OutPlane) (sk : SkeinOut) (r c : Nat) : Option Nat :=
  let e := p.opf.extent
  match sk.find? (fun x => x.1 == (r / e.1, c / e.2)) with
  | none => none
  | some x =>
    match x.2.mants with
    | none => none
    | some ms =>
      let pl := skeinPlaces p.opf p.rows p.cols (r / e.1) (c / e.2)
      match pl.findIdx? (fun rc => rc == (r, c)) with
      | none => none
      | some k => (ms[k]?).map p.opf.fmt.encode

/-- Writes the scale codes and the mantissas of the formed skeins. -/
def State.writeSkeins (s : State) (p : OutPlane) (sk : SkeinOut) : State :=
  let sb := p.opf.fmt.scaleBytes
  let s := sk.foldl (fun s x =>
    s.writeMem (p.rcd.scale + x.1.1 * p.rcd.sclStr + x.1.2 * sb) (toLe sb x.2.scale)) s
  (List.range p.rows).foldl (fun s r =>
    let a := p.rcd.mant + r * p.rcd.rowStr
    let codes := (List.range p.cols).map (fun c => codeAt p sk r c)
    if codes.all Option.isNone then s
    else s.writeRuns a [] (packRow p.opf.fmt (fun k => s.byteAt (a + k)) codes)) s

/-- The skein writes NaR: it is a not-a-number skein or holds a NaR code. -/
def OutSkein.hasNar (f : Fmt) (k : OutSkein) : Bool :=
  match k.mants with
  | none => k.scale == (if f = .acc64 then 0x7FFF else 0x7F)
  | some ms => ms.contains .nar

/-- The rows of a written skein that hold NaR. -/
def narRows (p : OutPlane) (ij : Nat × Nat) (k : OutSkein) : List Nat :=
  let pl := skeinPlaces p.opf p.rows p.cols ij.1 ij.2
  match k.mants with
  | none => pl.map Prod.fst
  | some ms =>
    let both : List ((Nat × Nat) × Elem) := pl.zip ms
    (both.filter (fun x => x.2 == Elem.nar)).map (fun x => x.1.1)

/-- The lower of an optional number and a number. -/
def optMin (a : Option Nat) (b : Nat) : Option Nat :=
  match a with
  | none => some b
  | some c => some (min c b)

/-- The lowest output row that holds a NaR element or lies in a not-a-number skein (R79, R96). -/
def firstNarRow (p : OutPlane) (sk : SkeinOut) : Option Nat :=
  (sk.filter (fun x => x.2.hasNar p.opf.fmt)).foldl (fun a x =>
    (narRows p x.1 x.2).foldl optMin a) none

/-! ### Undefined outputs (R95, R120) -/

/-- The bytes of a plane: address and length of each mantissa row, and of each row of the scale grid. -/
def OpRec.mantRows (r : OpRec) (f : Fmt) : List (Nat × Nat) :=
  (List.range r.rows).map (fun i => (r.mant + i * r.rowStr, f.rowBytes r.cols))

def OpRec.scaleRows (r : OpRec) (o : Opf) : List (Nat × Nat) :=
  let g := o.grid r.rows r.cols
  (List.range g.1).map (fun i => (r.scale + i * r.sclStr, g.2 * o.fmt.scaleBytes))

def OpRec.planeRanges (r : OpRec) (o : Opf) : List (Nat × Nat) := r.mantRows o.fmt ++ r.scaleRows o

/-- Two byte ranges have a byte in common. -/
def rangesMeet (x y : Nat × Nat) : Bool := decide (x.1 < y.1 + y.2 ∧ y.1 < x.1 + x.2)

def anyMeet (l m : List (Nat × Nat)) : Bool := l.any (fun x => m.any (rangesMeet x))

/-- The smallest run of whole lines around a range. -/
def lineRange (x : Nat × Nat) : Nat × Nat :=
  if x.2 = 0 then x else (x.1 / 64 * 64, roundUp (x.1 % 64 + x.2) 64)

/-- Two operands coincide exactly: bases, strides and geometry (R95). The strides of a single row do not
matter. -/
def sameOperand (x y : OpRec) (ox oy : Opf) : Bool :=
  ox == oy && x.mant == y.mant && x.scale == y.scale && x.rows == y.rows && x.cols == y.cols
    && (x.rows == 1 || x.rowStr == y.rowStr) && ((ox.grid x.rows x.cols).1 == 1 || x.sclStr == y.sclStr)

/-- Every byte of the ranges takes a free value: an output that the manual leaves undefined. -/
def State.undefine (s : State) (l : List (Nat × Nat)) : State :=
  l.foldl (fun (s : State) x =>
    let bs := (List.range x.2).map (fun i => BitVec.ofNat 8 (Config.freeValue (s.fresh + i)))
    { s with fresh := s.fresh + x.2 }.storeBytes x.1 bs) s

/-! ### Counting (R53, R178, R179, R198) -/

def State.ctx (s : State) (c : Nat) : Ctx := Tab.read s.ctxs Ctx.init c

def State.setCtx (s : State) (c : Nat) (x : Ctx) : State := { s with ctxs := Tab.write s.ctxs c x }

/-- `nar` and `sat` overflow events of a watched descriptor of queue `q`, charged to step `n`
(R178, R179, R198). -/
def State.overflow (s : State) (q : BitVec 16) (n nar sat : Nat) : State :=
  if nar + sat = 0 then s
  else match Tab.find s.attached q.toNat with
  | none => s
  | some k =>
    let c := s.ctx k
    if c.perch then s.count 0x78D1 0xD (nar + sat)
    else
      let s := (s.count 0x78D1 0 nar).count 0x78D1 1 sat
      if n = c.step ∧ c.state = .opened then s.setCtx k { c with flag := true }
      else if n = c.step + 1 then s.setCtx k { c with flagNext := true }
      else if n ≤ c.step then s.count 0x78D1 2 (nar + sat)
      else s.count 0x78D1 3 (nar + sat)

/-- Adds the counts of an operation to the device totals (R53, R195). -/
def State.countFmt (s : State) (c : FmtCounts) : State :=
  ((((((s.count 0x7820 1 c.crushed).count 0x7820 2 c.zeroSk).count 0x7820 3 c.nanSk).count
    0x7820 4 c.nar).count 0x7820 5 c.sat).count 0x7820 6 c.convIn).count 0x78D1 0xC c.wrapped

/-- The counts of a watched descriptor: device totals and overflow events. -/
def State.countWatched (s : State) (q : BitVec 16) (n : Nat) (c : FmtCounts) : State :=
  (s.countFmt c).overflow q n c.nar c.sat

end Sys2Proof.Machine
end

