-- ==== Sys2Proof/Machine/Creel.lean ====
section
/-!
DEFINITION. Creel rings (R213 to R218): slots, producers, consumers and their claims.
-/

namespace Sys2Proof.Machine

open Sys2Proof

/-- Rings, looms, engines, cores and tokens are kept per die in one table each. -/
def ringKey (die ring : Nat) : Nat := die * 256 + ring
def loomKey (die loom : Nat) : Nat := die * 8 + loom
def vecKey (die engine : Nat) : Nat := die * 16 + engine

def State.ring (s : State) (die r : Nat) : Ring := Tab.read s.rings Ring.init (ringKey die r)

def State.setRing (s : State) (die r : Nat) (x : Ring) : State :=
  { s with rings := Tab.write s.rings (ringKey die r) x }

def State.loom (s : State) (die l : Nat) : Loom := Tab.read s.looms Loom.init (loomKey die l)

def State.setLoom (s : State) (die l : Nat) (x : Loom) : State :=
  { s with looms := Tab.write s.looms (loomKey die l) x }

/-- The looms of `die` as they are at power-on and at a spare's step-in: in LOOM_MODE_DEFAULT (R65,
rule after R65). -/
def State.freshLooms (s : State) (die : Nat) : State :=
  let m := s.obj 0x3000 1 0 == 1
  (List.range 8).foldl (fun (s : State) l =>
    if m then s.setLoom die l { Loom.init with shapeMode := true }
    else { s with looms := Tab.remove s.looms (loomKey die l) }) s

def State.vec (s : State) (die e : Nat) : List VecJob := Tab.read s.vecs [] (vecKey die e)

def State.setVec (s : State) (die e : Nat) (x : List VecJob) : State :=
  { s with vecs := Tab.write s.vecs (vecKey die e) x }

def slotAt (r : Ring) (k : Nat) : SlotSt := r.slotTab.getD k .empty

def setSlot (r : Ring) (k : Nat) (v : SlotSt) : Ring := { r with slotTab := r.slotTab.set k v }

/-- Local address of slot `k`. -/
def slotAddr (r : Ring) (k : Nat) : Nat := r.base + k * r.slotBytes

/-- The slot's contents as a consumer takes them. -/
def State.takeSlot (s : State) (r : Ring) (k : Nat) : Drained :=
  let a := slotAddr r k
  { bytes := s.bytesAt a r.slotBytes
    faulted := slotAt r k == .faulted
    poison := (s.poisonIn a r.slotBytes).map (fun l => l - a / 64) }

/-- The consumer that holds a claim is the one that streams: the front pick of its loom, or the
front instruction of its engine (R78, R84). -/
def State.streams (s : State) (die : Nat) (c : Claim) : Bool :=
  match (s.queue c.queue).entry c.seq with
  | none => false
  | some f =>
    match f.phase with
    | .running (.loom l) =>
      (match (s.loom die l).picks.head? with
       | some p => p.queue == c.queue && p.seq == c.seq
       | none => false)
    | .running (.vec e) =>
      (match (s.vec die e).head? with
       | some j => j.queue == c.queue && j.seq == c.seq
       | none => false)
    | _ => false

/-- The streaming consumer receives the contents of a slot. -/
def State.giveSlot (s : State) (die : Nat) (c : Claim) (x : Drained) : State :=
  match (s.queue c.queue).entry c.seq with
  | none => s
  | some f =>
    match f.phase with
    | .running (.loom l) =>
      let m := s.loom die l
      s.setLoom die l { m with picks := m.picks.map (fun p =>
        if p.queue = c.queue ∧ p.seq = c.seq then
          { p with drained := p.drained ++ [x], need := p.need - 1 } else p) }
    | .running (.vec e) =>
      s.setVec die e ((s.vec die e).map (fun j =>
        if j.queue = c.queue ∧ j.seq = c.seq then
          { j with drained := j.drained ++ [x], need := j.need - 1 } else j))
    | _ => s

/-- The slot `k` places beyond HEAD. -/
def slotBeyond (g : Ring) (k : Nat) : Nat := (g.head + k) % max 1 g.slots

/-- The consumer at the front of the ring, when it streams, receives the contents of its slots that are filled,
in ring order; a slot beyond HEAD stays FULL meanwhile (R216, R217). -/
def State.takeSlots (s : State) (die r fuel : Nat) : State :=
  match fuel with
  | 0 => s
  | n + 1 =>
    let g := s.ring die r
    match g.claims with
    | [] => s
    | c :: rest =>
      let k := slotBeyond g c.taken
      if c.taken < c.left ∧ c.taken < g.slots ∧ !c.released ∧ s.streams die c
          ∧ (slotAt g k = .full ∨ slotAt g k = .faulted) then
        ((s.giveSlot die c (s.takeSlot g k)).setRing die r
          { g with claims := { c with taken := c.taken + 1 } :: rest }).takeSlots die r n
      else s

/-- A FULL or FAULTED slot at HEAD becomes DRAINING when the claim on it is released, or when its consumer has
reached it (Table STR-6, R217, R218). -/
def State.settleRing (s : State) (die r : Nat) : State :=
  let s := s.takeSlots die r (s.ring die r).slots
  let g := s.ring die r
  match g.claims with
  | [] => s
  | c :: _ =>
    if (slotAt g g.head = .full ∨ slotAt g g.head = .faulted) ∧ (c.released ∨ 0 < c.taken) then
      s.setRing die r (setSlot g g.head .draining)
    else s

/-- Every ring of a die settles: a consumer has begun to stream. -/
def State.settleDie (s : State) (die : Nat) : State :=
  ((Tab.keys s.rings).filter (fun k => k / 256 == die)).foldl
    (fun s k => s.settleRing die (k % 256)) s

/-- A consumer claims `n` slots on acceptance (R216). -/
def State.claimSlots (s : State) (die r : Nat) (q seq : BitVec 16) (n : Nat) : State :=
  let g := s.ring die r
  (s.setRing die r { g with claims := g.claims ++
    [{ queue := q, seq := seq, left := n, taken := 0, released := false }] }).settleRing die r

/-- A consumer that completes without its slots releases them (R218). -/
def State.releaseClaims (s : State) (die : Nat) (q seq : BitVec 16) : State :=
  ((Tab.keys s.rings).filter (fun k => k / 256 == die)).foldl (fun s k =>
    let g := s.ring die (k % 256)
    let g := { g with claims := g.claims.map (fun c =>
      if c.queue = q ∧ c.seq = seq then { c with released := true } else c) }
    (s.setRing die (k % 256) g).settleRing die (k % 256)) s

/-- The claim at HEAD has had one slot drained. -/
def dropClaim (l : List Claim) : List Claim :=
  match l with
  | [] => []
  | c :: r => if c.left ≤ 1 then r else { c with left := c.left - 1, taken := c.taken - 1 } :: r

/-- HEAD advances, and passes the slots that have left before. -/
def Ring.advance (g : Ring) (fuel : Nat) : Ring :=
  let g := { g with head := slotBeyond g 1, claims := dropClaim g.claims }
  match fuel with
  | 0 => g
  | n + 1 =>
    if g.gone.contains g.head then Ring.advance { g with gone := g.gone.filter (fun k => k ≠ g.head) } n else g

/-- The slot at HEAD becomes EMPTY, and HEAD advances (R217). -/
def State.leaveHead (s : State) (die r : Nat) : State :=
  let g := s.ring die r
  (s.setRing die r ((setSlot g g.head .empty).advance g.slots)).settleRing die r

/-- The slot at HEAD leaves DRAINING. The command is the event that its consumer has finished it, or that the
cycle after its release has come (R217, R218, log 68). -/
def State.emptyHead (s : State) (die r : Nat) : State :=
  let g := s.ring die r
  if slotAt g g.head = .draining then s.leaveHead die r else s

/-- Which claim covers the slot `k` steps beyond HEAD. -/
def claimCovering (l : List Claim) (k : Nat) : Option Claim :=
  match l with
  | [] => none
  | c :: r => if k < c.left then some c else claimCovering r (k - c.left)

/-- A producer ends: its slot is FULL after DONE and FAULTED otherwise. A slot that its consumer has released
becomes EMPTY at once, and HEAD passes it in ring order (Table STR-6, R218). -/
def State.fillSlot (s : State) (die r k shuttle : Nat) (ok : Bool) : State :=
  let g := s.ring die r
  let s := if ok then s else s.count (0x78E1 + die) (16 * shuttle + 9) 1
  let released := match claimCovering g.claims ((k + g.slots - g.head) % max 1 g.slots) with
    | some c => c.released
    | none => false
  if !released then (s.setRing die r (setSlot g k (if ok then .full else .faulted))).settleRing die r
  else if k = g.head then s.leaveHead die r
  else s.setRing die r { setSlot g k .empty with gone := g.gone ++ [k] }

/-! ### Rows from slots -/

/-- A plane whose rows lie in drained slots: `per` rows a slot, from slot `first` on, `stride`
bytes apart (R216, R218). -/
def State.slotView (s : State) (r : OpRec) (o : Opf) (rows cols : Nat) (sl : List Drained)
    (first per : Nat) : View :=
  let slot := fun i => sl.getD (first + i / per) { bytes := [], faulted := true, poison := [] }
  let off := fun i => (i % per) * r.rowStr
  s.planeView r o rows cols (fun i k => (slot i).bytes.getD (off i + k) 0)
    (fun i k => (slot i).faulted || (slot i).poison.contains ((off i + k) / 64))

/-- Rows that one slot holds (R216). -/
def rowsPerSlot (g : Ring) (r : OpRec) : Nat := if r.rowStr = 0 then 0 else g.slotBytes / r.rowStr

end Sys2Proof.Machine
end

