-- ==== Sys2Proof/Machine/Looms.lean ====
section
/-!
DEFINITION. Looms (03): the fields of a pick, its checks, acceptance, the sums of its passes and
its completion. BWD_PICK (R125 to R128) shares all of it.
-/

namespace Sys2Proof.Machine

open Sys2Proof

/-! ### The fields of a pick (Tables LOM-10, LOM-11, R147) -/

structure PickF where
  opfX    : Nat
  opfW    : Nat
  opfY    : Nat
  rqc     : Nat
  fe      : Nat
  keep    : Bool
  negX    : Bool
  chain   : Nat
  shape   : Nat
  any     : Bool
  loom    : Nat
  mc      : Bool
  group   : Nat
  product : Nat
  rows    : Nat
  tag     : Nat
  len     : Nat
  kIndex  : Nat
  xRef    : Nat
  wRef    : Nat
  yRef    : Nat
  tensor  : Nat
  transW  : Bool
  transX  : Bool
  rsvd    : Bool
  deriving DecidableEq, Repr

def pickFields (bwd : Bool) (b : BitVec 352) : PickF :=
  let ctl := fieldOf b 21 1
  let hed := fieldOf b 56 1
  { opfX := fieldOf b 16 1, opfW := fieldOf b 17 1, opfY := fieldOf b 18 1, rqc := fieldOf b 19 1,
    fe := fieldOf b 20 1, keep := bitOf ctl 7, negX := bitOf ctl 6, chain := bitsOf ctl 5 4,
    shape := bitsOf ctl 3 0, any := bitOf (fieldOf b 22 1) 7, loom := fieldBits b 22 2 0,
    mc := bitOf (fieldOf b 23 1) 7, group := fieldOf b 24 1, product := fieldBits b 25 3 0,
    rows := fieldOf b 26 2, tag := fieldOf b 28 2, len := fieldOf b 30 2, kIndex := fieldOf b 32 2,
    xRef := fieldOf b 34 6, wRef := fieldOf b 40 6, yRef := fieldOf b 46 6, tensor := fieldOf b 52 4,
    transW := bwd && bitOf hed 1, transX := bwd && bitOf hed 0,
    rsvd := fieldBits b 22 6 3 == 0 && fieldBits b 23 6 0 == 0 && fieldBits b 25 7 4 == 0
      && (if bwd then bitsOf hed 7 2 == 0 && fieldZero b 57 60 else fieldZero b 56 60) }

/-- Table LOM-6: K_t × N_t at SK8. -/
def shapeTable : List (Nat × Nat) :=
  [(256, 256), (256, 192), (256, 128), (256, 64), (192, 256), (128, 256), (128, 128), (64, 256),
   (64, 128), (64, 64), (32, 256), (16, 256)]

/-- K_w by the wider of the two formats (Table LOM-1). -/
def cellRows (x w : Fmt) : Nat := 2048 / max x.bits w.bits

/-- K_t and N_t of a shape under formats `x`, `w` (R66). -/
def tileOf (shape : Nat) (x w : Fmt) : Nat × Nat :=
  let t := shapeTable.getD shape (256, 256)
  (t.1 * cellRows x w / 256, t.2)

/-- Passes of a composite in order: X piece, W piece, whether X is negated, output (Table
LOM-8). -/
def productPasses (p : Nat) : List (Nat × Nat × Bool × Nat) :=
  match p with
  | 1 => [(0, 0, false, 0), (1, 1, true, 0), (0, 1, false, 1), (1, 0, false, 1)]
  | 2 => [(0, 0, false, 0), (0, 1, false, 0), (1, 0, false, 0)]
  | 3 => [(0, 0, false, 0), (0, 1, false, 0), (1, 0, false, 0), (1, 1, false, 0)]
  | 4 => [(0, 0, false, 0), (1, 0, false, 0)]
  | 5 => [(0, 0, false, 0), (0, 1, false, 0)]
  | _ => [(0, 0, false, 0)]

def xPieces (p : Nat) : Nat := if 1 ≤ p ∧ p ≤ 4 then 2 else 1
def wPieces (p : Nat) : Nat := if p = 1 ∨ p = 2 ∨ p = 3 ∨ p = 5 then 2 else 1
def yPieces (p : Nat) : Nat := if p = 1 then 2 else 1

/-- Passes that feed one output (R73). -/
def passesPerOutput (p : Nat) : Nat :=
  if p = 1 then 2 else (productPasses p).length

/-- The formats of the multi-word pieces (R73). -/
def productFormats (p : Nat) (x w : Fmt) : Bool :=
  if p = 2 ∨ p = 3 then x == .sk16 && w == .sk16
  else if p = 4 then x == .sk16
  else if p = 5 then w == .sk16
  else true

/-- The checks of a pick's own fields (R56, R65, R69, R73, R76, R77, R128). -/
def pickFieldsOk (f : PickF) (cfg : NumCfg) (shapeMode : Bool) : Bool :=
  match opfUnder cfg f.opfX, opfUnder cfg f.opfW, opfUnder cfg f.opfY with
  | some ox, some ow, some oy =>
    ox.fmt != .acc64 && ow.fmt != .acc64 && oy.fmt != .acc64
      && rqcOk cfg f.rqc f.fe && f.rsvd
      && decide (f.shape ≤ 11) && (shapeMode || f.shape == 0)
      && decide (f.product ≤ 5) && productFormats f.product ox.fmt ow.fmt
      && decide (f.rows ≤ (if f.product = 1 then 512 else 1024))
      && (!f.any || f.chain == 0)
      && (f.chain != 0 || f.len == 1)
      && (f.chain != 1 || decide (2 ≤ f.len))
      && (decide (1 < f.chain) || f.kIndex == 0)
      && decide (f.len * (tileOf f.shape ox.fmt ow.fmt).1 * passesPerOutput f.product ≤ 16777216)
      && !(f.keep && f.mc) && !(f.transW && f.mc)
  | _, _, _ => false

/-! ### Outcomes (R79) -/

/-- DETAIL of a pick that ends without DONE: loom and first affected row, 0xFFFF for a fault in a
record, a scale plane, the warp or the descriptor. -/
def pickDetail (loom row : Nat) : Nat := loom * 2 ^ 29 + row

def pickOutcm (st : Byte) (loom row : Nat) (f : PickF) : Outcm :=
  outcm st (pickDetail loom row) (if f.chain = 0 then 0 else f.kIndex)

/-! ### Record checks (R57, R77, R125, R128, R216) -/

/-- The stored shape of an operand that the loom sees as `r` × `c`. -/
def storedShape (t : Bool) (r c : Nat) : Nat × Nat := if t then (c, r) else (r, c)

/-- One operand record at `a`: aligned and in the die store of `die` (R57). -/
def recAddrOk (die a : Nat) : Bool := a % 16 == 0 && inDieStore die a 48

/-- The records of the X, W and Y pieces of a pick (R73). -/
def pickXs (f : PickF) : List Nat := (List.range (xPieces f.product)).map (fun i => f.xRef + 48 * i)
def pickWs (f : PickF) : List Nat := (List.range (wPieces f.product)).map (fun i => f.wRef + 48 * i)
def pickYs (f : PickF) : List Nat := (List.range (yPieces f.product)).map (fun i => f.yRef + 48 * i)

/-- The reference fields of a pick are legal, which is a check of its own fields (R11, R57). -/
def pickRefsOk (die : Nat) (f : PickF) : Bool :=
  (pickXs f ++ pickWs f ++ pickYs f).all (recAddrOk die)

/-- A record passes `ok`, or cannot be read for poison. -/
def State.recPasses (s : State) (ok : OpRec → Bool) (a : Nat) : Bool :=
  s.anyPoison a 48 || ok (s.readRec a)

/-- Outcome of the record checks of one pick on loom `l` of `die`; none when they pass. In the order of R11:
the fields of the records that can be read, the lease, poison. -/
def State.pickRecords (s : State) (die l : Nat) (q : BitVec 16) (f : PickF) : Option Outcm :=
  match decodeOpf f.opfX, decodeOpf f.opfW, decodeOpf f.opfY with
  | some ox, some ow, some oy =>
    let t := tileOf f.shape ox.fmt ow.fmt
    let kTot := f.len * t.1
    let refs := pickXs f ++ pickWs f ++ pickYs f
    let lead := s.readRec (((pickXs f).find? (fun a => !s.anyPoison a 48)).getD f.xRef)
    let g := s.ring die lead.ring
    let shX := storedShape f.transX f.rows kTot
    let shW := storedShape f.transW kTot t.2
    let okX := fun (r : OpRec) => r.rsvd && r.rows == shX.1 && r.cols == shX.2 && r.scaleHere die ox
        && (if lead.source == 1 then
              r.source == 1 && r.ring == lead.ring && g.configured && r.mant == 0
                && decide (1 ≤ rowsPerSlot g r)
                && decide (ox.fmt.rowBytes t.1 ≤ r.rowStr) && !f.transX
            else r.source == 0 && r.mantHere die ox.fmt)
    let okW := fun (r : OpRec) => r.rsvd && r.source == 0 && r.rows == shW.1 && r.cols == shW.2
        && r.scaleHere die ow && (f.mc || r.mantHere die ow.fmt)
    let okY := fun (r : OpRec) => r.rsvd && r.source == 0 && r.rows == f.rows && r.cols == t.2
        && r.scaleHere die oy && r.mantHere die oy.fmt
    if !((pickXs f).all (s.recPasses okX) && (pickWs f).all (s.recPasses okW)
        && (pickYs f).all (s.recPasses okY)) then some (pickOutcm stBadField l 0xFFFF f)
    else if !refs.all (fun a => s.within q a 48) then some (pickOutcm stNoLease l 0xFFFF f)
    else if refs.any (fun a => s.anyPoison a 48) then some (pickOutcm stPoisonSrc l 0xFFFF f)
    else none
  | _, _, _ => some (pickOutcm stBadField l 0xFFFF f)

/-! ### Warps -/

/-- A held warp serves a WARP_KEEP pick: shape, format and size agree (R77). -/
def warpFits (w : Option Warp) (f : PickF) (ox ow : Opf) : Bool :=
  let t := tileOf f.shape ox.fmt ow.fmt
  match w with
  | none => false
  | some w => w.kt == t.1 && w.nt == t.2 &&
    (match decodeOpf w.opf.toNat with | some o => o.fmt == ow.fmt | none => false)

/-- The warp that an accepted pick will leave on the loom, by its fields alone. -/
def pickWarpShape (p : Pick) : Option Warp :=
  let f := pickFields p.bwd p.body
  match decodeOpf f.opfX, decodeOpf f.opfW with
  | some ox, some ow =>
    let t := tileOf f.shape ox.fmt ow.fmt
    some { kt := t.1, nt := t.2, opf := BitVec.ofNat 8 f.opfW, elems := [] }
  | _, _ => none

/-- The warp the loom will hold when every accepted pick has run. -/
def Loom.nextWarp (m : Loom) : Option Warp :=
  match (m.picks.filter (fun p => p.ends.isNone)).getLast? with
  | some p => pickWarpShape p
  | none => m.warp

/-! ### Chains (R69 to R72) -/

/-- A CONT or END agrees with its chain's START (R70): ROWS, the references, formats, RQC,
FIXED_EXP, PRODUCT, SHAPE, CHAIN_LEN, TENSOR_ID and HEDDLE_CTL. -/
def chainAgrees (bwd : Bool) (a b : BitVec 352) : Bool :=
  let f := pickFields bwd a
  let g := pickFields bwd b
  f.rows == g.rows && f.xRef == g.xRef && f.wRef == g.wRef && f.yRef == g.yRef && f.opfX == g.opfX
    && f.opfW == g.opfW && f.opfY == g.opfY && f.rqc == g.rqc && f.fe == g.fe
    && f.product == g.product && f.shape == g.shape && f.len == g.len && f.tensor == g.tensor
    && f.transW == g.transW && f.transX == g.transX

/-- What the chain rules say to a pick: it goes on, it waits (R70), or it is BAD_FIELD. -/
inductive ChainVerdict where
  | go | wait | bad
  deriving DecidableEq, Repr

def chainVerdict (m : Loom) (q : BitVec 16) (bwd : Bool) (body : BitVec 352) : ChainVerdict :=
  let f := pickFields bwd body
  if f.chain = 0 then .go
  else if f.chain = 1 then
    match m.chain with
    | none => .go
    | some c => if c.queue = q ∧ !c.ending then .bad else .wait
  else
    match m.chain with
    | none => .bad
    | some c =>
      if c.queue = q ∧ c.bwd = bwd ∧ !c.ending ∧ chainAgrees bwd body c.body ∧ f.kIndex = c.nextK
          ∧ (f.chain = 3 ↔ f.kIndex + 1 = f.len) then .go else .bad

/-- A pick that is not to run has no phases left. -/
def Pick.idle (p : Pick) : Pick :=
  { p with recLeft := 0, preLeft := 0, warpLeft := 0, setupLeft := 0, rowsLeft := 0 }

/-- A later pass of the open chain of queue `q`. -/
def laterPass (q : BitVec 16) (p : Pick) : Bool :=
  p.queue == q && decide (2 ≤ (pickFields p.bwd p.body).chain)

/-- A pass of the loom's chain has ended without DONE: the later ones do not run (R72). -/
def State.failChain (s : State) (die l : Nat) (o : Outcm) : State :=
  let m := s.loom die l
  match m.chain with
  | none => s
  | some c =>
    if c.failed.isSome then s
    else (s.setLoom die l { m with
        chain := some { c with failed := some o }
        picks := m.picks.map (fun p => if laterPass c.queue p then p.idle else p) }).count (0x7830 + die)
      (16 * l + 0xC) 1

/-- The chain bookkeeping of an accepted pass: a START opens, the others advance K_INDEX. -/
def openChain (m : Loom) (q : BitVec 16) (bwd : Bool) (body : BitVec 352) : Loom :=
  let f := pickFields bwd body
  if f.chain = 0 then m
  else if f.chain = 1 then
    { m with chain := some { queue := q, bwd := bwd, body := body, nextK := 1, merge := [],
                             failed := none, ending := false } }
  else
    match m.chain with
    | none => m
    | some c => { m with chain := some { c with nextK := c.nextK + 1, ending := f.chain == 3 } }

/-! ### Timing of a pick (R55, R59, R63, R65, R196) -/

/-- K-period of an operand along K (R63): `alongCols` for X, whose K runs along columns. -/
def kPeriod (o : Opf) (alongCols : Bool) : Nat :=
  match o.dir with
  | .row => if alongCols then o.size else 1
  | .column => if alongCols then 1 else o.size
  | .tile => tileSide o.size

/-- The cycles of one warp load (R55, R66). -/
def pickLoad (f : PickF) : Nat :=
  match decodeOpf f.opfX, decodeOpf f.opfW with
  | some ox, some ow =>
    let t := tileOf f.shape ox.fmt ow.fmt
    t.1 * t.2 * ow.fmt.bits / 8 / 256
  | _, _ => 0

/-- The cycles of a pick's phases when it is accepted; the warp's are those of all its loads from die
store. -/
def pickTiming (f : PickF) (cfg : NumCfg) (shapeMode : Bool) : Nat × Nat × Nat × Nat :=
  match decodeOpf f.opfX, decodeOpf f.opfW with
  | some ox, some ow =>
    let t := tileOf f.shape ox.fmt ow.fmt
    let ox := if f.transX then ox.transpose else ox
    let ow := if f.transW then ow.transpose else ow
    let passes := (productPasses f.product).length
    let period := min (kPeriod ox true) (kPeriod ow false)
    let pre := if f.chain ≤ 1 then ceilDiv (f.rows * t.2 * (f.len * t.1) * passes) (8192 * period) else 0
    let loads := passes - (if f.keep then 1 else 0)
    let warp := if f.mc then 0 else loads * pickLoad f
    let rows := f.rows * passes * (if cfg.tabby then 8 else 1)
    (pre, warp, if shapeMode then 2 else 0, rows)
  | _, _ => (0, 0, 0, 0)

/-- A pick as it is handed over. -/
def newPick (q seq : BitVec 16) (bwd : Bool) (body : BitVec 352) (cfg : NumCfg) : Pick :=
  { queue := q, seq := seq, bwd := bwd, body := body, cfg := cfg, need := 0, drained := [], mc := [],
    recLeft := 4, preLeft := 0, warpLeft := 0, setupLeft := 0, rowsLeft := 0, started := false, slot := 0,
    buf := 0, fetched := 0, tiles := 0, ends := none }

/-! ### Acceptance (R70, R77, R78, R216) -/

/-- The pick ends before any row enters, with outcome `o`; a pass of an open chain fails it, and an
END closes it (R72). -/
def State.endUnrun (s : State) (die l : Nat) (p : Pick) (o : Outcm) : State :=
  let f := pickFields p.bwd p.body
  let s := if f.chain = 0 then s else s.failChain die l o
  let s :=
    if f.chain = 3 then
      let m := s.loom die l
      s.setLoom die l { m with chain := none }
    else s
  s.complete p.queue p.seq o

/-- A pick that fails at its acceptance: at once, or, behind accepted picks of its queue, in its turn, since
the picks of one queue complete in issue order (R78). -/
def State.endInTurn (s : State) (die l : Nat) (p : Pick) (o : Outcm) : State :=
  let m := s.loom die l
  if m.picks.any (fun x => x.queue == p.queue) then
    s.setLoom die l { m with picks := m.picks ++ [{ p.idle with ends := some o }] }
  else s.endUnrun die l p o

/-- The warp buffer of pass `j` of a pick (R61): a pass that loads its warp takes the other buffer than the
pass before it. -/
def passBuf (p : Pick) (j : Nat) : Nat := (p.buf + j) % 2

/-- A drain slot that no accepted pick holds and no row in flight names (R60). -/
def Loom.freeSlot (m : Loom) : Nat :=
  let held := fun (k : Nat) => m.picks.any (fun p => p.slot == k)
  let named := fun (k : Nat) => m.pipe.any (fun r => r.any (fun t => t.slot == k))
  match (List.range 4).find? (fun k => !held k && !named k) with
  | some k => k
  | none => ((List.range 4).find? (fun k => !held k)).getD 0

/-- Creel slots that a pick claims: for every X piece a run of slots of its own (R216). -/
def State.pickSlots (s : State) (die : Nat) (f : PickF) : List Nat :=
  (List.range (xPieces f.product)).map (fun i =>
    let x := s.readRec (f.xRef + 48 * i)
    if x.source = 1 then ceilDiv f.rows (rowsPerSlot (s.ring die x.ring) x) else 0)

/-- The loom takes the pick into its pick queue, claiming its creel slots. -/
def State.admitPick (s : State) (die l : Nat) (p : Pick) : State :=
  let f := pickFields p.bwd p.body
  let m := s.loom die l
  let tm := pickTiming f p.cfg m.shapeMode
  let first := if f.keep then m.lastBuf else (m.lastBuf + 1) % 2
  let x := s.readRec f.xRef
  let n := (s.pickSlots die f).sum
  let p := { p with preLeft := tm.1, warpLeft := tm.2.1, setupLeft := tm.2.2.1, rowsLeft := tm.2.2.2
                    slot := m.freeSlot, buf := first, need := n }
  let last := passBuf p ((productPasses f.product).length - 1)
  let s := s.setLoom die l { m with picks := m.picks ++ [p], lastBuf := last }
  if n = 0 then s else s.claimSlots die x.ring p.queue p.seq n

/-- The pick `p` is offered to loom `l` of `die`. None when it must wait. A pass of a chain that has failed
ends as the chain did (R72). A pick that has waited meets the mode that the loom now has (R65). -/
def State.offerPick (s : State) (die l : Nat) (p : Pick) : Option State :=
  let f := pickFields p.bwd p.body
  let m := s.loom die l
  if 4 ≤ m.picks.length then none
  else match chainVerdict m p.queue p.bwd p.body with
  | .wait => none
  | .bad => some (s.complete p.queue p.seq (pickOutcm stBadField l 0xFFFF f))
  | .go =>
    match decodeOpf f.opfX, decodeOpf f.opfW with
    | some ox, some ow =>
      let bad := pickOutcm stBadField l 0xFFFF f
      let unfit := (f.keep && !warpFits m.nextWarp f ox ow) || (!m.shapeMode && f.shape != 0)
      if unfit ∧ f.chain = 0 then some (s.complete p.queue p.seq bad)
      else
        let s := s.setLoom die l (openChain m p.queue p.bwd p.body)
        match if f.chain < 2 then none else (m.chain.map (fun c => c.failed)).join with
        | some o => some (s.endInTurn die l p o)
        | none =>
        if unfit then some (s.endInTurn die l p bad)
        else match s.pickRecords die l p.queue f with
          | some o => some (s.endInTurn die l p o)
          | none => some (s.admitPick die l p)
    | _, _ => some (s.complete p.queue p.seq (pickOutcm stBadField l 0xFFFF f))

/-- A pick that has passed its own checks reaches its loom: behind a waiting pick of its queue, or
when it cannot be accepted, it waits (R70, R78). -/
def State.handPick (s : State) (die l : Nat) (p : Pick) : State :=
  let m := s.loom die l
  if m.waiting.any (fun w => w.queue == p.queue) then
    s.setLoom die l { m with waiting := m.waiting ++ [p] }
  else match s.offerPick die l p with
    | some t => t
    | none => s.setLoom die l { m with waiting := m.waiting ++ [p] }

/-- The lowest-numbered loom of `die` with a free entry (R77). -/
def State.freeLoom (s : State) (die : Nat) : Option Nat :=
  (List.range 8).find? (fun l => decide ((s.loom die l).picks.length < 4))

/-- LOOM_PICK and BWD_PICK at dispatch (R11, R71, R77). With ROWS = 0 the checks that need a record or the
loom's chain and warp are not made (log 74). -/
def State.dispatchPick (s : State) (d : Desc) (op : Byte) (bwd : Bool) : State :=
  let f := pickFields bwd d.body
  let die := (s.queue d.queue).die
  let target := if f.any then s.freeLoom die else some f.loom
  match target with
  | none => s
  | some l =>
    if !s.canDispatchTo d op (.loom l) then s
    else
      let cfg := s.numCfg d.queue
      if !pickFieldsOk f cfg (s.loom die l).shapeMode || !pickRefsOk die f then
        s.finish d (pickOutcm stBadField l 0xFFFF f)
      else if f.rows = 0 then s.finish d doneEmpty
      else (s.handOver d (.loom l)).handPick die l (newPick d.queue d.seq bwd d.body cfg)

/-- The waiting picks that may be offered: the first of each queue. -/
def firstOfQueue (l : List Pick) : List Pick :=
  l.foldl (fun a p => if a.any (fun x => x.queue == p.queue) then a else a ++ [p]) []

/-- The first waiting pick that can be accepted is (R78). -/
def State.acceptWaiting (s : State) (die l : Nat) (cands : List Pick) : State :=
  match cands with
  | [] => s
  | p :: r =>
    let m := s.loom die l
    let t := s.setLoom die l { m with waiting := m.waiting.filter (fun w =>
      !(w.queue == p.queue && w.seq == p.seq)) }
    match t.offerPick die l p with
    | some u => u
    | none => s.acceptWaiting die l r

/-! ### The products (R39 to R42, R69, R73) -/

/-- The views of one piece of X and W over the whole of K, and the piece's slice getter. -/
structure PickOps where
  xs : List View
  ws : List View

/-- X pieces of a pick: planes, or drained slots whose columns are the pass's slice of K. -/
def State.xViews (s : State) (die : Nat) (p : Pick) (f : PickF) (ox : Opf) (kt kTot : Nat) :
    List View :=
  (List.range (xPieces f.product)).map (fun i =>
    let r := s.readRec (f.xRef + 48 * i)
    if r.source = 1 then
      let per := rowsPerSlot (s.ring die r.ring) r
      let first := ((s.pickSlots die f).take i).sum
      let sl := s.slotView r ox f.rows kt p.drained first per
      { rows := f.rows, cols := kTot, fmt := ox.fmt
        scale := fun a b => s.scaleAt r ox (a / ox.extent.1) (b / ox.extent.2)
        elem := fun a b => sl.elem a (b - f.kIndex * kt)
        poison := fun a b =>
          match s.scaleAt r ox (a / ox.extent.1) (b / ox.extent.2) with
          | .exp _ =>
            let x := p.drained.getD (first + a / per) { bytes := [], faulted := true, poison := [] }
            let line := fun (k : Nat) => ((a % per) * r.rowStr + k) / 64
            x.faulted || x.poison.contains (line (elemByte ox.fmt (b - f.kIndex * kt)))
              || x.poison.contains (line (elemLast ox.fmt (b - f.kIndex * kt)))
          | _ => false }
    else
      let v := s.recView r ox
      if f.transX then v.transpose else v)

/-- W pieces of a pick, with their scales; mantissas come from the held warp or a delivery where
the pick says so. -/
def State.wViews (s : State) (f : PickF) (ow : Opf) : List View :=
  (List.range (wPieces f.product)).map (fun i =>
    let v := s.recView (s.readRec (f.wRef + 48 * i)) ow
    if f.transW then v.transpose else v)

/-- The warp of one pass: `kt` × `nt` mantissas, row-major. -/
def warpElems (v : View) (k0 kt nt : Nat) : List Elem :=
  ((List.range kt).map (fun k => (List.range nt).map (fun n => v.elem (k0 + k) n))).flatten

/-- A delivery's bytes as a warp (R220): cell row after cell row, each packed. -/
def deliveredElems (f : Fmt) (bytes : List Byte) (kt nt : Nat) : List Elem :=
  let rb := f.rowBytes nt
  ((List.range kt).map (fun k =>
    (List.range nt).map (fun n => elemOf f (fun j => bytes.getD (k * rb + j) 0) n))).flatten

/-- The merge cells of a chain or single-pass pick before its first pass: E_max over the whole of
K and every pass that feeds the output (R39, R63, R73). -/
def mergeStart (f : PickF) (ops : PickOps) (kTot nt : Nat) : List (List MergeCell) :=
  (List.range (yPieces f.product)).map (fun o =>
    ((List.range f.rows).map (fun r => (List.range nt).map (fun n =>
      let em := (productPasses f.product).foldl (fun a ps =>
        if ps.2.2.2 = o then
          match ops.xs[ps.1]?, ops.ws[ps.2.1]? with
          | some x, some w =>
            (List.range kTot).foldl (fun a k =>
              match x.scale r k, w.scale k n with
              | .exp ea, .exp eb => optMax a (some (ea + eb))
              | _, _ => a) a
          | _, _ => a
        else a) none
      ({ emax := em, sum := 0, nar := false } : MergeCell)))).flatten)

/-- One pass adds its slice of K into the merge cells of its output (R69). `we` holds the pass's
warp mantissas. -/
def mergePass (f : PickF) (ops : PickOps) (g kt nt : Nat) (ps : Nat × Nat × Bool × Nat)
    (we : List Elem) (cells : List MergeCell) : List MergeCell :=
  match ops.xs[ps.1]?, ops.ws[ps.2.1]? with
  | some x, some w =>
    cells.zipIdx.map (fun ci =>
      let r := ci.2 / nt
      let n := ci.2 % nt
      let ts := (List.range kt).map (fun k =>
        let kk := f.kIndex * kt + k
        let t := prodTerm g (x.scale r kk) (w.scale kk n) (x.elem r kk) (we.getD (k * nt + n) .nar)
        if f.negX != ps.2.2.1 then t.neg else t)
      { ci.1 with sum := ci.1.sum + groupSum (ci.1.emax.getD 0) ts
                  nar := ci.1.nar || ts.any Term.nar })
  | _, _ => cells

/-- The exact result of a merge cell (R40, R41, R195). -/
def cellValue (tabby : Bool) (c : MergeCell) : XV × Bool := groupResult tabby c.emax c.sum c.nar

/-! ### Completion (R59, R72, R79) -/

/-- What running a pick yields: its outcome, the state after its writes and the merge cells. -/
structure PickRun where
  st    : State
  out   : Outcm
  merge : List (List MergeCell)
  warp  : Option Warp

/-- The first weft row that draws on a poisoned line, over the passes of the pick. -/
def firstBadRow (f : PickF) (ops : PickOps) (kt : Nat) : Option Nat :=
  firstRow f.rows (fun r => ops.xs.any (fun x =>
    (List.range kt).any (fun k => x.poison r (f.kIndex * kt + k))))

/-- Writes the outputs of an ONLY or END pass over the rows below `limit` (R79). -/
def State.writeOutputs (s : State) (p : Pick) (f : PickF) (oy : Opf) (nt limit : Nat)
    (merge : List (List MergeCell)) : State × Option Nat :=
  let rd := roundingOf p.cfg f.rqc f.fe f.tensor
  (List.range (yPieces f.product)).foldl (fun acc o =>
    let r := s.readRec (f.yRef + 48 * o)
    let pl : OutPlane := { rcd := r, opf := oy, rows := f.rows, cols := nt }
    let cells := merge.getD o []
    let val := fun i j =>
      match cells[i * nt + j]? with
      | some c => (cellValue p.cfg.tabby c).1
      | none => .num 0 0
    let sk := formSkeins pl rd limit val
    let wrapped := ((cells.take (limit * nt)).filter (fun c => (cellValue p.cfg.tabby c).2)).length
    let st := (acc.1.writeSkeins pl sk.1).countWatched p.queue p.cfg.step
      { sk.2 with wrapped := wrapped }
    (st, match firstNarRow pl sk.1, acc.2 with
      | some a, some b => some (min a b)
      | some a, none => some a
      | none, b => b)) (s, none)

/-- Runs the passes of pick `p` on loom `l` of `die` (R69, R73, R79). -/
def State.runPick (s : State) (die l : Nat) (p : Pick) : PickRun :=
  let f := pickFields p.bwd p.body
  let m := s.loom die l
  match decodeOpf f.opfX, decodeOpf f.opfW, decodeOpf f.opfY with
  | some ox, some ow, some oy =>
    let t := tileOf f.shape ox.fmt ow.fmt
    let kTot := f.len * t.1
    let ops : PickOps := { xs := s.xViews die p f ox t.1 kTot, ws := s.wViews f ow }
    let passes := productPasses f.product
    let k0 := f.kIndex * t.1
    let start := if f.chain ≤ 1 then mergeStart f ops kTot t.2
      else (match m.chain with | some c => c.merge | none => [])
    let scaleBad :=
      (List.range (xPieces f.product)).any (fun i => s.scalePoisoned (s.readRec (f.xRef + 48 * i)) ox)
        || (List.range (wPieces f.product)).any (fun i => s.scalePoisoned (s.readRec (f.wRef + 48 * i)) ow)
    -- the warps of the passes, first to last
    let warps := passes.zipIdx.map (fun pi =>
      if pi.2 = 0 ∧ f.keep then (match m.warp with | some w => w.elems | none => [])
      else if f.mc then
        deliveredElems ow.fmt (p.mc.getD pi.2 ([], true)).1 t.1 t.2
      else match ops.ws[pi.1.2.1]? with
        | some w => warpElems w k0 t.1 t.2
        | none => [])
    let warpBad := passes.zipIdx.any (fun pi =>
      if pi.2 = 0 ∧ f.keep then false
      else if f.mc then (p.mc.getD pi.2 ([], true)).2
      else match ops.ws[pi.1.2.1]? with
        | some w => (List.range t.1).any (fun k => (List.range t.2).any (fun n => w.poison (k0 + k) n))
        | none => false)
    let sizeBad := f.mc && p.mc.any (fun d => d.1.length != ow.fmt.rowBytes t.2 * t.1)
    let fail := fun (st : Byte) (row : Nat) =>
      ({ st := s, out := pickOutcm st l row f, merge := start, warp := m.warp } : PickRun)
    if f.keep && !warpFits m.warp f ox ow then fail stBadField 0xFFFF
    else if sizeBad then fail stBadField 0xFFFF
    else if scaleBad || warpBad then fail stPoisonSrc 0xFFFF
    else
      let merged := (passes.zip warps).foldl (fun acc pw =>
        acc.modify pw.1.2.2.2 (mergePass f ops (guardBits p.cfg.tabby) t.1 t.2 pw.1 pw.2)) start
      let warp : Warp :=
        { kt := t.1, nt := t.2, opf := BitVec.ofNat 8 f.opfW, elems := warps.getLast?.getD [] }
      let bad := firstBadRow f ops t.1
      if f.chain = 0 ∨ f.chain = 3 then
        let w := s.writeOutputs p f oy t.2 (bad.getD f.rows) merged
        let out := match bad, w.2 with
          | some r, _ => pickOutcm stPoisonSrc l r f
          | none, some r => pickOutcm stNarOut l r f
          | none, none => doneOk
        { st := w.1, out := out, merge := merged, warp := some warp }
      else
        let out := match bad with
          | some r => pickOutcm stPoisonSrc l r f
          | none => doneOk
        { st := s, out := out, merge := merged, warp := some warp }
  | _, _, _ => { st := s, out := pickOutcm stBadField l 0xFFFF f, merge := [], warp := m.warp }

/-- The rows of every tile that the heddle fills for a pick, in the order in which its passes take them, with
whether they are weft rows (R124, R127): for each pass the tiles of its warp, unless it keeps the one in
place, and then those of its weft. -/
def tilePlan (f : PickF) : List (Bool × Nat) :=
  match decodeOpf f.opfX, decodeOpf f.opfW with
  | some ox, some ow =>
    let t := tileOf f.shape ox.fmt ow.fmt
    let share := fun (n k i : Nat) => n * (i + 1) / k - n * i / k
    let cut := fun (weft : Bool) (n k : Nat) => (List.range k).map (fun i => (weft, share n k i))
    let warpTiles := ceilDiv t.2 (2048 / ow.fmt.bits) * ceilDiv t.1 256
    let weftTiles := ceilDiv f.rows 256
    (List.range (productPasses f.product).length).flatMap (fun j =>
      (if f.transW && !(f.keep && j == 0) then cut false (pickLoad f) warpTiles else [])
        ++ (if f.transX then cut true f.rows weftTiles else []))
  | _, _ => []

/-- The front pick of a loom has what it needs: its creel slots are taken and its deliveries have
arrived (R74, R75, R217). -/
def pickSupplied (p : Pick) : Bool :=
  let f := pickFields p.bwd p.body
  p.need == 0 && (!f.mc || decide ((productPasses f.product).length ≤ p.mc.length))

/-- The outcome of a pick that completes without running: what its acceptance decided, or that of the
failed pass of its chain (R72). -/
def decidedOutcm (m : Loom) (p : Pick) : Option Outcm :=
  match p.ends with
  | some o => some o
  | none =>
    if 2 ≤ (pickFields p.bwd p.body).chain then (m.chain.map (fun c => c.failed)).join else none

/-- The front pick of loom `l` completes (R59, R72, R78). PICKS_COMPLETED counts every accepted pick that
comes to its completion here, whatever its status; one that ends at its checks, at ROWS = 0 or by an abort is
not counted. The warp loads count when the pick completes, also when it then meets poison (log 74). -/
def State.completePick (s : State) (die l : Nat) : State :=
  let m := s.loom die l
  match m.picks with
  | [] => s
  | p :: rest =>
    let prior := decidedOutcm m p
    if prior.isNone && !pickSupplied p then s
    else
      let f := pickFields p.bwd p.body
      let run : PickRun := match prior with
        | some o => { st := s, out := o, merge := [], warp := m.warp }
        | none => s.runPick die l p
      let s := run.st
      let s := if p.ends.isNone then s.count (0x7830 + die) (16 * l + 8) 1 else s
      let ran := run.out.1 != stBadField && prior.isNone
      let loads := (productPasses f.product).length - (if f.keep then 1 else 0)
      let s := if ran then s.count (0x7830 + die) (16 * l + (if f.mc then 0xA else 9)) loads else s
      let s := if ran then s.count (0x78A1 + die) 0 ((tilePlan f).length - p.tiles) else s
      let m := s.loom die l
      let chain := if f.chain = 0 then m.chain
        else if f.chain = 3 then none
        else m.chain.map (fun c => { c with merge := run.merge })
      let s := s.setLoom die l { m with picks := rest, chain := chain, warp := run.warp }
      let failed := run.out.1 != stDone
      let s := if failed ∧ (f.chain = 1 ∨ f.chain = 2) then s.failChain die l run.out else s
      let s := if failed ∧ f.chain = 3 ∧ (m.chain.map (fun c => c.failed)).join.isNone then
          s.count (0x7830 + die) (16 * l + 0xC) 1 else s
      let s := if failed ∧ run.out.1 ≠ stNarOut then s.releaseClaims die p.queue p.seq else s
      let s := s.complete p.queue p.seq run.out
      s.settleDie die

/-! ### LOOM_CHAIN_DROP and LOOM_SET_MODE (R80) -/

/-- Every earlier descriptor of the queue has completed (R80). -/
def State.earlierDone (s : State) (d : Desc) : Bool :=
  ((s.queue d.queue).before d.seq).all (fun f => match f.phase with | .done _ _ _ => true | _ => false)

/-- Drops the open chain of queue `q` on a loom (R72). -/
def State.dropChain (s : State) (die l : Nat) (q : BitVec 16) : State :=
  let m := s.loom die l
  match m.chain with
  | some c => if c.queue = q then s.setLoom die l { m with chain := none } else s
  | none => s

/-! ### Meanings -/

def execLoomPick (d : Desc) (s : State) : Result := .next (s.dispatchPick d 0x30 false)

def execPickAccept (die loom : Nat) (s : State) : Result :=
  if s.ready ∧ loom < 8 then
    .next (s.acceptWaiting die loom (firstOfQueue (s.loom die loom).waiting))
  else .next s

def execPickComplete (die loom : Nat) (s : State) : Result :=
  if s.ready ∧ loom < 8 then .next (s.completePick die loom) else .next s

def execLoomChainDrop (d : Desc) (s : State) : Result :=
  s.onDesc d 0x31 (fun s =>
    if fieldBits d.body 16 7 3 ≠ 0 ∨ !fieldZero d.body 17 60 then s.finish d badField
    else if !s.earlierDone d then s
    else s.runNow d 0x31 (fun s =>
      (s.dropChain (s.queue d.queue).die (fieldBits d.body 16 2 0) d.queue, doneOk)))

def execLoomSetMode (d : Desc) (s : State) : Result :=
  s.onDesc d 0x32 (fun s =>
    let die := (s.queue d.queue).die
    let mask := fieldOf d.body 16 1
    let mode := fieldOf d.body 17 1
    let sel := bitList 8 mask
    if 2 ≤ mode ∨ !fieldZero d.body 18 60 then s.finish d badField
    else if mask = 0 then s.finish d doneEmpty
    else if !s.earlierDone d then s
    else if sel.any (fun l => (s.loom die l).chain.isSome) then s.finish d badField
    else if sel.any (fun l => !(s.loom die l).picks.isEmpty) then s
    else s.runNow d 0x32 (fun s =>
      (sel.foldl (fun s l => s.setLoom die l { s.loom die l with shapeMode := mode == 1 }) s, doneOk)))

end Sys2Proof.Machine
end

