-- ==== Sys2Proof/Machine/Cycles.lean ====
section
/-!
DEFINITION. The cycles of a loom (R59 to R68) and of the heddles that feed it (R127): the warp beam with its
two buffers, the scale unit, the weft feeder, the rows in the array and the drain, and the class of every
A-clock cycle. Who is granted a contended access of the die store is a free value (R223, log 68).
-/

namespace Sys2Proof.Machine

open Sys2Proof

/-! ### Where a pick stands -/

/-- A-clock cycles that one weft row takes to enter (R196). -/
def rowCycles (p : Pick) : Nat := if p.cfg.tabby then 8 else 1

/-- Cycles of ENTER that one pass of the pick takes. -/
def passCycles (p : Pick) : Nat := (pickFields p.bwd p.body).rows * rowCycles p

def pickPasses (p : Pick) : Nat := (productPasses (pickFields p.bwd p.body).product).length

/-- Cycles of ENTER the pick has had. -/
def enteredCycles (p : Pick) : Nat := passCycles p * pickPasses p - p.rowsLeft

/-- Weft rows that have entered, over all passes. -/
def enteredRows (p : Pick) : Nat := enteredCycles p / rowCycles p

/-- Weft rows over all passes. -/
def totalRows (p : Pick) : Nat := (pickFields p.bwd p.body).rows * pickPasses p

/-- The pass to which weft row `n` of the pick belongs. -/
def rowPass (p : Pick) (n : Nat) : Nat := n / max 1 (pickFields p.bwd p.body).rows

/-- Warps of the pick that stand complete in a buffer or have been there (R61, R74, R77). -/
def warpsReady (p : Pick) : Nat :=
  let f := pickFields p.bwd p.body
  if f.mc then p.mc.length
  else if pickLoad f = 0 then pickPasses p
  else pickPasses p - ceilDiv p.warpLeft (pickLoad f)

/-- Every row of the pick's pass `j` has entered stage 0. -/
def passEntered (p : Pick) (j : Nat) : Bool := decide ((j + 1) * passCycles p ≤ enteredCycles p)

/-- The pick's pass `j` may load its warp: no earlier pass has rows to enter that use the buffer (R61).
`seen` are the picks before it. -/
def bufferFree (seen : List Pick) (p : Pick) (j : Nat) : Bool :=
  let b := passBuf p j
  let past := fun (x : Pick) (n : Nat) =>
    (List.range n).all (fun i => passBuf x i != b || passEntered x i)
  seen.all (fun x => past x (pickPasses x)) && past p j

/-! ### The beam and the scale unit -/

/-- The first element of `l` that satisfies `c`, given those before it. -/
def findFirst {α : Type} (c : List α → α → Bool) (seen l : List α) : Option α :=
  match l with
  | [] => none
  | x :: r => if c seen x then some x else findFirst c (seen ++ [x]) r

/-- The first element of `l` that satisfies `c`, given those before it, is changed by `f`. -/
def changeFirst {α : Type} (c : List α → α → Bool) (f : α → α) (seen l : List α) : List α :=
  match l with
  | [] => []
  | x :: r => if c seen x then f x :: r else x :: changeFirst c f (seen ++ [x]) r

/-- The warp beam may write for this pick: its records are read, every earlier load is over, and the
buffer is free (R61). -/
def beamGoes (seen : List Pick) (p : Pick) : Bool :=
  p.recLeft == 0 && p.warpLeft != 0 && seen.all (fun x => x.warpLeft == 0)
    && bufferFree seen p (warpsReady p)

/-- The pick lacks a delivery of a multicast warp. -/
def lacksDelivery (p : Pick) : Bool :=
  (pickFields p.bwd p.body).mc && p.ends.isNone && decide (p.mc.length < pickPasses p)

/-- The pick that holds the warp beam's landing credit: the first that lacks a delivery, once the buffer of
its next pass is free (R61, R74). -/
def Loom.creditPick (m : Loom) : Option Pick :=
  match m.picks.find? lacksDelivery with
  | none => none
  | some p =>
    let seen := m.picks.takeWhile (fun x => !(x.queue == p.queue && x.seq == p.seq))
    if bufferFree seen p p.mc.length then some p else none

/-- The scale unit works for this pick: one pre-pass at a time, and one chain ahead (R64). -/
def scaleGoes (seen : List Pick) (p : Pick) : Bool :=
  let closes := fun (x : Pick) =>
    let c := (pickFields x.bwd x.body).chain
    (c == 0 || c == 3) && x.rowsLeft != 0
  p.recLeft == 0 && p.preLeft != 0 && seen.all (fun x => x.preLeft == 0)
    && decide ((seen.filter closes).length ≤ 1)

/-! ### The weft feeder -/

/-- Slots the pick has taken cover its weft row `n` (Table LOM-7, WEFT_DRY). -/
def weftReady (s : State) (die : Nat) (p : Pick) (n : Nat) : Bool :=
  let f := pickFields p.bwd p.body
  let pass := rowPass p n
  let piece := ((productPasses f.product).getD pass (0, 0, false, 0)).1
  let x := s.readRec (f.xRef + 48 * piece)
  if x.source = 0 then true
  else
    let per := max 1 (rowsPerSlot (s.ring die x.ring) x)
    decide (((s.pickSlots die f).take piece).sum + (n - pass * f.rows) / per < p.drained.length)

/-- The feeder holds rows that have not entered. -/
def fedAhead (p : Pick) : Nat := p.fetched - enteredRows p

/-- The feeder may take the next row of this pick: it prefetches up to 64 rows ahead, in order. -/
def feedWants (l : List Pick) (seen : List Pick) (p : Pick) : Bool :=
  let waits := fun (x : Pick) => x.rowsLeft != 0 && decide (x.fetched < totalRows x)
  p.recLeft == 0 && waits p && seen.all (fun x => !waits x) && decide ((l.map fedAhead).sum < 64)

/-! ### Heddles (R127) -/

def heddleKey (die h : Nat) : Nat := 4 * die + h

def State.heddle (s : State) (die h : Nat) : List HeddleTile := Tab.read s.heddles [] (heddleKey die h)

def State.setHeddle (s : State) (die h : Nat) (x : List HeddleTile) : State :=
  { s with heddles := if x = [] then Tab.remove s.heddles (heddleKey die h)
                      else Tab.write s.heddles (heddleKey die h) x }

def HeddleTile.serves (t : HeddleTile) (p : Pick) (weft : Bool) : Bool :=
  t.queue == p.queue && t.seq == p.seq && t.weft == weft

/-- The oldest tile of the pick's weft or warp stands complete. -/
def tileReady (h : List HeddleTile) (p : Pick) (weft : Bool) : Bool :=
  (h.find? (fun t => t.serves p weft)).any (fun t => t.fillLeft == 0)

/-- A row is taken from the oldest tile of the pick; a buffer is let go with its last row. -/
def takeRow (h : List HeddleTile) (p : Pick) (weft : Bool) : List HeddleTile :=
  (changeFirst (fun _ t => t.serves p weft) (fun t => { t with rowsLeft := t.rowsLeft - 1 }) [] h).filter
    (fun t => t.rowsLeft != 0)

/-- A pick asks for a tile: its records are read, and its plan is not filled. -/
def tileWants (p : Pick) : Bool :=
  p.recLeft == 0 && p.rowsLeft != 0 && decide (p.tiles < (tilePlan (pickFields p.bwd p.body)).length)

/-- One cycle of the fills of heddle `h`: tiles of picks that are gone are let go, a free buffer begins the
fill of the next tile of an accepted pick, the lower-numbered loom first, and the oldest fill goes on. A fill
takes 64 cycles, at 1,024 bytes a cycle. HEDDLE_TILES counts it. -/
def State.fillHeddle (s : State) (die h : Nat) : State :=
  let looms := [2 * h, 2 * h + 1]
  let held := (s.heddle die h).filter (fun t =>
    (s.loom die t.loom).picks.any (fun p => p.queue == t.queue && p.seq == t.seq && p.rowsLeft != 0))
  let want := looms.findSome? (fun l => ((s.loom die l).picks.find? tileWants).map (fun p => (l, p)))
  let r : State × List HeddleTile :=
    match if held.length < 4 then want else none with
    | none => (s, held)
    | some (l, p) =>
      let m := s.loom die l
      let t := (tilePlan (pickFields p.bwd p.body)).getD p.tiles (false, 0)
      let s := s.setLoom die l { m with picks := m.picks.map (fun x =>
        if x.queue = p.queue ∧ x.seq = p.seq then { x with tiles := x.tiles + 1 } else x) }
      (s.count (0x78A1 + die) 0 1,
        held ++ [{ loom := l, queue := p.queue, seq := p.seq, weft := t.1, fillLeft := 64, rowsLeft := t.2 }])
  r.1.setHeddle die h
    (changeFirst (fun _ t => t.fillLeft != 0) (fun t => { t with fillLeft := t.fillLeft - 1 }) [] r.2)

/-! ### Supply: what the feeder and the beam of each loom are given in a cycle -/

/-- The pick whose row the feeder asks for. -/
def feedPick (s : State) (die : Nat) (m : Loom) : Option Pick :=
  (findFirst (feedWants m.picks) [] m.picks).bind (fun p =>
    if weftReady s die p p.fetched then some p else none)

/-- The pick for which the beam writes. -/
def beamPick (m : Loom) : Option Pick := findFirst beamGoes [] m.picks

/-- Grants of one cycle to a loom: the feeder's row, the beam's 256 bytes, and the drain's output row. -/
structure LoomGrant where
  feed  : Bool
  beam  : Bool
  drain : Bool
  deriving DecidableEq, Repr

/-- More than one loom, vector engine or shuttle of the die works in this cycle. -/
def State.contended (s : State) (die : Nat) : Bool :=
  let looms := ((List.range 8).filter (fun l =>
    let m := s.loom die l
    m.picks.any (fun p => p.rowsLeft != 0) || m.fifo != 0 || m.pipe.any Option.isSome)).length
  let vecs := ((List.range 16).filter (fun e => !(s.vec die e).isEmpty)).length
  let xfers := (s.xfers.filter (fun x => x.die == die && x.accepted)).length
  decide (1 < looms + vecs + xfers)

/-- The die store grants an access of this cycle: always when nobody else asks, and else as its arbitration
falls out, a free value (R223, log 68). -/
def State.storeGrant (s : State) (busy : Bool) : Bool × State :=
  if busy then
    let r := s.draw
    (r.1 % 2 == 0, r.2)
  else (true, s)

/-- The weft of a pick comes from the heddle. -/
def fromHeddle (p : Pick) (weft : Bool) : Bool :=
  let f := pickFields p.bwd p.body
  if weft then f.transX else f.transW

/-- The rows that heddle `h` emits in this cycle: at most two, weft rows first, and the lower-numbered loom
first. Each is (loom, whether a weft row, pick). -/
def State.heddleRows (s : State) (die h : Nat) : List (Nat × Bool × Pick) :=
  let looms := [2 * h, 2 * h + 1]
  let ask := fun (weft : Bool) (l : Nat) =>
    let m := s.loom die l
    match if weft then feedPick s die m else beamPick m with
    | some p => if fromHeddle p weft && tileReady (s.heddle die h) p weft then [(l, weft, p)] else []
    | none => []
  (looms.flatMap (ask true) ++ looms.flatMap (ask false)).take 2

/-- The heddle's rows of this cycle leave it. -/
def State.emitHeddle (s : State) (die h : Nat) (rows : List (Nat × Bool × Pick)) : State :=
  s.setHeddle die h (rows.foldl (fun t r => takeRow t r.2.2 r.2.1) (s.heddle die h))

/-! ### The class of a cycle (R68) -/

/-- How the loom's cycle is classified (R68, Table LOM-7): ENTER, IDLE, or the code of its freeze in Table
LOM-13. -/
inductive LoomCycle where
  | enter | idle | frozen (code : Nat)
  deriving DecidableEq, Repr

/-- The pick whose rows enter next. -/
def Loom.streaming (m : Loom) : Option Pick := m.picks.find? (fun p => p.rowsLeft != 0)

def loomCycle (m : Loom) : LoomCycle :=
  if 32 ≤ m.fifo then .frozen 2
  else match m.streaming with
    | none => .idle
    | some p =>
      if p.preLeft ≠ 0 ∨ p.recLeft ≠ 0 then .frozen 3
      else if warpsReady p ≤ rowPass p (enteredRows p) then .frozen 4
      else if p.setupLeft ≠ 0 then .frozen 6
      else if p.fetched ≤ enteredRows p then .frozen 5
      else .enter

/-- The loom waits on its heddle in a cycle frozen for its warp or its weft (R127). -/
def heddleWait (m : Loom) (c : LoomCycle) : Bool :=
  m.streaming.any (fun p =>
    (c == .frozen 4 && fromHeddle p false) || (c == .frozen 5 && fromHeddle p true))

/-- A pick's first row enters while rows of an earlier pick are in the array (Table LOM-13). -/
def shedChange (m : Loom) (c : LoomCycle) : Bool :=
  c == .enter && m.streaming.any (fun p => enteredCycles p + 1 == rowCycles p
    && (m.pipe.take 7).any (fun r => r.any (fun t => t.slot != p.slot)))

/-! ### One cycle of a loom -/

/-- A weft row goes on entering. -/
def enterRow (p : Pick) : Pick := { p with rowsLeft := p.rowsLeft - 1, started := true }

/-- The pass is the last that feeds its output, so that its rows leave the drain as output rows. -/
def writesOutput (p : Pick) (j : Nat) : Bool :=
  let f := pickFields p.bwd p.body
  let ps := productPasses f.product
  let o := (ps.getD j (0, 0, false, 0)).2.2.2
  (f.chain == 0 || f.chain == 3) && (ps.drop (j + 1)).all (fun x => x.2.2.2 != o)

/-- The tag of the row that is whole in stage 0 in this cycle, if one is (R59, R60). -/
def Loom.wholeRow (m : Loom) : Option RowTag :=
  m.streaming.bind (fun p =>
    if (enteredCycles p + 1) % rowCycles p = 0 then
      let j := rowPass p (enteredRows p)
      some { buf := passBuf p j, slot := p.slot, output := writesOutput p j }
    else none)

/-- The records of every accepted pick are read in four cycles (Table LOM-3). -/
def readRecs (l : List Pick) : List Pick := l.map (fun p => { p with recLeft := p.recLeft - 1 })

/-- The rows move on by one place, `r` entering; the one that leaves the drain is answered (R59). -/
def shiftPipe (pipe : List (Option RowTag)) (r : Option RowTag) : List (Option RowTag) × Bool :=
  let l := r :: pipe
  let gone := (l.drop 13).any (fun t => t.any RowTag.output)
  let kept := l.take 13
  (if kept.all Option.isNone then [] else kept, gone)

/-- One cycle of the loom whose cycle is classified as `c`, with the grants `g`. The warp beam, the scale unit
and the feeder work in every cycle, and the FIFO writes; rows move only when it is not frozen (R67). -/
def Loom.advance (m : Loom) (c : LoomCycle) (g : LoomGrant) : Loom :=
  let old := m.picks
  let l := if g.beam then changeFirst beamGoes (fun p => { p with warpLeft := p.warpLeft - 1 }) [] old else old
  let pre := changeFirst scaleGoes (fun p => { p with preLeft := p.preLeft - 1 }) [] old
  let l := (l.zip pre).map (fun x => { x.1 with preLeft := x.2.preLeft })
  let next := fun (_ : List Pick) (p : Pick) => p.rowsLeft != 0
  let l := match c with
    | .enter => changeFirst next enterRow [] l
    | .frozen 6 => changeFirst next (fun p => { p with setupLeft := p.setupLeft - 1 }) [] l
    | _ => l
  let moved := match c with
    | .frozen _ => (m.pipe, false)
    | .enter => shiftPipe m.pipe m.wholeRow
    | .idle => shiftPipe m.pipe none
  let full := m.fifo + (if moved.2 then 1 else 0)
  { m with picks := readRecs l, pipe := moved.1, fifo := if g.drain then full - 1 else full }

/-- The feeder has taken the next row. -/
def Loom.feed (m : Loom) : Loom :=
  { m with picks := changeFirst (feedWants m.picks) (fun p => { p with fetched := p.fetched + 1 }) [] m.picks }

/-- One cycle of loom `l` of `die`; `rows` are those its heddle emits, and `busy` says that the die store is
contended. -/
def State.tickLoom (s : State) (die l : Nat) (rows : List (Nat × Bool × Pick)) (busy : Bool) : State :=
  let m := s.loom die l
  let n := 0x7830 + die
  if m.picks = [] ∧ m.pipe = [] ∧ m.fifo = 0 then s.count n (16 * l + 7) 1
  else
    let given : Bool → State → Option Pick → Bool × State := fun weft s p =>
      match p with
      | none => (false, s)
      | some p =>
        if fromHeddle p weft then (rows.any (fun r => r.1 == l && r.2.1 == weft), s) else s.storeGrant busy
    let a := given true s (feedPick s die m)
    let b := given false a.2 (beamPick m)
    let d := b.2.storeGrant (busy && (m.fifo != 0 || m.pipe.any Option.isSome))
    let g : LoomGrant := { feed := a.1, beam := b.1, drain := d.1 }
    let s := d.2
    let m := if g.feed then m.feed else m
    let c := loomCycle m
    let s := match c with
      | .enter => s.count n (16 * l) 1
      | .idle => s.count n (16 * l + 7) 1
      | .frozen k => (s.count n (16 * l + 1) 1).count n (16 * l + k) 1
    let s := if shedChange m c then s.count n (16 * l + 0xB) 1 else s
    let s := if heddleWait m c then s.count (0x78A1 + die) 1 1 else s
    s.setLoom die l (m.advance c g)

/-- One cycle of heddle `h` of `die` and of the two looms that it serves (R124, R127). -/
def State.tickHeddle (s : State) (die h : Nat) (busy : Bool) : State :=
  let s := s.fillHeddle die h
  let rows := s.heddleRows die h
  (((s.tickLoom die (2 * h) rows busy).tickLoom die (2 * h + 1) rows busy)).emitHeddle die h rows

end Sys2Proof.Machine
end

