-- ==== Sys2Proof/Machine/Vector.lean ====
section
/-!
DEFINITION. Vector engines (R82 to R96): the checks of a vector descriptor, its acceptance, and its
effect when the instruction completes.
-/

namespace Sys2Proof.Machine

open Sys2Proof

/-! ### Fields (Tables VEC-4, VEC-5) -/

structure VecF where
  vop    : Nat
  opfA   : Nat
  opfB   : Nat
  opfY   : Nat
  rqc    : Nat
  fe     : Nat
  any    : Bool
  engine : Nat
  bcast  : Nat
  axis   : Bool
  rows   : Nat
  cols   : Nat
  aRef   : Nat
  bRef   : Nat
  yRef   : Nat
  cRef   : Nat
  tensor : Nat
  rsvd   : Bool
  deriving DecidableEq, Repr

def vecFields (b : BitVec 352) : VecF :=
  { vop := fieldOf b 16 1, opfA := fieldOf b 17 1, opfB := fieldOf b 18 1, opfY := fieldOf b 19 1,
    rqc := fieldOf b 20 1, fe := fieldOf b 21 1, any := bitOf (fieldOf b 22 1) 7,
    engine := fieldBits b 22 3 0, bcast := fieldBits b 23 7 6, axis := bitOf (fieldOf b 23 1) 5,
    rows := fieldOf b 24 4, cols := fieldOf b 28 4, aRef := fieldOf b 32 6, bRef := fieldOf b 38 6,
    yRef := fieldOf b 44 6, cRef := fieldOf b 50 6, tensor := fieldOf b 56 4,
    rsvd := fieldBits b 22 6 4 == 0 && fieldBits b 23 4 0 == 0 }

/-- The vector operations (Table VEC-2). -/
inductive VecOp where
  | ew2 | ew1 | fma | reduce | argmax | requant | convert | curve | gather
  deriving DecidableEq, Repr

def VecOp.opcode (o : VecOp) : Byte :=
  match o with
  | .ew2 => 0x40 | .ew1 => 0x41 | .fma => 0x42 | .reduce => 0x43 | .argmax => 0x44
  | .requant => 0x45 | .convert => 0x46 | .curve => 0x47 | .gather => 0x48

def vecOpOf (b : Byte) : Option VecOp :=
  match b.toNat with
  | 0x40 => some .ew2 | 0x41 => some .ew1 | 0x42 => some .fma | 0x43 => some .reduce
  | 0x44 => some .argmax | 0x45 => some .requant | 0x46 => some .convert | 0x47 => some .curve
  | 0x48 => some .gather
  | _ => none

/-- How many VOP values an operation lists (Table VEC-2). -/
def VecOp.vops (o : VecOp) : Nat :=
  match o with
  | .ew2 => 5 | .ew1 => 4 | .reduce => 5 | .convert => 3 | _ => 1

def VecOp.usesB (o : VecOp) : Bool := o == .ew2 || o == .fma

def VecOp.usesC (o : VecOp) : Bool := o == .fma || o == .curve || o == .gather

/-- Shape of Y (Table VEC-2, R89). -/
def vecOutShape (o : VecOp) (f : VecF) : Nat × Nat :=
  match o with
  | .reduce | .argmax => if f.axis then (1, f.cols) else (f.rows, 1)
  | _ => (f.rows, f.cols)

/-- Shape of B under BCAST (Table VEC-5). -/
def vecBShape (f : VecF) : Nat × Nat :=
  match f.bcast with
  | 0 => (f.rows, f.cols)
  | 1 => (1, f.cols)
  | 2 => (f.rows, 1)
  | _ => (1, 1)

/-- VOP that forms products: MUL, SQUARE, SUMSQ and FMA accept no ACC64 factor (R87). -/
def vecIsProduct (o : VecOp) (f : VecF) : Bool :=
  match o with
  | .ew2 => f.vop == 2
  | .ew1 => f.vop == 2
  | .reduce => f.vop == 1
  | .fma => true
  | _ => false

/-- The checks of the descriptor's own fields (R87 to R96, R195). -/
def vecFieldsOk (o : VecOp) (f : VecF) (cfg : NumCfg) : Bool :=
  let okA := if o = .convert then f.opfA == 0 else (opfUnder cfg f.opfA).isSome
  let okB := if o.usesB then (opfUnder cfg f.opfB).isSome else f.opfB == 0 && f.bRef == 0
  let okY := if o = .argmax then f.opfY == 0 else (opfUnder cfg f.opfY).isSome
  let okC := o.usesC || f.cRef == 0
  let accA : Bool := match decodeOpf f.opfA with | some a => o != .convert && a.fmt == .acc64 | none => false
  let accB : Bool := match decodeOpf f.opfB with | some b => o.usesB && b.fmt == .acc64 | none => false
  let accY : Bool := match decodeOpf f.opfY with | some y => o != .argmax && y.fmt == .acc64 | none => false
  let group := match o with
    | .reduce => (if f.axis then f.rows else f.cols)
    | _ => 1
  decide (f.vop < o.vops) && okA && okB && okY && okC && f.rsvd
    && (f.bcast == 0 || o.usesB)
    && decide (f.rows * f.cols ≤ 268435456) && decide (group ≤ 16777216)
    && (if o == .argmax || o == .gather || accY then f.rqc == 0 else rqcOk cfg f.rqc f.fe)
    && !(vecIsProduct o f && (accA || accB))
    && !(o == .convert && accY)
    && !(cfg.tabby && o == .curve)
    && (o != .gather || (f.opfY == f.opfA &&
        (match decodeOpf f.opfA with | some a => a.dir == .row | none => false)))
    && (o != .gather || (f.cRef % 4 == 0))

/-! ### Outcomes (R96) -/

/-- DETAIL: engine and first affected output row. -/
def vecOutcm (st : Byte) (e row : Nat) : Outcm := outcm st (e * 2 ^ 28 + row) 0

def vecNoRow : Nat := 0xFFFFFFF

/-! ### Curve record (Table VEC-3) -/

structure Curve where
  knots : Nat
  span  : Int
  y     : Nat
  x0    : Int
  vals  : List Nat
  rsvd  : Bool
  deriving DecidableEq, Repr

def State.readCurve (s : State) (a : Nat) : Curve :=
  let n := s.natAt a 2
  { knots := n, span := signedOf 16 (s.natAt (a + 2) 2), y := s.natAt (a + 4) 1,
    x0 := signedOf 32 (s.natAt (a + 8) 4),
    vals := (List.range (min n 257)).map (fun i => s.natAt (a + 16 + 2 * i) 2),
    rsvd := s.natAt (a + 5) 3 == 0 && s.natAt (a + 12) 4 == 0 }

def curveOk (c : Curve) : Bool :=
  decide (2 ≤ c.knots ∧ c.knots ≤ 257 ∧ -160 ≤ c.span ∧ c.span ≤ 160) && c.y != 0x80 && c.y != 0x7F
    && c.rsvd

/-- The curve at `x` (R91): the exact result, and whether the input was clamped. -/
def curveAt (c : Curve) (x : XV) : XV × Bool :=
  match x with
  | .nar => (.nar, false)
  | .num m e =>
    -- u = (m × 2^e) ÷ 2^s − x0 over the common exponent k ≤ 0
    let k : Int := min 0 (e - c.span)
    let d : Int := 2 ^ (-k).toNat
    let u := m * 2 ^ (e - c.span - k).toNat - c.x0 * d
    let top : Int := ((c.knots : Int) - 1) * d
    let v := clampInt 0 top u
    let j := min (v / d) ((c.knots : Int) - 2)
    let f := (v - j * d) * 2 ^ 16 / d
    let a := c.vals.getD j.toNat 0x8000
    let b := c.vals.getD (j.toNat + 1) 0x8000
    if a = 0x8000 ∨ b = 0x8000 then (.nar, v != u)
    else
      let ya := signedOf 16 a
      let yb := signedOf 16 b
      (.num (ya * 2 ^ 16 + (yb - ya) * f) (signedOf 8 c.y - 16), v != u)

/-! ### Record checks (R57, R91 to R94, R216) -/

/-- The operand records that an instruction names. -/
def vecRefs (o : VecOp) (f : VecF) : List Nat :=
  [f.aRef, f.yRef] ++ (if o.usesB then [f.bRef] else []) ++ (if o = .fma then [f.cRef] else [])

/-- The reference fields are legal, which is a check of the descriptor's own fields (R11, R57, R91, R92). -/
def vecRefsOk (die : Nat) (o : VecOp) (f : VecF) : Bool :=
  (vecRefs o f).all (recAddrOk die)
    && (o != .curve || (f.cRef % 16 == 0 && inDieStore die f.cRef 16))
    && (o != .gather || (f.cRef % 4 == 0 && inDieStore die f.cRef (4 * f.rows)))

/-- Outcome of the record checks of a vector descriptor; none when they pass. In the order of R11: the fields
of the records that can be read, the lease, poison. -/
def State.vecRecords (s : State) (die e : Nat) (q : BitVec 16) (o : VecOp) (f : VecF) :
    Option Outcm :=
  let refs := vecRefs o f
  let plain := (if o = .curve then [(f.cRef, 16 + 2 * 257)] else [])
    ++ (if o = .gather then [(f.cRef, 4 * f.rows)] else [])
  let bad := some (vecOutcm stBadField e vecNoRow)
  let lost := fun (a : Nat) => s.anyPoison a 48
  let curveLost := o == .curve && s.anyPoison f.cRef 16
  let a := s.readRec f.aRef
  let y := s.readRec f.yRef
  let b := s.readRec f.bRef
  let c := s.readRec f.cRef
  let ys := vecOutShape o f
  let bs := vecBShape f
  let fa := decodeOpf f.opfA
  let fb := decodeOpf f.opfB
  let fy := decodeOpf f.opfY
  let ring := s.ring die a.ring
  let width := if f.vop = 0 then 4 else 2
  let rowBytes := match o, fa with
    | .convert, _ => width * a.cols
    | _, some x => x.fmt.rowBytes a.cols
    | _, none => 0
  let okShapeA := if o = .gather then a.cols == f.cols else a.rows == f.rows && a.cols == f.cols
  let okA := a.rsvd && okShapeA
    && (match o, fa with
        | .convert, _ => true
        | _, some x => a.scaleHere die x
        | _, none => false)
    && (if a.source = 1 then
          ring.configured && a.mant == 0 && decide (1 ≤ rowsPerSlot ring a)
            && decide (rowBytes ≤ a.rowStr)
        else
          a.source == 0 && inDieStore die a.mant ((a.rows - 1) * a.rowStr + rowBytes)
            && (decide (a.rows ≤ 1) || decide (rowBytes ≤ a.rowStr)))
  let okB := !o.usesB || (b.rsvd && b.source == 0 && b.rows == bs.1 && b.cols == bs.2 &&
    (match fb with | some x => b.scaleHere die x && b.mantHere die x.fmt | none => false))
  let okC := if o = .fma then
      c.rsvd && c.source == 0 && c.rows == f.rows && c.cols == f.cols &&
      (match fy with | some x => c.scaleHere die x && c.mantHere die x.fmt | none => false)
    else if o = .curve then curveOk (s.readCurve f.cRef) && inDieStore die f.cRef (16 + 2 * (s.readCurve f.cRef).knots)
    else true
  let okY := y.rsvd && y.source == 0 && y.rows == ys.1 && y.cols == ys.2 &&
    (match o, fy with
     | .argmax, _ =>
       if f.axis then inDieStore die y.mant (4 * f.cols)
       else inDieStore die y.mant ((f.rows - 1) * y.rowStr + 4) && (f.rows == 1 || decide (4 ≤ y.rowStr))
     | _, some x => y.scaleHere die x && y.mantHere die x.fmt
     | _, none => false)
  let okC := if o = .fma then lost f.cRef || okC else curveLost || okC
  if !((lost f.aRef || okA) && (!o.usesB || lost f.bRef || okB) && okC && (lost f.yRef || okY)) then bad
  else if !(refs.map (fun r => (r, 48)) ++ plain).all (fun r => s.within q r.1 (min r.2 16)) then
    some (vecOutcm stNoLease e vecNoRow)
  else if refs.any lost || curveLost then some (vecOutcm stPoisonSrc e vecNoRow)
  else none

/-! ### Results -/

/-- The operands of a running vector instruction. -/
structure VecEnv where
  op    : VecOp
  f     : VecF
  cfg   : NumCfg
  a     : View
  b     : View
  c     : View
  curve : Curve
  conv  : Nat → Nat → Nat
  idx   : Nat → Nat

def VecEnv.bAt (v : VecEnv) (i j : Nat) : Nat × Nat :=
  match v.f.bcast with
  | 0 => (i, j)
  | 1 => (0, j)
  | 2 => (i, 0)
  | _ => (0, 0)

/-- The elements a reduction sums for output place (i, j). -/
def VecEnv.members (v : VecEnv) (i j : Nat) : List (Nat × Nat) :=
  if v.f.axis then (List.range v.f.rows).map (fun r => (r, j))
  else (List.range v.f.cols).map (fun c => (i, c))

/-- The exact result of output place (i, j) (R85, R86, R88, R91), with whether its group wrapped
in tabby mode and whether a curve input was clamped. -/
def VecEnv.result (v : VecEnv) (i j : Nat) : XV × Bool × Bool :=
  let g := guardBits v.cfg.tabby
  let x := v.a.value i j
  let bj := v.bAt i j
  let two := fun (r : XV × Bool) => (r.1, r.2, false)
  let one := fun (r : XV) => (r, false, false)
  match v.op with
  | .ew2 =>
    let y := v.b.value bj.1 bj.2
    (match v.f.vop with
     | 0 => two (groupOf v.cfg.tabby [v.a.term g i j, v.b.term g bj.1 bj.2])
     | 1 => two (groupOf v.cfg.tabby [v.a.term g i j, (v.b.term g bj.1 bj.2).neg])
     | 2 => one (XV.mul x y)
     | 3 => one (XV.max x y)
     | _ => one (XV.min x y))
  | .ew1 =>
    (match v.f.vop with
     | 0 => one x.neg
     | 1 => one x.abs
     | 2 => one (XV.mul x x)
     | _ => one (match x with
       | .nar => .nar
       | .num m e => if m < 0 then .num 0 0 else .num m e))
  | .fma =>
    two (groupOf v.cfg.tabby
      [prodTerm g (v.a.scale i j) (v.b.scale bj.1 bj.2) (v.a.elem i j) (v.b.elem bj.1 bj.2),
       v.c.term g i j])
  | .reduce =>
    let ms := v.members i j
    (match v.f.vop with
     | 0 => two (groupOf v.cfg.tabby (ms.map (fun p => v.a.term g p.1 p.2)))
     | 1 => two (groupOf v.cfg.tabby (ms.map (fun p =>
         prodTerm g (v.a.scale p.1 p.2) (v.a.scale p.1 p.2) (v.a.elem p.1 p.2) (v.a.elem p.1 p.2))))
     | 2 => one (ms.foldl (fun a p => XV.max a (v.a.value p.1 p.2)) .nar)
     | 3 => one (ms.foldl (fun a p => XV.min a (v.a.value p.1 p.2)) .nar)
     | _ => two (groupOf v.cfg.tabby (ms.map (fun p =>
         let t := v.a.term g p.1 p.2
         { t with v := t.v.natAbs }))))
  | .convert => one (convertValue v.f.vop (v.conv i j))
  | .curve => let r := curveAt v.curve x; (r.1, false, r.2)
  | _ => one x

/-- The rows of A that output row `i` draws on. -/
def VecEnv.sourceRows (v : VecEnv) (i : Nat) : List Nat :=
  match v.op with
  | .reduce | .argmax => if v.f.axis then List.range v.f.rows else [i]
  | .gather => if v.idx i < v.a.rows then [v.idx i] else []
  | _ => [i]

/-- Output row `i` draws on a poisoned source row (R96). -/
def VecEnv.rowBad (v : VecEnv) (i : Nat) : Bool :=
  (v.sourceRows i).any (fun r => v.a.rowPoisoned r)
    || (v.op.usesB && v.b.rowPoisoned (v.bAt i 0).1)
    || (v.op == .fma && v.c.rowPoisoned i)

/-- The index of the largest exact value among the members (R89), none when all are NaR. -/
def argmaxOf (vs : List XV) : Option Nat :=
  (vs.zipIdx.foldl (fun (acc : Option (XV × Nat)) p =>
    match p.1 with
    | .nar => acc
    | .num m e =>
      match acc with
      | none => some p
      | some (.num mb eb, _) => if ltExact mb eb m e then some p else acc
      | some (.nar, _) => some p) none).map Prod.snd

/-! ### Running (R96) -/

def emptyView : View :=
  { rows := 0, cols := 0, fmt := .sk8, scale := fun _ _ => .zero, elem := fun _ _ => .val 0,
    poison := fun _ _ => false }

/-- View of A: its plane, or the drained slots of its ring (R216). -/
def State.vecA (s : State) (die : Nat) (j : VecJob) (a : OpRec) (oa : Opf) : View :=
  if a.source = 1 then
    s.slotView a oa a.rows a.cols j.drained 0 (rowsPerSlot (s.ring die a.ring) a)
  else s.recView a oa

/-- The bytes of A's row `i` from offset `k`, plane or slot, for VEC_CONVERT. -/
def State.convSource (s : State) (die : Nat) (j : VecJob) (a : OpRec) (w : Nat) (i c : Nat) : Nat :=
  if a.source = 1 then
    let per := rowsPerSlot (s.ring die a.ring) a
    let x := j.drained.getD (i / per) { bytes := [], faulted := true, poison := [] }
    leNat (slice x.bytes ((i % per) * a.rowStr + w * c) w)
  else s.natAt (a.mant + i * a.rowStr + w * c) w

/-- A poisoned byte under a float element of VEC_CONVERT. -/
def State.convPoison (s : State) (die : Nat) (j : VecJob) (a : OpRec) (w : Nat) (i c : Nat) : Bool :=
  if a.source = 1 then
    let per := rowsPerSlot (s.ring die a.ring) a
    let x := j.drained.getD (i / per) { bytes := [], faulted := true, poison := [] }
    let line := fun (k : Nat) => ((i % per) * a.rowStr + k) / 64
    x.faulted || x.poison.contains (line (w * c)) || x.poison.contains (line (w * c + w - 1))
  else !s.poisonFree && s.anyPoison (a.mant + i * a.rowStr + w * c) w

def State.vecEnv (s : State) (die : Nat) (j : VecJob) (o : VecOp) (f : VecF) : VecEnv :=
  let a := s.readRec f.aRef
  let w := if f.vop = 0 then 4 else 2
  let av := match o, decodeOpf f.opfA with
    | .convert, _ => { emptyView with rows := a.rows, cols := a.cols, poison := s.convPoison die j a w }
    | _, some x => s.vecA die j a x
    | _, none => emptyView
  { op := o, f := f, cfg := j.cfg, a := av
    b := if o.usesB then (match decodeOpf f.opfB with
      | some x => s.recView (s.readRec f.bRef) x | none => emptyView) else emptyView
    c := if o = .fma then (match decodeOpf f.opfY with
      | some x => s.recView (s.readRec f.cRef) x | none => emptyView) else emptyView
    curve := if o = .curve then s.readCurve f.cRef else
      { knots := 2, span := 0, y := 0, x0 := 0, vals := [], rsvd := true }
    conv := s.convSource die j a w
    idx := fun i => s.natAt (f.cRef + 4 * i) 4 }

/-- A scale plane, the curve record or the index array holds poison (R96). -/
def State.vecFixedPoison (s : State) (o : VecOp) (f : VecF) : Bool :=
  let sc := fun (r v : Nat) => match decodeOpf v with
    | some x => s.scalePoisoned (s.readRec r) x
    | none => false
  (o != .convert && sc f.aRef f.opfA) || (o.usesB && sc f.bRef f.opfB)
    || (o == .fma && sc f.cRef f.opfY)
    || (o == .curve && s.anyPoison f.cRef (16 + 2 * (s.readCurve f.cRef).knots))
    || (o == .gather && s.anyPoison f.cRef (4 * f.rows))

/-- Writes an ordinary output below row `limit`. -/
def State.vecWrite (s : State) (die e : Nat) (j : VecJob) (v : VecEnv) (limit : Nat) :
    State × Option Nat :=
  match decodeOpf v.f.opfY with
  | none => (s, none)
  | some oy =>
    let y := s.readRec v.f.yRef
    let sh := vecOutShape v.op v.f
    let pl : OutPlane := { rcd := y, opf := oy, rows := sh.1, cols := sh.2 }
    let sk := formSkeins pl (roundingOf j.cfg v.f.rqc v.f.fe v.f.tensor) limit
      (fun i k => (v.result i k).1)
    let places := (sk.1.map (fun x => skeinPlaces oy sh.1 sh.2 x.1.1 x.1.2)).flatten
    let wrapped := (places.filter (fun p => (v.result p.1 p.2).2.1)).length
    let clamped := (places.filter (fun p => (v.result p.1 p.2).2.2)).length
    let convIn := if v.op = .convert then
        (places.filter (fun p => (convertValue v.f.vop (v.conv p.1 p.2)).isNar)).length else 0
    let written := places.length
    let s := (s.writeSkeins pl sk.1).countWatched j.queue j.cfg.step
      { sk.2 with wrapped := wrapped, convIn := convIn }
    let s := (s.count (0x7851 + die) (8 * e + 7) clamped).count (0x7851 + die) (8 * e + 4) written
    (s, firstNarRow pl sk.1)

/-- VEC_GATHER below row `limit` (R92): scale bytes and mantissas go unchanged; an index out of
range writes not-a-number skeins. -/
def State.gatherWrite (s : State) (die e : Nat) (j : VecJob) (v : VecEnv) (limit : Nat) :
    State × Option Nat :=
  match decodeOpf v.f.opfY with
  | none => (s, none)
  | some oy =>
    let y := s.readRec v.f.yRef
    let a := s.readRec v.f.aRef
    let pl : OutPlane := { rcd := y, opf := oy, rows := v.f.rows, cols := v.f.cols }
    let g := oy.grid 1 v.f.cols
    let nan := if oy.fmt = .acc64 then 0x7FFF else 0x7F
    let zeroCode := if oy.fmt = .acc64 then 0x8000 else 0x80
    let sk : SkeinOut := ((List.range (min limit v.f.rows)).map (fun i =>
      (List.range g.2).map (fun k =>
        let r := v.idx i
        if r < v.a.rows then
          let code := s.natAt (a.scale + r * a.sclStr + k * oy.fmt.scaleBytes) oy.fmt.scaleBytes
          let pls := skeinPlaces oy v.f.rows v.f.cols i k
          ((i, k), ({ scale := code
                      mants := if code = nan ∨ code = zeroCode then none
                        else some (pls.map (fun p => v.a.elem r p.2)) } : OutSkein))
        else ((i, k), { scale := nan, mants := none })))).flatten
    let narN := (sk.map (fun x => (narRows pl x.1 x.2).length)).sum
    let isNan := fun (x : (Nat × Nat) × OutSkein) => x.2.scale == nan && x.2.mants.isNone
    let isZero := fun (x : (Nat × Nat) × OutSkein) => x.2.scale == zeroCode && x.2.mants.isNone
    let c := { FmtCounts.zero with
      nar := narN
      nanSk := if oy.fmt = .acc64 then 0 else (sk.filter isNan).length
      zeroSk := if oy.fmt = .acc64 then 0 else (sk.filter isZero).length }
    let oob := ((List.range (min limit v.f.rows)).filter (fun i => decide (v.a.rows ≤ v.idx i))).length
    let s := (s.writeSkeins pl sk).countWatched j.queue j.cfg.step c
    let s := (s.count (0x7851 + die) (8 * e + 6) oob).count (0x7851 + die) (8 * e + 4)
      (min limit v.f.rows * v.f.cols)
    (s, firstNarRow pl sk)

/-- VEC_ARGMAX below row `limit` (R89). -/
def State.argmaxWrite (s : State) (die e : Nat) (v : VecEnv) (limit : Nat) : State :=
  let y := s.readRec v.f.yRef
  let n := if v.f.axis then (if limit = 0 then 0 else v.f.cols) else min limit v.f.rows
  let s := (List.range n).foldl (fun s k =>
    let ms := if v.f.axis then v.members 0 k else v.members k 0
    let r := argmaxOf (ms.map (fun p => v.a.value p.1 p.2))
    let addr := if v.f.axis then y.mant + 4 * k else y.mant + k * y.rowStr
    let s := s.writeMem addr (toLe 4 (r.getD 0xFFFFFFFF))
    if r.isNone then s.count (0x7851 + die) (8 * e + 5) 1 else s) s
  s.count (0x7851 + die) (8 * e + 4) n

/-- The bytes an instruction reads, by address and length: its planes that lie in memory, its curve record and
its index array. -/
def State.vecInputs (s : State) (o : VecOp) (f : VecF) : List (OpRec × Option Opf × List (Nat × Nat)) :=
  let plane := fun (a v : Nat) =>
    let r := s.readRec a
    match decodeOpf v with
    | some x => (r, some x, (if r.source = 1 then [] else r.mantRows x.fmt) ++ r.scaleRows x)
    | none => (r, none, [])
  let conv := fun (a : Nat) =>
    let r := s.readRec a
    let w := if f.vop = 0 then 4 else 2
    (r, none, if r.source = 1 then [] else (List.range r.rows).map (fun i => (r.mant + i * r.rowStr, w * r.cols)))
  let raw := fun (a n : Nat) => (s.readRec f.aRef, none, [(a, n)])
  [if o = .convert then conv f.aRef else plane f.aRef f.opfA]
    ++ (if o.usesB then [plane f.bRef f.opfB] else [])
    ++ (if o = .fma then [plane f.cRef f.opfY] else [])
    ++ (if o = .curve then [raw f.cRef (16 + 2 * (s.readCurve f.cRef).knots)] else [])
    ++ (if o = .gather then [raw f.cRef (4 * f.rows)] else [])

/-- The bytes an instruction writes. -/
def State.vecOutputs (s : State) (o : VecOp) (f : VecF) : List (Nat × Nat) :=
  let y := s.readRec f.yRef
  match o, decodeOpf f.opfY with
  | .argmax, _ =>
    if f.axis then [(y.mant, 4 * f.cols)]
    else (List.range f.rows).map (fun i => (y.mant + i * y.rowStr, 4))
  | _, some oy => y.planeRanges oy
  | _, none => []

/-- Y overlaps an input without coinciding with it exactly, so that the output is undefined (R95). -/
def State.vecOverlaps (s : State) (o : VecOp) (f : VecF) : Bool :=
  let y := s.readRec f.yRef
  let out := s.vecOutputs o f
  (s.vecInputs o f).any (fun x =>
    let same := match x.2.1, decodeOpf f.opfY with
      | some ox, some oy => sameOperand x.1 y ox oy
      | _, _ => false
    anyMeet x.2.2 out && !same)

/-- An instruction's inputs share a line with the output of an earlier, uncompleted one of its engine, so that
it does not start (R84). -/
def State.vecHeld (s : State) (earlier : List VecJob) (j : VecJob) : Bool :=
  match vecOpOf j.opcode with
  | none => false
  | some o =>
    let ins := ((s.vecInputs o (vecFields j.body)).flatMap (fun x => x.2.2)).map lineRange
    earlier.any (fun x => match vecOpOf x.opcode with
      | none => false
      | some p => anyMeet ins ((s.vecOutputs p (vecFields x.body)).map lineRange))

/-- Runs one vector instruction on engine `e` of `die`: its writes and its outcome (R96). An output that
overlaps an input otherwise than exactly is undefined (R95). -/
def State.runVec (s : State) (die e : Nat) (j : VecJob) : State × Outcm :=
  match vecOpOf j.opcode with
  | none => (s, badField)
  | some o =>
    let f := vecFields j.body
    if s.vecFixedPoison o f then (s, vecOutcm stPoisonSrc e vecNoRow)
    else
      let v := s.vecEnv die j o f
      let rows := (vecOutShape o f).1
      let bad := firstRow rows v.rowBad
      let limit := bad.getD rows
      let r := match o with
        | .gather => s.gatherWrite die e j v limit
        | .argmax => (s.argmaxWrite die e v limit, none)
        | _ => s.vecWrite die e j v limit
      let r := if s.vecOverlaps o f then (r.1.undefine (s.vecOutputs o f), r.2) else r
      match bad, r.2 with
      | some i, _ => (r.1, vecOutcm stPoisonSrc e i)
      | none, some i => (r.1, vecOutcm stNarOut e i)
      | none, none => (r.1, doneOk)

/-- Elements a cycle: the lanes decide (Table VEC-1). -/
def vecRate (o : VecOp) (f : VecF) : Nat :=
  let fmts := [f.opfA, f.opfB, f.opfY].filterMap (fun v => (decodeOpf v).map (fun x => x.fmt))
  if fmts.contains .acc64 then 64
  else if (o == .fma && fmts.contains .sk16) || o == .curve then 128
  else 256

/-- Cycles an instruction is busy, eight times as many in tabby mode (R82, R196). -/
def vecBusy (o : VecOp) (f : VecF) (tabby : Bool) : Nat :=
  ceilDiv (f.rows * f.cols) (vecRate o f) * (if tabby then 8 else 1)

/-- The slots that an instruction has taken cover the row that it reads next (R217). -/
def State.vecSupplied (s : State) (die : Nat) (j : VecJob) : Bool :=
  match vecOpOf j.opcode with
  | none => true
  | some o =>
    let f := vecFields j.body
    let a := s.readRec f.aRef
    if a.source = 0 then true
    else
      let gone := (vecBusy o f j.cfg.tabby - j.busyLeft) / (if j.cfg.tabby then 8 else 1)
      let row := gone * vecRate o f / max 1 f.cols
      decide (row / max 1 (rowsPerSlot (s.ring die a.ring) a) < j.drained.length)

/-- The lowest-numbered engine of `die` with a free entry (R84). -/
def State.freeVec (s : State) (die : Nat) : Option Nat :=
  (List.range 16).find? (fun e => decide ((s.vec die e).length < 4))

/-- A vector descriptor at dispatch (R11, R84, R94). An engine without a free entry holds it. -/
def State.dispatchVec (s : State) (d : Desc) (o : VecOp) : State :=
  let f := vecFields d.body
  let die := (s.queue d.queue).die
  let target := if f.any then s.freeVec die else some f.engine
  match target with
  | none => s
  | some e =>
    if !s.canDispatchTo d o.opcode (.vec e) then s
    else
      let cfg := s.numCfg d.queue
      if !vecFieldsOk o f cfg || !vecRefsOk die o f then s.finish d (vecOutcm stBadField e vecNoRow)
      else if f.rows = 0 ∨ f.cols = 0 then s.finish d doneEmpty
      else match s.vecRecords die e d.queue o f with
        | some out => s.finish d out
        | none =>
          if 4 ≤ (s.vec die e).length then s
          else
            let a := s.readRec f.aRef
            let n := if a.source = 1 then ceilDiv a.rows (rowsPerSlot (s.ring die a.ring) a) else 0
            let s := s.handOver d (.vec e)
            let j : VecJob :=
              { queue := d.queue, seq := d.seq, opcode := o.opcode, body := d.body, cfg := cfg,
                need := n, drained := [], busyLeft := vecBusy o f cfg.tabby, started := false }
            let s := s.setVec die e (s.vec die e ++ [j])
            if n = 0 then s else s.claimSlots die a.ring d.queue d.seq n

/-- The front instruction of engine `e` completes once its slots are taken (R84, R217). -/
def State.completeVec (s : State) (die e : Nat) : State :=
  match s.vec die e with
  | [] => s
  | j :: rest =>
    if j.need ≠ 0 then s
    else
      let r := s.runVec die e j
      let s := (r.1.setVec die e rest).count (0x7851 + die) (8 * e + 3) 1
      let s := if r.2.1 ≠ stDone ∧ r.2.1 ≠ stNarOut then s.releaseClaims die j.queue j.seq else s
      (s.complete j.queue j.seq r.2).settleDie die

/-! ### Meanings -/

def execVecEw2 (d : Desc) (s : State) : Result := .next (s.dispatchVec d .ew2)
def execVecEw1 (d : Desc) (s : State) : Result := .next (s.dispatchVec d .ew1)
def execVecFma (d : Desc) (s : State) : Result := .next (s.dispatchVec d .fma)
def execVecReduce (d : Desc) (s : State) : Result := .next (s.dispatchVec d .reduce)
def execVecArgmax (d : Desc) (s : State) : Result := .next (s.dispatchVec d .argmax)
def execVecRequant (d : Desc) (s : State) : Result := .next (s.dispatchVec d .requant)
def execVecConvert (d : Desc) (s : State) : Result := .next (s.dispatchVec d .convert)
def execVecCurve (d : Desc) (s : State) : Result := .next (s.dispatchVec d .curve)
def execVecGather (d : Desc) (s : State) : Result := .next (s.dispatchVec d .gather)

def execVecInstructionComplete (die engine : Nat) (s : State) : Result :=
  if s.ready ∧ engine < 16 then .next (s.completeVec die engine) else .next s

end Sys2Proof.Machine
end

