-- ==== Sys2Proof/Machine/Treadle.lean ====
section
/-!
DEFINITION. The treadle (R129 to R134): bound queues, grants, tokens, and micro-batch admission
(R144, R145).
-/

namespace Sys2Proof.Machine

open Sys2Proof

/-! ### Tokens (R132) -/

def tokenKey (die token : Nat) : Nat := die * 4096 + token

def State.token (s : State) (die token : Nat) : BitVec 32 :=
  Tab.read s.tokens 0 (tokenKey die token)

/-- Mode 0 adds modulo 2^32, mode 1 sets (R132). -/
def State.signalToken (s : State) (die token mode : Nat) (inc : BitVec 32) : State :=
  let v := if mode = 0 then s.token die token + inc else inc
  { s with tokens := Tab.write s.tokens (tokenKey die token) v }

/-- A die number names an active tensor die. -/
def State.tensorDie (s : State) (die : Nat) : Bool := decide (die < 26) && s.dieActive die

/-- (token − TARGET) as a signed 32-bit value is at least 0 (R132). -/
def tokenMet (token target : BitVec 32) : Bool := !(token - target).msb

/-! ### Bodies (Table BWD-5) -/

def waitFieldsOk (s : State) (b : BitVec 352) : Bool :=
  s.tensorDie (fieldOf b 16 1) && fieldOf b 17 1 == 0 && decide (fieldOf b 18 2 < 4096)
    && fieldZero b 24 60

def waitMet (s : State) (b : BitVec 352) : Bool :=
  tokenMet (s.token (fieldOf b 16 1) (fieldOf b 18 2)) (BitVec.ofNat 32 (fieldOf b 20 4))

def signalFieldsOk (s : State) (b : BitVec 352) : Bool :=
  s.tensorDie (fieldOf b 16 1) && decide (fieldOf b 17 1 < 2) && decide (fieldOf b 18 2 < 4096)
    && fieldZero b 24 60

/-! ### Admission (R144, R145) -/

/-- Tokens in flight on a die. -/
def State.tokensInFlight (s : State) (die : Nat) : Nat :=
  ((s.segs.filter (fun g => g.die == die)).map Seg.tokens).sum

def tokenBudget (s : State) : Nat := s.obj 0x3403 1 65536

/-- Stash bytes of a lease (R144). -/
def stashBytes (l : Lease) : Nat := 4096 * l.q1 + 4096 * l.q2 * 64 / 65

/-- What R144 decides for an MB_ADMIT: an outcome, or the segment to admit with its detail. -/
inductive AdmitCase where
  | ends (o : Outcm)
  | admits (g : Seg) (count : Nat) (detail : Nat)
  deriving DecidableEq, Repr

def State.admitCase (s : State) (q : BitVec 16) (b : BitVec 352) : AdmitCase :=
  let t := fieldOf b 20 4
  let per := fieldOf b 24 4
  let seg := fieldOf b 28 2
  if !s.bound q ∨ per = 0 ∨ !fieldZero b 30 60 then .ends badField
  else if t = 0 then .ends doneEmpty
  else
    let len := 256 * (s.bindObj (s.stepOf q) 0x3403 2 16000000000 / (per * 256))
    if len = 0 then .ends noLease
    else
      let n := ceilDiv t len
      if n ≤ seg then .ends badField
      else
        let k := min t ((seg + 1) * len) - seg * len
        if stashBytes (s.queueLease q) < k * per then .ends noLease
        else .admits { die := (s.queue q).die, mb := fieldOf b 16 4, segment := seg, tokens := k } n
          (n % 4096 * 2 ^ 20 + len / 256 % 2 ^ 20)

/-- The budget condition of R145. -/
def State.admitFits (s : State) (g : Seg) : Bool :=
  decide (s.tokensInFlight g.die + g.tokens ≤ tokenBudget s) || s.tokensInFlight g.die == 0

/-! ### Readiness (R130) -/

/-- The head of a bound queue that awaits its grant: the oldest descriptor that the treadle has not granted. -/
def QCtx.head (c : QCtx) : Option Fetched := c.fetched.find? (fun f => f.phase == .waiting && !f.granted)

/-- Descriptors that the update engine of a die has accepted (R172). -/
def State.updLoad (s : State) (die : Nat) : Nat :=
  (s.outcomeWaits.filter (fun w => w.opcode != 0x94 && (s.queue w.queue).die == die)).length

/-- The target engine has a free entry (R130). -/
def State.engineFree (s : State) (die : Nat) (e : Engine) : Bool :=
  match e with
  | .loom l => decide ((s.loom die l).picks.length < 4)
  | .anyLoom => (s.freeLoom die).isSome
  | .vec n => decide ((s.vec die n).length < 4)
  | .anyVec => (List.range 16).any (fun n => decide ((s.vec die n).length < 4))
  | .shuttle n =>
    decide ((s.xfers.filter (fun x => x.die == die && x.shuttle == n && x.accepted)).length < 64)
  | .update => decide (s.updLoad die < 2)
  | _ => true

/-- The engine that a descriptor would be handed to now: one with a free entry when it names any (R130). -/
def State.headEngine (s : State) (q : BitVec 16) (f : Fetched) : Engine :=
  let die := (s.queue q).die
  match engineOf q f.opcode f.body with
  | .anyLoom => ((s.freeLoom die).map Engine.loom).getD .anyLoom
  | .anyVec => ((s.freeVec die).map Engine.vec).getD .anyVec
  | e => e

/-- A STASH_PUT waits for room (R137). -/
def State.putWaits (s : State) (q seq : BitVec 16) : Bool :=
  s.stash.any (fun e => e.2.waits.any (fun w => w.queue == q && w.seq == seq))

/-- The head `f` of queue `q` is ready (R130). -/
def State.headReady (s : State) (q : BitVec 16) (f : Fetched) : Bool :=
  let c := s.queue q
  let e := s.headEngine q f
  r98Clear q (c.before f.seq) e && s.engineFree c.die e &&
    (match f.opcode.toNat with
     | 0x30 | 0x70 =>
       let p := pickFields (f.opcode == 0x70) f.body
       p.chain != 1 ||
         (match (s.loom c.die p.loom).chain with
          | some k => k.queue == q
          | none => true)
     | 0x76 => !waitFieldsOk s f.body || waitMet s f.body
     | 0x78 =>
       (match s.admitCase q f.body with
        | .ends _ => true
        | .admits g _ _ => s.admitFits g)
     | 0x72 => !s.putWaits q f.seq && !s.restoring
     | _ => true)

/-- The bound queues of a die, ascending. -/
def State.boundQueues (s : State) (die : Nat) : List Nat :=
  (Tab.keys s.treadle).filter (fun q => (s.queue (BitVec.ofNat 16 q)).die == die)

/-- The bound queues whose heads are ready. -/
def State.readyHeads (s : State) (die : Nat) : List Nat :=
  (s.boundQueues die).filter (fun q =>
    match (s.queue (BitVec.ofNat 16 q)).head with
    | some f => s.headReady (BitVec.ofNat 16 q) f
    | none => false)

/-- Heads found ready keep their order of becoming so; new ones follow in queue order (R131). -/
def State.noteReady (s : State) (die : Nat) : State :=
  let now := s.readyHeads die
  let mine := fun q => (s.queue (BitVec.ofNat 16 q)).die == die
  let kept := s.readyOrder.filter (fun q => !mine q || now.contains q)
  { s with readyOrder := kept ++ now.filter (fun q => !kept.contains q) }

/-- The ready head that the treadle grants next (R131). -/
def State.nextGrant (s : State) (die : Nat) : Option Nat :=
  let now := s.readyHeads die
  let ord := s.readyOrder.filter (fun q => now.contains q)
  match ord.find? (fun q => Tab.read s.treadle false q) with
  | some q => some q
  | none => ord.head?

/-- Grants the head of queue `q`. -/
def State.grantHead (s : State) (die q : Nat) : State :=
  let k := BitVec.ofNat 16 q
  let c := s.queue k
  match c.head with
  | none => s
  | some f =>
    let s := s.setQueue k (c.updEntry f.seq (fun f => { f with granted := true }))
    let s := s.count (0x78A1 + die) (if Tab.read s.treadle false q then 2 else 3) 1
    { s with readyOrder := s.readyOrder.filter (fun x => x ≠ q) }

/-- One turn of the treadle: up to two heads (R131). -/
def State.grantTurn (s : State) (die : Nat) : State :=
  let s := s.noteReady die
  match s.nextGrant die with
  | none => s
  | some q =>
    let s := s.grantHead die q
    match s.nextGrant die with
    | none => s
    | some r => s.grantHead die r

/-! ### Meanings -/

def execTreadleBind (d : Desc) (s : State) : Result :=
  s.onDesc d 0x75 (fun s =>
    let die := (s.queue d.queue).die
    let q := fieldOf d.body 16 2
    let ctl := fieldOf d.body 18 1
    let c := s.queue (BitVec.ofNat 16 q)
    let served := c.state != .free && c.die == die
    let isIn := (Tab.find s.treadle q).isSome
    if bitsOf ctl 6 1 ≠ 0 ∨ !fieldZero d.body 19 60 ∨ !served
        ∨ (!bitOf ctl 7 ∧ !isIn ∧ 16 ≤ (s.boundQueues die).length) then s.finish d badField
    else s.runNow d 0x75 (fun s =>
      if bitOf ctl 7 then
        ({ s with treadle := Tab.remove s.treadle q
                  readyOrder := s.readyOrder.filter (fun x => x ≠ q) }, doneOk)
      else ({ s with treadle := Tab.write s.treadle q (bitOf ctl 0) }, doneOk)))

def execTreadleGrant (die : Nat) (s : State) : Result :=
  if s.ready ∧ s.tensorDie die then .next (s.grantTurn die) else .next s

/-- An unmet TREADLE_WAIT stays with the dispatch core and is looked at again (R133). -/
def execTreadleWait (d : Desc) (s : State) : Result :=
  s.onDesc d 0x76 (fun s =>
    if !waitFieldsOk s d.body then s.finish d badField
    else if !waitMet s d.body then s
    else s.runNow d 0x76 (fun s => (s, doneOk)))

def execTreadleSignal (d : Desc) (s : State) : Result :=
  s.onDesc d 0x77 (fun s =>
    if !signalFieldsOk s d.body then s.finish d badField
    else if !s.earlierDone d then s
    else s.runNow d 0x77 (fun s =>
      (s.signalToken (fieldOf d.body 16 1) (fieldOf d.body 18 2) (fieldOf d.body 17 1)
        (BitVec.ofNat 32 (fieldOf d.body 20 4)), doneOk)))

def execMbAdmit (d : Desc) (s : State) : Result :=
  s.onDesc d 0x78 (fun s =>
    match s.admitCase d.queue d.body with
    | .ends o => s.finish d o
    | .admits g n detail =>
      if !s.admitFits g then s
      else s.runNow d 0x78 (fun s =>
        let s := { s with segs := s.segs ++ [g] }
        let s := if g.segment = 0 ∧ 1 < n then s.count (0x78A1 + g.die) 0xA 1 else s
        (s, outcm stDone detail 0)))

/-- The oldest admission of this micro-batch and segment is removed (log 30). -/
def execMbRetire (d : Desc) (s : State) : Result :=
  s.onDesc d 0x79 (fun s =>
    let die := (s.queue d.queue).die
    let mb := fieldOf d.body 16 4
    let seg := fieldOf d.body 28 2
    let hit := fun (g : Seg) => g.die == die && g.mb == mb && g.segment == seg
    if !fieldZero d.body 20 28 ∨ !fieldZero d.body 30 60 ∨ !s.segs.any hit then s.finish d badField
    else s.runNow d 0x79 (fun s => ({ s with segs := s.segs.eraseP hit }, doneOk)))

end Sys2Proof.Machine
end

