-- ==== Sys2Proof/Machine/Update.lean ====
section
/-!
DEFINITION. Parameter groups and the update (R149 to R173): group records, the exact arithmetic of
the rules, the statistic and the two passes.
-/

namespace Sys2Proof.Machine

open Sys2Proof

/-! ### Truncated arithmetic (R160) -/

/-- The exact sum. -/
def XV.add (a b : XV) : XV := XV.sub a b.neg

/-- t24: 24 significant bits toward minus infinity. -/
def t24 (x : XV) : XV :=
  match x with
  | .nar => .nar
  | .num m e =>
    if m = 0 then .num 0 0
    else
      let j : Int := (Nat.log2 m.natAbs : Int) + e - 23
      .num (shiftFloor m (e - j)) j

/-- t24 of a quotient; a zero divisor is undefined (log 32). -/
def div24 (a b : XV) : XV :=
  match a, b with
  | .num ma ea, .num mb eb =>
    if mb = 0 then
      let r := Config.quotientByZero ma ea
      .num r.1 r.2
    else if ma = 0 then .num 0 0
    else
      let na := ma.natAbs
      let nb := mb.natAbs
      let k0 : Int := (Nat.log2 na : Int) - Nat.log2 nb
      -- floor(log2 (na ÷ nb))
      let k : Int := if ltExact na 0 nb k0 then k0 - 1 else k0
      let sh : Int := 23 - k
      let num : Int := if 0 ≤ sh then ma * 2 ^ sh.toNat else ma
      let den : Int := if 0 ≤ sh then mb else mb * 2 ^ (-sh).toNat
      .num (Int.fdiv num den) (ea - eb - sh)
  | _, _ => .nar

/-- The integer square root of a number below 4^n, from its highest bit down. -/
def isqrtBits (v n : Nat) (r : Nat) : Nat :=
  match n with
  | 0 => r
  | k + 1 =>
    let t := r + 2 ^ k
    isqrtBits v k (if t * t ≤ v then t else r)

/-- sqrt24; a negative number is undefined (log 32). -/
def sqrt24 (x : XV) : XV :=
  match x with
  | .nar => .nar
  | .num m e =>
    if m = 0 then .num 0 0
    else if m < 0 then
      let r := Config.sqrtNegative m e
      .num r.1 r.2
    else
      let j : Int := ((Nat.log2 m.natAbs : Int) + e) / 2 - 23
      .num (isqrtBits (shiftFloor m (e - 2 * j)).toNat 25 0) j

/-- pow24: square and multiply, top bit of `t` first (R160). -/
def pow24Bits (b : XV) (t k : Nat) (r : XV) : XV :=
  match k with
  | 0 => r
  | n + 1 =>
    let r := t24 (XV.mul r r)
    pow24Bits b t n (if bitOf t n then t24 (XV.mul r b) else r)

def pow24 (b : XV) (t : Nat) : XV := pow24Bits b t 64 (.num 1 0)

/-- A SCALAR (R151). -/
def scalarOf (v : Nat) : XV := .num (signedOf 24 (v / 256)) (signedOf 8 v)

def XV.lt (a b : XV) : Bool :=
  match a, b with
  | .num ma ea, .num mb eb => ltExact ma ea mb eb
  | _, _ => false

/-! ### Group record (Table UPD-1) -/

structure GroupRec where
  addr   : Nat
  id     : Nat
  rule   : Nat
  flags  : Nat
  rqcW   : Nat
  rqcM   : Nat
  gstep  : Nat
  last   : Nat
  lrows  : Nat
  lcols  : Nat
  first  : Nat
  rows   : Nat
  wRef   : Nat
  bob    : Nat
  m1Ref  : Nat
  m2Ref  : Nat
  gradRef : Nat
  mask   : Nat
  curve  : Nat
  gram   : Nat
  tidW   : Nat
  tidM1  : Nat
  tidM2  : Nat
  lr     : XV
  beta1  : XV
  beta2  : XV
  eps    : XV
  wd     : XV
  trust  : XV
  oscale : XV
  nsA    : XV
  nsB    : XV
  nsC    : XV
  iters  : Nat
  opfW   : Nat
  opfM1  : Nat
  opfM2  : Nat
  rsvd   : Nat × Nat
  deriving DecidableEq, Repr

/-- Local address of group `g`'s record (R149). -/
def State.groupAddr (s : State) (g : Nat) : Nat := s.obj 0x4000 1 0 + 256 * g

def State.readGroup (s : State) (a : Nat) : GroupRec :=
  let b := s.bytesAt a 256
  let f := fun i n => leNat (slice b i n)
  let sc := fun i => scalarOf (f i 4)
  { addr := a, id := f 0 4, rule := f 4 1, flags := f 5 1, rqcW := f 6 1, rqcM := f 7 1,
    gstep := f 8 8, last := f 16 8, lrows := f 24 4, lcols := f 28 4, first := f 32 4, rows := f 36 4,
    wRef := f 40 6, bob := f 46 6, m1Ref := f 52 6, m2Ref := f 58 6, gradRef := f 64 6,
    mask := f 70 6, curve := f 76 6, gram := f 82 6, tidW := f 88 4, tidM1 := f 92 4, tidM2 := f 96 4,
    lr := sc 100, beta1 := sc 104, beta2 := sc 108, eps := sc 112, wd := sc 116, trust := sc 120,
    oscale := sc 124, nsA := sc 128, nsB := sc 132, nsC := sc 136, iters := f 140 1, opfW := f 141 1,
    opfM1 := f 142 1, opfM2 := f 143 1, rsvd := (f 144 4, f 248 4) }

def GroupRec.frozen (g : GroupRec) : Bool := bitOf g.flags 7
def GroupRec.nesterov (g : GroupRec) : Bool := bitOf g.flags 6
def GroupRec.inUpdate (g : GroupRec) : Bool := bitOf g.flags 5

/-- The rule keeps a first or a second moment (R159, R170). -/
def GroupRec.hasM1 (g : GroupRec) : Bool := g.rule != 4 || g.m1Ref != 0
def GroupRec.hasM2 (g : GroupRec) : Bool := g.rule == 1 || g.rule == 2 || (g.rule == 4 && g.m2Ref != 0)

/-- Writes the device's four fields of a record and its CRC (R150, R157, log 33). -/
def State.putGroup (s : State) (a gstep last : Nat) (inUpd : Bool) : State :=
  let b := s.bytesAt a 252
  let fl := leNat (slice b 5 1)
  let fl := fl - fl / 32 % 2 * 32 + (if inUpd then 32 else 0)
  let b := overlay (overlay (overlay b 5 (toLe 1 fl)) 8 (toLe 8 gstep)) 16 (toLe 8 last)
  s.writeMem a (b ++ toLe 4 (crc32c b).toNat)

/-! ### Schedule curve (R171) -/

structure LrCurve where
  exp   : Int
  knots : List (Nat × Int)
  ok    : Bool
  deriving DecidableEq, Repr

def risingSteps (l : List (Nat × Int)) : Bool :=
  match l with
  | [] => true
  | [_] => true
  | a :: b :: r => decide (a.1 < b.1) && risingSteps (b :: r)

def State.readLrCurve (s : State) (a : Nat) : LrCurve :=
  let n := s.natAt a 2
  let k := (List.range (min n 64)).map (fun j =>
    (s.natAt (a + 16 + 16 * j) 8, signedOf 32 (s.natAt (a + 24 + 16 * j) 4)))
  let rs := (List.range (min n 64)).all (fun j => s.natAt (a + 28 + 16 * j) 4 == 0)
  { exp := signedOf 8 (s.natAt (a + 2) 1), knots := k
    ok := decide (1 ≤ n ∧ n ≤ 64) && s.natAt (a + 3) 13 == 0 && rs && risingSteps k }

/-- The knot value at step `t`. -/
def curveStep (l : List (Nat × Int)) (t : Nat) : Int :=
  match l with
  | [] => 0
  | [k] => k.2
  | k :: n :: r =>
    if t ≤ k.1 then k.2
    else if t < n.1 then k.2 + Int.fdiv ((n.2 - k.2) * (t - k.1 : Nat)) (n.1 - k.1 : Nat)
    else curveStep (n :: r) t

/-- The learning rate of a descriptor (R171). -/
def State.learningRate (s : State) (g : GroupRec) (t : Nat) : XV :=
  if g.curve = 0 then g.lr
  else
    let c := s.readLrCurve g.curve
    .num (curveStep c.knots t) c.exp

/-! ### Body (Table UPD-4) -/

structure UpdF where
  group : Nat
  opfG  : Nat
  scale : Int
  check : Bool
  step  : Nat
  gstep : Nat
  stat  : Nat
  rsvd  : Bool
  deriving DecidableEq, Repr

def updF (b : BitVec 352) : UpdF :=
  { group := fieldOf b 16 4, opfG := fieldOf b 20 1, scale := signedOf 8 (fieldOf b 21 1),
    check := bitOf (fieldOf b 22 1) 0, step := fieldOf b 24 8, gstep := fieldOf b 32 8,
    stat := fieldOf b 40 6, rsvd := fieldBits b 22 7 1 == 0 && fieldOf b 23 1 == 0 && fieldZero b 46 60 }

/-! ### Record checks (R151, R152): the byte offset of the first failing field -/

/-- A plane record for the update: aligned and, unless poison keeps it from being read, plain and of the given
shape (R151). -/
def State.updRec (s : State) (a rows cols : Nat) : Bool :=
  let r := s.readRec a
  a != 0 && a % 16 == 0
    && (s.anyPoison a 48 || (r.rsvd && r.source == 0 && r.rows == rows && r.cols == cols))

/-- A line of a schedule curve is poisoned. -/
def State.curveLost (s : State) (a : Nat) : Bool :=
  a != 0 && s.anyPoison a (16 + 16 * (if s.anyPoison a 16 then 0 else (s.readLrCurve a).knots.length))

def fmtIn (v : Nat) (l : List Fmt) : Bool :=
  match decodeOpf v with
  | some o => l.contains o.fmt
  | none => false

/-- SHARD_ROW_FIRST is a multiple of a skein's row extent (R152). -/
def rowAligned (first v : Nat) : Bool :=
  match decodeOpf v with
  | some o => first % o.extent.1 == 0
  | none => true

def unitFraction (x : XV) : Bool := !XV.lt x (.num 0 0) && XV.lt x (.num 1 0)
def positiveX (x : XV) : Bool := XV.lt (.num 0 0) x

def rqcPlain (v : Nat) : Bool := decide (v < 3)

def State.groupChecks (s : State) (pos : Nat) (g : GroupRec) : List (Nat × Bool) :=
  let plain := fun a => s.updRec a g.rows g.lcols
  [(0, g.id == pos), (4, decide (g.rule ≤ 4)),
   (5, g.flags % 32 == 0 && !(g.nesterov && g.rule != 0)), (6, rqcPlain g.rqcW), (7, rqcPlain g.rqcM),
   (28, g.rule != 3 || decide (g.lcols ≤ 4096)),
   (32, rowAligned g.first g.opfW && (!g.hasM1 || rowAligned g.first g.opfM1)
      && (!g.hasM2 || rowAligned g.first g.opfM2)),
   (36, decide (g.first + g.rows ≤ g.lrows) && (g.rule != 3 || decide (g.rows ≤ 16777216))),
   (40, plain g.wRef), (46, g.bob != 0),
   (52, if g.rule ≤ 3 then plain g.m1Ref else g.m1Ref == 0 || plain g.m1Ref),
   (58, if g.rule = 1 ∨ g.rule = 2 then plain g.m2Ref
      else g.m2Ref == 0 || (g.rule == 4 && plain g.m2Ref)),
   (64, if g.rule ≤ 3 then plain g.gradRef else g.gradRef == 0 || plain g.gradRef),
   (76, g.curve == 0 || (g.curve % 16 == 0 && (s.curveLost g.curve || (s.readLrCurve g.curve).ok))),
   (82, if g.rule = 3 then s.updRec g.gram g.lcols g.lcols else g.gram == 0),
   (104, unitFraction g.beta1), (108, unitFraction g.beta2),
   (112, !(g.rule == 1 || g.rule == 2) || positiveX g.eps), (120, g.rule != 2 || positiveX g.trust),
   (140, if g.rule = 3 then decide (1 ≤ g.iters ∧ g.iters ≤ 16) else g.iters == 0),
   (141, fmtIn g.opfW [.sk16]), (142, fmtIn g.opfM1 [.sk8, .sk16]),
   (143, if g.m2Ref = 0 then g.opfM2 == 0 else fmtIn g.opfM2 [.sk8, .sk16]),
   (144, g.rsvd.1 == 0), (248, g.rsvd.2 == 0)]

/-- Every byte lies in tier 1, tier 2 or die store and in the lease (R151). -/
def State.updLeased (s : State) (q : BitVec 16) (a n : Nat) : Bool :=
  n == 0 || (s.within q a n &&
    (match spaceOf a with
     | .tier1 | .tier2 | .dieStore _ => true
     | _ => false))

/-- The operand record at `a`, and its planes when it can be read, lie in the lease. -/
def State.recLeased (s : State) (q : BitVec 16) (a : Nat) (v : Nat) : Bool :=
  match decodeOpf v with
  | none => true
  | some o =>
    let r := s.readRec a
    s.updLeased q a 48 && (s.anyPoison a 48
      || (s.updLeased q r.mant (r.mantExtent o.fmt) && s.updLeased q r.scale (r.scaleExtent o)))

/-- The OPF of the Gram image: ACC64 in tile skeins of 64 (Table UPD-1). -/
def gramOpf : Opf := { fmt := .acc64, dir := .tile, size := 64 }
def gramOpfByte : Nat := 4 * 32 + 2 * 8 + 4

def State.groupLeased (s : State) (q : BitVec 16) (g : GroupRec) (opfG : Nat) : Bool :=
  let w := s.readRec g.wRef
  let str := if s.anyPoison g.wRef 48 then 0 else w.rowStr / 2
  s.recLeased q g.wRef g.opfW
    && s.updLeased q g.bob (if g.rows = 0 then 0 else (g.rows - 1) * str + g.lcols)
    && (!g.hasM1 || s.recLeased q g.m1Ref g.opfM1) && (!g.hasM2 || s.recLeased q g.m2Ref g.opfM2)
    && (g.gradRef == 0 || s.recLeased q g.gradRef opfG)
    && (g.mask == 0 || s.updLeased q g.mask (ceilDiv (g.rows * g.lcols) 8))
    && (g.gram == 0 || s.recLeased q g.gram gramOpfByte)
    && (g.curve == 0 || s.updLeased q g.curve (if s.curveLost g.curve then 16 else 16 + 16 * (s.readLrCurve g.curve).knots.length))

/-! ### Elements -/

/-- What a pass works on. -/
structure UpdEnv where
  g     : GroupRec
  f     : UpdF
  cfg   : NumCfg
  oW    : Opf
  oM1   : Opf
  oM2   : Opf
  w     : View
  m1    : View
  m2    : View
  grad  : View
  bob   : Nat → Nat → Int
  mask  : Nat → Bool
  bobBad : Nat → Nat → Bool
  maskBad : Nat → Bool
  lr    : XV
  bc1   : XV
  bc2   : XV
  trust : XV

def UpdEnv.masked (v : UpdEnv) (r c : Nat) : Bool := v.mask (r * v.g.lcols + c)

/-- The master value of a weight element (R162). -/
def UpdEnv.master (v : UpdEnv) (r c : Nat) : XV :=
  match v.w.scale r c, v.w.elem r c with
  | .zero, _ => .num 0 0
  | .nan, _ => .nar
  | .exp _, .nar => .nar
  | .exp e, .val m => .num (m * 256 + v.bob r c) (e - 8)

/-- The scaled gradient (R155). -/
def UpdEnv.gradient (v : UpdEnv) (r c : Nat) : XV :=
  match v.grad.value r c with
  | .num m e => .num m (e - v.f.scale)
  | .nar => .nar

/-- An input of the element is NaR (R164). -/
def UpdEnv.narIn (v : UpdEnv) (r c : Nat) : Bool :=
  (v.master r c).isNar || (v.gradient r c).isNar || (v.g.hasM1 && (v.m1.value r c).isNar)
    || (v.g.hasM2 && (v.m2.value r c).isNar)

/-- A tensor that the rule keeps holds NaR at the element, which a masked element leaves unchanged (R49,
R163). -/
def UpdEnv.narKept (v : UpdEnv) (r c : Nat) : Bool :=
  (v.master r c).isNar || (v.g.hasM1 && (v.m1.value r c).isNar) || (v.g.hasM2 && (v.m2.value r c).isNar)

def oneX : XV := .num 1 0

/-- The exact new first moment, before storage (R165, R166, R168). -/
def UpdEnv.m1Exact (v : UpdEnv) (r c : Nat) : XV :=
  let old := v.m1.value r c
  let g := v.gradient r c
  if v.narIn r c then .nar
  else if v.g.rule = 0 ∨ v.g.rule = 3 then XV.add (XV.mul v.g.beta1 old) g
  else XV.add (XV.mul v.g.beta1 old) (XV.mul (XV.sub oneX v.g.beta1) g)

/-- The exact new second moment (R166). -/
def UpdEnv.m2Exact (v : UpdEnv) (r c : Nat) : XV :=
  let g := v.gradient r c
  if v.narIn r c then .nar
  else XV.add (XV.mul v.g.beta2 (v.m2.value r c))
    (XV.mul (XV.sub oneX v.g.beta2) (XV.mul g g))

/-! ### Storage (R161 to R163) -/

/-- A stored skein: scale, mantissas, bobbins (weights only), and whether it held its scale. -/
structure StSkein where
  scale : Nat
  mants : Option (List Elem)
  bobs  : List Int
  held  : Bool
  cnt   : FmtCounts
  deriving DecidableEq, Repr

/-- One element to store: masked, old element and bobbin, old value not zero, new value, index. -/
structure StElem where
  masked  : Bool
  old     : Elem
  oldBob  : Int
  oldLive : Bool
  x       : XV
  index   : Nat
  deriving DecidableEq, Repr

def scaleCode (k : Scale) : Nat :=
  match k with
  | .zero => 0x80
  | .nan => 0x7F
  | .exp e => unsignedOf 8 e

/-- A moment skein (R161, R163). -/
def storeMoment (f : Fmt) (rd : Rounding) (old : Scale) (es : List StElem) : StSkein :=
  let hold := es.any (fun e => e.masked && e.oldLive)
  if !hold then
    let r := requantSkein f rd (es.map (fun e => (if e.masked then .num 0 0 else e.x, e.index)))
    { scale := r.1.scale, mants := r.1.mants, bobs := [], held := false, cnt := r.2 }
  else match old with
    | .exp k =>
      let out := es.map (fun e =>
        if e.masked then (e.old, (0 : Int), false)
        else match e.x with
          | .nar => (Elem.nar, 0, false)
          | .num m x =>
            let q := roundTo rd e.index m x k
            (Elem.val (saturate f.max q), q, m != 0))
      let un := (es.zip out).filter (fun p => !p.1.masked)
      let c := { FmtCounts.zero with
        nar := (un.filter (fun p => p.2.1 == Elem.nar)).length
        sat := (un.filter (fun p => match p.2.1 with | .val v => v != p.2.2.1 | .nar => false)).length
        crushed := (un.filter (fun p => match p.2.1 with
          | .val v => p.2.2.2 && v == 0
          | .nar => false)).length }
      { scale := scaleCode old, mants := some (out.map (fun o => o.1)), bobs := [], held := true, cnt := c }
    | k =>
      { scale := scaleCode k, mants := none, bobs := [], held := true
        cnt := { FmtCounts.zero with nar := if k = .nan then (es.filter (fun e => !e.masked)).length else 0 } }

/-- W_wide and its split (R162): clamped value, whether it was clamped, mantissa, bobbin. -/
def splitWide (q : Int) : Int × Bool × Int × Int :=
  let top : Int := 32767 * 256
  let v := clampInt (-top) top q
  let mw := (v + 128) / 256
  (v, v != q, mw, v - 256 * mw)

/-- A weight skein with its bobbins (R162, R163). -/
def storeWeight (rd : Rounding) (old : Scale) (es : List StElem) : StSkein :=
  let hold := es.any (fun e => e.masked && e.oldLive)
  let vals := es.map (fun e => if e.masked then XV.num 0 0 else e.x)
  let narN := (vals.filter XV.isNar).length
  let zeros := es.map (fun _ => (0 : Int))
  match hold, old with
  | true, .zero | true, .nan =>
    { scale := scaleCode old, mants := none, held := true
      bobs := es.map (fun e => if e.masked then e.oldBob else 0)
      cnt := { FmtCounts.zero with nar := if old = .nan then (es.filter (fun e => !e.masked)).length else 0 } }
  | _, _ =>
    if !hold && narN == vals.length then
      { scale := 0x7F, mants := none, bobs := zeros, held := false
        cnt := { FmtCounts.zero with nanSk := 1, nar := narN } }
    else
      let e : Int := match hold, old with
        | true, .exp k => k
        | _, _ => dynamicExp .sk16 vals
      let out := es.map (fun x =>
        if hold && x.masked then (x.old, x.oldBob, false, false, false)
        else match (if x.masked then XV.num 0 0 else x.x) with
          | .nar => (Elem.nar, 0, false, false, false)
          | .num m k =>
            let w := splitWide (roundTo rd x.index m k (e - 8))
            (Elem.val w.2.2.1, w.2.2.2, w.2.1, m != 0 && w.1 == 0, w.1 == 0))
      let c := { FmtCounts.zero with
        nar := narN, sat := (out.filter (fun o => o.2.2.1)).length
        crushed := (out.filter (fun o => o.2.2.2.1)).length }
      let dead := !hold && out.all (fun o => o.1 == Elem.nar || o.2.2.2.2)
      if dead then
        if 0 < narN then
          { scale := 0x81, mants := some (out.map (fun o => o.1)), bobs := zeros, held := false, cnt := c }
        else
          { scale := 0x80, mants := none, bobs := zeros, held := false, cnt := { c with zeroSk := 1 } }
      else
        { scale := unsignedOf 8 e, mants := some (out.map (fun o => o.1))
          bobs := out.map (fun o => o.2.1), held := hold, cnt := c }

/-- The skeins of a plane that lie wholly in local elements below `limit`, formed by `mk`. -/
def formPlane (o : Opf) (rows cols limit : Nat) (mk : Nat × Nat → List (Nat × Nat) → StSkein) :
    List ((Nat × Nat) × StSkein) :=
  let g := o.grid rows cols
  let places := ((List.range g.1).map (fun i => (List.range g.2).map (fun j => (i, j)))).flatten
  (places.filter (fun ij => (skeinPlaces o rows cols ij.1 ij.2).all (fun p =>
    decide (p.1 * cols + p.2 < limit)))).map (fun ij => (ij, mk ij (skeinPlaces o rows cols ij.1 ij.2)))

def UpdEnv.index (v : UpdEnv) (p : Nat × Nat) : Nat := (v.g.first + p.1) * v.g.lcols + p.2

def UpdEnv.rounding (v : UpdEnv) (rqc tid : Nat) : Rounding :=
  { roundingOf v.cfg rqc 0 tid with step := v.f.step, fixed := none }

/-- The value is not zero, NaR included. -/
def XV.live (x : XV) : Bool := !x.isZero

def UpdEnv.formM1 (v : UpdEnv) (limit : Nat) : List ((Nat × Nat) × StSkein) :=
  formPlane v.oM1 v.g.rows v.g.lcols limit (fun ij ps =>
    storeMoment v.oM1.fmt (v.rounding v.g.rqcM v.g.tidM1)
      (v.m1.scale (ij.1 * v.oM1.extent.1) (ij.2 * v.oM1.extent.2))
      (ps.map (fun p =>
        { masked := v.masked p.1 p.2, old := v.m1.elem p.1 p.2, oldBob := 0
          oldLive := (v.m1.value p.1 p.2).live, x := v.m1Exact p.1 p.2, index := v.index p })))

def UpdEnv.formM2 (v : UpdEnv) (limit : Nat) : List ((Nat × Nat) × StSkein) :=
  formPlane v.oM2 v.g.rows v.g.lcols limit (fun ij ps =>
    storeMoment v.oM2.fmt (v.rounding v.g.rqcM v.g.tidM2)
      (v.m2.scale (ij.1 * v.oM2.extent.1) (ij.2 * v.oM2.extent.2))
      (ps.map (fun p =>
        { masked := v.masked p.1 p.2, old := v.m2.elem p.1 p.2, oldBob := 0
          oldLive := (v.m2.value p.1 p.2).live, x := v.m2Exact p.1 p.2, index := v.index p })))

/-- Scale and element of place (r, c) in formed skeins. -/
def storedAt (o : Opf) (rows cols : Nat) (sk : List ((Nat × Nat) × StSkein)) (r c : Nat) :
    Scale × Elem :=
  let e := o.extent
  match sk.find? (fun x => x.1 == (r / e.1, c / e.2)) with
  | none => (.nan, .nar)
  | some x =>
    match x.2.mants with
    | none => (scaleOfByte x.2.scale, .val 0)
    | some ms =>
      (match (skeinPlaces o rows cols (r / e.1) (c / e.2)).findIdx? (fun p => p == (r, c)) with
       | some k => (scaleOfByte x.2.scale, ms.getD k .nar)
       | none => (.nan, .nar))

def storedValue (o : Opf) (rows cols : Nat) (sk : List ((Nat × Nat) × StSkein)) (r c : Nat) : XV :=
  let x := storedAt o rows cols sk r c
  valueOf x.1 x.2

/-! ### Rule 3 (R168) -/

/-- SK16 in tile skeins of 64. -/
def rqOpf : Opf := { fmt := .sk16, dir := .tile, size := 64 }

/-- A matrix held as SK16 tile skeins: scale and element at each place. -/
structure TMat where
  rows : Nat
  cols : Nat
  sk   : List ((Nat × Nat) × StSkein)
  deriving DecidableEq, Repr

def TMat.at (m : TMat) (r c : Nat) : Scale × Elem := storedAt rqOpf m.rows m.cols m.sk r c

/-- rq16: SK16 in tile skeins of 64 with RNE and dynamic scale. -/
def rq16 (rows cols : Nat) (x : Nat → Nat → XV) : TMat :=
  let rd : Rounding := { rne := true, fixed := none, step := 0, tensor := 0, seed := 0 }
  { rows := rows, cols := cols
    sk := formPlane rqOpf rows cols (rows * cols) (fun _ ps =>
      let r := requantSkein .sk16 rd (ps.map (fun p => (x p.1 p.2, 0)))
      { scale := r.1.scale, mants := r.1.mants, bobs := [], held := false, cnt := FmtCounts.zero }) }

/-- One product element as a loom forms it: a reduction group (R39, R56). -/
def loomDot (n : Nat) (a b : Nat → Scale × Elem) : XV :=
  (groupOf false ((List.range n).map (fun k => prodTerm 8 (a k).1 (b k).1 (a k).2 (b k).2))).1

/-- rq16 of a product of two stored matrices, the first optionally transposed. -/
def tmul (t : Bool) (a b : TMat) : TMat :=
  let rows := if t then a.cols else a.rows
  let n := if t then a.rows else a.cols
  rq16 rows b.cols (fun r c =>
    loomDot n (fun k => if t then a.at k r else a.at r k) (fun k => b.at k c))

def TMat.value (m : TMat) (r c : Nat) : XV := valueOf (m.at r c).1 (m.at r c).2

/-- The iteration of R168 from s0, `n` times. -/
def nsLoop (a b c : XV) (s0 : TMat) (n : Nat) (q : TMat) : TMat :=
  match n with
  | 0 => q
  | k + 1 =>
    let s := tmul true q (tmul false s0 q)
    let ss := tmul false s s
    let p := rq16 s0.rows s0.cols (fun i j =>
      XV.add (XV.add (if i = j then a else .num 0 0) (XV.mul b (s.value i j)))
        (XV.mul c (ss.value i j)))
    nsLoop a b c s0 k (tmul false q p)

/-- The trace of the Gram image, and o of every shard element (R168). `m` is the stored momentum. -/
def orthoOut (g : GroupRec) (gram : View) (m : Nat → Nat → Scale × Elem) : XV × (Nat → Nat → XV) :=
  let n := g.lcols
  let f := (List.range n).foldl (fun a i => XV.add a (gram.value i i)) (.num 0 0)
  if f.isZero then (f, fun _ _ => .num 0 0)
  else
    let s0 := rq16 n n (fun i j => div24 (gram.value i j) f)
    let id_ := rq16 n n (fun i j => if i = j then oneX else .num 0 0)
    let q := nsLoop g.nsA g.nsB g.nsC s0 g.iters id_
    let mq := rq16 g.rows n (fun r c => loomDot n (fun k => m r k) (fun k => q.at k c))
    (f, fun r c => div24 (mq.value r c) (sqrt24 f))

/-! ### The new weight -/

/-- u of rules 1 and 2 (R166). -/
def adaptiveU (v : UpdEnv) (m mm w : XV) : XV :=
  XV.add (t24 (div24 (div24 m v.bc1) (XV.add (sqrt24 (div24 mm v.bc2)) v.g.eps))) (XV.mul v.g.wd w)

/-- The exact new weight of an unmasked element (R165 to R168). -/
def newWeight (v : UpdEnv) (m mm o : XV) (r c : Nat) : XV :=
  let w := v.master r c
  if v.narIn r c then .nar
  else match v.g.rule with
    | 0 =>
      let u := if v.g.nesterov then XV.add (v.gradient r c) (XV.mul v.g.beta1 m) else m
      XV.sub w (XV.mul v.lr (XV.add u (XV.mul v.g.wd w)))
    | 1 => XV.sub w (XV.mul v.lr (adaptiveU v m mm w))
    | 2 => XV.sub w (XV.mul v.lr (XV.mul v.trust (adaptiveU v m mm w)))
    | _ => XV.sub w (XV.mul v.lr (XV.add (XV.mul v.g.oscale o) (XV.mul v.g.wd w)))

/-! ### Environment -/

def State.updEnv (s : State) (q : BitVec 16) (g : GroupRec) (f : UpdF) : UpdEnv :=
  let o := fun v => (decodeOpf v).getD rqOpf
  let w := s.readRec g.wRef
  let view := fun a v => s.recView (s.readRec a) (o v)
  let t := f.gstep + 1
  let bobAt := fun r c => g.bob + r * (w.rowStr / 2) + c
  { g := g, f := f, cfg := s.numCfg q, oW := o g.opfW, oM1 := o g.opfM1, oM2 := o g.opfM2
    w := s.recView w (o g.opfW)
    m1 := if g.hasM1 then view g.m1Ref g.opfM1 else emptyView
    m2 := if g.hasM2 then view g.m2Ref g.opfM2 else emptyView
    grad := if g.gradRef = 0 then emptyView else view g.gradRef f.opfG
    bob := fun r c => signedOf 8 (s.byteAt (bobAt r c)).toNat
    mask := fun k => g.mask != 0 && (s.byteAt (g.mask + k / 8)).getLsbD (k % 8)
    bobBad := fun r c => !s.poisonFree && s.linePoisoned (bobAt r c / 64)
    maskBad := fun k => g.mask != 0 && !s.poisonFree && s.linePoisoned ((g.mask + k / 8) / 64)
    lr := s.learningRate g f.step
    bc1 := t24 (XV.sub oneX (pow24 g.beta1 (t % 2 ^ 64)))
    bc2 := t24 (XV.sub oneX (pow24 g.beta2 (t % 2 ^ 64)))
    trust := oneX }

/-- A scale byte of the record's grid place of (r, c) lies on a poisoned line. -/
def State.scaleBadAt (s : State) (a v r c : Nat) : Bool :=
  match decodeOpf v with
  | none => false
  | some o =>
    let x := s.readRec a
    s.anyPoison (x.scale + r / o.extent.1 * x.sclStr + c / o.extent.2 * o.fmt.scaleBytes)
      o.fmt.scaleBytes

/-- The weight, bobbin or a moment of element (r, c) lies on a poisoned line; `moments` says whether the
moments are read. The bobbin slot of a zero or not-a-number skein is not (R159, R162). -/
def State.keptBad (s : State) (v : UpdEnv) (moments : Bool) (r c : Nat) : Bool :=
  let bobRead := match v.w.scale r c with
    | .exp _ => true
    | _ => false
  !s.poisonFree && (v.w.poison r c || s.scaleBadAt v.g.wRef v.g.opfW r c || (bobRead && v.bobBad r c)
    || (moments && v.g.hasM1 && (v.m1.poison r c || s.scaleBadAt v.g.m1Ref v.g.opfM1 r c))
    || (moments && v.g.hasM2 && (v.m2.poison r c || s.scaleBadAt v.g.m2Ref v.g.opfM2 r c)))

/-- A pass over element (r, c) draws on a poisoned line (R158); that of a custom group reads no moment
(R170). -/
def State.updBad (s : State) (v : UpdEnv) (r c : Nat) : Bool :=
  if s.poisonFree then false
  else
    s.keptBad v (v.g.rule != 4) r c || v.maskBad (r * v.g.lcols + c)
      || (v.g.gradRef != 0 && (v.grad.poison r c || s.scaleBadAt v.g.gradRef v.f.opfG r c))

/-- Elements of the shard in ascending local order. -/
def GroupRec.elems (g : GroupRec) : List (Nat × Nat) :=
  ((List.range g.rows).map (fun r => (List.range g.lcols).map (fun c => (r, c)))).flatten

/-- A plane that the state stamp of R159 covers holds poison. -/
def State.stampBad (s : State) (v : UpdEnv) : Bool :=
  !s.poisonFree && v.g.elems.any (fun p => s.keptBad v true p.1 p.2)

/-- The Gram image of a group of rule 3 holds poison. -/
def State.gramBad (s : State) (g : GroupRec) : Bool :=
  g.rule == 3 && !s.poisonFree && (s.scalePoisoned (s.readRec g.gram) gramOpf
    || (List.range g.lcols).any (fun r => (s.recView (s.readRec g.gram) gramOpf).rowPoisoned r))

/-- The first local index of the skein of (r, c) in a plane. -/
def skeinStart (o : Opf) (cols : Nat) (p : Nat × Nat) : Nat :=
  p.1 / o.extent.1 * o.extent.1 * cols + p.2 / o.extent.2 * o.extent.2

/-- Steps `l` back until no skein of the group straddles it (log 34). -/
def wholeLimit (v : UpdEnv) (l fuel : Nat) : Nat :=
  match fuel with
  | 0 => l
  | k + 1 =>
    let os := [v.oW] ++ (if v.g.hasM1 then [v.oM1] else []) ++ (if v.g.hasM2 then [v.oM2] else [])
    let cut := (v.g.elems.filter (fun p => decide (l ≤ p.1 * v.g.lcols + p.2))).foldl (fun m p =>
      os.foldl (fun m o => min m (skeinStart o v.g.lcols p)) m) l
    if cut < l then wholeLimit v cut k else l

/-! ### Stamp (R159) -/

/-- The stamp's bytes of one stored element. -/
def elemStamp (f : Fmt) (k : Scale) (m : Elem) : List Byte :=
  let v := match k with
    | .exp _ => f.encode m
    | _ => 0
  toLe (f.bits / 8) v ++ toLe 1 (scaleCode k)

/-- The planes of a group, for its stamp. -/
def State.stampEnv (s : State) (g : GroupRec) : UpdEnv :=
  s.updEnv 0 g { group := 0, opfG := 0, scale := 0, check := false, step := 0, gstep := 0, stat := 0
                 rsvd := true }

def State.stamp (s : State) (g : GroupRec) : Nat :=
  let v := s.stampEnv g
  (crc32c ((g.elems.map (fun p =>
    let k := v.w.scale p.1 p.2
    elemStamp .sk16 k (v.w.elem p.1 p.2)
      ++ [match k with | .exp _ => s.byteAt (g.bob + p.1 * ((s.readRec g.wRef).rowStr / 2) + p.2)
                       | _ => 0]
      ++ (if g.hasM1 then elemStamp v.oM1.fmt (v.m1.scale p.1 p.2) (v.m1.elem p.1 p.2) else [])
      ++ (if g.hasM2 then elemStamp v.oM2.fmt (v.m2.scale p.1 p.2) (v.m2.elem p.1 p.2) else [])))).flatten).toNat

/-! ### Statistic (R169, Table UPD-2) -/

/-- An exact layer sum, which keeps the smallest exponent of its terms that are not zero (R169, log 77). -/
def layerSum (l : List XV) : XV :=
  l.foldl (fun a x => if x.isZero then a else if a.isZero then x else XV.add a x) (.num 0 0)

/-- An exact sum as an ACC64 value and exponent, by R87 for a skein of one element. -/
def sumBytes (x : XV) : Option (List Byte) × List Byte :=
  let k := (accSkein [x]).1
  (k.mants.map (fun ms => toLe 8 (Fmt.acc64.encode (ms.getD 0 .nar))), toLe 2 k.scale)

def State.putSum (s : State) (a : Nat) (x : XV) : State :=
  let b := sumBytes x
  let s := match b.1 with
    | some v => s.writeMem a v
    | none => s
  s.writeMem (a + 8) b.2

/-- A sum field of a statistic record as an exact value. -/
def State.readSum (s : State) (a : Nat) : XV :=
  valueOf (scaleOfAcc (s.natAt (a + 8) 2)) (Fmt.acc64.decode (s.natAt a 8))

/-- The Gram part of a shard (R168): each output element is one reduction group over the rows. -/
def gramSkeins (v : UpdEnv) (m : Nat → Nat → Scale × Elem) : SkeinOut × FmtCounts :=
  let n := v.g.lcols
  let g := gramOpf.grid n n
  let places := ((List.range g.1).map (fun i => (List.range g.2).map (fun j => (i, j)))).flatten
  places.foldl (fun acc ij =>
    let sums := (skeinPlaces gramOpf n n ij.1 ij.2).map (fun p =>
      groupOf false ((((List.range v.g.rows).filter (fun r =>
        !v.masked r p.1 && !v.masked r p.2))).map (fun r =>
          prodTerm 8 (m r p.1).1 (m r p.2).1 (m r p.1).2 (m r p.2).2)))
    let k := accSkein (sums.map Prod.fst)
    (acc.1 ++ [(ij, k.1)],
      acc.2.add { k.2 with wrapped := k.2.wrapped + (sums.filter (fun x => x.2)).length })) ([], FmtCounts.zero)

/-- The picks that rule 3 runs on the looms of the die: how many run on which loom is open, so that its
counters move by free values (R172, log 77). -/
def State.orthoPicks (s : State) (die : Nat) : State :=
  (List.range 8).foldl (fun (s : State) l =>
    let a := s.draw
    let b := a.2.draw
    (b.2.count (0x7830 + die) (16 * l + 8) a.1).count (0x7830 + die) (16 * l + 9) b.1) s

/-- Runs UPD_STAT over the shard: writes the record of Table UPD-2 (R164, R169). That of a custom group takes
in the gradient and the weight alone (R170). -/
def State.runStat (s : State) (q : BitVec 16) (g : GroupRec) (f : UpdF) (stall : Option Nat) :
    State × Outcm :=
  let v := s.updEnv q g f
  let open_ := g.elems.filter (fun p => !v.masked p.1 p.2)
  match stall with
  | some _ => (s, outcm stTierStall 0 0)
  | none =>
    if g.elems.any (fun p => s.updBad v p.1 p.2) then (s, outcm stPoisonSrc 0 0)
    else
      let all := g.rows * g.lcols
      let mk := if g.rule ≤ 3 then v.formM1 all else []
      let mmk := if g.rule = 1 ∨ g.rule = 2 then v.formM2 all else []
      let m := fun r c => storedValue v.oM1 g.rows g.lcols mk r c
      let mm := fun r c => storedValue v.oM2 g.rows g.lcols mmk r c
      let sum := fun (h : Nat → Nat → XV) =>
        layerSum (open_.map (fun p => let x := h p.1 p.2; XV.mul x x))
      let nar := open_.any (fun p => if g.rule = 4 then
        (v.master p.1 p.2).isNar || (v.gradient p.1 p.2).isNar else v.narIn p.1 p.2)
      let g2 := sum v.gradient
      let w2 := sum v.master
      let u2 := if g.rule = 2 then
          sum (fun r c => adaptiveU v (m r c) (mm r c) (v.master r c)) else .num 0 0
      let s := s.writeMem f.stat (toLe 8 f.step ++ toLe 4 g.id ++ [if nar then 1 else 0] ++ [0, 0, 0])
      let s := ((s.putSum (f.stat + 16) g2).putSum (f.stat + 32) w2).putSum (f.stat + 48) u2
      let zero_ := fun (s : State) (a : Nat) => s.writeMem (f.stat + a) [0, 0, 0, 0, 0, 0]
      let s := zero_ (zero_ (zero_ s 26) 42) 58
      let s := if g.rule = 3 then
          let rc := s.readRec g.gram
          let k := gramSkeins v (fun r c => storedAt v.oM1 g.rows g.lcols mk r c)
          ((s.writeSkeins { rcd := rc, opf := gramOpf, rows := g.lcols, cols := g.lcols } k.1).countFmt
            k.2).orthoPicks (s.queue q).die
        else s
      (s.count 0x78C1 9 1, if nar then outcm stNarOut 0 0 else doneOk)

/-! ### UPD_APPLY -/

def asOut (sk : List ((Nat × Nat) × StSkein)) : SkeinOut :=
  sk.map (fun x => (x.1, { scale := x.2.scale, mants := x.2.mants }))

/-- Writes the bobbins of the formed weight skeins. -/
def State.writeBobbins (s : State) (v : UpdEnv) (sk : List ((Nat × Nat) × StSkein)) : State :=
  let str := (s.readRec v.g.wRef).rowStr / 2
  let e := v.oW.extent
  (List.range v.g.rows).foldl (fun (s : State) r =>
    s.writeRuns (v.g.bob + r * str) [] ((List.range v.g.lcols).map (fun c =>
      match sk.find? (fun x => x.1 == (r / e.1, c / e.2)) with
      | none => none
      | some x =>
        ((skeinPlaces v.oW v.g.rows v.g.lcols (r / e.1) (c / e.2)).findIdx? (fun p => p == (r, c))).map
          (fun k => BitVec.ofInt 8 (x.2.bobs.getD k 0))))) s

/-- The trust ratio (R167), with whether TRUST_MAX was used. -/
def State.trustRatio (s : State) (g : GroupRec) (f : UpdF) : XV × Bool :=
  let sw := s.readSum (f.stat + 32)
  let su := s.readSum (f.stat + 48)
  if sw.isZero || su.isZero then (oneX, false)
  else
    let r := div24 (sqrt24 sw) (sqrt24 su)
    if XV.lt g.trust r then (g.trust, true) else (r, false)

/-- The first element at which the mask, read in ascending order, tells that not every element is masked, or
meets a poisoned line (R156). -/
def State.maskEnds (s : State) (g : GroupRec) : Option Nat :=
  (List.range (g.rows * g.lcols)).find? (fun k =>
    s.anyPoison (g.mask + k / 8) 1 || !(s.byteAt (g.mask + k / 8)).getLsbD (k % 8))

/-- Every element of the shard is masked. -/
def State.allMasked (s : State) (g : GroupRec) : Bool :=
  g.mask != 0 && decide (0 < g.rows * g.lcols) && (s.maskEnds g).isNone

/-- Poison keeps the mask from telling whether every element is masked. -/
def State.maskLost (s : State) (g : GroupRec) : Bool :=
  g.mask != 0 && (match s.maskEnds g with
    | some k => s.anyPoison (g.mask + k / 8) 1
    | none => false)

/-- Runs the second pass after the claim (R157, R158, R164). -/
def State.runApply (s : State) (q : BitVec 16) (g : GroupRec) (f : UpdF) (stall : Option Nat) :
    State × Outcm :=
  let v := s.updEnv q g f
  let tr := if g.rule = 2 then s.trustRatio g f else (oneX, false)
  let v := { v with trust := tr.1 }
  let all := g.rows * g.lcols
  let bad := (g.elems.find? (fun p => s.updBad v p.1 p.2)).map (fun p => p.1 * g.lcols + p.2)
  -- the first element of the lowest skein that holds a poisoned element, or the stalled element
  let os := [v.oW] ++ (if g.hasM1 then [v.oM1] else []) ++ (if g.hasM2 then [v.oM2] else [])
  let low := (g.elems.filter (fun p => s.updBad v p.1 p.2)).foldl (fun m p =>
    os.foldl (fun m o => min m (skeinStart o g.lcols p)) m) all
  let stop := match stall with
    | some k => min k low
    | none => low
  let stop := if s.gramBad g then 0 else stop
  let limit := if g.rule = 4 then all else if stop < all then wholeLimit v stop all else all
  let mk := if g.rule ≤ 3 then v.formM1 all else []
  let mmk := if g.rule = 1 ∨ g.rule = 2 then v.formM2 all else []
  let within := fun (o : Opf) (sk : List ((Nat × Nat) × StSkein)) =>
    sk.filter (fun x => (skeinPlaces o g.rows g.lcols x.1.1 x.1.2).all (fun p =>
      decide (p.1 * g.lcols + p.2 < limit)))
  let gram := if g.rule = 3 then s.recView (s.readRec g.gram) gramOpf else emptyView
  let ort := if g.rule = 3 then
      orthoOut g gram (fun r c => storedAt v.oM1 g.rows g.lcols mk r c)
    else (.num 0 0, fun _ _ => .num 0 0)
  let wk := if g.rule = 4 then [] else formPlane v.oW g.rows g.lcols limit (fun ij ps =>
    storeWeight (v.rounding g.rqcW g.tidW)
      (v.w.scale (ij.1 * v.oW.extent.1) (ij.2 * v.oW.extent.2))
      (ps.map (fun p =>
        { masked := v.masked p.1 p.2, old := v.w.elem p.1 p.2, oldBob := v.bob p.1 p.2
          oldLive := (v.master p.1 p.2).live
          x := newWeight v (storedValue v.oM1 g.rows g.lcols mk p.1 p.2)
            (storedValue v.oM2 g.rows g.lcols mmk p.1 p.2) (ort.2 p.1 p.2) p.1 p.2
          index := v.index p })))
  let mW := within v.oM1 mk
  let mmW := within v.oM2 mmk
  let done := g.elems.filter (fun p => decide (p.1 * g.lcols + p.2 < limit))
  let nar := g.rule != 4 && done.any (fun p => if v.masked p.1 p.2 then v.narKept p.1 p.2 else v.narIn p.1 p.2)
  let plane := fun (s : State) (a : Nat) (o : Opf) =>
    ({ rcd := s.readRec a, opf := o, rows := g.rows, cols := g.lcols } : OutPlane)
  let s := if g.rule = 4 then s else s.writeSkeins (plane s g.wRef v.oW) (asOut wk)
  let s := if g.rule = 4 then s else s.writeBobbins v wk
  let s := if g.rule ≤ 3 then s.writeSkeins (plane s g.m1Ref v.oM1) (asOut mW) else s
  let s := if g.rule = 1 ∨ g.rule = 2 then s.writeSkeins (plane s g.m2Ref v.oM2) (asOut mmW) else s
  let cnt := (wk ++ mW ++ mmW).foldl (fun c x => c.add x.2.cnt) FmtCounts.zero
  let held := ((wk ++ mW ++ mmW).filter (fun x => x.2.held)).length
  let masked := (done.filter (fun p => v.masked p.1 p.2)).length
  let s := (s.countFmt cnt).count 0x78C1 7 held
  let s := if g.rule = 4 then s
    else (s.count 0x78C1 5 (done.length - masked)).count 0x78C1 6 masked
  let s := if tr.2 then s.count 0x78C1 8 1 else s
  let s := if g.rule = 3 ∧ !s.gramBad g ∧ !ort.1.isZero then
      (s.count 0x78C1 0xA g.iters).orthoPicks (s.queue q).die
    else s
  if g.rule = 4 ∧ stall.isSome then (s, outcm stTierStall 0 0)
  else if (g.rule = 4 ∧ (s.maskLost g ∨ s.stampBad v)) ∨ s.gramBad g then (s, outcm stPoisonSrc 0 0)
  else if limit < all then
    (s, outcm (if (match stall with | some k => decide (k ≤ low) | none => false) then stTierStall
      else stPoisonSrc) (limit % 2 ^ 32) 0)
  else if g.rule != 4 ∧ bad.isSome then (s, outcm stPoisonSrc (limit % 2 ^ 32) 0)
  else
    let s := (s.putGroup g.addr (f.gstep + 1) f.step false).count 0x78C1 0 1
    if nar then (s, outcm stNarOut 0 0)
    else (s, outcm stDone (s.stamp g) 0)

/-! ### Barrier, claim and outcome (R156) -/

/-- The held outcome of a step. -/
def State.outcomeOf (s : State) (t : Nat) : Option Outcome :=
  match Tab.find s.peruo.outcomes (t % 256) with
  | some o => if o.step = t then some o else none
  | none => none

/-- STEP is older than the oldest outcome held (R156). -/
def State.outcomeGone (s : State) (t : Nat) : Bool :=
  match s.peruo.outcomes with
  | [] => false
  | x :: r => decide (t < r.foldl (fun m y => min m y.2.step) x.2.step)

/-- The status of reading the planes of a group for its stamp alone: stalled, poisoned, or none (R158). -/
def State.stampFails (s : State) (g : GroupRec) (stall : Option Nat) : Option Byte :=
  if stall.isSome then some stTierStall
  else if s.stampBad (s.stampEnv g) then some stPoisonSrc
  else none

/-- A group that does not change still ends with its stamp, unless its planes cannot be read: after the claim
it is then torn (R158, R159). -/
def State.frozenEnd (s : State) (g : GroupRec) (f : UpdF) (real : Bool) (stall : Option Nat) : State × Outcm :=
  match s.stampFails g stall with
  | some st => (if real then s.putGroup g.addr g.gstep g.last true else s, outcm st 0 0)
  | none =>
    let s := if real then (s.putGroup g.addr (f.gstep + 1) f.step false).count 0x78C1 2 1 else s
    (s, outcm stDoneFrozen (s.stamp g) 0)

/-- Steps 2 to 5 of R156 for a descriptor whose outcome `o` is held; `stall` is the element at which
tier 2 does not serve it. -/
def State.updSettle (s : State) (q : BitVec 16) (apply : Bool) (f : UpdF) (o : Outcome)
    (stall : Option Nat) : State × Outcm :=
  let g := s.readGroup (s.groupAddr f.group)
  let real := apply && !f.check
  if s.anyPoison g.addr 256 then ((s.noteRead g.addr 256), outcm stPoisonSrc 0 0)
  else if g.inUpdate then
    ((s.count 0x78C1 4 1).count 0x78C1 3 1, outcm stStepSkew (g.gstep % 2 ^ 32) 0)
  else if g.gstep ≠ f.gstep then (s.count 0x78C1 3 1, outcm stStepSkew (g.gstep % 2 ^ 32) 0)
  else if o.flag then
    (if real then s.count 0x78C1 1 1 else s, outcm stDoneSkipped 0 0)
  else if g.frozen || s.allMasked g then
    if !apply then (s, outcm stDoneFrozen 0 0) else s.frozenEnd g f real stall
  else if !apply then s.runStat q g f stall
  else if f.check then
    (s, match s.stampFails g stall with
        | some st => outcm st 0 0
        | none => if s.maskLost g then outcm stPoisonSrc 0 0 else outcm stDone (s.stamp g) 0)
  else if (g.rule = 2 ∨ g.rule = 3) ∧ s.natAt (f.stat + 12) 1 % 2 = 1 then (s, outcm stNarOut 0 0)
  else (s.putGroup g.addr g.gstep g.last true).runApply q g f stall

/-- The reserved bits and bytes of a statistic record are zero (Table UPD-2, R6). -/
def State.statPlain (s : State) (a : Nat) : Bool :=
  s.natAt (a + 12) 4 < 2 && [26, 42, 58].all (fun k => s.natAt (a + k) 6 == 0)

/-- STAT_REF of a descriptor of group `g` (R154, R169, R172). -/
def State.statOk (s : State) (g : GroupRec) (f : UpdF) (apply : Bool) : Bool :=
  let here := f.stat % 16 == 0 && (match spaceOf f.stat with
    | .tier1 | .dieStore _ => true
    | _ => false)
  if !apply then here
  else if g.rule = 2 ∨ g.rule = 3 then
    f.stat != 0 && here && (s.anyPoison f.stat 64
      || (s.natAt f.stat 8 == f.step && s.natAt (f.stat + 8) 4 == f.group && s.statPlain f.stat))
  else g.rule == 4 || f.stat == 0

/-- The operand records that a group names. -/
def GroupRec.refs (g : GroupRec) : List Nat :=
  [g.wRef] ++ (if g.hasM1 then [g.m1Ref] else []) ++ (if g.hasM2 then [g.m2Ref] else [])
    ++ (if g.gradRef = 0 then [] else [g.gradRef]) ++ (if g.gram = 0 then [] else [g.gram])

/-- UPD_STAT and UPD_APPLY up to the lease check and the poison of what they read (R11, R154); none when they
pass. -/
def State.updChecks (s : State) (q : BitVec 16) (apply : Bool) (b : BitVec 352) : Option Outcm :=
  let f := updF b
  let a := s.groupAddr f.group
  let g := s.readGroup a
  let raw := s.bytesAt a 256
  let usesStat := !apply || g.rule == 2 || g.rule == 3
  if !f.rsvd ∨ (decodeOpf f.opfG).isNone ∨ (!apply ∧ (f.check ∨ f.stat = 0))
      ∨ s.obj 0x4000 2 0 ≤ f.group then some badField
  else if s.anyPoison a 256 then some (outcm stPoisonSrc 0 0)
  else if (crc32c (slice raw 0 252)).toNat ≠ leNat (slice raw 252 4) then some (outcm stBadField 252 0)
  else match firstFail (s.groupChecks f.group g) with
    | some o => some (outcm stBadField o 0)
    | none =>
      if !s.statOk g f apply then some badField
      else if !(s.groupLeased q g f.opfG && (!usesStat || s.updLeased q f.stat 64)) then some noLease
      else if g.refs.any (fun r => s.anyPoison r 48) || s.curveLost g.curve
          || (apply && usesStat && s.anyPoison f.stat 64) then some (outcm stPoisonSrc 0 0)
      else none
where
  firstFail (l : List (Nat × Bool)) : Option Nat := (l.find? (fun x => !x.2)).map Prod.fst

/-- The descriptor is handed to the update engine, which takes two, and settles, or waits there for its
outcome (R156, R172). -/
def State.updStart (s : State) (d : Desc) (op : Byte) (stall : Option Nat) : State :=
  let f := updF d.body
  if 2 ≤ s.updLoad (s.queue d.queue).die then s
  else match s.outcomeOf f.step with
  | some o => s.runNow d op (fun s => s.updSettle d.queue (op == 0x81) f o stall)
  | none =>
    if s.outcomeGone f.step then s.finish d badField
    else
      let s := s.handOver d .update
      { s with outcomeWaits := s.outcomeWaits ++
        [{ queue := d.queue, seq := d.seq, opcode := op, body := d.body, conf := s.conf }] }

def State.dispatchUpd (s : State) (d : Desc) (op : Byte) (stall : Option Nat) : State :=
  match s.updChecks d.queue (op == 0x81) d.body with
  | some o => s.finish d o
  | none => s.updStart d op stall

/-- An update that waited goes on now that its outcome is held, or can never be (R156). -/
def State.updResume (s : State) (w : OutcomeWait) (stall : Option Nat) : State :=
  let f := updF w.body
  let drop := fun (s : State) => { s with outcomeWaits := s.outcomeWaits.filter (fun y =>
    !(y.queue == w.queue && y.seq == w.seq)) }
  match s.outcomeOf f.step with
  | some o =>
    let r := (drop s).underConf w.conf (fun s => s.updSettle w.queue (w.opcode == 0x81) f o stall)
    r.1.complete w.queue w.seq r.2
  | none => if s.outcomeGone f.step then (drop s).complete w.queue w.seq badField else s

/-! ### Meanings -/

def execUpdStat (d : Desc) (s : State) : Result := s.onDesc d 0x80 (fun s => s.dispatchUpd d 0x80 none)

def execUpdApply (d : Desc) (s : State) : Result :=
  s.onDesc d 0x81 (fun s => s.dispatchUpd d 0x81 none)

end Sys2Proof.Machine
end

