-- ==== Sys2Proof/Machine/Commit.lean ====
section
/-!
DEFINITION. Step commit and recovery commands (R371, R377, R379, R394): the commit body, group restore,
adopted outcomes, the rebase and the bolt note.
-/

namespace Sys2Proof.Machine

open Sys2Proof

/-- All ones: no step has been committed (R371). -/
def noStep : Nat := 2 ^ 64 - 1

/-- `n` bytes at `a` can be read: they lie in device memory or the host window, without poison. -/
def State.readable (s : State) (a n : Nat) : Bool :=
  (linesOf a n).all (fun l => (match spaceOf (64 * l) with
    | .tier1 | .tier2 | .dieStore _ | .object _ | .hostWindow => true
    | _ => false) && !s.linePoisoned l)

/-- COMMIT_RESULT and RESTORE_RESULT: a reason and a group. -/
def resultWord (reason group : Nat) : BitVec 64 := BitVec.ofNat 64 (reason * 2 ^ 56 + group % 2 ^ 32)

/-! ### The commit body (Tables REC-3, REC-4) -/

structure CommitRun where
  first : Nat
  count : Nat
  gstep : Nat
  deriving DecidableEq, Repr

structure CommitBody where
  step    : Nat
  epoch   : BitVec 32
  view    : Nat
  digest  : BitVec 64
  skipped : Bool
  runs    : Nat
  hists   : Nat
  deriving DecidableEq, Repr

def State.commitBody (s : State) (a : Nat) : CommitBody :=
  let b := s.bytesAt a 64
  let f := fun i n => leNat (slice b i n)
  { step := f 0 8, epoch := BitVec.ofNat 32 (f 8 4), view := f 12 4, digest := BitVec.ofNat 64 (f 16 8),
    skipped := bitOf (f 24 1) 0, runs := f 26 2, hists := f 40 1 }

def State.commitRuns (s : State) (a n : Nat) : List CommitRun :=
  (List.range n).map (fun j =>
    let r := a + 64 + 32 * j
    { first := s.natAt r 4, count := s.natAt (r + 4) 4, gstep := s.natAt (r + 8) 8 })

/-- Bytes of `n` history entries at `a`. -/
def State.histsBytes (s : State) (a n : Nat) : Nat :=
  match n with
  | 0 => 0
  | k + 1 =>
    let len := 8 + s.natAt (a + 4) 4
    len + s.histsBytes (a + len) k

/-- GROUP_FIRST of the first of the runs `l` that is empty, passes the group table or meets a run of
`seen` (log 57). -/
def badRun (top : Nat) (seen l : List CommitRun) : Option Nat :=
  match l with
  | [] => none
  | r :: t =>
    if r.count = 0 ∨ top < r.first + r.count
        ∨ seen.any (fun x => decide (x.first < r.first + r.count ∧ r.first < x.first + x.count)) then
      some r.first
    else badRun top (seen ++ [r]) t

/-- The groups of the runs, in run order, each with the GSTEP of its run. -/
def runGroups (l : List CommitRun) : List (Nat × Nat) :=
  (l.map (fun r => (List.range r.count).map (fun i => (r.first + i, r.gstep)))).flatten

/-- A group of a run is not as check 5 of R371 wants it. -/
def State.commitGroupBad (s : State) (b : CommitBody) (x : Nat × Nat) : Bool :=
  let a := s.groupAddr x.1
  let g := s.readGroup a
  !s.readable a 256 || g.inUpdate || g.gstep != (if b.skipped then x.2 else x.2 + 1)
    || (!b.skipped && g.last != b.step)

/-- The first group of the runs that the stamp list does not name in its place; a skipped step has no
list (log 57). -/
def State.badStamp (s : State) (b : CommitBody) (gs : List (Nat × Nat)) (a : Nat) : Option Nat :=
  let first := (gs.head?.map Prod.fst).getD 0
  if b.skipped then (if a = 0 then none else some first)
  else if !s.readable a (8 * gs.length) then some first
  else (gs.zipIdx.find? (fun x => s.natAt (a + 8 * x.2) 4 != x.1.1)).map (fun x => x.1.1)

/-- The first failing check of R371, with the group; 0 when every check passes. -/
def State.commitReason (s : State) (a stamps : Nat) : Nat × Nat :=
  let b := s.commitBody a
  let rs := s.commitRuns a b.runs
  let gs := runGroups rs
  let last := s.commit.last
  let top := s.obj 0x4000 2 0
  if !s.readable a 64 ∨ b.step = noStep ∨ (last ≠ noStep ∧ b.step ≤ last) then (1, 0)
  else if (b.epoch, b.digest) ≠ s.pairAt b.step ∨ b.view ≠ viewNumber (s.viewAt b.step) then (2, 0)
  else if !((s.outcomeOf b.step).any (fun o => o.flag == b.skipped)) then (3, 0)
  else if b.runs = 0 ∨ 64 < b.runs ∨ !s.readable (a + 64) (32 * b.runs) then (4, 0)
  else match badRun top [] rs, gs.find? (s.commitGroupBad b), s.badStamp b gs stamps with
    | some g, _, _ => (4, g)
    | none, some g, _ => (5, g.1)
    | none, none, some g => (6, g)
    | none, none, none =>
      let h := a + 64 + 32 * b.runs
      if !s.readable h (s.histsBytes h (min b.hists 64)) then (4, 0)
      else if nandCount s.journal = 0 then (7, 0)
      else (0, 0)

/-- The commit of R371: the body with its STAMP_DIGEST is journaled and is in force. -/
def State.stepCommit (s : State) (a stamps : Nat) : State × DapResult :=
  let r := s.commitReason a stamps
  if r.1 ≠ 0 then
    ({ s with commit := { s.commit with result := resultWord r.1 r.2 } }.count 0x7951 1 1, .refused)
  else if !s.journal.accepting then (s, .refused)
  else
    let b := s.commitBody a
    let n := 64 + 32 * b.runs
    let list := s.bytesAt stamps (8 * (runGroups (s.commitRuns a b.runs)).length)
    let dig := if b.skipped then s.commit.stampDigest else digest64 (sha256 list)
    let raw := s.bytesAt a (n + s.histsBytes (a + n) (min b.hists 64))
    let body := overlay (overlay raw 24 [raw.getD 24 0 &&& 0xFD]) 32 (toLe 8 dig.toNat)
    let s := s.record 0x01 0 body
    ({ s with
        journal := s.journal.live 3 1
        commit := { s.commit with last := b.step, stampDigest := dig, lastBody := body } }.count
      0x7951 0 1, .ok)

def execStepCommit (body stamps : BitVec 64) (s : State) : Result :=
  s.onCmd (fun s => s.stepCommit body.toNat stamps.toNat)

/-! ### GROUP_RESTORE (R377) -/

/-- Why group `g` cannot be restored to `stamp`: its record breaks R151 (2) or its planes have another stamp
(3); 0 when it can. No update ever stands half done between two commands, so reason 1 does not arise. -/
def State.restoreReason (s : State) (g stamp : Nat) : Nat :=
  let a := s.groupAddr g
  let raw := s.bytesAt a 256
  let r := s.readGroup a
  if s.obj 0x4000 2 0 ≤ g ∨ !s.readable a 256
      ∨ (crc32c (slice raw 0 252)).toNat ≠ leNat (slice raw 252 4)
      ∨ (s.groupChecks g r).any (fun c => !c.2) then 2
  else if s.stamp r ≠ stamp then 3
  else 0

/-- Entry k of GROUP_RESTORE: GROUP_STEP, LAST_STEP, STAMP. -/
def State.restoreEntry (s : State) (a k : Nat) : Nat × Nat × Nat :=
  let e := a + 24 * k
  (s.natAt e 8, s.natAt (e + 8) 8, s.natAt (e + 16) 4)

def State.groupRestore (s : State) (first count a : Nat) : State × DapResult :=
  if !s.journalUp then (s.count 0x7951 3 1, .refused)
  else
    let why := fun (k : Nat) =>
      if !s.readable (a + 24 * k) 24 then 3 else s.restoreReason (first + k) (s.restoreEntry a k).2.2
    match (List.range count).find? (fun k => why k != 0) with
    | some k =>
      ({ s with commit := { s.commit with restore := resultWord (why k) (first + k) } }.count
        0x7951 3 1, .refused)
    | none =>
      let es := (List.range count).map (fun k => (first + k, s.restoreEntry a k))
      let s := es.foldl (fun (s : State) e => s.putGroup (s.groupAddr e.1) e.2.1 e.2.2.1 false) s
      let body := toLe 4 first ++ toLe 4 count
        ++ (es.map (fun e => toLe 8 e.2.1 ++ toLe 8 e.2.2.1 ++ toLe 4 e.2.2.2 ++ toLe 4 0)).flatten
      ((s.record 0x0C 0 body).count 0x7951 2 1, .ok)

def execGroupRestore (first count : BitVec 32) (entries : BitVec 64) (s : State) : Result :=
  s.onCmd (fun s => s.groupRestore first.toNat count.toNat entries.toNat)

/-! ### OUTCOME_ADOPT, COMMIT_REBASE, BOLT_NOTE (R379, R394) -/

def State.outcomeAdopt (s : State) (o : Outcome) : State × DapResult :=
  match s.outcomeOf o.step with
  | some x => if x = o then (s.count 0x7951 4 1, .ok) else (s, .refused)
  | none =>
    ({ s with peruo := { s.peruo with
        outcomes := Tab.write s.peruo.outcomes (o.step % 256) o } }.count 0x7951 4 1, .ok)

def execOutcomeAdopt (step : BitVec 64) (flag : Byte) (members : BitVec 32) (sum : BitVec 64) (s : State) :
    Result :=
  s.onCmd (fun s => s.outcomeAdopt
    { step := step.toNat, flag := flag.getLsbD 0, members := members.toNat, sum := sum })

/-- The body of a REBASE record: no runs. -/
def State.rebaseBody (s : State) (t : Nat) : List Byte :=
  let c := s.pairAt t
  toLe 8 t ++ toLe 4 c.1.toNat ++ toLe 4 (viewNumber (s.viewAt t)) ++ toLe 8 c.2.toNat ++ [2]
    ++ toLe 1 (ownDevice s) ++ toLe 2 0 ++ toLe 4 0 ++ toLe 8 s.commit.stampDigest.toNat
    ++ List.replicate 24 0

def State.commitRebase (s : State) (t : Nat) : State × DapResult :=
  if !s.journalUp ∨ t = noStep then (s, .refused)
  else
    let body := s.rebaseBody t
    let s := s.record 0x01 0 body
    ({ s with commit := { s.commit with last := t, lastBody := body } }, .ok)

def execCommitRebase (step : BitVec 64) (s : State) : Result :=
  s.onCmd (fun s => s.commitRebase step.toNat)

def State.boltNote (s : State) (step digest label : Nat) : State × DapResult :=
  if !s.journalUp ∨ s.commit.last = noStep ∨ s.commit.last < step then (s, .refused)
  else
    let body := toLe 8 step ++ toLe 8 digest ++ toLe 8 label
    let s := s.record 0x0B 0 body
    ({ s with commit := { s.commit with lastBolt := body } }, .ok)

def execBoltNote (step digest label : BitVec 64) (s : State) : Result :=
  s.onCmd (fun s => s.boltNote step.toNat digest.toNat label.toNat)

end Sys2Proof.Machine
end

