-- ==== Sys2Proof/Machine/Wire.lean ====
section
/-!
DEFINITION. What travels on the links, byte for byte: flits and control records (Tables PRU-2 and PRU-4),
Ethernet-mode frames (Tables PRU-7 and PRU-8) and far datagrams (R333), formed and read.
-/

namespace Sys2Proof.Machine

open Sys2Proof

/-! ### Control records (Table PRU-4) -/

/-- A record of 32 bytes: the CRC over bytes 0 to 27 follows them. -/
def sealRecord (l : List Byte) : List Byte :=
  let b := slice l 0 28
  b ++ toLe 4 (crc32c b).toNat

/-- A signed 16-bit exponent. -/
def expField (e : Int) : List Byte := toLe 2 (unsignedOf 16 e)

/-- The EXP records of exponents from skein `k` on, twelve to a record. -/
def expRecords (l : List Int) (k fuel : Nat) : List (List Byte) :=
  match fuel with
  | 0 => []
  | n + 1 =>
    let now := l.take 12
    let b := [0x08, BitVec.ofNat 8 now.length] ++ toLe 2 (k % 65536) ++ (now.map expField).flatten
    sealRecord b :: (if l.length ≤ 12 then [] else expRecords (l.drop 12) (k + 12) n)

/-- The operand bytes that follow the first 8 of an ATOM, 16 to an OPERAND record. -/
def operandRecords (l : List Byte) (fuel : Nat) : List (List Byte) :=
  match fuel with
  | 0 => []
  | n + 1 =>
    if l = [] then []
    else sealRecord ([0x04, 0, 0, 0] ++ l.take 16) :: operandRecords (l.drop 16) n

/-- Flags of PUT: bit 0 says that the put has pod scope (log 82). -/
def putFlags (pod : Bool) : Nat := if pod then 1 else 0

/-- The control records of what a device sends. -/
def OutRec.records (r : OutRec) : List (List Byte) :=
  match r with
  | .put q t a g pod b => [sealRecord ([0x01] ++ toLe 1 (putFlags pod) ++ toLe 2 q.toNat ++ toLe 8 t ++ toLe 8 a
      ++ toLe 2 g ++ toLe 4 b.length)]
  | .get q t a n => [sealRecord ([0x02, 0] ++ toLe 2 q.toNat ++ toLe 8 t ++ toLe 8 a ++ toLe 2 0xFFFF
      ++ toLe 4 n)]
  | .atom o w t a x => sealRecord ([0x03] ++ toLe 1 o ++ toLe 1 w ++ [0] ++ toLe 8 t ++ toLe 8 a
      ++ slice x 0 8) :: operandRecords (x.drop 8) 3
  | .signal m d t k i => [sealRecord ([0x05] ++ toLe 1 m ++ toLe 1 d ++ [0] ++ toLe 8 t ++ toLe 2 k
      ++ toLe 4 i.toNat)]
  | .rsp st old d _ _ => [sealRecord ([0x06, st, 0, 0] ++ toLe 16 old ++ toLe 4 d.toNat)]
  | .coll c => [sealRecord ([0x07] ++ toLe 1 c.kind ++ toLe 2 c.group ++ toLe 8 c.step
      ++ toLe 4 c.collSeq.toNat ++ toLe 4 c.rows ++ toLe 4 c.cols ++ [c.opfIn] ++ toLe 1 c.h)]
  | .exp e => expRecords e.exponents 0 (e.exponents.length + 1)
  | .barrier b => [sealRecord ([0x09, if b.flag then 1 else 0, 0, 0] ++ toLe 8 b.step ++ toLe 8 b.digest.toNat
      ++ toLe 4 b.collSeq.toNat)]
  | .hello h => [sealRecord ([0x0A, 0] ++ toLe 2 h.pod ++ toLe 4 h.view.toNat ++ toLe 8 h.viewDigest.toNat
      ++ toLe 4 h.epoch.toNat ++ toLe 8 h.digest.toNat)]
  | .peerDown p v => [sealRecord ([0x0B, 0] ++ toLe 2 p ++ toLe 4 v.toNat)]

/-- The bytes that travel as data with a record. -/
def OutRec.data (r : OutRec) : List Byte :=
  match r with
  | .put _ _ _ _ _ b => b
  | .rsp _ _ _ b _ => b
  | .exp e => e.bytes ++ (e.elements.map (fun v => toLe 8 (unsignedOf 64 v))).flatten
  | _ => []

/-- Byte `i` of the data is poisoned: a line of a get's answer or of a gather, or an element. -/
def OutRec.poisonAt (r : OutRec) (i : Nat) : Bool :=
  match r with
  | .rsp _ _ _ _ p => p.contains (i / 64)
  | .exp e => e.poison.contains (if e.bytes = [] then i / 8 else i / 64)
  | _ => false

/-! ### Flits (Table PRU-2) -/

/-- The kind of a flit (FTYPE of Table PRU-2). -/
inductive FlitType where
  | idle | control | data | reserved
  deriving DecidableEq, Repr

/-- A flit: its header fields but for the CRC, and its payload. -/
structure Flit where
  ftype    : FlitType
  vc       : Nat
  creditVc : Nat
  credits  : Nat
  nak      : Bool
  flitSeq  : BitVec 12
  ack      : BitVec 12
  hdr      : XHdr
  mask     : BitVec 16
  payload  : List Byte
  deriving DecidableEq, Repr

def FlitType.code (t : FlitType) : Nat :=
  match t with
  | .idle => 0
  | .control => 1
  | .data => 2
  | .reserved => 3

def FlitType.ofCode (n : Nat) : FlitType :=
  match n % 4 with
  | 0 => .idle
  | 1 => .control
  | 2 => .data
  | _ => .reserved

/-- Bytes 0 to 27 of the header. -/
def Flit.header (f : Flit) : List Byte :=
  toLe 1 (f.vc * 64 + f.ftype.code * 16 + f.creditVc * 4 + (if f.nak then 2 else 0)) ++ toLe 1 f.credits
    ++ toLe 3 (f.flitSeq.toNat + f.ack.toNat * 4096)
    ++ toLe 5 (f.hdr.src + f.hdr.dst * 2 ^ 14 + f.hdr.xtag.toNat * 2 ^ 28)
    ++ toLe 2 f.mask.toNat ++ toLe 4 f.hdr.epoch.toNat ++ toLe 8 f.hdr.digest.toNat ++ toLe 4 f.hdr.view.toNat

/-- The 512 bytes of a flit. -/
def Flit.bytes (f : Flit) : List Byte :=
  f.header ++ toLe 4 (crc32c f.header).toNat ++ slice f.payload 0 480

/-- The number that bytes `i` to `i + n - 1` make (R5). -/
def numAt (b : List Byte) (i n : Nat) : Nat := leNat (slice b i n)

/-- Reads a flit from its bytes. -/
def flitOf (b : List Byte) : Flit :=
  let c := numAt b 0 1
  let q := numAt b 2 3
  let x := numAt b 5 5
  { ftype := FlitType.ofCode (c / 16), vc := c / 64, creditVc := c / 4 % 4, credits := numAt b 1 1
    nak := bitOf c 1, flitSeq := BitVec.ofNat 12 q, ack := BitVec.ofNat 12 (q / 4096)
    hdr := { src := x % 2 ^ 14, dst := x / 2 ^ 14 % 2 ^ 14, xtag := BitVec.ofNat 12 (x / 2 ^ 28)
             epoch := BitVec.ofNat 32 (numAt b 12 4), digest := BitVec.ofNat 64 (numAt b 16 8)
             view := BitVec.ofNat 32 (numAt b 24 4) }
    mask := BitVec.ofNat 16 (numAt b 10 2), payload := slice b 32 480 }

/-- The CRC at byte `i + n` holds over the `n` bytes before it. -/
def crcHolds (b : List Byte) (i n : Nat) : Bool := (crc32c (slice b i n)).toNat == numAt b (i + n) 4

/-- The header's CRC holds (R305). -/
def flitHeaderOk (b : List Byte) : Bool := crcHolds b 0 28

/-- The control records that a flit holds. -/
def Flit.recordCount (f : Flit) : Nat := if f.ftype = .control then f.mask.toNat % 16 else 0

/-- The CRC of every control record that the flit holds is right (R305). -/
def flitRecordsOk (b : List Byte) : Bool :=
  (List.range (flitOf b).recordCount).all (fun k => crcHolds b (32 + 32 * k) 28)

/-- The flits of a record as type, MASK and payload: up to 15 records to a control flit, then the data. -/
def OutRec.wire (r : OutRec) : List (FlitType × Nat × List Byte) :=
  let l := r.records
  let d := r.data
  (List.range (max 1 (ceilDiv l.length 15))).map (fun i =>
      let p := (l.drop (15 * i)).take 15
      (FlitType.control, p.length, p.flatten))
    ++ (List.range (ceilDiv d.length 480)).map (fun j =>
      let bad := (List.range 15).filter (fun i =>
        (List.range 32).any (fun k => r.poisonAt (480 * j + 32 * i + k)))
      (FlitType.data, (bad.map (fun i => 2 ^ i)).sum, slice d (480 * j) 480))

/-! ### Datagrams (R331, R333; RFC 8200, RFC 768) -/

/-- The sum of the 16-bit words of a byte string in network order. -/
def wordSum (l : List Byte) : Nat :=
  match l with
  | [] => 0
  | [a] => a.toNat * 256
  | a :: b :: r => a.toNat * 256 + b.toNat + wordSum r

/-- The one's complement sum in 16 bits. -/
def foldSum (n : Nat) : Nat := if n = 0 then 0 else (n - 1) % 65535 + 1

/-- What the UDP checksum covers: the pseudo header, and the UDP packet `u`. -/
def udpCovered (src dst u : List Byte) : List Byte :=
  src ++ dst ++ toBe 4 u.length ++ [0, 0, 0, 17] ++ u

/-- The UDP packet with its checksum. -/
def udpPacket (src dst : List Byte) (sport dport : Nat) (data : List Byte) : List Byte :=
  let head := toBe 2 sport ++ toBe 2 dport ++ toBe 2 (8 + data.length)
  let sum := 65535 - foldSum (wordSum (udpCovered src dst (head ++ [0, 0] ++ data)))
  head ++ toBe 2 (if sum = 0 then 65535 else sum) ++ data

/-- A frame without its FCS: Ethernet header, IPv6 header of traffic class `tc` and hop limit 64, and UDP. -/
def ipFrame (dstMac srcMac src dst : List Byte) (tc sport dport : Nat) (data : List Byte) : List Byte :=
  let u := udpPacket src dst sport dport data
  dstMac ++ srcMac ++ [0x86, 0xDD] ++ toBe 4 (6 * 2 ^ 28 + tc * 2 ^ 20) ++ toBe 2 u.length ++ [17, 64]
    ++ src ++ dst ++ u

/-- A received frame as its headers give it. -/
structure Datagram where
  dstMac : List Byte
  src    : List Byte
  dst    : List Byte
  /-- the two ECN bits of the traffic class -/
  ecn    : Nat
  dport  : Nat
  /-- the UDP checksum holds -/
  sumOk  : Bool
  data   : List Byte
  deriving DecidableEq, Repr

/-- Reads a frame of IPv6 and UDP whose lengths agree. -/
def datagramOf (b : List Byte) : Option Datagram :=
  let src := slice b 22 16
  let dst := slice b 38 16
  let u := b.drop 54
  if b.length < 62 ∨ slice b 12 2 ≠ [0x86, 0xDD] ∨ numAt b 14 1 / 16 ≠ 6 ∨ numAt b 20 1 ≠ 17
      ∨ beNat (slice b 18 2) ≠ u.length ∨ beNat (slice u 4 2) ≠ u.length then none
  else some
    { dstMac := slice b 0 6, src := src, dst := dst, ecn := beNat (slice b 14 2) / 16 % 4
      dport := beNat (slice u 2 2)
      sumOk := slice u 6 2 != [0, 0] && foldSum (wordSum (udpCovered src dst u)) == 65535
      data := u.drop 8 }

/-! ### The device's addresses (Table PRU-7) -/

/-- The MAC of a pod identifier: ETH_MAC_BASE plus it, in network order (R5). -/
def State.macOf (s : State) (p : Nat) : List Byte :=
  toBe 6 (beNat (s.objBytes 0x5500 3 (List.replicate 6 0)) + p)

/-- The IPv6 address of a pod identifier: ETH_PREFIX and the identifier. -/
def State.ipOf (s : State) (p : Nat) : List Byte := s.objBytes 0x5500 2 (List.replicate 8 0) ++ toBe 8 p

/-- The frame is for this device. -/
def State.ownFrame (s : State) (d : Datagram) : Bool :=
  d.dstMac == s.macOf s.ownPod && d.dst == s.ipOf s.ownPod

/-- ETH_UDP_PORT. -/
def State.ethPort (s : State) : Nat := s.obj 0x5500 4 51730

/-! ### Encapsulation (Table PRU-8) -/

/-- A packet of Ethernet mode. -/
structure EthPacket where
  src     : Nat
  version : Byte
  ackOnly : Bool
  nak     : Bool
  ceEcho  : Bool
  /-- the network has marked congestion -/
  ceMarked : Bool
  psn     : BitVec 32
  ackPsn  : BitVec 32
  ecrcOk  : Bool
  flits   : List (List Byte)
  deriving DecidableEq, Repr

/-- The encapsulation header of a packet with `n` flits. -/
def encapHeader (ackOnly nak ce : Bool) (n : Nat) (psn ackPsn : BitVec 32) : List Byte :=
  let flag := fun (b : Bool) (v : Nat) => if b then v else 0
  let b := [0x01] ++ toLe 1 (flag ackOnly 1 + flag nak 2 + flag ce 4) ++ toLe 1 n ++ [0]
    ++ toLe 4 psn.toNat ++ toLe 4 ackPsn.toNat
  b ++ toLe 4 (crc32c b).toNat

/-- Reads the encapsulation of a datagram from pod identifier `src`. -/
def packetOf (d : Datagram) : EthPacket :=
  let b := d.data
  let f := numAt b 1 1
  { src := beNat (d.src.drop 8), version := b.getD 0 0, ackOnly := bitOf f 0, nak := bitOf f 1
    ceEcho := bitOf f 2, ceMarked := d.ecn == 3, psn := BitVec.ofNat 32 (numAt b 4 4)
    ackPsn := BitVec.ofNat 32 (numAt b 8 4), ecrcOk := crcHolds b 0 12
    flits := (List.range (numAt b 2 1)).map (fun i => slice b (16 + 512 * i) 512) }

/-- The frame to pod identifier `p` that carries the packet bytes `data`, marked ECT(0). -/
def State.frameTo (s : State) (p : Nat) (data : List Byte) : List Byte :=
  ipFrame (s.macOf p) (s.macOf s.ownPod) (s.ipOf s.ownPod) (s.ipOf p) 2 s.ethPort s.ethPort data

/-! ### Far datagrams (R333) -/

/-- The far header: region, data length and offset. -/
def farHeader (region offset length : Nat) : List Byte :=
  toLe 2 region ++ [0, 0] ++ toLe 4 length ++ toLe 8 offset

/-- The frame of a far datagram to far peer `n`. The source port is ETH_UDP_PORT and the traffic class 0
(log 82). -/
def State.farFrame (s : State) (n region offset : Nat) (data : List Byte) : List Byte :=
  let f := s.objBytes 0x5501 n (List.replicate 32 0)
  ipFrame (slice f 0 6) (s.macOf s.ownPod) (s.ipOf s.ownPod) (slice f 8 16) 0 s.ethPort (numAt f 24 2)
    (farHeader region offset data.length ++ data)

/-- A far datagram: region, offset and data. -/
structure FarDatagram where
  region : Nat
  offset : Nat
  length : Nat
  data   : List Byte
  deriving DecidableEq, Repr

/-- Reads the far header and what follows it. -/
def farOf (b : List Byte) : FarDatagram :=
  { region := numAt b 0 2, offset := numAt b 8 8, length := numAt b 4 4, data := b.drop 16 }

end Sys2Proof.Machine
end

