-- ==== Sys2Proof/Machine/Links.lean ====
section
/-!
DEFINITION. Peers, lanes and the sending of transactions (R302 to R317, R330 to R332).
-/

namespace Sys2Proof.Machine

open Sys2Proof

/-! ### Peers (Table PRU-5) -/

/-- The state of pod identifier `p` (Table PRU-5). -/
def State.peerState (s : State) (p : Nat) : PeerSt :=
  match Tab.find s.peruo.peers p with
  | some x => x
  | none =>
    if p = s.ownPod then .self
    else if viewHas s.viewRecord p then .member else .absent

def State.setPeer (s : State) (p : Nat) (x : PeerSt) : State :=
  { s with peruo := { s.peruo with peers := Tab.write s.peruo.peers p x } }

/-- The device is excluded by its domain (R317). -/
def State.excluded (s : State) : Bool := s.peerState s.ownPod == .excluded

def sameDomain (a b : Nat) : Bool := a / 64 == b / 64

/-! ### Lanes (R308, R310, R330) -/

/-- The role a lane keeps whatever its state: domain lane j, pod lane j, or spare (R308). -/
inductive LaneRole where
  | domain (j : Nat)
  | pod (j : Nat)
  | spare
  deriving DecidableEq, Repr

def laneRole (n : Nat) : LaneRole :=
  let k := n / 16
  let l := n % 16
  if l < 8 then .domain (8 * k + l) else if l < 15 then .pod (7 * k + (l - 8)) else .spare

/-- Lanes per domain peer (R27, R308). -/
def lanesPerPeer (n : Nat) : Nat := if n ≤ 1 then 0 else 64 / (n - 1)

/-- Domain lane j goes to this device of the domain, and the number m of its lane (R308). -/
def domainLanePeer (n a j : Nat) : Option (Nat × Nat) :=
  if j < lanesPerPeer n * (n - 1) then
    let k := j % (n - 1)
    some (if k < a then k else k + 1, j / (n - 1))
  else none

/-- The Ethernet port of a pod lane, when its link die's port is set (R330). -/
def State.ethLane (s : State) (lane : Nat) : Bool :=
  match laneRole lane with
  | .pod _ => bitOf (s.obj 0x5500 1 0) (lane % 16 - 8)
  | _ => false

/-- The state a lane has before it is trained: an unused domain lane is IDLE and lane 15 SPARE. -/
def State.laneRest (s : State) (lane : Nat) : LaneSt :=
  match laneRole lane with
  | .domain j => if (domainLanePeer (domainSize s) (ownDevice s) j).isSome then .training else .idle
  | .pod _ => .training
  | .spare => .spare

def State.lane (s : State) (n : Nat) : Lane :=
  Tab.read s.peruo.lanes { Lane.init with st := s.laneRest n } n

def State.setLane (s : State) (n : Nat) (x : Lane) : State :=
  { s with peruo := { s.peruo with lanes := Tab.write s.peruo.lanes n x } }

/-- The lane carries flits. -/
def Lane.carries (x : Lane) : Bool := x.st == .up || x.st == .ethernet

/-- A lane, or the lane that replaces it, when it carries flits (R310). -/
def State.workingLane (s : State) (n : Nat) : Option Nat :=
  if (s.lane n).carries then some n
  else match s.peruo.lanes.find? (fun e => e.2.replaced.toNat == n && e.2.carries) with
    | some e => some e.1
    | none => none

/-- Working domain lanes to device `b` of the domain, in the order of m. -/
def State.domainLanes (s : State) (b : Nat) : List Nat :=
  (List.range 128).filterMap (fun n =>
    match laneRole n with
    | .domain j =>
      (match domainLanePeer (domainSize s) (ownDevice s) j with
       | some x => if x.1 = b then s.workingLane n else none
       | none => none)
    | _ => none)

/-- Working pod lanes. -/
def State.podLanes (s : State) : List Nat :=
  if s.podMode = 0 then []
  else (List.range 128).filterMap (fun n =>
    match laneRole n with
    | .pod _ => s.workingLane n
    | _ => none)

/-- The lanes that carry transactions to pod identifier `p`, and whether domain traffic is relayed
over the pod lanes (R311). -/
def State.path (s : State) (p : Nat) (podScope : Bool) : List Nat × Bool :=
  if sameDomain p s.ownPod && !podScope then
    let d := s.domainLanes (p % 64)
    if d = [] then (s.podLanes, true) else (d, false)
  else (s.podLanes, false)

/-- What a transaction to `p` ends with at once: none when it may be carried (Table PRU-5, R25). -/
def State.refusal (s : State) (p : Nat) (podScope : Bool) : Option Byte :=
  if s.excluded && sameDomain p s.ownPod then some stPeerLost
  else match s.peerState p with
    | .member => if (s.path p podScope).1 = [] then some stPeerLost else none
    | .cfgMismatch => some stCfgMismatch
    | _ => some stPeerLost

/-! ### Flits (R305 to R307, R312) -/

/-- Bytes that travel as data with a record. -/
def OutRec.dataBytes (r : OutRec) : Nat :=
  match r with
  | .put _ _ _ _ _ b => b.length
  | .rsp _ _ _ b _ => b.length
  | .exp e => e.bytes.length + 8 * e.elements.length
  | _ => 0

/-- Flits that carry the control records of `r`: up to 15 records each (R305), an EXP record for every 12
exponents. -/
def OutRec.heads (r : OutRec) : Nat :=
  match r with
  | .exp e => max 1 (ceilDiv (ceilDiv e.exponents.length 12) 15)
  | _ => 1

/-- Virtual channels of a record and of its data (Table PRU-3). -/
def OutRec.channels (r : OutRec) : Nat × Nat :=
  match r with
  | .rsp _ _ _ _ _ => (1, 2)
  | .coll _ => (3, 3)
  | .exp _ => (3, 3)
  | .barrier _ => (3, 3)
  | _ => (0, 2)

/-- Data flits of `b` bytes (R305). -/
def dataFlits (b : Nat) : Nat := ceilDiv b 480

/-- Flits of a record and its data. -/
def OutRec.flits (r : OutRec) : Nat := r.heads + dataFlits r.dataBytes

/-- A flit of record `i` on channel 2 leaves after the record's own flit, so that the flits of one
transaction travel in order (R312). -/
def headGone (x : Lane) (v i : Nat) : Bool :=
  v != 2 || !((x.queued.getD 0 []).contains i || (x.queued.getD 1 []).contains i)

/-- The virtual channel whose flit leaves next, with its record: one that has a flit waiting and a credit.
Collectives come first and requests before responses (R307). -/
def nextVc (x : Lane) : Option (Nat × Nat) :=
  [3, 0, 1, 2].findSome? (fun v => match (x.queued.getD v []).head? with
    | some i => if 0 < x.credits.getD v 0 ∧ headGone x v i then some (v, i) else none
    | none => none)

/-- Flits of record `i` that have not left the lane. -/
def Lane.flitsLeft (x : Lane) (i : Nat) : Nat := (x.queued.map (fun l => l.count i)).sum

/-- The virtual channel that the next flit credits: the first one that flits came in on. -/
def Lane.creditNext (x : Lane) : Nat := ([0, 1, 2, 3].find? (fun v => 0 < x.owed.getD v 0)).getD 0

/-- The bytes of the flit of record `i` that leaves next, on channel `v` (Table PRU-2). -/
def Lane.nextFlit (x : Lane) (v i : Nat) : List Byte :=
  match x.recs.find? (fun r => r.id == i) with
  | none => []
  | some r =>
    match r.out.wire[r.out.flits - x.flitsLeft i]? with
    | none => []
    | some w =>
      let c := x.creditNext
      let f : Flit :=
        { ftype := w.1, vc := v, creditVc := c, credits := min 255 (x.owed.getD c 0), nak := false
          flitSeq := x.txSeq, ack := x.rxSeq, hdr := r.hdr, mask := BitVec.ofNat 16 w.2.1, payload := w.2.2 }
      f.bytes

/-- One flit leaves a lane against a credit, while fewer than 512 stand unacknowledged (R306). -/
def Lane.sendOne (x : Lane) : Option (Lane × List Byte) :=
  if 512 ≤ x.replay.length then none
  else match nextVc x with
    | none => none
    | some v =>
      some ({ x with queued := x.queued.modify v.1 (fun l => l.drop 1)
                     credits := x.credits.modify v.1 (fun n => n - 1)
                     owed := x.owed.modify x.creditNext (fun n => n - 255)
                     replay := x.replay ++ [(x.txSeq, v.2)], txSeq := x.txSeq + 1 },
        x.nextFlit v.1 v.2)

/-- Flits leave until a credit or the replay buffer stops them. -/
def Lane.drain (x : Lane) (fuel : Nat) : Lane × List (List Byte) :=
  match fuel with
  | 0 => (x, [])
  | n + 1 =>
    match x.sendOne with
    | none => (x, [])
    | some y => let r := y.1.drain n; (r.1, y.2 :: r.2)

/-- A flit of record `i` is acknowledged. -/
def Lane.flitAcked (x : Lane) (i : Nat) : Lane :=
  let l := x.recs.map (fun (r : SentRec) => if r.id = i then { r with left := r.left - 1 } else r)
  { x with recs := l.filter (fun r => decide (0 < r.left)) }

/-- An acknowledgement up to and including `a` empties the replay buffer that far (R306). -/
def Lane.ackUpTo (x : Lane) (a : BitVec 12) : Lane :=
  match x.replay.findIdx? (fun r => r.1 == a) with
  | none => x
  | some k =>
    let y : Lane := { x with replay := x.replay.drop (k + 1), resends := 0 }
    (x.replay.take (k + 1)).foldl (fun (y : Lane) r => y.flitAcked r.2) y

def linkCounter (lane : Nat) : Nat := 0x7931 + lane / 16

/-- The lane sends what it may; FLITS_SENT counts the flits that carry records or data. -/
def State.drainLane (s : State) (n : Nat) : State :=
  let r := (s.lane n).drain 512
  r.2.foldl (fun (s : State) b => s.emit (.flit n b)) ((s.setLane n r.1).count (linkCounter n) 0 r.2.length)

/-! ### Packets (R331, R332) -/

def State.eth (s : State) (p : Nat) : EthPeer :=
  Tab.read s.peruo.eth { EthPeer.init with window := s.obj 0x5500 7 256 } p

def State.setEth (s : State) (p : Nat) (x : EthPeer) : State :=
  { s with peruo := { s.peruo with eth := Tab.write s.peruo.eth p x } }

/-- Packets sent and not acknowledged. -/
def EthPeer.unacked (x : EthPeer) : Nat := (x.txPsn - (x.acked + 1)).toNat

/-- Packets leave while fewer than the window stand unacknowledged (R332): the state after it, and the PSN and
the flits of each. -/
def EthPeer.drain (x : EthPeer) : EthPeer × List (BitVec 32 × List Byte) :=
  let n := min x.queued.length (x.window - x.unacked)
  let go := x.queued.take n
  ({ x with queued := x.queued.drop n, flown := x.flown ++ go, txPsn := x.txPsn + BitVec.ofNat 32 n },
    (List.range n).zip go |>.map (fun e => (x.txPsn + BitVec.ofNat 32 e.1, e.2)))

/-- Frames to peer `p` leave, one for each of the packets. -/
def State.sendPackets (s : State) (p : Nat) (l : List (BitVec 32 × List Byte)) : State :=
  l.foldl (fun (s : State) k => s.emit (.frame (s.frameTo p
    (encapHeader false false false (k.2.length / 512) k.1 (s.eth p).rxPsn ++ k.2)))) s

/-- The packets of peer `p` that may leave do. -/
def State.drainEth (s : State) (p : Nat) (x : EthPeer) : State :=
  (s.setEth p x.drain.1).sendPackets p x.drain.2

/-- The flits of a record as Ethernet mode carries them: SEQ, ACK and credits read 0 (R331). -/
def ethFlits (h : XHdr) (r : OutRec) : List (List Byte) :=
  r.wire.map (fun w =>
    let f : Flit :=
      { ftype := w.1, vc := if w.1 = .control then r.channels.1 else r.channels.2, creditVc := 0, credits := 0
        nak := false, flitSeq := 0, ack := 0, hdr := h, mask := BitVec.ofNat 16 w.2.1, payload := w.2.2 }
    f.bytes)

/-- Flits in packets of at most `k`. -/
def packFlits (l : List (List Byte)) (k : Nat) : List (List Byte) :=
  (List.range (ceilDiv l.length (max 1 k))).map (fun i => ((l.drop (max 1 k * i)).take (max 1 k)).flatten)

/-- Hands a record to a lane, or to the packets of its peer in Ethernet mode (R331). -/
def State.pushRec (s : State) (lane : Nat) (h : XHdr) (r : OutRec) : State :=
  let x := s.lane lane
  let s := s.emit (.record h r)
  if x.st = .ethernet then
    let e := s.eth h.dst
    let k := packFlits (ethFlits h r) (s.obj 0x5500 5 16)
    (s.drainEth h.dst { e with queued := e.queued ++ k }).count (linkCounter lane) 0 r.flits
  else
    let c := r.channels
    let put := fun (q : List (List Nat)) v n => q.modify v (fun l => l ++ List.replicate n x.nextId)
    (s.setLane lane { x with
      queued := put (put x.queued c.1 r.heads) c.2 (dataFlits r.dataBytes)
      recs := x.recs ++ [{ id := x.nextId, hdr := h, out := r, left := r.flits }]
      nextId := x.nextId + 1 }).drainLane lane

/-- Sends a record of step `t` to `p` at once, on the lane that its tag selects (R312); RELAYED counts a
domain transaction that goes over the pod lanes (R311). -/
def State.sendNow (s : State) (p : Nat) (pod : Bool) (xtag : BitVec 12) (t : Nat) (r : OutRec) : State :=
  let pa := s.path p pod
  match pa.1[xtag.toNat % max 1 pa.1.length]? with
  | none => s
  | some l =>
    let s := if pa.2 then s.count 0x7939 5 1 else s
    s.pushRec l (s.header p xtag t) r

/-! ### HELLO (R316) -/

def State.helloRec (s : State) : HelloRec :=
  let t := s.draft.deviceStep
  let v := s.viewAt t
  let c := s.pairAt t
  { pod := s.ownPod, view := BitVec.ofNat 32 (viewNumber v), viewDigest := viewDigest v
    epoch := c.1, digest := c.2 }

/-- Sends HELLO to `p` and awaits the answer. -/
def State.sendHello (s : State) (p : Nat) : State :=
  let s := { s with peruo := { s.peruo with helloOut := p :: s.peruo.helloOut } }
  s.sendNow p false 0 s.draft.deviceStep (.hello s.helloRec)

/-- Sends a record that a HELLO exchange with its peer must precede: until then it is held. -/
def State.sendRec (s : State) (p : Nat) (pod : Bool) (xtag : BitVec 12) (t : Nat) (r : OutRec) : State :=
  if s.peruo.greeted.contains p then s.sendNow p pod xtag t r
  else
    let x : HeldRec := { peer := p, pod := pod, xtag := xtag, step := t, out := r }
    let s := { s with peruo := { s.peruo with heldRecs := s.peruo.heldRecs ++ [x] } }
    if s.peruo.helloOut.contains p then s else s.sendHello p

/-- The exchange with `p` is complete: what was held for it leaves, in order. -/
def State.releaseRecs (s : State) (p : Nat) : State :=
  let l := s.peruo.heldRecs.filter (fun x => x.peer == p)
  let s := { s with peruo := { s.peruo with
    greeted := insertNat s.peruo.greeted p
    heldRecs := s.peruo.heldRecs.filter (fun x => x.peer != p) } }
  l.foldl (fun (s : State) x => s.sendNow x.peer x.pod x.xtag x.step x.out) s

/-! ### Transactions (R312) -/

/-- Transactions outstanding to `p`. -/
def State.outstanding (s : State) (p : Nat) : List Xact :=
  s.peruo.xacts.filter (fun x => x.peer == p)

/-- The first tag from `t` on that no outstanding transaction to the peer carries. -/
def freeTag (l : List Xact) (t : BitVec 12) (fuel : Nat) : BitVec 12 :=
  match fuel with
  | 0 => t
  | n + 1 => if l.any (fun x => x.xtag == t) then freeTag l (t + 1) n else t

/-- The peer's transaction tags leave room for one more (R312). -/
def State.tagRoom (s : State) (p : Nat) : Bool := decide ((s.outstanding p).length < 4096)

/-- Sends a transaction of step `t` of descriptor (q, seq) and keeps it outstanding (R312). -/
def State.sendXact (s : State) (p : Nat) (pod : Bool) (q seq : BitVec 16) (kind off len t : Nat)
    (r : OutRec) : State :=
  let tag := freeTag (s.outstanding p) (Tab.read s.peruo.nextXtag 0 p) 4096
  let x : Xact :=
    { peer := p, xtag := tag, queue := q, seq := seq, kind := kind, offset := off, length := len }
  ({ s with peruo := { s.peruo with
      xacts := s.peruo.xacts ++ [x]
      nextXtag := Tab.write s.peruo.nextXtag p (tag + 1) } }).sendRec p pod tag t r

end Sys2Proof.Machine
end

