-- ==== Sys2Proof/Machine/Alerts.lean ====
section
/-!
DEFINITION. ALERT_N and its sources (R442).
-/

namespace Sys2Proof.Machine

open Sys2Proof

/-- The sources of Table MOD-9, by bit. -/
def alHalted : Nat := 0
def alStage : Nat := 1
def alHoldup : Nat := 2
def alRoot : Nat := 3
def alTemple : Nat := 4
def alCoolant : Nat := 5
def alAir : Nat := 6

/-- A management die is in service: ACTIVE or STANDBY. -/
def State.hasMgmt (s : State) : Bool :=
  s.dieState (dieMgmt 0) != 2 || s.dieState (dieMgmt 1) != 2

/-- ALERT_N is to be low (R442, R424): an unmasked source, or no management die. It is released
while the module is off. -/
def State.alertLow (s : State) : Bool :=
  let mask := s.obj 0x7050 2 0
  s.power.mode != .off && s.power.mode != .thermalOff && (!s.hasMgmt ||
    (List.range 7).any (fun i => s.module.alerts.getLsbD i && (i == 0 || !bitOf mask i)))

/-- Drives ALERT_N; ALERT_ASSERTIONS counts each fall (Table MOD-13). -/
def State.driveAlert (s : State) : State :=
  let low := s.alertLow
  let s := if low && s.module.alertN then s.count 0x7991 6 1 else s
  { s with module := { s.module with alertN := !low } }

/-- Sets or clears source `i`. -/
def State.setAlert (s : State) (i : Nat) (on : Bool) : State :=
  let a := s.module.alerts
  let m := BitVec.ofNat 8 (2 ^ i)
  ({ s with module := { s.module with
      alerts := if on then a ||| m else a &&& ~~~m } }).driveAlert

end Sys2Proof.Machine
end

