-- ==== Sys2Proof/Machine/Temple.lean ====
section
/-!
DEFINITION. The temple (08): contexts, attachment, tally, seal and decision.
-/

namespace Sys2Proof.Machine

open Sys2Proof

/-! ### Objects of Table NUM-5, at the step of queue `q` (R358) -/

def State.scaleMin (s : State) (n : Nat) : Int := signedOf 8 (s.bindObj n 0x3802 2 224)
def State.scaleMax (s : State) (n : Nat) : Int := signedOf 8 (s.bindObj n 0x3802 3 40)
def State.skipWindow (s : State) : Nat := s.obj 0x3804 1 1000

/-! ### The history record (R187) -/

/-- Bytes of a history record of `n` layers. -/
def histBytes (n : Nat) : Nat := 576 + 4 * n

/-- SKIP_MAP as bytes. -/
def skipBytes (m : List Nat) : List Byte :=
  (List.range 512).map (fun i => BitVec.ofNat 8 (maskOf ((List.range 8).filter (fun k =>
    m.contains (8 * i + k)))))

/-- The record of context `c` (Table NUM-2). -/
def historyRecord (c : Ctx) : List Byte :=
  let head := toLe 8 c.step ++ toLe 4 c.formats.length ++ toLe 1 (unsignedOf 8 c.ls)
    ++ toLe 1 (if c.grace then 1 else 0) ++ [1] ++ toLe 1 c.graceLeft ++ toLe 4 c.clean
    ++ toLe 2 c.inWindow ++ toLe 2 c.consec ++ toLe 8 c.decided ++ toLe 8 c.skips
    ++ List.replicate 20 0
  let tail := skipBytes c.skipMap
    ++ ((c.formats.zip c.runs).map (fun fr => toLe 1 fr.1 ++ [0] ++ toLe 2 fr.2)).flatten
  head ++ toLe 4 (crc32c (head ++ tail)).toNat ++ tail

/-- RECORD_CRC of a history record. -/
def historyStamp (b : List Byte) : Nat := leNat (slice b 60 4)

/-- Why the record at `a` does not warm-start a context of `n` layers at step `t` (R188); 0 when it
does. The CRC runs over the length that the record's own LAYERS gives; a count that no context can
have, or one with which the record leaves the lease of queue `q`, is reason 4, and nothing past the lease is
read (log 35). -/
def State.histReason (s : State) (q : BitVec 16) (a n t : Nat) : Nat :=
  let own := s.natAt (a + 8) 4
  let len := histBytes own
  if a = 0 then 1
  else if s.anyPoison a (histBytes n) then 7
  else if own = 0 ∨ 65536 < own ∨ !s.within q a len then 4
  else if s.anyPoison a len then 7
  else
    let b := s.bytesAt a len
    if (crc32c (slice b 0 60 ++ b.drop 64)).toNat ≠ historyStamp b then 2
    else if b.getD 14 0 ≠ 1 then 3
    else if own ≠ n then 4
    else if leNat (slice b 0 8) ≠ t then 5
    else if (List.range n).any (fun l => decide (2 < (b.getD (576 + 4 * l) 0).toNat)) then 6
    else 0

/-- A context warm-started from the record at `a`. -/
def State.warmCtx (s : State) (c : Ctx) (a n : Nat) : Ctx :=
  let b := s.bytesAt a (histBytes n)
  let f := fun i k => leNat (slice b i k)
  { c with
    ls := signedOf 8 (f 12 1), grace := f 13 1 % 2 == 1, graceLeft := f 15 1, clean := f 16 4,
    inWindow := f 20 2, consec := f 22 2, decided := f 24 8, skips := f 32 8,
    skipMap := (List.range 4096).filter (fun k => bitOf (f (64 + k / 8) 1) (k % 8)),
    formats := (List.range n).map (fun l => f (576 + 4 * l) 1),
    runs := (List.range n).map (fun l => f (578 + 4 * l) 2) }

/-- A context that cold-starts (R188). -/
def State.coldCtx (s : State) (c : Ctx) (n t : Nat) : Ctx :=
  { c with
    ls := signedOf 8 (s.bindObj t 0x3802 1 16), grace := true, graceLeft := 16, clean := 0,
    inWindow := 0, consec := 0, decided := 0, skips := 0, skipMap := [],
    formats := List.replicate n (s.bindObj t 0x3803 1 1), runs := List.replicate n 0 }

/-! ### Open, attach, close -/

/-- A TRAIN context opens at step `t` (R188): the state and the detail of its DONE. -/
def State.openTrain (s : State) (q : BitVec 16) (k n t tally hist : Nat) : State × Nat :=
  let why := s.histReason q hist n t
  let s := if hist = 0 then s else s.noteRead hist (histBytes n)
  let base : Ctx := { Ctx.init with
    state := .opened, step := t, tallyBase := tally, alarm := (s.ctx k).alarm }
  if why = 0 then (s.setCtx k (s.warmCtx base hist n), 0)
  else ((s.setCtx k (s.coldCtx base n t)).count 0x78D1 8 1, 1 + 16 * why)

def execTempleOpen (d : Desc) (s : State) : Result :=
  s.onDesc d 0x90 (fun s =>
    let k := fieldOf d.body 16 1
    let mode := fieldOf d.body 17 1
    let n := fieldOf d.body 20 4
    let t := fieldOf d.body 24 8
    let tally := fieldOf d.body 32 6
    let hist := fieldOf d.body 38 6
    let rsvd := fieldOf d.body 18 2 == 0 && fieldZero d.body 44 60
    if !rsvd ∨ 63 < k ∨ 1 < mode ∨ (s.ctx k).state ≠ .closed
        ∨ (mode = 1 ∧ (n ≠ 0 ∨ t ≠ 0 ∨ tally ≠ 0 ∨ hist ≠ 0))
        ∨ (mode = 0 ∧ (65536 < n ∨ hist % 16 ≠ 0)) then s.finish d badField
    else if mode = 1 then
      s.runNow d 0x90 (fun s => (s.setCtx k
        { Ctx.init with state := .opened, perch := true, alarm := (s.ctx k).alarm }, doneOk))
    else if n = 0 then s.finish d doneEmpty
    else if !s.within d.queue tally (256 * n) ∨ (hist ≠ 0 ∧ !s.within d.queue hist (histBytes n)) then
      s.finish d noLease
    else s.runNow d 0x90 (fun s =>
      let r := s.openTrain d.queue k n t tally hist
      (r.1, outcm stDone r.2 0)))

def execTempleAttach (d : Desc) (s : State) : Result :=
  s.onDesc d 0x91 (fun s =>
    let k := fieldOf d.body 16 1
    let ctl := fieldOf d.body 17 1
    let q := fieldOf d.body 18 2
    let now := Tab.find s.attached q
    let clash := if bitOf ctl 7 then now != some k else now.isSome && now != some k
    if 63 < k ∨ bitsOf ctl 6 0 ≠ 0 ∨ !fieldZero d.body 20 60 ∨ (s.ctx k).state = .closed ∨ clash then
      s.finish d badField
    else s.runNow d 0x91 (fun s =>
      ({ s with attached := if bitOf ctl 7 then Tab.remove s.attached q
                            else Tab.write s.attached q k }, doneOk)))

/-- Context of a waiting TEMPLE_DECIDE. -/
def OutcomeWait.decides (w : OutcomeWait) (k : Nat) : Bool :=
  w.opcode == 0x94 && fieldOf w.body 16 1 == k

/-- TEMPLE_CLOSE waits until a decision of the context has completed (R176). -/
def execTempleClose (d : Desc) (s : State) : Result :=
  s.onDesc d 0x95 (fun s =>
    let k := fieldOf d.body 16 1
    if 63 < k ∨ !fieldZero d.body 17 60 ∨ (s.ctx k).state = .closed then s.finish d badField
    else if s.outcomeWaits.any (fun w => w.decides k) then s
    else s.runNow d 0x95 (fun s =>
      ({ s.setCtx k { Ctx.init with alarm := (s.ctx k).alarm } with
          attached := s.attached.filter (fun e => e.2 ≠ k) }, doneOk)))

/-! ### Tally (R181) -/

/-- Bits of the magnitudes of the non-NaR, non-zero elements of a skein. -/
def skeinMags (v : View) (ps : List (Nat × Nat)) : List Nat :=
  ps.filterMap (fun p => match v.scale p.1 p.2, v.elem p.1 p.2 with
    | .exp _, .val m => if m = 0 then none else some m.natAbs
    | _, _ => none)

/-- Adds a skein's exponent histogram to 32 bins. -/
def tallySkein (bins : List Nat) (mags : List Nat) : List Nat :=
  let top := Nat.log2 (mags.foldl max 0)
  mags.foldl (fun b m => addAt b (min (top - Nat.log2 m) 31) 1) bins

/-- A skein meets a poisoned line in its scale or its elements. -/
def State.skeinBad (s : State) (r : OpRec) (o : Opf) (v : View) (i j : Nat) : Bool :=
  s.anyPoison (r.scale + i * r.sclStr + 2 * j) 2
    || (skeinPlaces o v.rows v.cols i j).any (fun p => v.poison p.1 p.2)

/-- The bins of an operand, and whether a poisoned line cut it short (log 36). -/
def State.tallyBins (s : State) (r : OpRec) (o : Opf) (bins : List Nat) : List Nat × Bool :=
  let v := s.recView r o
  let g := o.grid r.rows r.cols
  let places := ((List.range g.1).map (fun i => (List.range g.2).map (fun j => (i, j)))).flatten
  let clean := places.takeWhile (fun p => !s.skeinBad r o v p.1 p.2)
  (clean.foldl (fun b p => tallySkein b (skeinMags v (skeinPlaces o v.rows v.cols p.1 p.2))) bins,
    decide (clean.length < places.length))

/-- The 32 bins of the tally entry of layer `l` in a table. -/
def State.readBins (s : State) (a l : Nat) : List Nat :=
  (List.range 32).map (fun i => s.natAt (a + 256 * l + 8 * i) 8)

/-- TEMPLE_TALLY reads its operand's OPF in byte 17 (log 36). -/
def execTempleTally (d : Desc) (s : State) : Result :=
  s.onDesc d 0x92 (fun s =>
    let k := fieldOf d.body 16 1
    let l := fieldOf d.body 20 4
    let a := fieldOf d.body 32 6
    let c := s.ctx k
    match decodeOpf (fieldOf d.body 17 1) with
    | none => s.finish d badField
    | some o =>
      let r := s.readRec a
      if 63 < k ∨ !fieldZero d.body 18 20 ∨ !fieldZero d.body 38 60 ∨ c.perch ∨ c.state ≠ .opened
          ∨ o.fmt ≠ .acc64 ∨ c.formats.length ≤ l ∨ fieldOf d.body 24 8 ≠ c.step ∨ a % 16 ≠ 0 then
        s.finish d badField
      else if !s.anyPoison a 48 && (!r.rsvd || r.source != 0) then s.finish d badField
      else if s.objWrite c.tallyBase = .refused then s.finish d badField
      else if !s.anyPoison a 48 && (r.rows == 0 || r.cols == 0) then s.finish d doneEmpty
      else if !(s.within d.queue c.tallyBase (256 * c.formats.length) && s.within d.queue a 48
          && (s.anyPoison a 48 || (s.within d.queue r.mant (r.mantExtent o.fmt)
            && s.within d.queue r.scale (r.scaleExtent o)))) then s.finish d noLease
      else if s.anyPoison a 48 then s.finish d (outcm stPoisonSrc 0 0)
      else if s.objWrite c.tallyBase = .held ∨ 2 ≤ s.updLoad (s.queue d.queue).die then s
      else s.runNow d 0x92 (fun s =>
        let t := s.tallyBins r o (s.readBins c.tallyBase l)
        let s := s.noteRead r.mant (r.mantExtent o.fmt)
        let s := s.writeMem (c.tallyBase + 256 * l) ((t.1.map (fun b => toLe 8 b)).flatten)
        (s, if t.2 then outcm stPoisonSrc 0 0 else doneOk)))

/-! ### Seal (R180) -/

/-- A descriptor that runs on a loom, a vector engine, the reed or a shuttle (R178). -/
def watchedOpcode (o : Byte) : Bool :=
  let n := o.toNat
  decide ((0x10 ≤ n ∧ n ≤ 0x12) ∨ n = 0x30 ∨ (0x40 ≤ n ∧ n ≤ 0x48) ∨ n = 0x60
    ∨ (0x70 ≤ n ∧ n ≤ 0x73) ∨ n = 0xB0 ∨ n = 0xB1)

/-- The accepted watched descriptors of context `k` charged to step `t` or below. -/
def State.watchedOpen (s : State) (k t : Nat) : List (BitVec 16 × BitVec 16) :=
  ((s.attached.filter (fun e => e.2 == k)).map (fun e =>
    let q := BitVec.ofNat 16 e.1
    let c := s.queue q
    if t < c.step then []
    else c.fetched.filterMap (fun f =>
      match f.phase with
      | .running _ => if watchedOpcode f.opcode then some (q, f.seq) else none
      | _ => none))).flatten

/-- The seal of (q, seq) takes effect once nothing that it waits for still runs. -/
def State.trySeal (s : State) (w : SealWait) (body : BitVec 352) : State :=
  if w.waitFor.any (fun x => s.runningAt x.1 x.2) then s
  else
    let s := { s with seals := s.seals.filter (fun y => !(y.queue == w.queue && y.seq == w.seq)) }
    let k := fieldOf body 16 1
    let c := s.ctx k
    if c.state ≠ .opened ∨ c.step ≠ fieldOf body 24 8 then s.complete w.queue w.seq badField
    else (s.setCtx k { c with state := .sealed }).complete w.queue w.seq
      (outcm stDone (if c.flag then 1 else 0) 0)

/-- The seal is accepted, and looked at again each time it is offered. -/
def execTempleSeal (d : Desc) (s : State) : Result :=
  match s.seals.find? (fun w => w.queue == d.queue && w.seq == d.seq) with
  | some w => .next (if s.ready then s.trySeal w d.body else s)
  | none =>
    s.onDesc d 0x93 (fun s =>
      let k := fieldOf d.body 16 1
      let c := s.ctx k
      if 63 < k ∨ !fieldZero d.body 17 24 ∨ !fieldZero d.body 32 60 ∨ c.perch ∨ c.state ≠ .opened
          ∨ fieldOf d.body 24 8 ≠ c.step then s.finish d badField
      else
        let w : SealWait :=
          { queue := d.queue, seq := d.seq, waitFor := s.watchedOpen k c.step }
        let s := s.handOver d .dispatch
        ({ s with seals := s.seals ++ [w] }).trySeal w d.body)

/-! ### Decision (R183 to R190) -/

/-- R184: the new scale and clean run, and what it counted: lowered, raised, at a limit. -/
structure ScaleStep where
  ls      : Int
  clean   : Nat
  lowered : Bool
  raised  : Bool
  limited : Bool
  deriving DecidableEq, Repr

def scaleStep (ls lo hi : Int) (clean raiseAfter : Nat) (wide : Bool) : ScaleStep :=
  if wide then
    if lo < ls then { ls := ls - 1, clean := 0, lowered := true, raised := false, limited := false }
    else { ls := ls, clean := 0, lowered := false, raised := false, limited := true }
  else if raiseAfter ≤ clean + 1 then
    if ls < hi then { ls := ls + 1, clean := 0, lowered := false, raised := true, limited := false }
    else { ls := ls, clean := 0, lowered := false, raised := false, limited := true }
  else { ls := ls, clean := clean + 1, lowered := false, raised := false, limited := false }

/-- R185 steps 1 and 2: the candidate format and whether no format met the limit. Codes: 0 SK16,
1 SK8, 2 SK4. -/
def candidateFormat (bins : List Nat) (limit narrowest : Nat) : Nat × Bool :=
  let n := bins.sum
  let fits := fun (w : Nat) => decide ((bins.drop w).sum * 2 ^ 20 ≤ limit * n)
  if 2 ≤ narrowest ∧ fits 4 then (2, false)
  else if 1 ≤ narrowest ∧ fits 8 then (1, false)
  else if fits 16 then (0, false)
  else (0, true)

/-- R185 for one layer of format `f` and run `r`: the new format and run, and WIDEST_LOSSY. -/
def layerStep (bins : List Nat) (f r limit narrowest after : Nat) : Nat × Nat × Bool :=
  if bins.sum = 0 then (f, r, false)
  else
    let c := candidateFormat bins limit narrowest
    if c.1 < f then (c.1, 0, c.2)
    else if c.1 = f then (f, 0, c.2)
    else if after ≤ r + 1 then (f + 1, 0, c.2)
    else (f, r + 1, c.2)

/-- SKIPS_IN_WINDOW: entries of SKIP_MAP among the last `w` steps up to `t`. -/
def windowSkips (m : List Nat) (t w : Nat) : Nat :=
  (m.filter (fun k => decide ((t + 4096 - k) % 4096 < w))).length

/-- R190 outside grace, and R189 in it, for a decision of step `t` whose flag is `wide`. -/
def enterSkip (c : Ctx) (t w : Nat) (wide : Bool) : Ctx :=
  if 0 < c.graceLeft then
    { c with graceLeft := c.graceLeft - 1, grace := decide (1 < c.graceLeft) && c.grace }
  else
    let k := t % 4096
    let m := if wide then insertNat c.skipMap k else c.skipMap.filter (fun x => x ≠ k)
    { c with skipMap := m, inWindow := windowSkips m t w
             consec := if wide then min 65535 (c.consec + 1) else 0 }

/-- Layers of two format lists that differ, as widened or narrowed. -/
def formatMoves (a b : List Nat) : Nat × Nat :=
  let z := a.zip b
  ((z.filter (fun x => decide (x.2 < x.1))).length, (z.filter (fun x => decide (x.1 < x.2))).length)

/-- TEMPLE_ALARMS (0x3812.00). -/
def State.templeAlarms (s : State) : Nat :=
  maskOf ((List.range 64).filter (fun k => (s.ctx k).alarm))

/-- Latches the alarm of context `k` (R190). -/
def State.latchAlarm (s : State) (k : Nat) : State :=
  let c := s.ctx k
  let s := (s.setCtx k { c with alarm := true }).count 0x78D1 0xE 1
  (s.event 0x3812 0 srcDevice s.templeAlarms 0).setAlert alTemple true

/-- The decision of step s on context `k` with overflow flag `wide` (R183 to R190), once nothing stands
against it: the state and its outcome. -/
def State.decideStep (s : State) (k : Nat) (wide : Bool) (tally out : Nat) : State × Outcm :=
  let c := s.ctx k
  let t := c.step
  let n := c.formats.length
  let sc := scaleStep c.ls (s.scaleMin t) (s.scaleMax t) c.clean (s.bindObj t 0x3802 4 2000) wide
  let limit := s.bindObj t 0x3803 3 1024
  let narrowest := s.bindObj t 0x3803 2 2
  let after := s.bindObj t 0x3803 4 64
  let layers := (List.range n).map (fun l =>
    let f := c.formats.getD l 0
    let r := c.runs.getD l 0
    if wide then (f, r, false) else layerStep (s.readBins tally l) f r limit narrowest after)
  let formats := layers.map (fun x => x.1)
  let moves := formatMoves c.formats formats
  let c' := enterSkip { c with
    ls := sc.ls, clean := sc.clean, decided := c.decided + 1,
    skips := c.skips + (if wide then 1 else 0), formats := formats,
    runs := layers.map (fun x => x.2.1), state := .opened, step := t + 1,
    flag := c.flagNext, flagNext := false } t s.skipWindow wide
  let latch := !c.alarm && decide (0 = c.graceLeft)
    && (decide (s.obj 0x3804 2 50 < c'.inWindow) || decide (s.obj 0x3804 3 16 < c'.consec))
  let s := if wide then s else s.noteRead tally (256 * n)
  let s := s.setCtx k c'
  let b := historyRecord c'
  let s := (s.writeMem out b).writeMem c.tallyBase (List.replicate (256 * n) 0)
  let s := if wide then s.count 0x78D1 4 1 else s
  let s := (s.count 0x78D1 5 (if sc.lowered then 1 else 0)).count 0x78D1 6 (if sc.raised then 1 else 0)
  let s := s.count 0x78D1 7 (if sc.limited then 1 else 0)
  let s := (s.count 0x78D1 9 moves.1).count 0x78D1 0xA moves.2
  let s := s.count 0x78D1 0xB (layers.filter (fun x => x.2.2)).length
  let s := if latch then s.latchAlarm k else s
  let detail := unsignedOf 8 sc.ls + (if wide then 2 ^ 8 else 0) + (if sc.raised then 2 ^ 9 else 0)
    + (if sc.lowered then 2 ^ 10 else 0) + (if latch then 2 ^ 11 else 0)
    + min 0xFFFF (moves.1 + moves.2) * 2 ^ 16
  (s, outcm stDone detail (historyStamp b))

/-- A decision whose outcome is held settles: its step must still be the sealed one, a clean step
needs a table (R185), and a poisoned table changes nothing (R193). -/
def State.settleDecide (s : State) (body : BitVec 352) (o : Outcome) : State × Outcm :=
  let k := fieldOf body 16 1
  let c := s.ctx k
  let tally := fieldOf body 32 6
  if c.state ≠ .sealed ∨ c.step ≠ fieldOf body 24 8 ∨ s.objWrite (fieldOf body 38 6) = .refused
      ∨ s.objWrite c.tallyBase = .refused then (s, badField)
  else if !o.flag ∧ tally = 0 then (s, badField)
  else if !o.flag ∧ s.anyPoison tally (256 * c.formats.length) then
    (s.noteRead tally (256 * c.formats.length), outcm stPoisonSrc 0 0)
  else s.decideStep k o.flag tally (fieldOf body 38 6)

/-- What a decision writes lies in an object that moves, which holds it (R240). -/
def State.decideHeld (s : State) (body : BitVec 352) : Bool :=
  s.objWrite (fieldOf body 38 6) == .held || s.objWrite (s.ctx (fieldOf body 16 1)).tallyBase == .held

def execTempleDecide (d : Desc) (s : State) : Result :=
  s.onDesc d 0x94 (fun s =>
    let k := fieldOf d.body 16 1
    let c := s.ctx k
    let t := fieldOf d.body 24 8
    let tally := fieldOf d.body 32 6
    let out := fieldOf d.body 38 6
    let n := c.formats.length
    if 63 < k ∨ !fieldZero d.body 17 24 ∨ !fieldZero d.body 44 60 ∨ c.perch ∨ c.state ≠ .sealed
        ∨ t ≠ c.step ∨ out % 16 ≠ 0 then s.finish d badField
    else if (tally ≠ 0 ∧ !s.within d.queue tally (256 * n)) ∨ !s.within d.queue out (histBytes n)
        ∨ !s.within d.queue c.tallyBase (256 * n) then s.finish d noLease
    else match s.outcomeOf t with
      | some o => if s.decideHeld d.body then s else s.runNow d 0x94 (fun s => s.settleDecide d.body o)
      | none =>
        if s.outcomeGone t then s.finish d badField
        else
          let s := s.handOver d .dispatch
          { s with outcomeWaits := s.outcomeWaits ++
            [{ queue := d.queue, seq := d.seq, opcode := 0x94, body := d.body, conf := s.conf }] })

/-- A decision that waited goes on (R183). -/
def State.decideResume (s : State) (w : OutcomeWait) : State :=
  let t := fieldOf w.body 24 8
  let s' := { s with outcomeWaits := s.outcomeWaits.filter (fun y =>
    !(y.queue == w.queue && y.seq == w.seq)) }
  match s.outcomeOf t with
  | some o =>
    if s.decideHeld w.body then s
    else
    let r := s'.underConf w.conf (fun s => s.settleDecide w.body o)
    r.1.complete w.queue w.seq r.2
  | none => if s.outcomeGone t then s'.complete w.queue w.seq badField else s

/-- The barrier outcome that (q, seq) waits for is held: an update or a decision goes on. -/
def execBarrierOutcomeHeld (q seq : BitVec 16) (s : State) : Result :=
  if !s.ready then .next s
  else match s.outcomeWaits.find? (fun w => w.queue == q && w.seq == seq) with
    | none => .next s
    | some w => .next (if w.opcode = 0x94 then s.decideResume w else s.updResume w none)

/-! ### Draft commands (Table NUM-5) -/

def execTempleCountersClear (_value : Byte) (s : State) : Result :=
  s.onCmd (fun s => (s.clearCounters (objKey 0x78D1 0) (objKey 0x78D1 0xF), .ok))

/-- Clears the alarm of the context written; the source clears with the last one (R190, R442). -/
def State.clearAlarm (s : State) (k : Nat) : State :=
  let c := s.ctx k
  let s := if c.alarm then s.setCtx k { c with alarm := false } else s
  s.setAlert alTemple (s.templeAlarms != 0)

/-- A context number above 63 names none: REFUSED (log 37). -/
def State.templeAlarmClear (s : State) (v : Nat) : State × DapResult :=
  if 63 < v then (s, .refused) else (s.clearAlarm v, .ok)

def execTempleAlarmClear (value : Byte) (s : State) : Result :=
  s.onCmd (fun s => s.templeAlarmClear value.toNat)

end Sys2Proof.Machine
end

