-- ==== Sys2Proof/Machine/Collectives.lean ====
section
/-!
DEFINITION. Collective groups and collectives (R321 to R329): the exchange of COLL, EXP and BARRIER records,
the scale-first reduction, gathers and barriers.
-/

namespace Sys2Proof.Machine

open Sys2Proof

/-! ### Groups (R321) -/

/-- GROUP of the device alone. -/
def groupAlone : Nat := 0xFFFF

/-- The group that a descriptor names. -/
def State.group (s : State) (g : Nat) : Option PGroup :=
  if g = groupAlone then some { podScope := false, members := [s.ownPod], rank := 0, nextSeq := 0 }
  else Tab.find s.peruo.groups g

/-- The other members. -/
def State.others (s : State) (g : PGroup) : List Nat := g.members.filter (fun p => p != s.ownPod)

/-- H = ceil(log2 n) (R323). -/
def headroom (n : Nat) : Nat := if n ≤ 1 then 0 else Nat.log2 (n - 1) + 1

/-- GROUP, COLL_SEQ of the three collective bodies (Table PRU-10). -/
def collGroup (b : BitVec 352) : Nat := fieldOf b 16 2
def collSeqOf (b : BitVec 352) : BitVec 32 := BitVec.ofNat 32 (fieldOf b 48 4)

/-! ### Messages -/

def CollMsg.is (m : CollMsg) (g p : Nat) (c : BitVec 32) : Bool :=
  m.group == g && m.pod == p && m.collSeq == c

def State.collMsg (s : State) (g p : Nat) (c : BitVec 32) : CollMsg :=
  (s.peruo.collMsgs.find? (fun m => m.is g p c)).getD
    { group := g, pod := p, collSeq := c, coll := none, exp := none, barrier := none }

def State.putMsg (s : State) (m : CollMsg) : State :=
  { s with peruo := { s.peruo with
      collMsgs := s.peruo.collMsgs.filter (fun x => !x.is m.group m.pod m.collSeq) ++ [m] } }

def State.dropMsgs (s : State) (g : Nat) (c : BitVec 32) : State :=
  { s with peruo := { s.peruo with
      collMsgs := s.peruo.collMsgs.filter (fun x => !(x.group == g && x.collSeq == c)) } }

/-- A collective that a record may still belong to: one that waits, or one not issued yet. -/
def State.collAwaited (s : State) (g : Nat) (c : BitVec 32) : Bool :=
  s.peruo.collWaits.any (fun w => collGroup w.body == g && collSeqOf w.body == c) ||
    (match Tab.find s.peruo.groups g with
     | some x => !(c - x.nextSeq).msb
     | none => true)

/-! ### PRU_REDUCE (R323 to R326) -/

structure RedF where
  kind  : Nat
  opfIn : Nat
  opfOut : Nat
  rqc   : Nat
  fe    : Nat
  rows  : Nat
  cols  : Nat
  src   : Nat
  dst   : Nat
  rankA : Nat
  rankB : Nat
  tensor : Nat
  rsvd  : Bool
  deriving DecidableEq, Repr

def redF (b : BitVec 352) : RedF :=
  { kind := fieldOf b 18 1, opfIn := fieldOf b 19 1, opfOut := fieldOf b 20 1, rqc := fieldOf b 21 1,
    fe := fieldOf b 22 1, rows := fieldOf b 24 4, cols := fieldOf b 28 4, src := fieldOf b 32 6,
    dst := fieldOf b 38 6, rankA := fieldOf b 44 2, rankB := fieldOf b 46 2, tensor := fieldOf b 52 4,
    rsvd := fieldOf b 23 1 == 0 && fieldZero b 56 60 }

/-- First row and rows of the block of rank `r` (R324, SCATTER). -/
def blockOf (rows n r : Nat) : Nat × Nat :=
  let k := ceilDiv rows n
  let lo := min rows (r * k)
  (lo, min rows (lo + k) - lo)

/-- The rows of the result that rank `r` of `n` writes (R324). -/
def RedF.part (f : RedF) (n r : Nat) : Option (Nat × Nat) :=
  if f.kind = 1 then (let b := blockOf f.rows n r; if b.2 = 0 then none else some b)
  else if f.kind = 2 then (if r = f.rankA ∨ r = f.rankB then some (0, f.rows) else none)
  else some (0, f.rows)

/-- No block boundary splits a skein of the geometry `o`. -/
def RedF.blocksWhole (f : RedF) (n : Nat) (o : Opf) : Bool :=
  let k := ceilDiv f.rows n
  f.kind != 1 || decide (f.rows ≤ k) || k % o.extent.1 == 0

/-- The fields of a PRU_REDUCE in a group of `n` members (R336, Table PRU-10). -/
def RedF.ok (f : RedF) (cfg : NumCfg) (n : Nat) : Bool :=
  f.rsvd && decide (f.kind ≤ 4) &&
    (if f.kind ≤ 2 then
       (match decodeOpf f.opfIn, decodeOpf f.opfOut with
        | some i, some o => i.fmt == .acc64 && (o.fmt != .acc64 || f.rqc == 0) && rqcOk cfg f.rqc f.fe
            && f.blocksWhole n i && f.blocksWhole n o
        | _, _ => false)
     else f.opfIn == 0 && f.opfOut == 0 && f.rows == 1 && (f.kind == 3 || f.cols == 1))
    && (f.kind == 3 || (f.src % 16 == 0 && f.dst % 16 == 0))
    && (f.kind != 2 || (decide (f.rankA < n) && (decide (f.rankB < n) || f.rankB == 0xFFFF)))

/-- An operand record of a reduction that can be read does not have this shape (R6, R40). -/
def State.redShapeBad (s : State) (q : BitVec 16) (a rows cols : Nat) (o : Opf) : Bool :=
  let r := s.readRec a
  s.within q a 48 && !s.anyPoison a 48 && (!r.rsvd || r.source != 0 || r.rows != rows || r.cols != cols
    || !(decide (rows ≤ 1) || decide (o.fmt.rowBytes cols ≤ r.rowStr)))

/-- The record and its planes lie within the lease; a poisoned record names no plane. -/
def State.redLeased (s : State) (q : BitVec 16) (a : Nat) (o : Opf) : Bool :=
  let r := s.readRec a
  s.within q a 48 && (s.anyPoison a 48
    || (s.within q r.mant (r.mantExtent o.fmt) && s.within q r.scale (r.scaleExtent o)))

/-- The records that this member uses in a reduction over ACC64: address, shape and geometry. -/
def RedF.recs (f : RedF) (n rank : Nat) (i o : Opf) : List (Nat × Nat × Nat × Opf) :=
  (f.src, f.rows, f.cols, i) :: (match f.part n rank with
    | some p => [(f.dst, p.2, f.cols, o)]
    | none => [])

/-- What keeps the memory of a reduction from use: the outcome it completes with, the records' fields before the
lease (R11). -/
def State.redMem (s : State) (q : BitVec 16) (f : RedF) (n rank : Nat) : Option Outcm :=
  if f.kind ≤ 2 then
    match decodeOpf f.opfIn, decodeOpf f.opfOut with
    | some i, some o =>
      let l := f.recs n rank i o
      if l.any (fun r => s.redShapeBad q r.1 r.2.1 r.2.2.1 r.2.2.2) then some badField
      else if !l.all (fun r => s.redLeased q r.1 r.2.2.2) then some noLease
      else none
    | _, _ => some badField
  else
    let len := if f.kind = 3 then 8 * f.cols else 64
    if f.kind = 4 ∧ s.within q f.src 64 ∧ !s.anyPoison f.src 64 ∧ !s.statPlain f.src then some badField
    else if !s.within q f.src len ∨ !s.within q f.dst len then some noLease
    else none

/-- A scale as EXP carries it, and an element as DATA carries it. -/
def scaleInt (k : Scale) : Int :=
  match k with
  | .zero => -32768
  | .nan => 32767
  | .exp e => e

def intScale (v : Int) : Scale := if v = -32768 then .zero else if v = 32767 then .nan else .exp v

def elemInt (k : Scale) (m : Elem) : Int :=
  match k, m with
  | .exp _, .val v => v
  | .exp _, .nar => -(2 ^ 63)
  | _, _ => 0

def intElem (v : Int) : Elem := if v = -(2 ^ 63) then .nar else .val v

/-- The grid places of a plane, row-major. -/
def gridPlaces (o : Opf) (rows cols : Nat) : List (Nat × Nat) :=
  let g := o.grid rows cols
  ((List.range g.1).map (fun i => (List.range g.2).map (fun j => (i, j)))).flatten

/-- The places of a matrix, row-major. -/
def allPlaces (rows cols : Nat) : List (Nat × Nat) :=
  ((List.range rows).map (fun i => (List.range cols).map (fun j => (i, j)))).flatten

/-- The member's part of an ACC64 reduction. Poison is given by element, then by skein. -/
def State.accPart (s : State) (f : RedF) (o : Opf) : List Int × List Int × List Nat :=
  let r := s.readRec f.src
  let v := s.recView r o
  let bad := s.anyPoison f.src 48
  let ps := gridPlaces o f.rows f.cols
  let es := allPlaces f.rows f.cols
  let g := (o.grid f.rows f.cols).2
  let scBad := fun (i j : Nat) => bad || s.anyPoison (r.scale + i * r.sclStr + 2 * j) 2
  (ps.map (fun p => scaleInt (s.scaleAt r o p.1 p.2)),
   es.map (fun p => elemInt (v.scale p.1 p.2) (v.elem p.1 p.2)),
   (es.filter (fun p => v.poison p.1 p.2 || scBad (p.1 / o.extent.1) (p.2 / o.extent.2))).map
      (fun p => p.1 * f.cols + p.2)
    ++ (ps.filter (fun p => scBad p.1 p.2)).map (fun p => f.rows * f.cols + p.1 * g + p.2))

/-- The three sums of a statistic record (Table UPD-2). -/
def statOffsets : List Nat := [16, 32, 48]

/-- What this member contributes to a reduction. -/
def State.redPart (s : State) (b : BitVec 352) : ExpRec :=
  let f := redF b
  let none_ : ExpRec :=
    { group := collGroup b, collSeq := collSeqOf b, exponents := [], elements := [], bytes := [],
      poison := [] }
  if f.kind ≤ 2 then
    match decodeOpf f.opfIn with
    | some o =>
      let p := s.accPart f o
      { none_ with exponents := p.1, elements := p.2.1, poison := p.2.2 }
    | none => none_
  else if f.kind = 3 then
    { none_ with
      elements := (List.range f.cols).map (fun j => Int.ofNat (s.natAt (f.src + 8 * j) 8))
      poison := (List.range f.cols).filter (fun j => s.anyPoison (f.src + 8 * j) 8) }
  else
    { none_ with
      exponents := statOffsets.map (fun i => signedOf 16 (s.natAt (f.src + i + 8) 2))
      elements := statOffsets.map (fun i => signedOf 64 (s.natAt (f.src + i) 8))
      bytes := s.bytesAt f.src 64
      poison := if s.anyPoison f.src 64 then [0] else [] }

/-- One reduced element at its agreed exponent (R323): scale and element of each member, and H. -/
def reduceElem (h : Nat) (ts : List (Scale × Elem)) : XV :=
  let ex := fun (t : Scale × Elem) => match t.1 with
    | .exp e => some e
    | _ => none
  if ts.any (fun t => t.1 == .nan || ((ex t).isSome && t.2 == .nar)) then .nar
  else match ts.foldl (fun m t => optMax m (ex t)) none with
    | none => .num 0 0
    | some m =>
      let a := m + h
      .num (ts.foldl (fun (sum : Int) t => match t.1, t.2 with
        | .exp e, .val v => sum + shiftFloor v (e - a)
        | _, _ => sum) 0) a

/-- Element (i, j) of the result of an ACC64 reduction. -/
def reduceAt (f : RedF) (o : Opf) (h : Nat) (es : List ExpRec) (i j : Nat) : XV :=
  let k := i / o.extent.1 * (o.grid f.rows f.cols).2 + j / o.extent.2
  reduceElem h (es.map (fun e =>
    (intScale (e.exponents.getD k (-32768)), intElem (e.elements.getD (i * f.cols + j) 0))))

/-- Stores poison in the lines of a result whose source lines were poisoned (R326). -/
def State.poisonResult (s : State) (ls : List Nat) : State :=
  ls.foldl (fun (s : State) l => s.storePoison l 6 0xFF) s

/-- The lines of the result plane that the poisoned positions fall in, whole elements and scales (R326). -/
def resultLines (f : RedF) (i : Opf) (p : OutPlane) (first : Nat) (bad : List Nat) : List Nat :=
  let g := (i.grid f.rows f.cols).2
  let e := p.opf.extent
  let mants := (bad.filter (fun k => decide (k < f.rows * f.cols))).filterMap (fun k =>
    let r := k / f.cols
    if first ≤ r ∧ r < first + p.rows then
      let a := p.rcd.mant + (r - first) * p.rcd.rowStr
      let lo := elemByte p.opf.fmt (k % f.cols)
      some (linesOf (a + lo) (elemLast p.opf.fmt (k % f.cols) + 1 - lo))
    else none)
  let scales := (bad.filter (fun k => decide (f.rows * f.cols ≤ k))).filterMap (fun k =>
    let n := k - f.rows * f.cols
    let r := n / g * i.extent.1
    let c := n % g * i.extent.2
    if first ≤ r ∧ r < first + p.rows then
      some (linesOf (p.rcd.scale + (r - first) / e.1 * p.rcd.sclStr + c / e.2 * p.opf.fmt.scaleBytes)
        p.opf.fmt.scaleBytes)
    else none)
  (mants ++ scales).flatten.eraseDups

/-- A result skein in ACC64 (R324) of the members' exponents `es` and the reduced elements `vs`: exponent A, or
0x8000 when all of its sums are 0. A 0x7FFF skein of a member makes it a not-a-number skein (R323). -/
def accResult (h : Nat) (es : List Int) (vs : List XV) : OutSkein × FmtCounts :=
  let c := { FmtCounts.zero with nar := (vs.filter XV.isNar).length }
  if es.contains 32767 then ({ scale := 0x7FFF, mants := none }, c)
  else match es.foldl (fun m e => optMax m (if e = -32768 then none else some e)) none with
    | none => ({ scale := 0x8000, mants := none }, c)
    | some m =>
      if vs.all XV.isZero then ({ scale := 0x8000, mants := none }, c)
      else
        ({ scale := unsignedOf 16 (m + h)
           mants := some (vs.map (fun x => match x with
             | .nar => .nar
             | .num v _ => .val v)) }, c)

/-- The result skeins of a reduction whose output keeps the ACC64 geometry of its input (R324). -/
def accResults (f : RedF) (p : OutPlane) (h first : Nat) (es : List ExpRec) (val : Nat → Nat → XV) :
    SkeinOut × FmtCounts :=
  let cols := (p.opf.grid f.rows f.cols).2
  (gridPlaces p.opf p.rows p.cols).foldl (fun acc ij =>
    let k := (first / p.opf.extent.1 + ij.1) * cols + ij.2
    let r := accResult h (es.map (fun e => e.exponents.getD k (-32768)))
      ((skeinPlaces p.opf p.rows p.cols ij.1 ij.2).map (fun rc => val rc.1 rc.2))
    (acc.1 ++ [(ij, r.1)], acc.2.add r.2)) ([], FmtCounts.zero)

/-- Writes an ACC64 reduction and decides its outcome, alike on every member (R324, R326). -/
def State.endAcc (s : State) (f : RedF) (cfg : NumCfg) (n rank : Nat) (es : List ExpRec) : State × Outcm :=
  match decodeOpf f.opfIn, decodeOpf f.opfOut with
  | some i, some o =>
    let h := headroom n
    let val := reduceAt f i h es
    let bad := (es.map ExpRec.poison).flatten
    let s : State := match f.part n rank with
      | some part =>
        let d := s.readRec f.dst
        let p : OutPlane := { rcd := d, opf := o, rows := part.2, cols := f.cols }
        let sk := if o = i then accResults f p h part.1 es (fun r c => val (part.1 + r) c)
          else formSkeins p (roundingOf cfg f.rqc f.fe f.tensor) part.2
            (fun r c => val (part.1 + r) c)
        if s.anyPoison f.dst 48 then s
        else ((s.writeSkeins p sk.1).countFmt sk.2).poisonResult (resultLines f i p part.1 bad)
      | none => s
    let dstBad := (f.part n rank).isSome && s.anyPoison f.dst 48
    (s, if bad ≠ [] ∨ dstBad then outcm stPoisonSrc 0 0
        else if (allPlaces f.rows f.cols).any (fun p => (val p.1 p.2).isNar) then outcm stNarOut 0 0
        else doneOk)
  | _, _ => (s, badField)

/-- A U64 reduction (R325). -/
def State.endU64 (s : State) (f : RedF) (es : List ExpRec) : State × Outcm :=
  let sums := (List.range f.cols).map (fun j => (es.map (fun e => (e.elements.getD j 0).toNat)).sum)
  let bad := (es.map ExpRec.poison).flatten
  if sums.any (fun v => decide (2 ^ 64 ≤ v)) then (s, badField)
  else
    let s := s.writeMem f.dst ((sums.map (fun v => toLe 8 v)).flatten)
    (s.poisonResult ((bad.map (fun j => linesOf (f.dst + 8 * j) 8)).flatten.eraseDups),
      if bad ≠ [] then outcm stPoisonSrc 0 0 else doneOk)

/-- Writes the one element and the exponent of an ACC64 skein in a statistic record. -/
def State.putAcc (s : State) (a : Nat) (k : OutSkein) : State :=
  let s := match k.mants with
    | some ms => s.writeMem a (toLe 8 (Fmt.acc64.encode (ms.getD 0 .nar)))
    | none => s
  s.writeMem (a + 8) (toLe 2 k.scale)

/-- A STAT reduction (R325): each sum is reduced as a skein of one element. -/
def State.endStat (s : State) (f : RedF) (n rank : Nat) (es : List ExpRec) : State × Outcm :=
  let own := ((es.drop rank).headD
    { group := 0, collSeq := 0, exponents := [], elements := [], bytes := [], poison := [] }).bytes
  let step := fun (e : ExpRec) => leNat (slice e.bytes 0 8)
  let bad := (es.map ExpRec.poison).flatten
  if es.any (fun e => step e != leNat (slice own 0 8)) then (s, badField)
  else
    let flags := es.foldl (fun a e => Nat.lor a (e.bytes.getD 12 0).toNat) 0
    let sums := (List.range 3).map (fun k => reduceElem (headroom n) (es.map (fun e =>
      (intScale (e.exponents.getD k (-32768)), intElem (e.elements.getD k 0)))))
    let s := s.writeMem f.dst (slice own 0 12 ++ toLe 1 flags ++ [0, 0, 0] ++ List.replicate 48 0)
    let s := ((List.range 3).zip sums).foldl (fun (s : State) x =>
      s.putAcc (f.dst + 16 + 16 * x.1)
        (accResult (headroom n) (es.map (fun e => e.exponents.getD x.1 (-32768))) [x.2]).1) s
    (s.poisonResult (if bad ≠ [] then linesOf f.dst 64 else []),
      if bad ≠ [] then outcm stPoisonSrc 0 0
      else if sums.any XV.isNar ∨ flags % 2 = 1 then outcm stNarOut 0 0 else doneOk)

/-! ### PRU_GATHER (R327) -/

structure GatF where
  kind : Nat
  root : Nat
  src  : Nat
  dst  : Nat
  len  : Nat
  rsvd : Bool
  deriving DecidableEq, Repr

def gatF (b : BitVec 352) : GatF :=
  { kind := fieldOf b 18 1, root := fieldOf b 20 2, src := fieldOf b 24 6, dst := fieldOf b 32 6,
    len := fieldOf b 40 8, rsvd := fieldOf b 19 1 == 0 && fieldOf b 22 2 == 0 && fieldOf b 30 2 == 0
      && fieldOf b 38 2 == 0 && fieldZero b 52 60 }

def GatF.ok (f : GatF) (n : Nat) : Bool :=
  f.rsvd && decide (f.kind < 2) && (f.kind == 0 || decide (f.root < n))

/-- Ranks whose bytes a gather copies. -/
def GatF.roots (f : GatF) (n : Nat) : List Nat := if f.kind = 0 then List.range n else [f.root]

def State.gatMem (s : State) (q : BitVec 16) (f : GatF) (n rank : Nat) : Option Outcm :=
  if ((f.roots n).contains rank && !s.within q f.src f.len)
      || !s.within q f.dst (f.len * (f.roots n).length) then some noLease
  else none

/-- What this member contributes to a gather: its bytes, and the 64-byte pieces that are poisoned. -/
def State.gatPart (s : State) (b : BitVec 352) (n rank : Nat) : ExpRec :=
  let f := gatF b
  let has := (f.roots n).contains rank
  { group := collGroup b, collSeq := collSeqOf b, exponents := [], elements := [],
    bytes := if has then s.bytesAt f.src f.len else []
    poison := if has then (List.range (ceilDiv f.len 64)).filter (fun k =>
      s.anyPoison (f.src + 64 * k) (min 64 (f.len - 64 * k))) else [] }

def State.endGather (s : State) (f : GatF) (n : Nat) (es : List ExpRec) : State × Outcm :=
  let place := fun (r : Nat) => if f.kind = 0 then f.dst + r * f.len else f.dst
  let nothing : ExpRec :=
    { group := 0, collSeq := 0, exponents := [], elements := [], bytes := [], poison := [] }
  let s := (f.roots n).foldl (fun (s : State) r => s.writeMem (place r) ((es.getD r nothing).bytes)) s
  let bad := ((f.roots n).map (fun r => ((es.getD r nothing).poison.map (fun k =>
    linesOf (place r + 64 * k) (min 64 (f.len - 64 * k)))).flatten)).flatten
  (s.poisonResult bad.eraseDups, if bad ≠ [] then outcm stPoisonSrc 0 0 else doneOk)

/-! ### PRU_BARRIER (R328) -/

structure BarF where
  ctx    : Nat
  step   : Nat
  digest : BitVec 64
  rsvd   : Bool
  deriving DecidableEq, Repr

def barF (b : BitVec 352) : BarF :=
  { ctx := fieldOf b 18 1, step := fieldOf b 24 8, digest := BitVec.ofNat 64 (fieldOf b 32 8),
    rsvd := fieldZero b 19 24 && fieldZero b 40 48 && fieldZero b 52 60 }

/-- The context can still come to SEALED(STEP). -/
def State.ctxMayReach (s : State) (k t : Nat) : Bool :=
  let c := s.ctx k
  c.state != .closed && !c.perch && decide (c.step ≤ t)

/-- A barrier with a context has the outcome of its step already, or another one for it waits. -/
def State.barrierTaken (s : State) (t : Nat) : Bool :=
  (s.outcomeOf t).isSome || s.peruo.collWaits.any (fun w =>
    w.opcode == 0xB6 && (barF w.body).ctx != 0xFF && (barF w.body).step == t)

def State.barOk (s : State) (f : BarF) : Bool :=
  f.rsvd && (f.ctx == 0xFF ||
    (decide (f.ctx < 64) && s.ctxMayReach f.ctx f.step && !s.barrierTaken f.step))

/-- The flag a member's barrier carries, once it may be sent. -/
def State.barFlag (s : State) (f : BarF) : Option Bool :=
  if f.ctx = 0xFF then some false
  else
    let c := s.ctx f.ctx
    if c.state = .sealed ∧ c.step = f.step then some c.flag else none

/-- Ends a barrier: the OR of the flags and the sum of the digests, recorded for its step. -/
def State.endBarrier (s : State) (f : BarF) (bs : List BarrierRec) : State × Outcm :=
  let flag := bs.any BarrierRec.flag
  let sum : BitVec 64 := bs.foldl (fun a b => a + b.digest) 0
  let o : Outcome := { step := f.step, flag := flag, members := bs.length, sum := sum }
  let s : State := if f.ctx = 0xFF then s else
    { s with peruo := { s.peruo with outcomes := Tab.write s.peruo.outcomes (f.step % 256) o } }
  (s, outcm stDone (if flag then 1 else 0) (sum.toNat % 2 ^ 32))

/-! ### Undefined destinations (R326) -/

/-- `n` bytes at `a` take a free value (log 10), unless their object takes no write now. -/
def State.spoil (s : State) (a n : Nat) : State :=
  if s.objWrite a = .free then
    let r := s.draw
    r.2.writeMem a (toLe n r.1)
  else s

/-- The destinations of a collective that ends with PEER_LOST or ABORTED hold undefined contents. -/
def State.spoilColl (s : State) (w : CollWait) : State :=
  match s.group (collGroup w.body) with
  | none => s
  | some g =>
    let n := g.members.length
    if w.opcode = 0xB4 then
      let f := redF w.body
      if f.kind = 3 then s.spoil f.dst (8 * f.cols)
      else if f.kind = 4 then s.spoil f.dst 64
      else match f.part n g.rank, decodeOpf f.opfOut with
        | some p, some o =>
          let r := s.readRec f.dst
          let k := o.grid p.2 f.cols
          let s := (List.range p.2).foldl (fun (s : State) i =>
            s.spoil (r.mant + i * r.rowStr) (o.fmt.rowBytes f.cols)) s
          (List.range k.1).foldl (fun (s : State) i =>
            s.spoil (r.scale + i * r.sclStr) (k.2 * o.fmt.scaleBytes)) s
        | _, _ => s
    else if w.opcode = 0xB5 then
      let f := gatF w.body
      s.spoil f.dst (f.len * (f.roots n).length)
    else s

/-! ### The exchange (R322) -/

/-- COLL of a descriptor (Table PRU-4). A gather's KIND travels as 16 + KIND and its LENGTH as rows and
columns (log 50). -/
def collRecOf (w : CollWait) (n : Nat) : CollRec :=
  let g := collGroup w.body
  let c := collSeqOf w.body
  if w.opcode = 0xB4 then
    let f := redF w.body
    { kind := f.kind, group := g, step := w.cfg.step, collSeq := c, rows := f.rows, cols := f.cols,
      opfIn := BitVec.ofNat 8 f.opfIn, h := headroom n }
  else
    let f := gatF w.body
    { kind := 16 + f.kind, group := g, step := w.cfg.step, collSeq := c, rows := f.len % 2 ^ 32,
      cols := f.len / 2 ^ 32, opfIn := 0, h := headroom n }

/-- A zero extent (R322). -/
def collEmpty (w : CollWait) : Bool :=
  if w.opcode = 0xB4 then (redF w.body).rows == 0 || (redF w.body).cols == 0
  else w.opcode == 0xB5 && (gatF w.body).len == 0

/-- The collective leaves the engine. -/
def State.endColl (s : State) (w : CollWait) (o : Outcm) : State :=
  let s := { s with peruo := { s.peruo with
    collWaits := s.peruo.collWaits.filter (fun x => !(x.queue == w.queue && x.seq == w.seq))
    xacts := s.peruo.xacts.filter (fun x => !(x.queue == w.queue && x.seq == w.seq)) } }
  (s.dropMsgs (collGroup w.body) (collSeqOf w.body)).complete w.queue w.seq o

/-- The collective cannot be carried: a member is gone or disagrees (R321, Table PRU-5). -/
def State.collRefusal (s : State) (g : PGroup) : Option (Byte × Nat) :=
  if s.excluded then some (stPeerLost, s.ownPod)
  else (s.others g).findSome? (fun p => (s.refusal p g.podScope).map (fun st => (st, p)))

/-- A member's record shows another collective than `w` (R322). -/
def State.collDiffers (w : CollWait) (n : Nat) (m : CollMsg) : Bool :=
  if w.opcode = 0xB6 then
    m.coll.isSome || (match m.barrier with
      | some b => b.step != (barF w.body).step
      | none => false)
  else m.barrier.isSome || (match m.coll with
    | some c => c != collRecOf w n
    | none => false)

/-- What memory the collective still needs in place. -/
def State.collMem (s : State) (w : CollWait) (n rank : Nat) : Option Outcm :=
  if w.opcode = 0xB4 then s.redMem w.queue (redF w.body) n rank
  else if w.opcode = 0xB5 then s.gatMem w.queue (gatF w.body) n rank
  else none

/-- A destination is an object that moves, or one that takes no write (R240). -/
def State.collDst (s : State) (w : CollWait) (n rank : Nat) : ObjWrite :=
  if w.opcode = 0xB4 then
    let f := redF w.body
    if 3 ≤ f.kind then s.objWrite f.dst
    else if (f.part n rank).isSome then s.objWrite (s.readRec f.dst).mant else .free
  else if w.opcode = 0xB5 then s.objWrite (gatF w.body).dst
  else .free

/-- The end of a collective whose data are all at hand, in rank order. -/
def State.applyColl (s : State) (w : CollWait) (n rank : Nat) (es : List ExpRec) : State :=
  match s.collMem w n rank with
  | some o => s.endColl w o
  | none =>
    match s.collDst w n rank with
    | .held => s
    | .refused => s.endColl w badField
    | .free =>
      let f := redF w.body
      let r := if w.opcode = 0xB5 then s.endGather (gatF w.body) n es
        else if f.kind = 3 then s.endU64 f es
        else if f.kind = 4 then s.endStat f n rank es
        else s.endAcc f w.cfg n rank es
      r.1.endColl w r.2

/-- Sends a record of collective `w` to every other member. Its tag lets a refusal find the collective
(R313); no response completes it. -/
def State.tellMembers (s : State) (w : CollWait) (g : PGroup) (step : Nat) (r : OutRec) : State :=
  (s.others g).foldl (fun (s : State) p => s.sendXact p g.podScope w.queue w.seq 4 0 0 step r) s

/-- This member's data for a collective. -/
def State.collPart (s : State) (w : CollWait) (n rank : Nat) : ExpRec :=
  if w.opcode = 0xB5 then s.gatPart w.body n rank else s.redPart w.body

/-- Takes a reduction or a gather as far as the records at hand allow. -/
def State.pumpData (s : State) (w : CollWait) (g : PGroup) : State :=
  let gi := collGroup w.body
  let c := collSeqOf w.body
  let n := g.members.length
  if !(s.others g).all (fun p => (s.collMsg gi p c).coll.isSome) then s
  else if collEmpty w then s.endColl w doneEmpty
  else
    let own := s.collMsg gi s.ownPod c
    let s : State := match own.exp with
      | some _ => s
      | none =>
        let e := s.collPart w n g.rank
        (s.putMsg { own with exp := some e }).tellMembers w g w.cfg.step (.exp e)
    let es := g.members.map (fun p => (s.collMsg gi p c).exp)
    let need := if w.opcode = 0xB5 then (gatF w.body).roots n else List.range n
    if need.any (fun r => (es.getD r none).isNone) then s
    else s.applyColl w n g.rank (es.map (fun e => e.getD
      { group := gi, collSeq := c, exponents := [], elements := [], bytes := [], poison := [] }))

/-- Takes a barrier as far as the records at hand allow. -/
def State.pumpBarrier (s : State) (w : CollWait) (g : PGroup) : State :=
  let gi := collGroup w.body
  let c := collSeqOf w.body
  let f := barF w.body
  let own := s.collMsg gi s.ownPod c
  if own.barrier.isNone ∧ f.ctx ≠ 0xFF ∧ !s.ctxMayReach f.ctx f.step then s.endColl w badField
  else
    let s : State := match own.barrier, s.barFlag f with
      | none, some flag =>
        let b : BarrierRec := { group := gi, flag := flag, step := f.step, digest := f.digest, collSeq := c }
        (s.putMsg { own with barrier := some b }).tellMembers w g f.step (.barrier b)
      | _, _ => s
    let bs := g.members.map (fun p => (s.collMsg gi p c).barrier)
    if bs.any Option.isNone then s
    else
      let r := s.endBarrier f (bs.filterMap id)
      r.1.endColl w r.2

/-- Looks again at a collective that waits (R321, R322). -/
def State.pumpColl (s : State) (w : CollWait) : State :=
  let gi := collGroup w.body
  match s.group gi with
  | none => s.endColl w badField
  | some g =>
    if (s.others g).any (fun p => State.collDiffers w g.members.length (s.collMsg gi p (collSeqOf w.body)))
    then (s.endColl w badField).count 0x7939 7 1
    else match (if gi = groupAlone then none else s.collRefusal g) with
      | some x => (if x.1 = stPeerLost then s.spoilColl w else s).endColl w (outcm x.1 x.2 0)
      | none => if w.opcode = 0xB6 then s.pumpBarrier w g else s.pumpData w g

/-- Looks again at every collective that waits. -/
def State.pumpColls (s : State) : State :=
  s.peruo.collWaits.foldl (fun (s : State) w =>
    if s.peruo.collWaits.contains w then s.pumpColl w else s) s

/-- Hands a collective to its engine: it counts, takes its COLL_SEQ and tells the other members. -/
def State.startColl (s : State) (d : Desc) (op : Byte) : State :=
  let gi := collGroup d.body
  match s.group gi with
  | none => s
  | some g =>
    let w : CollWait :=
      { queue := d.queue, seq := d.seq, opcode := op, body := d.body,
        cfg := { s.numCfg d.queue with tabby := false } }
    let s := (s.handOver d .collective).count 0x7939 6 1
    let s : State := if gi = groupAlone then s else
      { s with peruo := { s.peruo with
          groups := Tab.write s.peruo.groups gi { g with nextSeq := g.nextSeq + 1 } } }
    let s : State := { s with peruo := { s.peruo with collWaits := s.peruo.collWaits ++ [w] } }
    let s : State := if op = 0xB6 ∨ (gi ≠ groupAlone ∧ (s.collRefusal g).isSome) then s
      else s.tellMembers w g w.cfg.step (.coll (collRecOf w g.members.length))
    s.pumpColl w

/-- The frame of the three collective descriptors: an accepted one is looked at again each time it is
offered; `ok` are its fields in a group of n members, `mem` its memory by n and rank. -/
def State.onColl (s : State) (d : Desc) (op : Byte) (ok : Nat → Bool) (empty : Bool)
    (mem : Nat → Nat → Option Outcm) : Result :=
  match s.peruo.collWaits.find? (fun w => w.queue == d.queue && w.seq == d.seq) with
  | some w => .next (if s.ready then s.pumpColl w else s)
  | none =>
    s.onDesc d op (fun s =>
      match s.group (collGroup d.body) with
      | none => s.finish d badField
      | some g =>
        let n := g.members.length
        if !ok n ∨ (collGroup d.body ≠ groupAlone ∧ collSeqOf d.body ≠ g.nextSeq) then s.finish d badField
        else match (if empty then none else mem n g.rank) with
          | some o => s.finish d o
          | none => s.startColl d op)

/-! ### Meanings -/

def execPruReduce (d : Desc) (s : State) : Result :=
  let f := redF d.body
  s.onColl d 0xB4 (f.ok { s.numCfg d.queue with tabby := false }) (f.rows == 0 || f.cols == 0)
    (s.redMem d.queue f)

def execPruGather (d : Desc) (s : State) : Result :=
  let f := gatF d.body
  s.onColl d 0xB5 f.ok (f.len == 0) (s.gatMem d.queue f)

def execPruBarrier (d : Desc) (s : State) : Result :=
  s.onColl d 0xB6 (fun _ => s.barOk (barF d.body)) false (fun _ _ => none)

/-- The identifiers of a PRU_GROUP's list. -/
def State.groupList (s : State) (a n : Nat) : List Nat :=
  (List.range n).map (fun i => s.natAt (a + 2 * i) 2)

def distinctNats (l : List Nat) : Bool :=
  match l with
  | [] => true
  | a :: r => !r.contains a && distinctNats r

/-- A deletion waits for the collectives of the group that are under way (log 51). -/
def execPruGroup (d : Desc) (s : State) : Result :=
  s.onDesc d 0xB3 (fun s =>
    let gi := fieldOf d.body 16 2
    let op := fieldOf d.body 18 1
    let pod := fieldOf d.body 19 1
    let n := fieldOf d.body 20 2
    let a := fieldOf d.body 24 6
    let known := (Tab.find s.peruo.groups gi).isSome
    if !fieldZero d.body 22 24 ∨ !fieldZero d.body 30 60 ∨ 1 < op ∨ 1 < pod ∨ 4095 < gi then
      s.finish d badField
    else if op = 1 then
      if !known then s.finish d badField
      else if s.peruo.collWaits.any (fun w => collGroup w.body == gi) then s
      else s.runNow d 0xB3 (fun s =>
        ({ s with peruo := { s.peruo with
            groups := Tab.remove s.peruo.groups gi
            collMsgs := s.peruo.collMsgs.filter (fun m => m.group != gi) } }, doneOk))
    else if known ∨ (pod = 1 ∧ s.podMode = 0) ∨ n = 1 ∨ 12288 < n then s.finish d badField
    else if n = 0 then s.finish d doneEmpty
    else if !s.within d.queue a (2 * n) then s.finish d noLease
    else if s.anyPoison a (2 * n) then (s.noteRead a (2 * n)).finish d (outcm stPoisonSrc 0 0)
    else
      let l := s.groupList a n
      if !distinctNats l ∨ !l.contains s.ownPod ∨ l.any (fun p => decide (12287 < p))
          ∨ (pod = 0 ∧ l.any (fun p => !sameDomain p s.ownPod)) then s.finish d badField
      else s.runNow d 0xB3 (fun s =>
        let g : PGroup :=
          { podScope := pod == 1, members := l, rank := l.findIdx (fun p => p == s.ownPod), nextSeq := 0 }
        let s := s.noteRead a (2 * n)
        ({ s with peruo := { s.peruo with groups := Tab.write s.peruo.groups gi g } }, doneOk)))

end Sys2Proof.Machine
end

