-- ==== Sys2Proof/Machine/Rings.lean ====
section
/-!
DEFINITION. Doorbells, descriptor fetches, confirmed flushes and queue control (R291 to R296).
-/

namespace Sys2Proof.Machine

open Sys2Proof

/-! ### Doorbells (R292) -/

/-- A new SQ_TAIL is acceptable (R292): not equal, within DEPTH of the accepted tail and of
CQ_HEAD. -/
def sqValueOk (c : QCtx) (v : BitVec 16) : Bool :=
  decide (1 ≤ seqAhead c.sqTail v ∧ seqAhead c.sqTail v ≤ c.depth ∧ seqAhead c.cqHead v ≤ c.depth)

/-- One aligned 32-bit write to SQ_DB (R292). -/
def State.sqDoorbell (s : State) (q : BitVec 16) (w : BitVec 32) : State :=
  let s := s.count 0x7921 0 1
  let c := s.queue q
  let v := w.extractLsb' 0 16
  if w.extractLsb' 16 16 ≠ s.host.epoch.extractLsb' 0 16 ∨ c.state ≠ .active then s.count 0x7921 1 1
  else if v = c.sqTail then s
  else if sqValueOk c v then s.setQueue q { c with sqTail := v }
  else s.count 0x7921 2 1

/-- One aligned 32-bit write to CQ_DB (R292); the record window may open for an abort's tail. -/
def State.cqDoorbell (s : State) (q : BitVec 16) (w : BitVec 32) : State :=
  let s := s.count 0x7921 0 1
  let c := s.queue q
  let v := w.extractLsb' 0 16
  if w.extractLsb' 16 16 ≠ s.host.epoch.extractLsb' 0 16 ∨ c.state ≠ .active then s.count 0x7921 1 1
  else if seqAhead c.cqHead v ≤ seqAhead c.cqHead c.cqWritten then
    (s.setQueue q { c with cqHead := v }).pump q
  else s.count 0x7921 2 1

/-! ### Fetch (R293) -/

/-- The bytes a fetch reads and whether they came poisoned: from the ring in device memory, or
what the host returned. A poisoned read returns zeros (R265). -/
def State.fetchBytes (s : State) (c : QCtx) (f : FetchData) : List Byte × Bool :=
  let a := c.sqBase + 64 * (c.nextSeq.toNat % c.depth)
  let poison := if sqInHost c then f.poison || s.linePoisoned (a / 64) else s.anyPoison a 64
  if poison then (List.replicate 64 0, true)
  else if sqInHost c then (toLe 64 f.bytes.toNat, false)
  else (s.bytesAt a 64, false)

/-- The header checks that the dispatch core makes first (R11, R291): an unknown opcode, then a
reserved HFLAGS bit, another queue's number or a reserved byte. -/
def headerOutcome (q : BitVec 16) (b : List Byte) : Option Outcm :=
  if !knownOpcode (leNat (slice b 0 1)) then some (outcm stBadOpcode 0 0)
  else if 2 ≤ leNat (slice b 1 1) ∨ leNat (slice b 4 2) ≠ q.toNat ∨ leNat (slice b 6 2) ≠ 0 then
    some badField
  else none

/-- Queue `q` may fetch NEXT_SEQ now (R293). -/
def State.mayFetch (s : State) (q : BitVec 16) : Bool :=
  let c := s.queue q
  s.ready && (c.state == .active || c.state == .revoked) && c.nextSeq != c.sqTail && windowAdmits c
    && c.abortTail.isNone

/-- The descriptor of the bytes `b` joins the fetched ones in phase `p`, and NEXT_SEQ advances. -/
def State.accept (s : State) (q : BitVec 16) (b : List Byte) (p : Phase) : State :=
  let c := s.queue q
  let f : Fetched :=
    { seq := c.nextSeq, opcode := b.getD 0 0, irq := (b.getD 1 0).getLsbD 0,
      body := BitVec.ofNat 352 (leNat (slice b 16 44)), granted := false, phase := p }
  (s.setQueue q { c with fetched := c.fetched ++ [f], nextSeq := c.nextSeq + 1, fails := 0,
                         retryWait := false }).count 0x7921 3 1

/-- A fetch of NEXT_SEQ returns (R293). -/
def State.fetchReturn (s : State) (q : BitVec 16) (f : FetchData) : State :=
  let c := s.queue q
  let r := s.fetchBytes c f
  let b := r.1
  let s := if sqInHost c then s else s.noteRead (c.sqBase + 64 * (c.nextSeq.toNat % c.depth)) 64
  let seq := leNat (slice b 2 2)
  let crc := crc32c (slice b 0 60)
  let seqOk := seq == c.nextSeq.toNat
  let crcOk := crc.toNat == leNat (slice b 60 4)
  if !r.2 && seqOk && crcOk then
    let p := match headerOutcome q b with
      | some o => Phase.done o.1 o.2.1 o.2.2
      | none => if c.state = .revoked then .done stNoLease 0 0 else .waiting
    (s.accept q b p).pump q
  else if 8 ≤ c.fails then
    let st := if r.2 then stPoisonSrc else if seqOk then stBadCheck else stStale
    let s := if st = stStale then s.count 0x7921 5 1
      else if st = stBadCheck then s.count 0x7921 6 1 else s
    (s.accept q b (.done st (BitVec.ofNat 32 (seq + 9 * 2 ^ 16)) crc)).pump q
  else s.setQueue q { c with fails := c.fails + 1, retryWait := true }

/-! ### Meanings -/

/-- An SQ_DB write of `width` bits (R292): other widths are ignored and counted nowhere. -/
def execSqDb (q : BitVec 16) (width : Nat) (value : BitVec 32) (s : State) : Result :=
  if s.ready ∧ width = 32 then .next (s.sqDoorbell q value) else .next s

def execCqDb (q : BitVec 16) (width : Nat) (value : BitVec 32) (s : State) : Result :=
  if s.ready ∧ width = 32 then .next (s.cqDoorbell q value) else .next s

def execDescriptorFetch (q : BitVec 16) (f : FetchData) (s : State) : Result :=
  if s.mayFetch q ∧ !(s.queue q).retryWait then .next (s.fetchReturn q f) else .next s

/-- The re-fetch delay has run: the fetch is issued again, and REFETCHES counts it (R293). -/
def execDbRetryExpiry (q : BitVec 16) (s : State) : Result :=
  let c := s.queue q
  if s.mayFetch q ∧ c.retryWait then
    .next ((s.setQueue q { c with retryWait := false }).count 0x7921 4 1)
  else .next s

/-- The oldest outstanding zero-length read returns (R295). -/
def execFlushReadReturn (q : BitVec 16) (s : State) : Result :=
  let c := s.queue q
  match c.flushReads with
  | [] => .next s
  | v :: r =>
    let left := seqAhead v c.cqWritten
    let n := c.unconfirmed.length - left
    .next (((s.setQueue q { c with cqConfirmed := v, flushReads := r,
                                   unconfirmed := c.unconfirmed.drop n }).count 0x7921 8 1).pump q)

def execQctlNop (d : Desc) (s : State) : Result :=
  s.onDesc d 0x00 (fun s =>
    if !fieldZero d.body 16 60 then s.finish d badField
    else s.runNow d 0x00 (fun s => (s, doneOk)))

/-- QCTL_FLUSH stays with the dispatch core until the record engine completes it (R296). -/
def execQctlFlush (d : Desc) (s : State) : Result :=
  s.onDesc d 0x02 (fun s =>
    if !fieldZero d.body 16 60 then s.finish d badField
    else (s.handOver d .dispatch).pump d.queue)

end Sys2Proof.Machine
end

