-- ==== Sys2Proof/Machine/Cores.lean ====
section
/-!
DEFINITION. Sequencer cores (R99 to R102): loading, starting and ending a program, and the
tensor-issue instructions.
-/

namespace Sys2Proof.Machine

open Sys2Proof

def coreKey (die core : Nat) : Nat := die * 64 + core

/-- Cores 0 to 3 of a die begin as dispatch cores (R97). -/
def State.core (s : State) (die core : Nat) : CtrlCore :=
  Tab.read s.cores { CtrlCore.init with dispatch := decide (core < 4) } (coreKey die core)

def State.setCore (s : State) (die core : Nat) (c : CtrlCore) : State :=
  { s with cores := Tab.write s.cores (coreKey die core) c }

/-- Register `i` of a core; x0 reads zero. -/
def CtrlCore.reg (c : CtrlCore) (i : Nat) : BitVec 64 := if i = 0 then 0 else Tab.read c.regs 0 i

/-- Writes register `i`; a write to x0 is discarded. -/
def CtrlCore.setReg (c : CtrlCore) (i : Nat) (v : BitVec 64) : CtrlCore :=
  if i = 0 then c else { c with regs := Tab.write c.regs i v }

/-- The program of a core ends and its SEQ_START completes with `o` (R99, R101). -/
def State.endProgram (s : State) (die core : Nat) (o : Outcm) : State :=
  let c := s.core die core
  if !c.running then s
  else (s.setCore die core { c with running := false }).complete c.startQ c.startSeq o

/-- CORE names a sequencer core that is neither retired nor a dispatch core (R101). -/
def State.seqCoreOk (s : State) (die core : Nat) : Bool :=
  decide (4 ≤ core ∧ core ≤ 63) && !(s.core die core).retired && !(s.core die core).dispatch

/-- SEQ_ENABLE (Table VEC-8). -/
def State.seqEnabled (s : State) : Bool := s.obj 0x3200 3 1 != 0

/-- A sequence program runs on this core. -/
def State.seqRuns (s : State) (die core : Nat) : Bool :=
  s.ready && s.seqCoreOk die core && (s.core die core).running

/-- The lease of the queue that started the program (R99). -/
def State.coreLease (s : State) (die core : Nat) : Nat := (s.queue (s.core die core).startQ).lease

/-! ### SEQ_LOAD, SEQ_START, SEQ_STOP -/

/-- SEQ_LOAD (R101). DESIGN CHOICE: from a poisoned source nothing is written and it ends with POISON_SRC and
detail 0 (log 75). -/
def execSeqLoad (d : Desc) (s : State) : Result :=
  s.onDesc d 0x58 (fun s =>
    let die := (s.queue d.queue).die
    let core := fieldOf d.body 17 1
    let len := fieldOf d.body 20 4
    let src := fieldOf d.body 24 6
    if fieldOf d.body 16 1 ≠ 0 ∨ !fieldZero d.body 18 20 ∨ !fieldZero d.body 30 60
        ∨ !s.seqCoreOk die core ∨ (s.core die core).running ∨ 65536 < len ∨ len % 4 ≠ 0
        ∨ !s.seqEnabled then
      s.finish d badField
    else if len = 0 then s.finish d doneEmpty
    else if !s.within d.queue src len then s.finish d noLease
    else s.runNow d 0x58 (fun s =>
      let bad := s.anyPoison src len
      let s := s.noteRead src len
      if bad then (s, outcm stPoisonSrc 0 0)
      else
        let c := s.core die core
        (s.setCore die core { c with imem := overlay c.imem 0 (s.bytesAt src len) }, doneOk)))

/-- SEQ_START (R101). DESIGN CHOICE: the registers other than a0 and a1 keep the core's values (log 75). -/
def execSeqStart (d : Desc) (s : State) : Result :=
  s.onDesc d 0x59 (fun s =>
    let die := (s.queue d.queue).die
    let core := fieldOf d.body 17 1
    let base := fieldOf d.body 18 2
    let count := fieldOf d.body 20 2
    let bound := (List.range (min count 256)).all (fun i =>
      decide (base + i < 65536) &&
        (let c := s.queue (BitVec.ofNat 16 (base + i)); c.state != .free && c.die == die))
    if fieldOf d.body 16 1 ≠ 0 ∨ !fieldZero d.body 22 32 ∨ !fieldZero d.body 48 60
        ∨ !s.seqCoreOk die core ∨ (s.core die core).running ∨ 256 < count ∨ !bound
        ∨ !s.seqEnabled then
      s.finish d badField
    else if count = 0 then s.finish d doneEmpty
    else
      let s := s.handOver d .seqCores
      let c := s.core die core
      let c := { c with
        running := true, pc := 0, startQ := d.queue, startSeq := d.seq, queueBase := base,
        queueCnt := count }
      let c := (c.setReg 10 (BitVec.ofNat 64 (fieldOf d.body 32 8))).setReg 11
        (BitVec.ofNat 64 (fieldOf d.body 40 8))
      s.setCore die core c)

def execSeqStop (d : Desc) (s : State) : Result :=
  s.onDesc d 0x5A (fun s =>
    let die := (s.queue d.queue).die
    let core := fieldOf d.body 17 1
    if fieldOf d.body 16 1 ≠ 0 ∨ !fieldZero d.body 18 60 ∨ !s.seqCoreOk die core then
      s.finish d badField
    else s.runNow d 0x5A (fun s => (s.endProgram die core (outcm stAborted 0 0), doneOk)))

/-! ### The end of a program (R99) -/

/-- ECALL with a7 = 0 ends the program. DESIGN CHOICE: with another a7, for which R99 gives no effect, nothing
changes (log 75). -/
def execEcall (die core : Nat) (a7 a0 : BitVec 64) (s : State) : Result :=
  if s.seqRuns die core ∧ a7 = 0 then
    .next (s.endProgram die core (outcm stDone (a0.toNat % 2 ^ 32) 0))
  else .next s

/-- The status and detail of an early end (R99). DESIGN CHOICE: a load of a poisoned line has detail 0, since R99
gives it none (log 75). -/
def seqFaultOutcm (f : SeqFault) : Outcm :=
  match f with
  | .outsideLease a => outcm stNoLease (a.toNat % 2 ^ 32) 0
  | .illegal pc => outcm stBadOpcode (pc.toNat % 2 ^ 32) 0
  | .poisonedLoad => outcm stPoisonSrc 0 0

def execSeqAccessFault (die core : Nat) (f : SeqFault) (s : State) : Result :=
  if s.seqRuns die core then .next (s.endProgram die core (seqFaultOutcm f)) else .next s

/-! ### Tensor issue (Table VEC-6) -/

/-- Queue `q` lies in the program's range. -/
def CtrlCore.inRange (c : CtrlCore) (q : Nat) : Bool :=
  decide (c.queueBase ≤ q ∧ q < c.queueBase + c.queueCnt)

def minusOne : BitVec 64 := BitVec.allOnes 64

/-- The descriptor at `src` with sequence `n` and its CRC written into the header (R100). -/
def stampDescriptor (b : List Byte) (n : BitVec 16) : List Byte :=
  let h := overlay b 2 (toLe 2 n.toNat)
  overlay h 60 (toLe 4 (crc32c (slice h 0 60)).toNat)

/-- The record of sequence `n` of queue `q` has been written. -/
def State.recordWritten (s : State) (q n : BitVec 16) : Bool :=
  let c := s.queue q
  decide (1 ≤ seqAhead n c.cqWritten ∧ seqAhead n c.cqWritten ≤ 32768)

/-- TI.SUBMIT (Table VEC-6). DESIGN CHOICE: a descriptor that is not 64-byte aligned and a queue that is not
ACTIVE answer -1 too, and a poisoned descriptor ends the program as a load of it would (log 75). A ring whose
object moves holds the instruction, and one that takes no write is an access fault (R240). -/
def execTiSubmit (die core : Nat) (rd : BitVec 5) (rs1 rs2 : BitVec 64) (s : State) : Result :=
  if !s.seqRuns die core then .next s
  else
    let c := s.core die core
    let a := rs1.toNat
    let q := BitVec.ofNat 16 rs2.toNat
    let x := s.queue q
    let refuse := Host.Outcome.next (s.setCore die core (c.setReg rd.toNat minusOne))
    if a % 64 ≠ 0 ∨ !c.inRange rs2.toNat ∨ x.state ≠ .active ∨ sqInHost x
        ∨ x.depth ≤ seqAhead x.cqHead x.sqTail then refuse
    else if !s.leaseCovers (s.coreLease die core) a 64 ∨ !inDieStore die a 64 then
      .next (s.endProgram die core (outcm stNoLease (a % 2 ^ 32) 0))
    else if s.anyPoison a 64 then .next (s.endProgram die core (outcm stPoisonSrc 0 0))
    else
      let n := x.sqTail
      let slot := x.sqBase + 64 * (n.toNat % x.depth)
      if s.objWrite slot = .held then .next s
      else if s.objWrite slot = .refused then .next (s.endProgram die core (outcm stNoLease (slot % 2 ^ 32) 0))
      else
      let t := s.writeMem slot (stampDescriptor (s.bytesAt a 64) n)
      let t := t.sqDoorbell q (s.host.epoch.extractLsb' 0 16 ++ (n + 1))
      let t := t.count 0x7871 die 1
      let k := (c.setReg rd.toNat (BitVec.ofNat 64 (q.toNat * 2 ^ 48 + n.toNat)))
      let before := c.tickets.filter (fun x => !s.recordWritten x.1 x.2)
      .next (t.setCore die core { k with tickets := before ++ [(q, n)] })

/-- What a ticket returns: status in [7:0] and detail in [63:32], as its completion record was written. -/
def State.ticketValue (s : State) (q n : BitVec 16) : BitVec 64 :=
  let r := Tab.read (s.queue q).results (0, 0) n.toNat
  BitVec.ofNat 64 (r.1.toNat + 2 ^ 32 * r.2.toNat)

def ticketQueue (t : BitVec 64) : BitVec 16 := t.extractLsb' 48 16
def ticketSeq (t : BitVec 64) : BitVec 16 := t.extractLsb' 0 16

/-- TI.WAIT stalls, changing nothing, until the completion is written. -/
def execTiWait (die core : Nat) (rd : BitVec 5) (rs1 : BitVec 64) (s : State) : Result :=
  let q := ticketQueue rs1
  let n := ticketSeq rs1
  if s.seqRuns die core ∧ s.recordWritten q n then
    .next (s.setCore die core ((s.core die core).setReg rd.toNat (s.ticketValue q n)))
  else .next s

def execTiPoll (die core : Nat) (rd : BitVec 5) (rs1 : BitVec 64) (s : State) : Result :=
  let q := ticketQueue rs1
  let n := ticketSeq rs1
  if s.seqRuns die core then
    let v := if s.recordWritten q n then s.ticketValue q n else minusOne
    .next (s.setCore die core ((s.core die core).setReg rd.toNat v))
  else .next s

def execTiStep (die core : Nat) (rd : BitVec 5) (s : State) : Result :=
  if s.seqRuns die core then
    let c := s.core die core
    .next (s.setCore die core (c.setReg rd.toNat (BitVec.ofNat 64 (s.stepOf c.startQ))))
  else .next s

/-- TI.FENCE stalls until every descriptor this core submitted has completed, those of earlier programs
included (Table VEC-6). -/
def execTiFence (die core : Nat) (s : State) : Result :=
  let c := s.core die core
  if s.seqRuns die core ∧ c.tickets.all (fun t => s.recordWritten t.1 t.2) then
    .next (s.setCore die core { c with tickets := [] })
  else .next s

/-! ### Retirement of a control core (R102) -/

/-- The highest-numbered sequencer core of `die` that is not retired. -/
def State.topSeqCore (s : State) (die : Nat) : Option Nat :=
  ((rangeFrom 4 60).reverse).find? (fun k => s.seqCoreOk die k)

/-- Core `core` of `die` is retired; a dispatch role passes on (R102). DESIGN CHOICE: a program on the retired
core itself ends as SEQ_STOP ends it (log 75). -/
def State.retireCore (s : State) (die core : Nat) : State :=
  let was := (s.core die core).dispatch
  let s := s.endProgram die core (outcm stAborted 0 0)
  let c := s.core die core
  let s := s.setCore die core { c with retired := true, dispatch := false }
  if !was then s
  else match s.topSeqCore die with
    | none => s
    | some k =>
      let s := s.endProgram die k (outcm stAborted 0 0)
      s.setCore die k { s.core die k with dispatch := true }

/-- 0x2010.SS: bit c is set when core c is retired. -/
def State.coresRetired (s : State) (die : Nat) : Nat :=
  maskOf ((List.range 64).filter (fun k => (s.core die k).retired))

/-- A die without a dispatch core leaves service (R102). -/
def State.hasDispatch (s : State) (die : Nat) : Bool :=
  (List.range 64).any (fun k => (s.core die k).dispatch)

end Sys2Proof.Machine
end

