-- ==== Sys2Proof/Machine/Atomics.lean ====
section
/-!
DEFINITION. Atomic operations (Table COH-9, AOP of Table PRU-10).
-/

namespace Sys2Proof.Machine

open Sys2Proof

/-- A near atomic at `a`: the old value, and the state after it (R262). -/
def State.atomicAt (s : State) (a op width x compare : Nat) : Nat × State :=
  let old := s.natAt a width
  let s := s.noteRead a width
  (old, s.writeMem a (toLe width (atomicResult op width old x compare)))

end Sys2Proof.Machine
end

