-- ==== Sys2Proof/Machine/Stash.lean ====
section
/-!
DEFINITION. The activation stash (R135 to R140): placement, the full latch, reclaim and release. The
copies themselves run on shuttles (Machine/Shuttles.lean).
-/

namespace Sys2Proof.Machine

open Sys2Proof

def State.stashOf (s : State) (l : Nat) : Stash := Tab.read s.stash Stash.init l

def State.setStash (s : State) (l : Nat) (x : Stash) : State :=
  { s with stash := Tab.write s.stash l x }

/-- The key of an entry, in the order of R137: layer, micro-batch, part. -/
structure StashKey where
  layer : Nat
  mb    : Nat
  part  : Nat
  deriving DecidableEq, Repr

def StashEntry.key (e : StashEntry) : StashKey := { layer := e.layer, mb := e.mb, part := e.part }

def keyOf (b : BitVec 352) : StashKey :=
  { layer := fieldOf b 18 2, mb := fieldOf b 16 2, part := fieldOf b 20 1 }

/-- Ascending (LAYER, MB, PART). -/
def StashKey.before (a b : StashKey) : Bool :=
  decide (a.layer < b.layer ∨ (a.layer = b.layer ∧ (a.mb < b.mb ∨ (a.mb = b.mb ∧ a.part < b.part))))

/-- Charge of an entry of `n` bytes (R135). -/
def stashUnits (tier2 : Bool) (n : Nat) : Nat :=
  if tier2 then ceilDiv (n * 65) (64 * 4096) else ceilDiv n 4096

def usedUnits (es : List StashEntry) (tier2 : Bool) : Nat :=
  ((es.filter (fun e => e.tier2 == tier2)).map StashEntry.units).sum

/-- The first two rules of R136: the tier in which `n` bytes fit, if any. -/
def stashPlace (l : Lease) (es : List StashEntry) (n : Nat) : Option Bool :=
  if 65536 ≤ es.length then none
  else if usedUnits es false + stashUnits false n ≤ l.q1 then some false
  else if usedUnits es true + stashUnits true n ≤ l.q2 then some true
  else none

/-- The entry of a key, which R136 takes as existing while it runs and until it is freed. -/
def Stash.at (x : Stash) (k : StashKey) : Option StashEntry := x.entries.find? (fun e => e.key == k)

/-- Frees the entries that are dying and that no GET still reads (R139). -/
def Stash.sweep (x : Stash) : Stash :=
  { x with entries := x.entries.filter (fun e => !(e.dying && e.gets == 0)) }

/-- Inserts in ascending key order. -/
def stashInsert (l : List StashEntry) (e : StashEntry) : List StashEntry :=
  match l with
  | [] => [e]
  | a :: r => if e.key.before a.key then e :: a :: r else a :: stashInsert r e

/-- Eligible, visible entries charged to step `st`, in ascending key order. -/
def Stash.candidates (x : Stash) (st : Nat) : List StashEntry :=
  x.entries.foldl (fun a e =>
    if e.eligible ∧ e.live ∧ !e.dying ∧ e.step = st then stashInsert a e else a) []

/-- Marks the entries of keys `ks` for freeing. -/
def Stash.kill (x : Stash) (ks : List StashKey) : Stash :=
  { x with entries := x.entries.map (fun e =>
      if e.live ∧ ks.contains e.key then { e with dying := true } else e) }

/-- The shortest run of candidates whose removal lets `n` bytes be placed (R137). -/
def reclaimRun (l : Lease) (es : List StashEntry) (cands : List StashEntry) (n : Nat) :
    Option (List StashKey) :=
  match cands with
  | [] => none
  | c :: r =>
    let rest := es.filter (fun e => !(e.live && e.key == c.key))
    if (stashPlace l rest n).isSome then some [c.key]
    else (reclaimRun l rest r n).map (fun ks => c.key :: ks)

/-- What the placement of a put decides. -/
inductive PutCase where
  | declined
  | placed (tier2 : Bool)
  | waits
  deriving DecidableEq, Repr

/-- The entry a placed put occupies from now on (R139). -/
def putEntry (q seq : BitVec 16) (b : BitVec 352) (st n : Nat) (tier2 : Bool) : StashEntry :=
  let k := keyOf b
  { mb := k.mb, layer := k.layer, part := k.part, tier2 := tier2, eligible := bitOf (fieldOf b 21 1) 0,
    step := st, length := n, units := stashUnits tier2 n, live := false, bytes := [], poison := none,
    gets := 0, dying := false, queue := q, seq := seq }

/-- Sets the full latch for step `st`; FULL_EVENTS counts a latch set (R137). -/
def State.latchFull (s : State) (l st : Nat) : State :=
  let x := s.stashOf l
  if x.latch = some st then s
  else (s.setStash l { x with latch := some st }).count 0x78BB 4 1

/-- Places a put of lease `l` under R136 and R137. -/
def State.placePut (s : State) (l : Nat) (b : BitVec 352) (st n : Nat) : State × PutCase :=
  let elig := bitOf (fieldOf b 21 1) 0
  let x := s.stashOf l
  if elig ∧ x.latch = some st then (s.count 0x78BB 2 1, .declined)
  else
    let s := match x.latch with
      | some k => if k < st then s.setStash l { x with latch := none } else s
      | none => s
    let x := s.stashOf l
    match stashPlace (s.lease l) x.entries n with
    | some t => (s, .placed t)
    | none =>
      let s := s.latchFull l st
      if elig then (s.count 0x78BB 2 1, .declined)
      else
        let x := s.stashOf l
        match reclaimRun (s.lease l) x.entries (x.candidates st) n with
        | none => (s, .waits)
        | some ks =>
          let x := (x.kill ks).sweep
          let s := (s.setStash l x).count 0x78BB 3 ks.length
          (match stashPlace (s.lease l) x.entries n with
           | some t => (s, .placed t)
           | none => (s, .waits))

/-- A placed put becomes a charged entry (R139). -/
def State.chargePut (s : State) (l : Nat) (q seq : BitVec 16) (b : BitVec 352) (st n : Nat)
    (tier2 : Bool) : State :=
  let x := s.stashOf l
  s.setStash l { x with entries := x.entries ++ [putEntry q seq b st n tier2] }

/-- The put of (q, seq) has ended: after DONE a visible entry that PUTS_TIER1 or PUTS_SPILLED counts
(log 59), none otherwise (R139). -/
def State.endPut (s : State) (l : Nat) (q seq : BitVec 16) (bytes : Option (List Byte)) : State :=
  let x := s.stashOf l
  let mine := fun (e : StashEntry) => e.queue == q && e.seq == seq && !e.live
  match bytes with
  | some b =>
    let t2 := x.entries.any (fun e => mine e && e.tier2)
    (s.setStash l { x with entries := x.entries.map (fun e =>
      if mine e then { e with live := true, bytes := b } else e) }).count 0x78BB (if t2 then 1 else 0) 1
  | none => s.setStash l { x with entries := x.entries.filter (fun e => !mine e) }

/-- One more running GET of an entry, or one fewer, with RELEASE asking to free it. -/
def StashEntry.getStep (e : StashEntry) (k : StashKey) (up release : Bool) : StashEntry :=
  if !(e.live && e.key == k) then e
  else if up then { e with gets := e.gets + 1 }
  else { e with gets := e.gets - 1, dying := e.dying || release }

/-- A GET of key `k` begins or ends; one with RELEASE frees the entry (R138, R139). -/
def State.getCount (s : State) (l : Nat) (k : StashKey) (up release : Bool) : State :=
  let x := s.stashOf l
  let es := x.entries.map (fun e => e.getStep k up release)
  s.setStash l (Stash.sweep { x with entries := es })

/-- Whether any live entry matches a drop. -/
def dropMatches (b : BitVec 352) (e : StashEntry) : Bool :=
  let layer := fieldOf b 18 2
  let part := fieldOf b 20 1
  e.live && e.mb == fieldOf b 16 2 && (layer == 0xFFFF || e.layer == layer)
    && (part == 0xFF || e.part == part)

/-- STASH_DROP waits for the running GETs of what it frees (R139, R140). -/
def execStashDrop (d : Desc) (s : State) : Result :=
  s.onDesc d 0x74 (fun s =>
    if !fieldZero d.body 21 60 then s.finish d badField
    else
      let l := (s.queue d.queue).lease
      let x := s.stashOf l
      let x := { x with entries := x.entries.map (fun e =>
        if dropMatches d.body e then { e with dying := true } else e) }
      let s := s.setStash l x.sweep
      if (s.stashOf l).entries.any (fun e => dropMatches d.body e) then s
      else s.runNow d 0x74 (fun s => (s, doneOk)))

end Sys2Proof.Machine
end

