-- ==== Sys2Proof/Machine/Shuttles.lean ====
section
/-!
DEFINITION. Shuttles (R201 to R212): the two ends of a transfer, its acceptance, its remote parts, and
its completion. SHUT_MCAST, the stash copies, PRU_PUT and PRU_ATOMIC run here too.
-/

namespace Sys2Proof.Machine

open Sys2Proof

/-! ### Ends -/

/-- A PCIe peer range covers host-window offset `a` (R287). -/
def State.inPeerRange (s : State) (a : Nat) : Bool :=
  (List.range 16).any (fun k =>
    let b := s.objBytes 0x4840 k (List.replicate 16 0)
    let base := leNat (slice b 0 8)
    let size := leNat (slice b 8 8)
    decide (base ≤ a ∧ a < base + size))

/-- Where one row of a transfer lies. -/
inductive Spot where
  | mem (a : Nat)
  | pcie (a : Nat)
  | peer (p : Nat) (podScope : Bool) (a region : Nat)
  | far (n region a : Nat)
  /-- a stash entry, in tier 2 or not -/
  | stash (tier2 : Bool)
  | nowhere
  deriving DecidableEq, Repr

/-- A local address as a spot: a peer range is reached through PCIe. -/
def State.localSpot (s : State) (a : Nat) : Spot :=
  if inHostWindow a && s.inPeerRange (a - hostBase) then .pcie (a - hostBase) else .mem a

/-- The whole-device address names no Peruo region. -/
def noRegion : Nat := 0xFFFF

def State.globalSpot (s : State) (v : Nat) : Spot :=
  match decodeAddr s v with
  | .here a => s.localSpot a
  | .peer dev a => .peer (podOf (s.obj 0x5000 3 0) dev) false a noRegion
  | .bad => .nowhere

/-- A row of a transfer: its offset in the byte sequence, its length and its two spots. -/
structure XRow where
  offset : Nat
  length : Nat
  src    : Spot
  dst    : Spot
  deriving DecidableEq, Repr

/-- Rows, row bytes and strides of a copy (Tables STR-2, STR-3). -/
structure CopyShape where
  rows     : Nat
  rowBytes : Nat
  src      : Nat
  dst      : Nat
  srcStr   : Nat
  dstStr   : Nat
  toRing   : Bool
  ring     : Nat
  deriving DecidableEq, Repr

def copyShape (op : Byte) (b : BitVec 352) : CopyShape :=
  if op = 0x10 then
    { rows := 1, rowBytes := fieldOf b 40 8, src := fieldOf b 24 8, dst := fieldOf b 32 8, srcStr := 0,
      dstStr := 0, toRing := bitOf (fieldOf b 17 1) 0, ring := fieldOf b 18 1 }
  else
    { rows := fieldOf b 40 4, rowBytes := fieldOf b 20 4, src := fieldOf b 24 8, dst := fieldOf b 32 8,
      srcStr := fieldOf b 44 4, dstStr := fieldOf b 48 4, toRing := bitOf (fieldOf b 17 1) 0,
      ring := fieldOf b 18 1 }

/-- Bytes from row 0 to the end of the last row (R206). -/
def spanOf (rows rowBytes stride : Nat) : Nat := (rows - 1) * stride + rowBytes

/-- Extents overlap. -/
def overlaps (a m b n : Nat) : Bool := decide (a < b + n ∧ b < a + m)

/-! ### PRU_PUT and PRU_ATOMIC (Table PRU-10) -/

structure PutF where
  scope  : Nat
  signal : Bool
  peer   : Nat
  region : Nat
  sigDie : Nat
  src    : Nat
  offset : Nat
  length : Nat
  token  : Nat
  inc    : Nat
  rsvd   : Bool
  deriving DecidableEq, Repr

def putF (b : BitVec 352) : PutF :=
  { scope := fieldBits b 17 2 1, signal := bitOf (fieldOf b 17 1) 0, peer := fieldOf b 18 2,
    region := fieldOf b 20 2, sigDie := fieldOf b 22 1, src := fieldOf b 24 8, offset := fieldOf b 32 8,
    length := fieldOf b 40 8, token := fieldOf b 48 2, inc := fieldOf b 52 4,
    rsvd := fieldBits b 16 7 3 == 0 && fieldBits b 17 7 3 == 0 && fieldOf b 23 1 == 0
      && fieldZero b 50 52 && fieldZero b 56 60 }

/-- The pod identifier that PEER names under a scope. -/
def State.putPeer (s : State) (scope peer : Nat) : Nat :=
  if scope = 0 then podOf (s.obj 0x5000 3 0) peer else peer

def State.region (s : State) (r : Nat) : PRegion :=
  Tab.read s.peruo.regions { registered := false, enabled := false, perm := 0, lease := 0, target := 0, length := 0 } r

/-- What a put of `len` bytes at `off` of region `r` meets: a status, or the local address. `bit` is
the permission its scope needs (R319). -/
def State.regionCheck (s : State) (r off len bit : Nat) : Except Byte Nat :=
  let g := s.region r
  if 1024 ≤ r ∨ !g.registered then .error stBadField
  else if !g.perm.getLsbD bit ∨ g.length < off + len then .error stBadField
  else if !g.enabled then .error stNoLease
  else .ok (g.target + off)

/-! ### The rows of a transfer -/

/-- The stash end of a transfer: the entry that a put makes or that a get reads. -/
def State.stashSpot (s : State) (x : Xfer) : Spot :=
  let e := s.stashOf (s.queue x.queue).lease
  let hit := if x.opcode = 0x72 then e.entries.find? (fun y => y.queue == x.queue && y.seq == x.seq && !y.live)
    else e.at (keyOf x.body)
  .stash (hit.any StashEntry.tier2)

/-- The rows of transfer `x`, in the order of its byte sequence. A producer that is not accepted yet would fill
the slot at TAIL (R207, R215). -/
def State.xferRows (s : State) (x : Xfer) : List XRow :=
  let o := x.opcode.toNat
  if o = 0x10 ∨ o = 0x11 then
    let c := copyShape x.opcode x.body
    (List.range c.rows).map (fun i =>
      { offset := i * c.rowBytes, length := c.rowBytes
        src := s.globalSpot (c.src + i * c.srcStr)
        dst := if c.toRing then
            .mem (slotAddr (s.ring x.die c.ring) (x.slot.getD (s.ring x.die c.ring).tail) + i * c.dstStr)
          else s.globalSpot (c.dst + i * c.dstStr) })
  else if o = 0x72 then
    [{ offset := 0, length := fieldOf x.body 32 8, src := s.localSpot (fieldOf x.body 24 6),
       dst := s.stashSpot x }]
  else if o = 0x73 then
    [{ offset := 0, length := fieldOf x.body 32 8, src := s.stashSpot x,
       dst := s.localSpot (fieldOf x.body 24 6) }]
  else if o = 0xB0 then
    let f := putF x.body
    let p := s.putPeer f.scope f.peer
    [{ offset := 0, length := f.length, src := s.globalSpot f.src
       dst := if f.scope = 2 then .far f.peer f.region f.offset
         else if p = s.ownPod then
           (match s.regionCheck f.region f.offset f.length 0 with
            | .ok a => .mem a
            | .error _ => .nowhere)
         else .peer p (f.scope == 1) f.offset f.region }]
  else if o = 0x12 then
    (List.range (fieldOf x.body 32 4)).map (fun i =>
      { offset := i * fieldOf x.body 20 4, length := fieldOf x.body 20 4
        src := s.globalSpot (fieldOf x.body 24 8 + i * fieldOf x.body 40 8), dst := .nowhere })
  else []

def Spot.isRemote (x : Spot) : Bool :=
  match x with
  | .peer _ _ _ _ => true
  | .pcie _ => true
  | _ => false

/-! ### Source bytes -/

/-- The bytes of a row and the offset in it of the first byte on a poisoned line, if any. -/
def State.rowSource (s : State) (x : Xfer) (r : XRow) : List Byte × Option Nat :=
  match r.src with
  | .mem a =>
    (s.bytesAt a r.length, ((s.poisonIn a r.length).head?).map (fun l => 64 * l - a))
  | .stash _ =>
    (match ((s.stashOf (s.queue x.queue).lease).at (keyOf x.body)) with
     | some e => (slice e.bytes 0 r.length, e.poison)
     | none => ([], none))
  | .peer _ _ a _ | .pcie a =>
    let parts := x.got.filter (fun g => decide (r.offset ≤ g.1 ∧ g.1 < r.offset + max 1 r.length))
    let bytes := parts.foldl (fun b g => overlay b (g.1 - r.offset) g.2.bytes) []
    let bad := parts.foldl (fun (m : Option Nat) g =>
      (match g.2.poison.head? with
       | none => m
       | some l =>
         let at0 := a + (g.1 - r.offset)
         optMin m (g.1 - r.offset + (64 * (at0 / 64 + l) - at0)))) none
    (slice bytes 0 r.length, bad)
  | _ => (List.replicate r.length 0, none)

/-- The offset in the byte sequence at which a poisoned source line stops the transfer. -/
def State.xferStop (s : State) (x : Xfer) (rows : List XRow) : Option Nat :=
  rows.foldl (fun m r =>
    match m with
    | some _ => m
    | none => (match (s.rowSource x r).2 with
      | some k => if k < r.length then some (r.offset + k) else none
      | none => none)) none

/-- `n` bytes of the byte sequence from `off`. -/
def State.xferBytes (s : State) (x : Xfer) (rows : List XRow) (off n : Nat) : List Byte :=
  (rows.map (fun r =>
    let lo := max off r.offset
    let hi := min (off + n) (r.offset + r.length)
    if lo < hi then slice (s.rowSource x r).1 (lo - r.offset) (hi - lo) else [])).flatten

/-! ### Transactions of a transfer (R312) -/

/-- A run of `n` bytes at offset `off` and address `a` in transactions of at most 64 KiB. -/
def piecesFuel (off a n fuel : Nat) : List (Nat × Nat × Nat) :=
  match fuel with
  | 0 => []
  | k + 1 =>
    if n = 0 then []
    else if n ≤ 65536 then [(off, a, n)]
    else (off, a, 65536) :: piecesFuel (off + 65536) (a + 65536) (n - 65536) k

def pieces (off a n : Nat) : List (Nat × Nat × Nat) := piecesFuel off a n (n / 65536 + 1)

def State.updXfer (s : State) (q seq : BitVec 16) (g : Xfer → Xfer) : State :=
  { s with xfers := s.xfers.map (fun x => if x.queue = q ∧ x.seq = seq then g x else x) }

def State.xfer (s : State) (q seq : BitVec 16) : Option Xfer :=
  s.xfers.find? (fun x => x.queue == q && x.seq == seq)

/-- Transactions of (q, seq) that await their response. -/
def State.openXacts (s : State) (q seq : BitVec 16) : List Xact :=
  s.peruo.xacts.filter (fun x => x.queue == q && x.seq == seq)

/-- Records a failure of the transfer; the lowest offset stands. -/
def Xfer.fail (x : Xfer) (st : Byte) (off : Nat) : Xfer :=
  match x.bad with
  | some b => if b.2 ≤ off then x else { x with bad := some (st, off) }
  | none => { x with bad := some (st, off) }

def State.failXfer (s : State) (q seq : BitVec 16) (st : Byte) (off : Nat) : State :=
  s.updXfer q seq (fun x => x.fail st off)

/-- The remote spot of the transfer, if it has one: source first. -/
def remotePeer (rows : List XRow) : Option (Nat × Bool × Nat × Bool) :=
  match rows.head? with
  | none => none
  | some r =>
    match r.src, r.dst with
    | .peer p sc _ g, _ => some (p, sc, g, true)
    | _, .peer p sc _ g => some (p, sc, g, false)
    | _, _ => none

/-- Issues the transactions in `todo` while tags remain. -/
def State.issueTodo (s : State) (q seq : BitVec 16) (fuel : Nat) : State :=
  match fuel with
  | 0 => s
  | n + 1 =>
    match s.xfer q seq with
    | none => s
    | some x =>
      match x.todo with
      | [] => s
      | t :: rest =>
        let rows := s.xferRows x
        match remotePeer rows with
        | none => s
        | some (p, sc, g, get) =>
          if (s.refusal p sc).isSome then
            (s.updXfer q seq (fun x => { x with todo := [] })).failXfer q seq
              ((s.refusal p sc).getD stPeerLost) t.1
          else if !s.tagRoom p then s
          else
            let rec_ : OutRec :=
              if get then .get q x.step t.2.1 t.2.2
              else .put q x.step t.2.1 g sc (s.xferBytes x rows t.1 t.2.2)
            let s := s.updXfer q seq (fun x => { x with todo := rest })
            (s.sendXact p sc q seq (if get then 1 else 0) t.1 t.2.2 x.step rec_).issueTodo q seq n

/-- Issues the remote reads of an accepted transfer (R287, R312). -/
def State.issueReads (s : State) (q seq : BitVec 16) : State :=
  match s.xfer q seq with
  | none => s
  | some x =>
    let rows := s.xferRows x
    let s : State := match remotePeer rows with
      | some (p, sc, _, _) =>
        (match s.refusal p sc with
         | some st => s.failXfer q seq st 0
         | none => s)
      | none => s
    let todo := (rows.map (fun r => match r.src with
      | .peer _ _ a _ => pieces r.offset a r.length
      | _ => [])).flatten
    let reads := rows.filterMap (fun r => match r.src with
      | .pcie a => some (r.offset, a, r.length)
      | _ => none)
    let s := s.updXfer q seq (fun x =>
      if x.bad.isSome then x
      else { x with todo := todo, reads := reads.map (fun r => (r.1, r.2.2)) })
    let s := reads.foldl (fun s r => s.emit (.peerRead r.2.1 r.2.2)) s
    s.issueTodo q seq (todo.length + 1)

/-- The data that goes to a remote destination, once the source is at hand (R208, R287, R333). -/
def State.issueWrites (s : State) (q seq : BitVec 16) : State :=
  match s.xfer q seq with
  | none => s
  | some x =>
    if x.sent ∨ x.bad.isSome ∨ x.reads ≠ [] ∨ x.todo ≠ [] ∨ s.openXacts q seq ≠ [] then s
    else
      let rows := s.xferRows x
      let total := (rows.map XRow.length).sum
      let stop := (s.xferStop x rows).getD total
      let cut := fun (r : XRow) => min r.length (stop - r.offset)
      let s := s.updXfer q seq (fun x => { x with sent := true })
      let puts := (rows.map (fun r => match r.dst with
        | .peer _ _ a _ => pieces r.offset a (cut r)
        | _ => [])).flatten
      let bus := rows.filterMap (fun r => match r.dst with
        | .pcie a => if cut r = 0 then none else some (a, s.xferBytes x rows r.offset (cut r))
        | _ => none)
      let s := bus.foldl (fun s w => s.emit (.peerWrite w.1 w.2)) s
      let s := match bus.getLast? with
        | some w =>
          (s.updXfer q seq (fun x => { x with zeroRead := true })).emit
            (.peerRead ((w.1 + w.2.length - 1) / 64 * 64) 0)
        | none => s
      (s.updXfer q seq (fun x => { x with todo := puts })).issueTodo q seq (puts.length + 1)

/-- The signal of a PRU_PUT follows its data (R320). -/
def State.issueSignal (s : State) (q seq : BitVec 16) : State :=
  match s.xfer q seq with
  | none => s
  | some x =>
    let f := putF x.body
    if x.opcode ≠ 0xB0 ∨ !f.signal ∨ x.signalled ∨ !x.sent ∨ x.bad.isSome ∨ x.todo ≠ []
        ∨ s.openXacts q seq ≠ [] ∨ (s.xferStop x (s.xferRows x)).isSome then s
    else
      let p := s.putPeer f.scope f.peer
      let s := s.updXfer q seq (fun x => { x with signalled := true })
      if p = s.ownPod then s
      else match s.refusal p (f.scope == 1) with
      | some st => s.failXfer q seq st f.length
      | none => s.sendXact p (f.scope == 1) q seq 3 f.length 0 x.step
        (.signal 0 f.sigDie x.step f.token (BitVec.ofNat 32 f.inc))

/-- Takes a transfer as far as it goes without a further answer. -/
def State.drive (s : State) (q seq : BitVec 16) : State :=
  ((s.issueTodo q seq 4096).issueWrites q seq).issueSignal q seq

/-! ### Acceptance (R207, R210, R211, R215) -/

/-- Lines an end touches, as first and last line with the device in front. -/
def spotLines (x : Spot) (n : Nat) : Option (Nat × Nat) :=
  if n = 0 then none
  else match x with
    | .mem a => some (a / 64, (a + n - 1) / 64)
    | .pcie a => some ((hostBase + a) / 64, (hostBase + a + n - 1) / 64)
    | .peer p false a 0xFFFF =>
      let b := (p + 1) * 2 ^ 48 + a
      some (b / 64, (b + n - 1) / 64)
    | _ => none

def meet (a b : Option (Nat × Nat)) : Bool :=
  match a, b with
  | some x, some y => decide (x.1 ≤ y.2 ∧ y.1 ≤ x.2)
  | _, _ => false

/-- `x` must wait behind the earlier transfer `y` (R207), stash keys included (R138, R139). -/
def State.holdsBehind (s : State) (x y : Xfer) : Bool :=
  let stashOp := fun (z : Xfer) => z.opcode == 0x72 || z.opcode == 0x73
  (stashOp x && stashOp y && keyOf x.body == keyOf y.body) ||
  (s.xferRows x).any (fun r => (s.xferRows y).any (fun t =>
    let rs := spotLines r.src r.length
    let rd := spotLines r.dst r.length
    let ts := spotLines t.src t.length
    let td := spotLines t.dst t.length
    meet rd ts || meet rd td || meet rs td))

/-- Earlier transfers of the same queue, in issue order. -/
def State.earlierXfers (s : State) (x : Xfer) : List Xfer :=
  (s.xfers.takeWhile (fun y => !(y.queue == x.queue && y.seq == x.seq))).filter
    (fun y => y.queue == x.queue)

/-- R201's transfers in flight on a shuttle. -/
def State.shuttleLoad (s : State) (die k : Nat) : Nat :=
  (s.xfers.filter (fun y => y.die == die && y.shuttle == k && y.accepted)).length

/-- Nothing holds transfer `x` unaccepted but a creel slot. -/
def State.mayAccept (s : State) (x : Xfer) : Bool :=
  let before := s.earlierXfers x
  before.all Xfer.accepted
    && decide ((before.filter Xfer.accepted).length < (s.queue x.queue).limit)
    && decide (s.shuttleLoad x.die x.shuttle < 64)
    && !before.any (fun y => s.holdsBehind x y)

def isCopy (op : Byte) : Bool := op == 0x10 || op == 0x11

/-- OVERLAP_HOLDS counts a transfer once when an overlap holds it (Table STR-10). -/
def State.noteHold (s : State) (x : Xfer) : State :=
  if !x.heldOnce && (s.earlierXfers x).any (fun y => y.accepted && s.holdsBehind x y) then
    (s.updXfer x.queue x.seq (fun x => { x with heldOnce := true })).count (0x78E1 + x.die)
      (16 * x.shuttle + 7) 1
  else s

/-! ### Multicast (R219 to R222) -/

def groupKey (die g : Nat) : Nat := die * 256 + g

def State.members (s : State) (die g : Nat) : List Nat := Tab.read s.mcast [] (groupKey die g)

/-- Reads deliveries while fewer than four are held (R221). -/
def State.readDeliveries (s : State) (m : McastSend) (fuel : Nat) : State × McastSend :=
  match fuel with
  | 0 => (s, m)
  | n + 1 =>
    if m.next < m.count ∧ m.held.length < 4 then
      let a := m.src + m.next * m.stride
      let bad := s.anyPoison a m.bytes
      let d : Delivery :=
        { index := m.next, bytes := s.bytesAt a m.bytes, poison := bad,
          pending := s.members m.die m.group }
      let s := s.noteRead a m.bytes
      let m := { m with next := m.next + 1, held := m.held ++ [d]
                        firstBad := if bad ∧ m.firstBad.isNone then some (stPoisonSrc, m.next)
                          else m.firstBad }
      s.readDeliveries m n
    else (s, m)

def State.setSend (s : State) (m : McastSend) : State :=
  { s with mcastSends := s.mcastSends.map (fun y =>
      if y.queue = m.queue ∧ y.seq = m.seq then m else y) }

/-- Releases the deliveries that every member has, and reads on, until one waits for a member or none is left
(R221, R222). -/
def State.releaseSend (s : State) (m : McastSend) (shuttle fuel : Nat) : State × McastSend :=
  match fuel with
  | 0 => (s, m)
  | n + 1 =>
    let done := m.held.filter (fun d => d.pending.isEmpty)
    let m := { m with held := m.held.filter (fun d => !d.pending.isEmpty) }
    let s := s.count (0x78E1 + m.die) (16 * shuttle + 0xA) done.length
    let r := s.readDeliveries m 4
    if r.2.held.any (fun d => d.pending.isEmpty) then r.1.releaseSend r.2 shuttle n else r

def State.releaseHeld (s : State) (m : McastSend) (shuttle : Nat) : State :=
  let r := s.releaseSend m shuttle (m.count + 1)
  r.1.setSend r.2

/-! ### Acceptance proper -/

/-- A PRU_ATOMIC reads its operands and goes to its target: the home of a local line, or the peer
(R263, R318). -/
def State.issueAtomic (s : State) (x : Xfer) : State :=
  let op := fieldOf x.body 16 1
  let width := fieldOf x.body 17 1
  let ref := fieldOf x.body 32 6
  let n := if op = 9 then 2 * width else width
  let bytes := s.bytesAt ref n
  if s.anyPoison ref n then (s.noteRead ref n).failXfer x.queue x.seq stPoisonSrc 0
  else
    let s := s.noteRead ref n
    match decodeAddr s (fieldOf x.body 24 8) with
    | .here a =>
      if s.anyPoison a width then (s.noteRead a width).failXfer x.queue x.seq stPoisonSrc 0
      else
        let first := leNat (slice bytes 0 width)
        let second := leNat (slice bytes width width)
        let r := if op = 9 then s.atomicAt a op width second first else s.atomicAt a op width first 0
        r.2.updXfer x.queue x.seq (fun y =>
          { y with got := Tab.write y.got 0 { bytes := toLe width r.1, poison := [] } })
    | .peer dev a =>
      let p := podOf (s.obj 0x5000 3 0) dev
      (match s.refusal p false with
       | some st => s.failXfer x.queue x.seq st 0
       | none => s.sendXact p false x.queue x.seq 2 0 width x.step (.atom op width x.step a bytes))
    | .bad => s

/-- Accepts the transfer with sequence `seq` of queue `q`, when nothing holds it. -/
def State.acceptXfer (s : State) (q seq : BitVec 16) : State :=
  match s.xfer q seq with
  | none => s
  | some x =>
    if x.accepted then s
    else
      let s := s.noteHold x
      if !s.mayAccept x then s
      else
        let go := fun (t : State) => t.updXfer q seq (fun x => { x with accepted := true })
        let c := copyShape x.opcode x.body
        if isCopy x.opcode ∧ c.toRing then
          let g := s.ring x.die c.ring
          if !g.configured ∨ slotAt g g.tail ≠ .empty then s
          else
            let k := g.tail
            let s := s.setRing x.die c.ring
              { setSlot g k .filling with tail := (k + 1) % g.slots }
            let s := (go s).updXfer q seq (fun x => { x with slot := some k })
            let n := spanOf c.rows c.rowBytes c.srcStr
            let clash := match decodeAddr s c.src with
              | .here a => overlaps a n (slotAddr g k) (spanOf c.rows c.rowBytes c.dstStr)
              | _ => false
            if clash then s.failXfer q seq stBadField 0
            else (s.issueReads q seq).drive q seq
        else if x.opcode = 0x12 then
          let m : McastSend :=
            { queue := q, seq := seq, die := x.die, group := fieldOf x.body 17 1,
              tag := fieldOf x.body 18 2, bytes := fieldOf x.body 20 4,
              src := (match decodeAddr s (fieldOf x.body 24 8) with | .here a => a | _ => 0),
              count := fieldOf x.body 32 4, stride := fieldOf x.body 40 8, next := 0, held := [],
              firstBad := none }
          let s := go { s with mcastSends := s.mcastSends ++ [m] }
          s.releaseHeld m x.shuttle
        else if x.opcode = 0xB1 then (go s).issueAtomic x
        else ((go s).issueReads q seq).drive q seq

/-! ### Completion (R208, R209) -/

/-- The transfer of a source row whose first poisoned line came from a peer stores poison at its
destination (R318); returns the destination lines that take it. -/
def poisonLines (r : XRow) (stop : Nat) : List Nat :=
  match r.src, r.dst with
  | .peer _ _ a _, .mem b =>
    if r.offset ≤ stop ∧ stop < r.offset + r.length then
      let k := stop - r.offset
      let n := min (64 - (a + k) % 64) (r.length - k)
      linesOf (b + k) n
    else []
  | _, _ => []

/-- Charged rows of a copy (R212): one for each row, contiguous rows as one. -/
def chargedRows (c : CopyShape) : List Nat :=
  if c.rows ≤ 1 ∨ (c.srcStr = c.rowBytes ∧ c.dstStr = c.rowBytes) then [c.rows * c.rowBytes]
  else List.replicate c.rows c.rowBytes

/-- The path of a transfer (R205). -/
inductive XPath where
  | tier2 | peruo | host | package
  deriving DecidableEq, Repr

def State.spotPath (s : State) (x : Spot) : XPath :=
  match x with
  | .mem a => if s.inTier2 a then .tier2 else if inHostWindow a then .host else .package
  | .stash t2 => if t2 then .tier2 else .package
  | .pcie _ => .host
  | .peer _ _ _ _ | .far _ _ _ => .peruo
  | _ => .package

def State.xferPath (s : State) (rows : List XRow) : XPath :=
  let ps := (rows.map (fun r => [s.spotPath r.src, s.spotPath r.dst])).flatten
  if ps.contains .tier2 then .tier2
  else if ps.contains .peruo then .peruo
  else if ps.contains .host then .host
  else .package

/-- Counts a transfer of `n` bytes moved (Table STR-10). -/
def State.countXfer (s : State) (x : Xfer) (rows : List XRow) (n : Nat) : State :=
  let k := 0x78E1 + x.die
  let b := 16 * x.shuttle
  let path := s.xferPath rows
  let s := ((s.count k b 1).count k (b + 1) n).count k (b + 2) n
  let shorts := if isCopy x.opcode then
      ((chargedRows (copyShape x.opcode x.body)).filter (fun r => decide (r < 4096))).length
    else if n < 4096 then 1 else 0
  match path with
  | .package => s.count k (b + 3) shorts
  | .peruo => s.count k (b + 0xD) 1
  | .host => s.count k (b + 0xE) 1
  | .tier2 => s

/-- The transfer leaves its shuttle, its slot is filled and its descriptor completes. -/
def State.retireXfer (s : State) (x : Xfer) (o : Outcm) : State :=
  let s := { s with xfers := s.xfers.filter (fun y => !(y.queue == x.queue && y.seq == x.seq)) }
  let s := match x.slot with
    | some k =>
      s.fillSlot x.die (copyShape x.opcode x.body).ring k x.shuttle (o.1 == stDone)
    | none => s
  s.complete x.queue x.seq o

/-- What a copy, stash copy or put does at its end: what its rows write, up to the first failure, and its
outcome (R138, R139, R209, R318). A put that fails has created no entry, so its detail is 0 (log 59). A far put
sends its datagrams here (R333). -/
def State.moveCopy (s : State) (x : Xfer) : State × Outcm :=
  let rows := s.xferRows x
  let total := (rows.map XRow.length).sum
  let stop := s.xferStop x rows
  let shut := rows.any (fun (r : XRow) => match r.dst with
    | .mem a => s.objWrite a == .refused
    | _ => false)
  let fail : Option (Byte × Nat) := if shut then some (stBadField, 0) else match x.bad, stop with
    | some b, some k => if b.2 ≤ k then some b else some (stPoisonSrc, k)
    | some b, none => some b
    | none, some k => some (stPoisonSrc, k)
    | none, none =>
      if x.opcode = 0xB0 ∧ rows.any (fun r => r.dst == .nowhere) then
        (match s.regionCheck (putF x.body).region (putF x.body).offset (putF x.body).length 0 with
         | .error st => some (st, 0)
         | .ok _ => none)
      else none
  let limit := min total ((fail.map Prod.snd).getD total)
  let data := rows.map (fun r => (r, slice (s.rowSource x r).1 0 (min r.length (limit - r.offset))))
  let s : State := rows.foldl (fun (s : State) r => match r.src with
    | .mem a =>
      if limit < r.offset then s
      else s.noteRead a (min r.length (limit - r.offset + (if fail.isSome then 1 else 0)))
    | _ => s) s
  let s : State := data.foldl (fun (s : State) d => match d.1.dst with
    | .mem a => s.writeMem a d.2
    | .far n g a =>
      let step := max 1 (s.obj 0x5500 5 16) * 512
      (List.range (ceilDiv d.2.length step)).foldl (fun (s : State) i =>
        (s.emit (.frame (s.farFrame n g (a + i * step) ((d.2.drop (i * step)).take step)))).count
          0x7939 0xB 1) s
    | _ => s) s
  let s : State := match stop with
    | some k =>
      if fail = some (stPoisonSrc, k) then
        ((rows.map (fun r => poisonLines r k)).flatten).foldl
          (fun (s : State) (l : Nat) => s.storePoison l 6 0xFF) s
      else s
    | none => s
  let l := (s.queue x.queue).lease
  let s : State := if x.opcode = 0x72 then
      s.endPut l x.queue x.seq (if fail.isNone then some ((data.map Prod.snd).flatten) else none)
    else if x.opcode = 0x73 then
      s.getCount l (keyOf x.body) false (fail.isNone && bitOf (fieldOf x.body 21 1) 0)
    else s
  let s : State := if x.opcode = 0xB0 ∧ fail.isNone ∧ x.signalled
      ∧ s.putPeer (putF x.body).scope (putF x.body).peer = s.ownPod then
      s.signalToken (putF x.body).sigDie (putF x.body).token 0 (BitVec.ofNat 32 (putF x.body).inc)
    else s
  (s.countXfer x rows limit, match fail with
    | some f =>
      outcm f.1 (if f.1 = stCfgMismatch ∨ f.1 = stViewChanged then
          (match remotePeer rows with | some r => r.1 | none => 0)
        else if f.1 = stBadField ∨ f.1 = stNoLease ∨ x.opcode = 0x72 then 0 else f.2 % 2 ^ 32) 0
    | none => doneOk)

/-- Ends a copy, stash copy or put. -/
def State.endCopy (s : State) (x : Xfer) : State :=
  let r := s.moveCopy x
  r.1.retireXfer x r.2

/-- Ends a copy that a host-epoch change cuts: what the link had taken of it stands, although the host is gone by
now (R209, R297). -/
def State.endAtEpoch (s : State) (x : Xfer) : State :=
  let h := s.host
  let r := (s.setHost { h with attach := .attached, cxlUp := true }).moveCopy x
  (r.1.setHost { r.1.host with attach := h.attach, cxlUp := h.cxlUp }).retireXfer x r.2

/-- Ends a PRU_ATOMIC: its old value is stored (Table PRU-10). -/
def State.endAtomic (s : State) (x : Xfer) : State :=
  let width := fieldOf x.body 17 1
  match x.bad, Tab.find x.got 0 with
  | some b, _ =>
    s.retireXfer x (outcm b.1 (if b.1 = stCfgMismatch ∨ b.1 = stViewChanged then
      (match decodeAddr s (fieldOf x.body 24 8) with
       | .peer dev _ => podOf (s.obj 0x5000 3 0) dev
       | _ => 0) else 0) 0)
  | none, some r =>
    if s.objWrite (fieldOf x.body 38 6) = .refused then s.retireXfer x badField
    else (s.writeMem (fieldOf x.body 38 6) (slice r.bytes 0 width)).retireXfer x doneOk
  | none, none => s.retireXfer x doneOk

/-- The send of a SHUT_MCAST, when it runs. -/
def State.sendOf (s : State) (x : Xfer) : Option McastSend :=
  s.mcastSends.find? (fun m => m.queue == x.queue && m.seq == x.seq)

/-- Ends a SHUT_MCAST after its last delivery (R221, R222). -/
def State.endMcast (s : State) (x : Xfer) (m : McastSend) (o : Outcm) : State :=
  let s := { s with mcastSends := s.mcastSends.filter (fun y =>
    !(y.queue == x.queue && y.seq == x.seq)) }
  let k := 0x78E1 + x.die
  let s := (s.count k (16 * x.shuttle) 1).count k (16 * x.shuttle + 1) (m.next * m.bytes)
  let s := match s.xferPath (s.xferRows x) with
    | .host => s.count k (16 * x.shuttle + 0xE) 1
    | .package => s.count k (16 * x.shuttle + 3) (if m.count * m.bytes < 4096 then 1 else 0)
    | _ => s
  s.retireXfer x o

/-- The transfer has nothing left to wait for. -/
def State.xferReady (s : State) (x : Xfer) : Bool :=
  x.bad.isSome ||
    (x.reads.isEmpty && x.todo.isEmpty && (s.openXacts x.queue x.seq).isEmpty && !x.zeroRead &&
      (match x.opcode.toNat with
       | 0x12 => (match s.sendOf x with
         | some m => m.next == m.count && m.held.isEmpty
         | none => false)
       | 0xB1 => (Tab.find x.got 0).isSome
       | 0xB0 => x.sent && (!(putF x.body).signal || x.signalled || (s.xferStop x (s.xferRows x)).isSome)
       | _ => x.sent))

/-- Answers that are still to come find no transfer. -/
def State.dropXacts (s : State) (q seq : BitVec 16) : State :=
  { s with peruo := { s.peruo with xacts := s.peruo.xacts.filter (fun y => !(y.queue == q && y.seq == seq)) } }

/-- Ends the transfer, whatever its kind. -/
def State.endXfer (s : State) (x : Xfer) : State :=
  let s := s.dropXacts x.queue x.seq
  match x.opcode.toNat with
  | 0x12 =>
    (match s.sendOf x with
     | some m =>
       s.endMcast x m (match x.bad, m.firstBad with
         | some b, _ => outcm b.1 b.2 0
         | none, some b => outcm b.1 b.2 0
         | none, none => doneOk)
     | none => s.retireXfer x doneOk)
  | 0xB1 => s.endAtomic x
  | _ => s.endCopy x

/-- A write of the transfer to an object that moves is held (R240). -/
def State.heldByMove (s : State) (x : Xfer) : Bool :=
  (x.opcode == 0xB1 && s.objWrite (fieldOf x.body 38 6) == .held) || (s.xferRows x).any (fun r => match r.dst with
    | .mem a => s.objWrite a == .held
    | _ => false)

/-- The transfers of a queue complete in issue order (R207): (q, seq) completes when it is its queue's
oldest and nothing keeps it. -/
def State.completeXfer (s : State) (q seq : BitVec 16) : State :=
  match s.xfer q seq with
  | none => s
  | some x =>
    if x.accepted && (s.earlierXfers x).isEmpty && s.xferReady x && !s.heldByMove x then s.endXfer x
    else s

/-! ### Dispatch -/

/-- Hands a transfer to shuttle `k` and offers it at once. -/
def State.handXfer (s : State) (d : Desc) (op : Byte) (k : Nat) : State :=
  let c := s.queue d.queue
  let x : Xfer :=
    { queue := d.queue, seq := d.seq, opcode := op, body := d.body, die := c.die, shuttle := k,
      step := c.step, accepted := false, slot := none, got := [], reads := [], todo := [],
      sent := false, zeroRead := false, signalled := false, bad := none, heldOnce := false }
  let s := s.handOver d (.shuttle k)
  ({ s with xfers := s.xfers ++ [x] }).acceptXfer d.queue d.seq

/-- The shuttle of SH_CTL (R203). -/
def shuttleOf (q : BitVec 16) (b : BitVec 352) : Nat :=
  let v := fieldBits b 16 2 0
  if v < 4 then v else q.toNat % 4

/-- One end of a copy: BAD_FIELD for an illegal device number. -/
def State.endOk (s : State) (v : Nat) : Bool := decodeAddr s v != .bad

def isPeer (t : Target) : Bool := match t with | .peer _ _ => true | _ => false

/-- The checks of a copy's own fields (R203, R204, R206). -/
def State.copyFieldsOk (s : State) (die : Nat) (op : Byte) (b : BitVec 352) : Bool :=
  let c := copyShape op b
  let g := s.ring die c.ring
  let src := decodeAddr s c.src
  let dst := decodeAddr s c.dst
  let empty := c.rows == 0 || c.rowBytes == 0
  let rsvd := fieldBits b 16 7 3 == 0 && fieldBits b 17 7 1 == 0
    && (if op = 0x10 then fieldZero b 19 24 && fieldZero b 48 60
        else fieldOf b 19 1 == 0 && fieldZero b 52 60)
  let clash := match src, dst with
    | .here x, .here y =>
      !c.toRing && !empty
        && overlaps x (spanOf c.rows c.rowBytes c.srcStr) y (spanOf c.rows c.rowBytes c.dstStr)
    | _, _ => false
  decide (fieldBits b 16 2 0 ≤ 4) && rsvd && s.endOk c.src
    && (if c.toRing then c.dst == 0 && g.configured
          && (empty || decide (spanOf c.rows c.rowBytes c.dstStr ≤ g.slotBytes))
        else c.ring == 0 && s.endOk c.dst && !(isPeer src && isPeer dst))
    && !(decide (1 < c.rows) && decide (c.dstStr < c.rowBytes))
    && !clash

/-- Every local byte of a copy lies within the queue's lease (R204). -/
def State.copyLeased (s : State) (q : BitVec 16) (op : Byte) (b : BitVec 352) : Bool :=
  let c := copyShape op b
  let side := fun (v stride : Nat) => match decodeAddr s v with
    | .here a => (List.range c.rows).all (fun i => s.within q (a + i * stride) c.rowBytes)
    | _ => true
  side c.src c.srcStr && (c.toRing || side c.dst c.dstStr)

/-- SHUT_COPY and SHUT_COPY_2D at dispatch. -/
def State.dispatchCopy (s : State) (d : Desc) (op : Byte) : State :=
  let c := copyShape op d.body
  if !s.copyFieldsOk (s.queue d.queue).die op d.body then s.finish d badField
  else if c.rows = 0 ∨ c.rowBytes = 0 then s.finish d doneEmpty
  else if !s.copyLeased d.queue op d.body then s.finish d noLease
  else s.handXfer d op (shuttleOf d.queue d.body)

/-! ### Meanings -/

def execShutCopy (d : Desc) (s : State) : Result := s.onDesc d 0x10 (fun s => s.dispatchCopy d 0x10)

def execShutCopy2d (d : Desc) (s : State) : Result :=
  s.onDesc d 0x11 (fun s => s.dispatchCopy d 0x11)

def execTransferAccept (q seq : BitVec 16) (s : State) : Result :=
  if s.ready then .next (s.acceptXfer q seq) else .next s

def execTransferComplete (q seq : BitVec 16) (s : State) : Result :=
  if s.ready then .next (s.completeXfer q seq) else .next s

def execShutMcast (d : Desc) (s : State) : Result :=
  s.onDesc d 0x12 (fun s =>
    let die := (s.queue d.queue).die
    let bytes := fieldOf d.body 20 4
    let count := fieldOf d.body 32 4
    let stride := fieldOf d.body 40 8
    match decodeAddr s (fieldOf d.body 24 8) with
    | .here a =>
      if 4 < fieldBits d.body 16 2 0 ∨ fieldBits d.body 16 7 3 ≠ 0 ∨ bytes = 0 ∨ bytes % 256 ≠ 0
          ∨ 65536 < bytes ∨ stride < bytes ∨ 65536 < count ∨ !fieldZero d.body 36 40
          ∨ !fieldZero d.body 48 60 then s.finish d badField
      else if count = 0 ∨ (s.members die (fieldOf d.body 17 1)).isEmpty then s.finish d doneEmpty
      else if !(List.range count).all (fun i => s.within d.queue (a + i * stride) bytes) then
        s.finish d noLease
      else s.handXfer d 0x12 (shuttleOf d.queue d.body)
    | _ => s.finish d badField)

/-- The pick takes one delivery. -/
def Loom.takeDelivery (m : Loom) (p : Pick) (bytes : List Byte) (poison : Bool) : Loom :=
  { m with picks := m.picks.map (fun y =>
      if y.queue = p.queue ∧ y.seq = p.seq then { y with mc := y.mc ++ [(bytes, poison)] } else y) }

/-- The first delivery held for a loom goes to it when the loom's credit carries its tag; another tag holds the
loom back (R74, R221). -/
def State.deliver (s : State) (m : McastSend) (shuttle die loom : Nat) : State :=
  let x := s.loom die loom
  match x.creditPick with
  | none => s
  | some p =>
    let f := pickFields p.bwd p.body
    let me := 8 * die + loom
    if f.group ≠ m.group ∨ Tab.find x.mcastHome f.group ≠ some m.die then s
    else match m.held.find? (fun d => d.pending.contains me) with
      | none => s
      | some d =>
        if (m.tag + d.index) % 65536 ≠ f.tag then s
        else
        let s := s.setLoom die loom (x.takeDelivery p d.bytes d.poison)
        let m := { m with held := m.held.map (fun y =>
          if y.index = d.index then { y with pending := y.pending.filter (fun k => k ≠ me) } else y) }
        (s.setSend m).releaseHeld m shuttle

def execMcastDelivery (q seq : BitVec 16) (die loom : Nat) (s : State) : Result :=
  match s.xfer q seq with
  | none => .next s
  | some x =>
    match s.sendOf x with
    | some m => if s.ready ∧ loom < 8 then .next (s.deliver m x.shuttle die loom) else .next s
    | none => .next s

/-- Looms named by MEMBERS, as 8 × die + loom (R219). -/
def memberList (b : BitVec 352) : List Nat :=
  ((List.range 26).map (fun d => (bitList 8 (fieldOf b (24 + d) 1)).map (fun l => 8 * d + l))).flatten

def execMcastSet (d : Desc) (s : State) : Result :=
  s.onDesc d 0x13 (fun s =>
    let die := (s.queue d.queue).die
    let g := fieldOf d.body 16 1
    let op := fieldOf d.body 17 1
    let ms := memberList d.body
    let old := s.members die g
    let adds := if op = 1 then [] else ms.filter (fun m => !old.contains m)
    let drops := if op = 0 then [] else if op = 1 then old.filter ms.contains
      else old.filter (fun m => !ms.contains m)
    let home := fun (m : Nat) => Tab.find (s.loom (m / 8) (m % 8)).mcastHome g
    if 2 < op ∨ !fieldZero d.body 18 24 ∨ !fieldZero d.body 50 60
        ∨ ms.any (fun m => !s.dieActive (m / 8))
        ∨ adds.any (fun m => match home m with | some h => h != die | none => false) then
      s.finish d badField
    else if ms = [] ∧ op < 2 then s.finish d doneEmpty
    else if s.mcastSends.any (fun m => m.die == die && m.group == g) then s
    else s.runNow d 0x13 (fun s =>
      let set := fun (s : State) (m : Nat) (t : Tab Nat) =>
        s.setLoom (m / 8) (m % 8) { s.loom (m / 8) (m % 8) with mcastHome := t }
      let s := adds.foldl (fun s m =>
        set s m (Tab.write (s.loom (m / 8) (m % 8)).mcastHome g die)) s
      let s := drops.foldl (fun s m => set s m (Tab.remove (s.loom (m / 8) (m % 8)).mcastHome g)) s
      let now := adds.foldl insertNat (old.filter (fun m => !drops.contains m))
      ({ s with mcast := Tab.write s.mcast (groupKey die g) now }, doneOk)))

def execCreelSet (d : Desc) (s : State) : Result :=
  s.onDesc d 0x14 (fun s =>
    let die := (s.queue d.queue).die
    let k := fieldOf d.body 16 1
    let slots := fieldOf d.body 17 1
    let op := fieldOf d.body 18 1
    let bytes := fieldOf d.body 20 4
    let base := fieldOf d.body 24 6
    let g := s.ring die k
    let rsvd := fieldOf d.body 19 1 == 0 && fieldZero d.body 30 60
    let okSet := decide (3 ≤ slots ∧ slots ≤ 16 ∧ 0 < bytes ∧ bytes ≤ 4194304) && bytes % 64 == 0
      && base % 64 == 0 && inDieStore die base (slots * bytes) && !g.configured
    let okFree := slots == 0 && bytes == 0 && base == 0 && g.configured
      && g.slotTab.all (fun x => x == .empty) && g.claims.all Claim.released
    if !rsvd ∨ 1 < op ∨ !(if op = 0 then okSet else okFree) then s.finish d badField
    else s.runNow d 0x14 (fun s =>
      let r : Ring := if op = 0 then
          { configured := true, slots := slots, slotBytes := bytes, base := base, head := 0, tail := 0,
            slotTab := List.replicate slots .empty, claims := [], gone := [] }
        else Ring.init
      (s.setRing die k r, doneOk)))

def execShutLimit (d : Desc) (s : State) : Result :=
  s.onDesc d 0x15 (fun s =>
    let q := BitVec.ofNat 16 (fieldOf d.body 16 2)
    let n := fieldOf d.body 18 2
    let c := s.queue q
    if !fieldZero d.body 20 60 ∨ 256 < n
        ∨ !(q == d.queue || (c.state != .free && c.lease == (s.queue d.queue).lease)) then
      s.finish d badField
    else if n = 0 then s.finish d doneEmpty
    else s.runNow d 0x15 (fun s =>
      (s.setQueue q { s.queue q with limit := n }, doneOk)))

def execSlotEmpty (die ring : Nat) (s : State) : Result :=
  if s.ready ∧ ring < 256 then .next (s.emptyHead die ring) else .next s

/-! ### Stash copies (R136 to R139) -/

/-- An earlier stash copy of the same queue and key is in flight, and holds a later one (R207). -/
def State.keyBusy (s : State) (q : BitVec 16) (b : BitVec 352) : Bool :=
  s.xfers.any (fun x => x.queue == q && (x.opcode == 0x72 || x.opcode == 0x73)
    && keyOf x.body == keyOf b)

/-- A put of the key runs, so that the key counts as existing (R139). -/
def Stash.putRuns (x : Stash) (k : StashKey) : Bool := x.entries.any (fun e => !e.live && e.key == k)

/-- A STASH_PUT that can be placed goes to its shuttle; a declined one completes (R136, R137). -/
def State.actPut (s : State) (d : Desc) : State :=
  let c := s.queue d.queue
  let n := fieldOf d.body 32 8
  let r := s.placePut c.lease d.body c.step n
  match r.2 with
  | .declined => r.1.runNow d 0x72 (fun s => (s, outcm stDone bit31 0))
  | .placed t =>
    (r.1.chargePut c.lease d.queue d.seq d.body c.step n t).handXfer d 0x72 (d.queue.toNat % 4)
  | .waits =>
    let x := r.1.stashOf c.lease
    let s := r.1.setStash c.lease
      { x with waits := x.waits ++ [{ queue := d.queue, seq := d.seq, body := d.body, step := c.step }] }
    s.setQueue d.queue ((s.queue d.queue).updEntry d.seq (fun f => { f with granted := false }))

def execStashPut (d : Desc) (s : State) : Result :=
  s.onDesc d 0x72 (fun s =>
    let c := s.queue d.queue
    let n := fieldOf d.body 32 8
    if fieldBits d.body 21 7 1 ≠ 0 ∨ !fieldZero d.body 22 24 ∨ !fieldZero d.body 30 32
        ∨ !fieldZero d.body 40 60 then s.finish d badField
    else if s.putWaits d.queue d.seq then s
    else if (s.stashOf c.lease).putRuns (keyOf d.body) then s.finish d badField
    else if s.keyBusy d.queue d.body then s
    else if ((s.stashOf c.lease).at (keyOf d.body)).isSome then s.finish d badField
    else if n = 0 then s.finish d doneEmpty
    else if !s.within d.queue (fieldOf d.body 24 6) n then s.finish d noLease
    else if s.restoring then s
    else s.actPut d)

def execStashGet (d : Desc) (s : State) : Result :=
  s.onDesc d 0x73 (fun s =>
    let c := s.queue d.queue
    let n := fieldOf d.body 32 8
    let e := ((s.stashOf c.lease).at (keyOf d.body)).filter (fun e => e.live && !e.dying)
    let sizeOff := match e with | some e => e.length != n | none => false
    if fieldBits d.body 21 7 1 ≠ 0 ∨ !fieldZero d.body 22 24 ∨ !fieldZero d.body 30 32
        ∨ !fieldZero d.body 40 60 then s.finish d badField
    else if s.keyBusy d.queue d.body then s
    else if sizeOff then s.finish d badField
    else if n = 0 then s.finish d doneEmpty
    else if !s.within d.queue (fieldOf d.body 24 6) n then s.finish d noLease
    else match e with
      | none => s.runNow d 0x73 (fun s => (s.count 0x78BB 6 1, outcm stDone bit31 0))
      | some _ =>
        (s.getCount c.lease (keyOf d.body) true false).handXfer d 0x73 (d.queue.toNat % 4))

/-- A waiting put is placed as soon as it fits, unless its key has come to exist (R136, R137). -/
def State.retryPuts (s : State) (l : Nat) (ws : List StashWait) : State :=
  ws.foldl (fun s w =>
    let x := s.stashOf l
    let n := fieldOf w.body 32 8
    let gone := fun (s : State) => s.setStash l { x with waits := x.waits.filter (fun y =>
      !(y.queue == w.queue && y.seq == w.seq)) }
    if (x.at (keyOf w.body)).isSome then (gone s).complete w.queue w.seq badField
    else match stashPlace (s.lease l) x.entries n with
    | none => s
    | some t =>
      let s := gone s
      (s.chargePut l w.queue w.seq w.body w.step n t).handXfer
        { queue := w.queue, seq := w.seq, body := w.body } 0x72 (w.queue.toNat % 4)) s

def execStashRoomFreed (lease : Nat) (s : State) : Result :=
  if s.ready then .next (s.retryPuts lease (s.stashOf lease).waits) else .next s

/-- STASH_FULL_WAIT has run out for a waiting put (R137). -/
def execStashFullWaitExpiry (q seq : BitVec 16) (s : State) : Result :=
  let l := (s.queue q).lease
  let x := s.stashOf l
  if s.ready ∧ s.putWaits q seq then
    let s := s.setStash l { x with waits := x.waits.filter (fun w => !(w.queue == q && w.seq == seq)) }
    .next ((s.count 0x78BB 5 1).complete q seq (outcm stStashFull 0 0))
  else .next s

/-! ### Peer ranges (R287) -/

/-- A read of a peer range by transfer (q, seq) has ended: its data, or the end of the zero-length
read that makes its writes visible. -/
def State.peerReadEnds (s : State) (q seq : BitVec 16) (r : RemoteData) : State :=
  match s.xfer q seq with
  | none => s
  | some x =>
    match x.reads with
    | (off, n) :: rest =>
      (s.updXfer q seq (fun x => { x with
        reads := rest
        got := Tab.write x.got off { r with bytes := slice r.bytes 0 n } })).drive q seq
    | [] => if x.zeroRead then s.updXfer q seq (fun x => { x with zeroRead := false }) else s

def execPeerReadCompletion (q seq : BitVec 16) (r : RemoteData) (s : State) : Result :=
  if s.ready then .next (s.peerReadEnds q seq r) else .next s

/-- The switch did not complete the read: a poison response (R287). A zero-length read that times out
leaves its writes without proof of visibility, and the transfer fails from its first byte. -/
def execPeerTimeout (q seq : BitVec 16) (s : State) : Result :=
  match s.xfer q seq with
  | none => .next s
  | some x =>
    if !s.ready ∨ (x.reads = [] ∧ !x.zeroRead) then .next s
    else
      let s := s.count 0x7921 0xE 1
      if x.reads = [] then
        .next ((s.updXfer q seq (fun x => { x with zeroRead := false })).failXfer q seq stPoisonSrc 0)
      else .next (s.peerReadEnds q seq { bytes := [], poison := [0] })

end Sys2Proof.Machine
end

