-- ==== Sys2Proof/Machine/Aborts.lean ====
section
/-!
DEFINITION. How the uncompleted descriptors of a queue are ended from outside: an owner abort (R300)
and the revocation of a lease (R244).
-/

namespace Sys2Proof.Machine

open Sys2Proof

/-- A pass that ends with `o` before its loom has accepted it: its queue's chain, which a START opens,
fails, and an END closes it (R72, R300). -/
def State.failPass (s : State) (die l : Nat) (q : BitVec 16) (bwd : Bool) (body : BitVec 352)
    (o : Outcm) : State :=
  let f := pickFields bwd body
  let m := s.loom die l
  if f.chain = 0 ∨ f.rows = 0 ∨ (f.chain = 1 ∧ (f.kIndex ≠ 0 ∨ f.len < 2)) then s
  else match chainVerdict m q bwd body with
    | .go =>
      let s := (s.setLoom die l (openChain m q bwd body)).failChain die l o
      if f.chain = 3 then (s.setLoom die l { s.loom die l with chain := none }).settleDie die else s
    | _ => s

/-- A pick leaves its loom without having run; its slots are released and its chain fails (R72,
R218). Its detail names the loom and no row (R79, log 59). -/
def State.cutPick (s : State) (die l : Nat) (q seq : BitVec 16) (st : Byte) (all : Bool) : State :=
  let m := s.loom die l
  let mine := fun (p : Pick) => p.queue == q && p.seq == seq
  match (m.picks ++ m.waiting).find? mine with
  | none => s
  | some p =>
    if p.started && !all then s
    else
      let o := pickOutcm st l 0xFFFF (pickFields p.bwd p.body)
      let s := s.setLoom die l { m with picks := m.picks.filter (fun p => !mine p)
                                        waiting := m.waiting.filter (fun p => !mine p) }
      let s := s.releaseClaims die q seq
      if m.picks.any mine then (s.endUnrun die l p o).settleDie die
      else ((s.failPass die l q p.bwd p.body o).complete q seq o).settleDie die

/-- A vector instruction leaves its engine without having run; its detail names the engine and no row (R96,
log 59). -/
def State.cutVec (s : State) (die e : Nat) (q seq : BitVec 16) (st : Byte) (all : Bool) : State :=
  let mine := fun (j : VecJob) => j.queue == q && j.seq == seq
  match (s.vec die e).find? mine with
  | none => s
  | some j =>
    if j.started && !all then s
    else
      let s := s.setVec die e ((s.vec die e).filter (fun j => !mine j))
      ((s.releaseClaims die q seq).complete q seq (vecOutcm st e vecNoRow)).settleDie die

/-- The byte of the sequence at which a cut transfer stops: the start of the destination line that
holds byte `n` (log 38). -/
def cutPoint (rows : List XRow) (n : Nat) : Nat :=
  match rows.find? (fun r => decide (r.offset ≤ n ∧ n < r.offset + r.length)) with
  | some r =>
    (match r.dst with
     | .mem a => max r.offset (n - (a + (n - r.offset)) % 64)
     | _ => n)
  | none => n

/-- How far a running transfer had come when it was cut is a matter of timing: a free value
(log 38). -/
def State.cutXfer (s : State) (x : Xfer) (st : Byte) : State :=
  if x.opcode = 0x12 then
    match s.sendOf x with
    | some m => s.endMcast x m (outcm st 0 0)
    | none => s.retireXfer x (outcm st 0 0)
  else
    let rows := s.xferRows x
    let total := (rows.map XRow.length).sum
    let k := s.draw
    let moved := x.reads.isEmpty && x.todo.isEmpty && (s.openXacts x.queue x.seq).isEmpty && x.sent
    let off := if moved then cutPoint rows (k.1 % (total + 1)) else 0
    let s := k.2.failXfer x.queue x.seq st off
    match s.xfer x.queue x.seq with
    | some y => if st = stHostEpoch ∧ x.opcode ≠ 0xB1 then (s.dropXacts y.queue y.seq).endAtEpoch y else s.endXfer y
    | none => s

/-- A transfer ends with `st`. One that is not accepted has not started; a PRU_ATOMIC that has started
runs on (R300). -/
def State.cutShuttle (s : State) (q seq : BitVec 16) (st : Byte) (all : Bool) : State :=
  match s.xfer q seq with
  | none => s
  | some x =>
    if !x.accepted then
      let l := (s.queue q).lease
      let s := if x.opcode = 0x72 then s.endPut l q seq none
        else if x.opcode = 0x73 then s.getCount l (keyOf x.body) false false
        else s
      s.retireXfer x (outcm st 0 0)
    else if x.opcode = 0xB1 ∧ !all then s
    else s.cutXfer x st

/-- The descriptor no longer waits for a move (Table TIR-5). -/
def TierObj.unwait (o : TierObj) (q seq : BitVec 16) : TierObj :=
  { o with waiters := o.waiters.filter (fun w => !(w.1 == q && w.2.1 == seq)) }

/-- Nothing in the device waits on behalf of (q, seq). -/
def State.dropWaits (s : State) (q seq : BitVec 16) : State :=
  let l := (s.queue q).lease
  let x := s.stashOf l
  let s := if x.waits.any (fun w => w.queue == q && w.seq == seq) then
      s.setStash l { x with waits := x.waits.filter (fun w => !(w.queue == q && w.seq == seq)) }
    else s
  { s with
    outcomeWaits := s.outcomeWaits.filter (fun w => !(w.queue == q && w.seq == seq))
    seals := s.seals.filter (fun w => !(w.queue == q && w.seq == seq))
    objects := s.objects.map (fun e => (e.1, e.2.unwait q seq))
    peruo := { s.peruo with
      xacts := s.peruo.xacts.filter (fun w => !(w.queue == q && w.seq == seq)) } }

/-- (q, seq) takes part in a move that runs (Table TIR-5): the PROMOTEs of a PROMOTING object and the
EVICT that began a demotion. -/
def State.inMove (s : State) (q seq : BitVec 16) : Bool :=
  s.objects.any (fun e => e.2.waiters.any (fun w => w.1 == q && w.2.1 == seq
    && ((e.2.state == .promoting && w.2.2 == 0xA2) || (e.2.state == .demoting && w.2.2 == 0xA3))))

/-- The outcome of a descriptor that ends before any engine has it: a pick names its loom and K_INDEX, a vector
instruction its engine (R79, R96), as their bodies have them, ANY or not (log 59). -/
def unrunOutcm (st : Byte) (f : Fetched) : Outcm :=
  let n := f.opcode.toNat
  if n = 0x30 ∨ n = 0x70 then
    let p := pickFields (n == 0x70) f.body
    pickOutcm st p.loom 0xFFFF p
  else if 0x40 ≤ n ∧ n ≤ 0x48 then vecOutcm st (vecFields f.body).engine vecNoRow
  else outcm st 0 0

/-- One uncompleted descriptor of queue `q` is ended with status `st`. `all` ends started ones too. -/
def State.cutOne (s : State) (q : BitVec 16) (st : Byte) (all : Bool) (f : Fetched) : State :=
  let die := (s.queue q).die
  let o := outcm st 0 0
  match f.phase with
  | .done _ _ _ => s
  | .waiting =>
    let o := unrunOutcm st f
    let s := if f.opcode = 0x30 ∨ f.opcode = 0x70 then
        let bwd := f.opcode == 0x70
        s.failPass die (pickFields bwd f.body).loom q bwd f.body o
      else s
    (s.dropWaits q f.seq).complete q f.seq o
  | .running e =>
    match e with
    | .loom l => s.cutPick die l q f.seq st all
    | .vec n => s.cutVec die n q f.seq st all
    | .shuttle _ => s.cutShuttle q f.seq st all
    | .seqCores =>
      (match s.cores.find? (fun c => c.2.running && c.2.startQ == q && c.2.startSeq == f.seq) with
       | some c => s.endProgram (c.1 / 64) (c.1 % 64) o
       | none => s)
    | .collective =>
      (match s.peruo.collWaits.find? (fun w => w.queue == q && w.seq == f.seq) with
       | some w => (if st = stAborted then s.spoilColl w else s).endColl w o
       | none => s.complete q f.seq o)
    | .tier =>
      if s.inMove q f.seq && !all then s else (s.dropWaits q f.seq).complete q f.seq o
    | _ => (s.dropWaits q f.seq).complete q f.seq o

/-- One descriptor of a queue whose lease is revoked: a pending one ends with NO_LEASE, and one that has
started runs on (R244, R300). -/
def State.cutPending (s : State) (q : BitVec 16) (f : Fetched) : State :=
  match f.phase with
  | .running (.shuttle _) =>
    if (s.xfer q f.seq).any (fun x => x.accepted) then s else s.cutOne q stNoLease false f
  | .running .seqCores => s
  | _ => s.cutOne q stNoLease false f

/-- Every uncompleted descriptor of queue `q`, in sequence order. -/
def State.cutQueue (s : State) (q : BitVec 16) (st : Byte) (all : Bool) : State :=
  ((s.queue q).fetched.filter (fun f => match f.phase with | .done _ _ _ => false | _ => true)).foldl
    (fun s f => s.cutOne q st all f) s

end Sys2Proof.Machine
end

