-- ==== Sys2Proof/Machine/Dies.lean ====
section
/-!
DEFINITION. Roles of dies, and the forecasts of spares (R15, R392, R393).
-/

namespace Sys2Proof.Machine

open Sys2Proof

/-! ### Row repair (R391) -/

/-- Repairs are counted per bank of a memory die. -/
def repairKey (die channel bank : Nat) : Nat := die * 2 ^ 32 + channel * 2 ^ 16 + bank

def State.dieRepairs (s : State) (d : Nat) : Tab Nat :=
  s.repairs.filter (fun e => e.1 / 2 ^ 32 == d)

/-- PPR_DONE. -/
def State.pprDone (s : State) (d : Nat) : Nat := ((s.dieRepairs d).map Prod.snd).sum

/-- PPR_LEFT: the lowest over its banks (log 7). -/
def State.pprLeft (s : State) (d : Nat) : Nat :=
  Config.pprLeft d - ((s.dieRepairs d).map Prod.snd).foldl max 0

/-- Memory dies 0x22 to 0x51 (Table REC-12). -/
def memoryDies : List Nat := rangeFrom 0x22 0x30

/-! ### Forecasts (Table REC-10) -/

def countState (s : State) (lo n st : Nat) : Nat :=
  ((rangeFrom lo n).filter (fun d => s.dieState d == st)).length

/-- Power stages that deliver current. -/
def State.activeStages (s : State) : Nat := 7 - s.power.stageFailed.length

def worseNand (s : State) : Nat := min s.journal.nand0.good s.journal.nand1.good

/-- What remains of kind `k`. -/
def State.spareRemaining (s : State) (k : Nat) : Nat :=
  match k with
  | 0 => countState s 0 26 1
  | 1 => countState s 82 5 1
  | 2 => s.peruo.sparesLeft
  | 3 => s.activeStages - 6
  | 4 => (memoryDies.map s.pprLeft).foldl min (s.pprLeft 0x22)
  | _ => worseNand s - 1024

/-- What has been used of kind `k` since manufacture: the inventory as shipped less what remains. -/
def State.spareUsed (s : State) (k : Nat) : Nat :=
  match k with
  | 0 => 2 - s.spareRemaining 0
  | 1 => 1 - s.spareRemaining 1
  | 2 => 8 - s.spareRemaining 2
  | 3 => 1 - s.spareRemaining 3
  | 4 => (memoryDies.map s.pprDone).sum
  | _ => poolBlocks - worseNand s

def State.hours (s : State) : Nat := Tab.read s.journal.lifetime 0 1

/-- SPARE_FORECAST (R393). -/
def State.forecast (s : State) (k : Nat) : Nat :=
  let used := s.spareUsed k
  if used = 0 then 0xFFFFFFFF
  else min 0xFFFFFFFF (s.spareRemaining k * s.hours / (used * 730))

/-- The forecast has fallen below the months of rated life that remain (R393). -/
def State.forecastLow (s : State) (k : Nat) : Bool :=
  decide (s.forecast k < (61320 - s.hours) / 730)

/-- Runs `f` and posts an event for each forecast that it takes below the rated life. -/
def State.watchForecasts (s : State) (f : State → State) : State :=
  let t := f s
  ((List.range 6).filter (fun k => t.forecastLow k && !s.forecastLow k)).foldl
    (fun (t : State) k => t.event 0x6040 k srcDevice (t.forecast k) 0) t

/-! ### Role changes (R392) -/

/-- A ROLE record of kind `kind` (log 40) and its lifetime count. -/
def State.roleRecord (s : State) (kind a b : Nat) : State :=
  let s := s.record 0x06 0 (toLe 1 kind ++ toLe 2 a ++ toLe 1 b)
  { s with journal := s.journal.live 5 1 }

/-- Die `d` enters state `st`: journaled, in force, and posted (R15, R392). -/
def State.setDieState (s : State) (d st : Nat) : State :=
  s.watchForecasts (fun s =>
    let s := s.roleRecord 0 d st
    ({ s with dies := Tab.write s.dies d st }).event 0x1010 d d st 0)

/-- One of the spares among dies lo to lo + n - 1 (R14, log 12). -/
def State.pickSpare (s : State) (lo n : Nat) : Option Nat :=
  let l := (rangeFrom lo n).filter (fun d => s.dieState d == 1)
  match l with
  | [] => none
  | d :: r => some ((d :: r).getD (Config.sparePick s.fresh % (r.length + 1)) d)

end Sys2Proof.Machine
end

