-- ==== Sys2Proof/Machine/Spindle.lean ====
section
/-!
DEFINITION. The spindle codec (R229 to R231): line codes, frames and their sectors.
-/

namespace Sys2Proof.Machine

open Sys2Proof

/-- CLASS of Table TIR-3. -/
inductive FrameClass where
  | raw | mant8 | mant16 | scale | acc
  deriving DecidableEq, Repr

def FrameClass.code (c : FrameClass) : Nat :=
  match c with
  | .raw => 0
  | .mant8 => 1
  | .mant16 => 2
  | .scale => 3
  | .acc => 4

/-- Element width in bytes (R229). -/
def FrameClass.width (c : FrameClass) : Nat :=
  match c with
  | .mant16 => 2
  | .acc => 8
  | _ => 1

/-- A line as the encoder takes it: its 64 bytes, whether it is poisoned, and whether every element of
it lies in a zero or not-a-number skein. -/
structure LineIn where
  bytes  : List Byte
  poison : Bool
  dead   : Bool
  deriving DecidableEq, Repr

/-- A stored line: tag and bytes (Table TIR-2). -/
structure LineOut where
  tag   : Nat
  bytes : List Byte
  deriving DecidableEq, Repr

/-- `n` elements of `w` bytes each. -/
def chunks (n w : Nat) (l : List Byte) : List Nat :=
  match n with
  | 0 => []
  | k + 1 => leNat (l.take w) :: chunks k w (l.drop w)

/-- `v`, of `b` bits, fits in `w` bits of two's complement. -/
def fitsBits (b w v : Nat) : Bool := decide (-(2 ^ (w - 1) : Int) ≤ signedOf b v ∧ signedOf b v < 2 ^ (w - 1))

/-- The smallest width below `b` bits in which every element fits. -/
def narrowWidth (b : Nat) (es : List Nat) : Option Nat :=
  (rangeFrom 1 (b - 1)).find? (fun w => es.all (fitsBits b w))

/-- The elements at `w` bits each, packed from bit 0. -/
def packBits (w : Nat) (es : List Nat) : Nat :=
  match es with
  | [] => 0
  | e :: r => e % 2 ^ w + 2 ^ w * packBits w r

/-- NARROW, when it applies and is shorter than LITERAL (Table TIR-2). -/
def narrowLine (c : FrameClass) (l : List Byte) : Option LineOut :=
  let n := 64 / c.width
  let es := chunks n c.width l
  match narrowWidth (8 * c.width) es with
  | none => none
  | some w =>
    let body := n * w / 8
    if 1 + body < 64 then some { tag := 3, bytes := toLe 1 w ++ toLe body (packBits w es) } else none

/-- The code of one line: the first of Table TIR-2 that applies. `prev` is what the previous line of the
frame reads as; none at line 0 and after a poisoned line (log 39). -/
def encodeLine (c : FrameClass) (prev : Option (List Byte)) (l : LineIn) : LineOut :=
  if l.poison then { tag := 5, bytes := [] }
  else if l.dead then { tag := 6, bytes := [] }
  else if l.bytes.all (· == 0) then { tag := 0, bytes := [] }
  else if prev = some l.bytes then { tag := 1, bytes := [] }
  else if l.bytes.all (· == l.bytes.headD 0) then { tag := 4, bytes := [l.bytes.headD 0] }
  else match narrowLine c l.bytes with
    | some o => o
    | none => { tag := 2, bytes := l.bytes }

/-- What a line reads as once stored. -/
def LineIn.stored (l : LineIn) : Option (List Byte) :=
  if l.poison then none
  else if l.dead then some (List.replicate 64 0)
  else some l.bytes

/-- The lines of a frame in order. -/
def encodeLines (c : FrameClass) (prev : Option (List Byte)) (ls : List LineIn) : List LineOut :=
  match ls with
  | [] => []
  | l :: r => encodeLine c prev l :: encodeLines c l.stored r

/-- The tag map: 3 bits a line, little-endian across the map. -/
def tagMap (os : List LineOut) : List Byte := toLe 384 (packBits 3 (os.map LineOut.tag))

def frameBody (c : FrameClass) (ls : List LineIn) : List Byte :=
  let os := encodeLines c none ls
  tagMap os ++ (os.map LineOut.bytes).flatten

/-- Sectors that a body of `n` bytes takes with its header. -/
def sectorsFor (n : Nat) : Nat := ceilDiv (64 + n) 512

/-- A stored frame (Table TIR-3), without the fill of its last sector. -/
def encodeFrame (c : FrameClass) (frame : Nat) (ls : List LineIn) : List Byte :=
  let body := frameBody c ls
  let bodyCrc := if c = .scale then (crc32c body).toNat else 0
  let head := [1] ++ toLe 1 c.code ++ toLe 2 (sectorsFor body.length) ++ toLe 4 body.length
    ++ toLe 8 frame ++ toLe 4 bodyCrc ++ List.replicate 40 0
  head ++ toLe 4 (crc32c head).toNat ++ body

/-! ### Layout of objects (R238) -/

/-- The class of the frame at object offset `off`. -/
def frameClass (opf : Byte) (rows cols off : Nat) : FrameClass :=
  match decodeOpf opf.toNat with
  | none => .raw
  | some o =>
    if off < (skeinLayout o rows cols).1 then .scale
    else match o.fmt with
      | .sk8 => .mant8
      | .sk16 => .mant16
      | .acc64 => .acc
      | _ => .raw

/-- The 1,024 lines of the frame at local address `a`. -/
def State.frameLines (s : State) (a base : Nat) (opf : Byte) (rows cols : Nat) : List LineIn :=
  (List.range 1024).map (fun i =>
    let l := a / 64 + i
    { bytes := s.bytesAt (64 * l) 64, poison := s.linePoisoned l,
      dead := s.lineDead base opf rows cols (64 * l - base) })

/-- Sectors of the frame at offset `off` of an object at `base`, as its contents stand: those of its stored
form (R229). -/
def State.frameSectors (s : State) (base : Nat) (opf : Byte) (rows cols off : Nat) : Nat :=
  ceilDiv (encodeFrame (frameClass opf rows cols off) (off / 65536)
    (s.frameLines (base + off) base opf rows cols)).length 512

/-- Sectors of an object of `size` bytes whose every frame is stored. -/
def State.objSectors (s : State) (j size : Nat) (opf : Byte) (rows cols : Nat) : Nat :=
  ((List.range (size / 65536)).map (fun f =>
    s.frameSectors (objAddr j) opf rows cols (65536 * f))).sum

/-- The frames of object `j` that have been written: one never written takes no sector (R230). -/
def State.writtenFrames (s : State) (j : Nat) (o : TierObj) : List Nat :=
  (List.range (o.size / 65536)).filter (fun f => s.frames.contains ((objAddr j + 65536 * f) / 65536))

/-- Sectors that the tier 2 frames of object `j` hold: those of the frames that stand while tier 1 is
authoritative, else those of its contents, which only a RESERVED object's writes change in place (R238). -/
def State.heldSectors (s : State) (j : Nat) (o : TierObj) : Nat :=
  if o.state = .residentT2 ∧ !o.packed then
    ((s.writtenFrames j o).map (fun f => s.frameSectors (objAddr j) o.opf o.rows o.cols (65536 * f))).sum
  else o.sectors

/-- Logical bytes of the tier 2 frames that object `j` holds (T2_LOGICAL_BYTES). -/
def State.heldLogical (s : State) (j : Nat) (o : TierObj) : Nat :=
  if o.state = .residentT2 then 65536 * (s.writtenFrames j o).length
  else if 0 < o.sectors then 65536 * o.logical else 0

/-- Omitted lines of the frame at offset `off`. -/
def State.frameOmits (s : State) (base : Nat) (opf : Byte) (rows cols off : Nat) : Nat :=
  ((encodeLines (frameClass opf rows cols off) none
    (s.frameLines (base + off) base opf rows cols)).filter (fun o => o.tag == 6)).length

/-- Counts the encoding of every frame of an object at the frame's home: logical and raw bytes written, frames
and omitted lines (Table TIR-9). -/
def State.countEncode (s : State) (j size : Nat) (opf : Byte) (rows cols : Nat) : State :=
  (List.range (size / 65536)).foldl (fun (s : State) f =>
    let o := 65536 * f
    let h := hubCounter (homeT2 s.activeHubs o)
    let n := s.frameSectors (objAddr j) opf rows cols o
    (((s.count h 6 1).count h 7 (s.frameOmits (objAddr j) opf rows cols o)).count h 5 65536).count h 3
      (512 * n)) s

/-- Counts the read of the frames `fs` of an object in tier 2 by a move. -/
def State.countDecode (s : State) (j : Nat) (o : TierObj) (fs : List Nat) : State :=
  fs.foldl (fun (s : State) f =>
    let h := hubCounter (homeT2 s.activeHubs (65536 * f))
    (s.count h 4 65536).count h 2 (512 * s.frameSectors (objAddr j) o.opf o.rows o.cols (65536 * f))) s

/-- Counts the bytes of an object's tier 1 granules that a move reads (`w` false) or writes. -/
def State.countGranules (s : State) (size : Nat) (w : Bool) : State :=
  (List.range (size / 4096)).foldl (fun (s : State) g =>
    s.count (hubCounter (homeT1 s.activeHubs (4096 * g))) (if w then 1 else 0) 4096) s

/-- Sectors in use by tier 2 frames of extents that have been written, and the frames themselves. -/
def State.extentSectors (s : State) : Nat × Nat :=
  let fs := s.frames.filter (fun f => spaceOf (65536 * f) == .tier2)
  ((fs.map (fun f => s.frameSectors (65536 * f) 0 0 0 0)).sum, fs.length)

end Sys2Proof.Machine
end

