-- ==== Sys2Proof/Machine/Tiers.lean ====
section
/-!
DEFINITION. Leases, the ledger and objects between tiers (10).
-/

namespace Sys2Proof.Machine

open Sys2Proof

/-! ### The ledger (R233, R234) -/

def hubT1 : Nat := 96000000000
def hubT2 : Nat := 512000000000
def codecHeadroom : Nat := 64000000000

/-- T1_BYTES and T2_RAW_BYTES (R17). -/
def State.t1Served (s : State) : Nat := s.activeHubs.length * hubT1
def State.t2Served (s : State) : Nat := s.activeHubs.length * hubT2

def State.reserveT1 (s : State) : Nat := s.obj 0x2801 1 0
def State.reserveT2 (s : State) : Nat := s.obj 0x2801 2 300000000000

def Lease.t1Charge (l : Lease) : Nat := l.t1Quota + 4096 * l.q1
def Lease.t2Charge (l : Lease) : Nat := l.t2Quota + 4096 * l.q2

/-- Raw bytes of a reserved frame (R238). -/
def frameCharge : Nat := 66560

/-- The leases that hold quota. -/
def State.heldLeases (s : State) : List Lease :=
  (s.leases.map Prod.snd).filter (fun l => l.state == .active)

/-- One hub's share of `v` bytes over `n` hubs, in whole units (R234, log 41). -/
def hubShare (v n unit : Nat) : Nat := roundUp (ceilDiv v n) unit

/-- R234 for tier 1 over a set of leases: the pool, and each hub's share. -/
def poolT1 (s : State) (ls : List Lease) : Bool :=
  decide (s.reserveT1 + (ls.map Lease.t1Charge).sum ≤ s.t1Served)

def poolT2 (s : State) (ls : List Lease) : Bool :=
  decide (codecHeadroom + s.reserveT2 + (ls.map Lease.t2Charge).sum ≤ s.t2Served)

def hubPools (s : State) (ls : List Lease) : Bool :=
  let n := s.activeHubs.length
  let one := fun (l : Lease) => hubShare l.t1Quota n 4096 + hubShare (4096 * l.q1) n 4096
  let two := fun (l : Lease) => hubShare l.t2Quota n 65536 + hubShare (4096 * l.q2) n 65536
  decide (0 < n) && decide (ceilDiv s.reserveT1 n + (ls.map one).sum ≤ hubT1)
    && decide (ceilDiv (codecHeadroom + s.reserveT2) n + (ls.map two).sum ≤ hubT2)

/-! ### Quotas in use (R237, R238) -/

def TierObj.frames (o : TierObj) : Nat := o.size / 65536

/-- The owner's tier 2 charge of an object that holds `sectors` (R238). -/
def objCharge (o : TierObj) (sectors : Nat) : Nat :=
  if o.packed then 512 * sectors else frameCharge * o.frames

def State.ownedCharge (s : State) (n : Nat) : Nat :=
  ((s.objects.filter (fun e => e.2.owner == n)).map (fun e => objCharge e.2 e.2.sectors)).sum

/-- Free T2_QUOTA of a lease. -/
def State.freeT2 (s : State) (n : Nat) : Nat :=
  let l := s.lease n
  l.t2Quota - (l.t2Bytes / 65536 * frameCharge + s.ownedCharge n)

def State.pinnedBytes (s : State) (n : Nat) : Nat :=
  ((s.objects.filter (fun e => e.2.pins.contains n)).map (fun e => e.2.size)).sum

/-- `size` more bytes can be pinned by a lease. -/
def State.pinRoom (s : State) (n size : Nat) : Bool :=
  let l := s.lease n
  decide (l.t1Bytes + s.pinnedBytes n + size ≤ l.t1Quota)

/-! ### Moves (R239 to R242) -/

def State.setObj (s : State) (j : Nat) (o : TierObj) : State :=
  { s with objects := Tab.write s.objects j o }

/-- The window of an object as memory. -/
def State.objMem (s : State) (j size : Nat) : Mem :=
  let a := objAddr j
  { cells := s.mem.cells.filter (fun c => decide (a ≤ c.1 ∧ c.1 < a + size))
    poison := s.mem.poison.filter (fun l => decide (a ≤ 64 * l ∧ 64 * l < a + size)) }

/-- Every copy of an object's lines is recalled with what it holds, since a move changes their homes (R228, log
80), and every lost line is read: it takes stored poison (R243), so that a move carries it along. -/
def State.gatherObj (s : State) (j size : Nat) : State :=
  let lo := objAddr j / 64
  let hi := (objAddr j + size - 1) / 64
  let s := s.drain lo hi true
  let ours := (s.coh.dir.map Prod.fst).filter (fun l => decide (lo ≤ l ∧ l ≤ hi))
  let s := (ours.foldl (fun (s : State) l => s.recallLine l) s).dropCopies lo hi
  if s.coh.losses = [] then s
  else
    let lost := (linesOf (objAddr j) size).filter (fun l => s.lineLost l)
    let s := lost.foldl (fun (s : State) l => s.storePoison l 5 0xFF) s
    s.settleLines lost

/-- A move begins: PROMOTING keeps the tier 2 frames as they stand. -/
def State.beginPromote (s : State) (j : Nat) (o : TierObj) : State :=
  let s := s.gatherObj j o.size
  s.setObj j { o with state := .promoting, sectors := s.heldSectors j o
                      logical := (s.writtenFrames j o).length, backing := s.objMem j o.size }

def State.beginDemote (s : State) (j : Nat) (o : TierObj) (byDevice : Bool) : State :=
  (s.gatherObj j o.size).setObj j { o with state := .demoting, byDevice := byDevice }

/-- The old frames stand again. -/
def State.restoreFrames (s : State) (j : Nat) (o : TierObj) : State :=
  let fs := (s.writtenFrames j o).map (fun f => objAddr j / 65536 + f)
  let s := s.clearRange (objAddr j) o.size
  let cells := o.backing.cells.foldl (fun m c => cellsPut m c.1 c.2) s.mem.cells
  { s with mem := { cells := cells, poison := o.backing.poison.foldl insertNat s.mem.poison }
           frames := fs.foldl insertNat s.frames }

def emptyMem : Mem := { cells := [], poison := [] }

/-- An object is removed: its window holds nothing (R237, R239). -/
def State.freeObj (s : State) (j size : Nat) : State :=
  let s := s.clearRange (objAddr j) size
  { s with objects := Tab.remove s.objects j }

/-- DETAIL of an EVICT that leaves `n` other pins (Table TIR-5). -/
def pinnedDetail (n : Nat) : Outcm := outcm stDone (bit31 + n % 65536) 0

/-- TIER_PROMOTE and TIER_EVICT of a running descriptor, by the state the object is in (Table TIR-5). -/
def State.tierAct (s : State) (q seq : BitVec 16) (op : Byte) (j : Nat) : State :=
  let x := (s.queue q).lease
  match Tab.find s.objects j with
  | none => s.complete q seq badField
  | some o =>
    let wait := { o with waiters := o.waiters ++ [(q, seq, op)] }
    if op = 0xA2 then
      match o.state with
      | .residentT2 =>
        if s.pinRoom x o.size then
          s.beginPromote j { wait with pins := [x], movePins := [x] }
        else s.complete q seq noLease
      | .promoting =>
        if o.pins.contains x then s.setObj j wait
        else if s.pinRoom x o.size then
          s.setObj j { wait with pins := insertNat o.pins x, movePins := insertNat o.movePins x }
        else s.complete q seq noLease
      | .residentT1 =>
        if o.pins.contains x then s.complete q seq (outcm stDone bit31 0)
        else if s.pinRoom x o.size then
          (s.setObj j { o with pins := insertNat o.pins x, byDevice := false }).complete q seq
            (outcm stDone bit31 0)
        else s.complete q seq noLease
      | .demoting => s.setObj j wait
    else
      match o.state with
      | .residentT2 => s.complete q seq badField
      | .promoting => s.setObj j wait
      | .residentT1 =>
        if !o.pins.contains x then s.complete q seq badField
        else
          let rest := o.pins.filter (fun p => p ≠ x)
          if rest = [] then s.beginDemote j wait false
          else ((s.setObj j { o with pins := rest }).count 0x7909 2 1).complete q seq
            (pinnedDetail rest.length)
      | .demoting => if o.pins.contains x then s.setObj j wait else s.complete q seq badField

/-- The descriptors of `ws` with opcode `op` complete with `out`; the others are decided anew. -/
def State.settleWaiters (s : State) (j : Nat) (ws : List (BitVec 16 × BitVec 16 × Byte)) (op : Byte)
    (out : Outcm) : State :=
  let s := (ws.filter (fun w => w.2.2 == op)).foldl (fun (s : State) w => s.complete w.1 w.2.1 out) s
  (ws.filter (fun w => w.2.2 != op)).foldl (fun (s : State) w => s.tierAct w.1 w.2.1 w.2.2 j) s

/-- An object that no lease pins any more, in tier 1: one that a revoked lease owned is freed, and the
device demotes another's (R242). -/
def State.unpinned (s : State) (j : Nat) : State :=
  match Tab.find s.objects j with
  | none => s
  | some o =>
    if o.pins ≠ [] then s
    else if (s.lease o.owner).state ≠ .active then
      let s := s.freeObj j o.size
      o.waiters.foldl (fun (s : State) w => s.complete w.1 w.2.1 badField) s
    else if o.state = .residentT1 then s.beginDemote j o true
    else s

/-- The mantissas of zero and not-a-number skeins are not stored: every frame of the object is encoded (R229). -/
def State.omitAll (s : State) (j : Nat) (o : TierObj) : State :=
  if (decodeOpf o.opf.toNat).isNone then s
  else (List.range o.frames).foldl (fun (s : State) f => s.omitFrame j o (65536 * f)) s

/-- The writes and records that a move held are served (R240). -/
def State.moveOver (s : State) : State :=
  (Tab.keys s.queues).foldl (fun (s : State) q => s.pump (BitVec.ofNat 16 q)) s.beginAll

/-- The move of object `j` ends (Table TIR-5, R242), and the writes that it held are served (R240). One that
touched a retired hub does not end so (R243). -/
def State.moveEnds (s : State) (j : Nat) : State :=
  match Tab.find s.objects j with
  | none => s
  | some o =>
    if o.doomed then s
    else match o.state with
    | .promoting =>
      let s := s.gatherObj j o.size
      let s := (s.countDecode j o (s.writtenFrames j o)).countGranules o.size true
      let s := (s.setObj j { o with state := .residentT1, waiters := [], movePins := [] }).count 0x7909 0 1
      let s := s.freshRange (objAddr j) o.size
      ((s.settleWaiters j o.waiters 0xA2 doneOk).unpinned j).moveOver
    | .demoting =>
      let s := (s.gatherObj j o.size).countGranules o.size false
      let n := s.objSectors j o.size o.opf o.rows o.cols
      let s := s.countEncode j o.size o.opf o.rows o.cols
      let fits := !o.packed
        || decide (512 * n ≤ s.freeT2 o.owner + objCharge o o.sectors)
      if fits then
        let s := (s.omitAll j o).setObj j
          { o with state := .residentT2, pins := [], waiters := [], sectors := n, logical := o.frames,
                   backing := emptyMem, byDevice := false }
        let s := (s.noteFrames (objAddr j) o.size).freshRange (objAddr j) o.size
        (((s.count 0x7909 1 1).settleWaiters j o.waiters 0xA3 doneOk).unpinned j).moveOver
      else if o.byDevice then
        let s := s.restoreFrames j o
        let s := s.setObj j { o with state := .residentT2, pins := [], waiters := [], backing := emptyMem,
                                     byDevice := false }
        (((s.count 0x7909 3 1).settleWaiters j o.waiters 0xA3 doneOk).unpinned j).moveOver
      else
        let s := s.setObj j { o with state := .residentT1, waiters := [] }
        ((s.count 0x7951 5 1).settleWaiters j o.waiters 0xA3 noLease).moveOver
    | _ => s

/-- The move of object `j` fails (R245). -/
def State.moveFails (s : State) (j : Nat) : State :=
  let stall := outcm stTierStall 0 0
  match Tab.find s.objects j with
  | none => s
  | some o =>
    match o.state with
    | .promoting =>
      let s := s.setObj j { o with state := .residentT2, pins := [], movePins := [], waiters := [],
                                   backing := emptyMem, doomed := false }
      let s := s.count 0x7909 3 1
      let ps := o.waiters.filter (fun w => w.2.2 == 0xA2)
      let es := o.waiters.filter (fun w => w.2.2 != 0xA2)
      let s := ps.foldl (fun (s : State) w => s.complete w.1 w.2.1 stall) s
      ((es.foldl (fun (s : State) w => s.complete w.1 w.2.1 doneOk) s).unpinned j).moveOver
    | .demoting =>
      let s := s.setObj j { o with state := .residentT1, waiters := [], doomed := false }
      ((s.count 0x7909 3 1).settleWaiters j o.waiters 0xA3 stall).moveOver
    | _ => s

/-! ### Tier descriptors (R246 to R248) -/

def execTierPromote (d : Desc) (s : State) : Result :=
  s.onDesc d 0xA2 (fun s =>
    let j := fieldOf d.body 16 2
    if !fieldZero d.body 18 60 ∨ 4095 < j ∨ (Tab.find s.objects j).isNone then s.finish d badField
    else if s.restoring then s
    else (s.handOver d .tier).tierAct d.queue d.seq 0xA2 j)

def execTierEvict (d : Desc) (s : State) : Result :=
  s.onDesc d 0xA3 (fun s =>
    let j := fieldOf d.body 16 2
    if !fieldZero d.body 18 60 ∨ 4095 < j ∨ (Tab.find s.objects j).isNone then s.finish d badField
    else (s.handOver d .tier).tierAct d.queue d.seq 0xA3 j)

def execTierFree (d : Desc) (s : State) : Result :=
  s.onDesc d 0xA1 (fun s =>
    let j := fieldOf d.body 16 2
    match Tab.find s.objects j with
    | none => s.finish d badField
    | some o =>
      if !fieldZero d.body 18 60 ∨ o.state ≠ .residentT2 ∨ o.pins ≠ []
          ∨ o.owner ≠ (s.queue d.queue).lease then s.finish d badField
      else s.runNow d 0xA1 (fun s => (s.freeObj j o.size, doneOk)))

/-- Size of the object a TIER_REGISTER describes; none for an illegal form (R247). -/
def registerSize (opf rows cols bytes : Nat) : Option Nat :=
  if opf = 0 then
    if rows = 0 ∧ cols = 0 ∧ bytes % 65536 = 0 ∧ bytes ≤ 2 ^ 34 then some bytes else none
  else match decodeOpf opf with
    | none => none
    | some o =>
      if bytes ≠ 0 then none
      else if rows = 0 ∨ cols = 0 then some 0
      else
        let n := (skeinLayout o rows cols).2
        if n ≤ 2 ^ 34 then some n else none

def execTierRegister (d : Desc) (s : State) : Result :=
  s.onDesc d 0xA0 (fun s =>
    let j := fieldOf d.body 16 2
    let kind := fieldOf d.body 18 1
    let opf := fieldOf d.body 19 1
    let rows := fieldOf d.body 20 4
    let cols := fieldOf d.body 24 4
    let x := (s.queue d.queue).lease
    let size := registerSize opf rows cols (fieldOf d.body 32 8)
    match size with
    | none => s.finish d badField
    | some n =>
      if 4095 < j ∨ 1 < kind ∨ !fieldZero d.body 28 32 ∨ !fieldZero d.body 40 60
          ∨ (Tab.find s.objects j).isSome then s.finish d badField
      else if n = 0 then s.finish d doneEmpty
      else if s.restoring then s
      else if kind = 0 ∧ s.freeT2 x < n / 65536 * frameCharge then s.finish d noLease
      else s.runNow d 0xA0 (fun s =>
        let o : TierObj :=
          { state := .residentT2, packed := kind == 1, owner := x, opf := BitVec.ofNat 8 opf, rows := rows,
            cols := cols, size := n, sectors := 0, pins := [], movePins := [], backing := emptyMem,
            waiters := [], byDevice := false, logical := 0, doomed := false }
        (((s.setObj j o).clearRange (objAddr j) n).freshRange (objAddr j) n, doneOk)))

/-- The object's window with `n` bytes of `src` in it and the poison of the source's lines. -/
def State.packFrom (s : State) (j src n : Nat) : State :=
  let a := objAddr j
  let bytes := s.bytesAt src n
  let bad := (List.range (n / 64)).filter (fun i => s.anyPoison (src + 64 * i) 64)
  let s := (s.clearRange a n).storeBytes a bytes
  let s := (s.noteFrames a n).freshRange a n
  bad.foldl (fun (s : State) i => s.storePoison (a / 64 + i) 1 0xFF) s

def execTierPack (d : Desc) (s : State) : Result :=
  s.onDesc d 0xA4 (fun s =>
    let j := fieldOf d.body 16 2
    let x := (s.queue d.queue).lease
    match Tab.find s.objects j, decodeAddr s (fieldOf d.body 24 8) with
    | some o, .here src =>
      if !fieldZero d.body 18 24 ∨ !fieldZero d.body 32 60 ∨ o.state ≠ .residentT2 then
        s.finish d badField
      else if s.restoring then s
      else if !(s.within d.queue src o.size) ∨ o.owner ≠ x then s.finish d noLease
      else s.runNow d 0xA4 (fun s =>
        let bad := s.anyPoison src o.size
        let s := s.noteRead src o.size
        let t := s.packFrom j src o.size
        let n := t.objSectors j o.size o.opf o.rows o.cols
        if !o.packed || decide (512 * n ≤ s.freeT2 o.owner + objCharge o o.sectors) then
          ((t.countEncode j o.size o.opf o.rows o.cols).setObj j { o with sectors := n, logical := o.frames },
            if bad then outcm stPoisonSrc 0 0 else outcm stDone n 0)
        else (s.count 0x7909 9 1, noLease))
    | _, _ => s.finish d badField)

def execMoveEnds (obj : Nat) (s : State) : Result :=
  if s.ready then .next (s.moveEnds obj) else .next s

/-- A device demotion that stalled is tried again after T2_STALL_TIMEOUT (R242). -/
def execDemotionRetry (obj : Nat) (s : State) : Result :=
  match Tab.find s.objects obj with
  | some o =>
    if s.ready ∧ o.state = .residentT1 ∧ o.byDevice ∧ o.pins = [] then
      .next (s.beginDemote obj o true)
    else .next s
  | none => .next s

/-! ### Stalls (R245) -/

/-- A late request is counted, with the cycles of its wait under their cause (Table TIR-9). -/
def execT2LateThresholdExpiry (hub : Nat) (cause : LateCause) (fCycles : Nat) (s : State) : Result :=
  if s.ready ∧ hub < 8 then
    let code := match cause with
      | .retrain => 0xC
      | .eccRetry => 0xD
      | .codecBacklog => 0xE
      | .controllerFault => 0xF
    .next ((s.count (hubCounter hub) 0xB 1).count (hubCounter hub) code fCycles)
  else .next s

/-- An end of the transfer lies in tier 2. -/
def State.touchesTier2 (s : State) (x : Xfer) : Bool :=
  let t2 := fun (p : Spot) => match p with
    | .mem a => s.inTier2 a
    | .stash two => two
    | _ => false
  (s.xferRows x).any (fun r => t2 r.src || t2 r.dst)

/-- A delivery of a SHUT_MCAST that tier 2 did not serve goes out marked poisoned (R222). None where no such
delivery is held. -/
def State.stallDelivery (s : State) (m : McastSend) (i : Nat) : Option State :=
  if !m.held.any (fun d => d.index == i) then none
  else some (s.setSend { m with
    held := m.held.map (fun d => if d.index = i then { d with poison := true } else d)
    firstBad := match m.firstBad with
      | some b => if b.2 ≤ i then some b else some (stTierStall, i)
      | none => some (stTierStall, i) })

/-- The first waiting descriptor of a queue, as a command. -/
def State.waitingDesc (s : State) (q seq : BitVec 16) : Option (Byte × Desc) :=
  match (s.queue q).entry seq with
  | some f => if f.phase = .waiting then some (f.opcode, { queue := q, seq := seq, body := f.body }) else none
  | none => none

/-- A descriptor of the tier, temple, control or collective chapters accesses tier 2. -/
def State.descTier2 (s : State) (op : Byte) (b : BitVec 352) : Bool :=
  let tally := (s.ctx (fieldOf b 16 1)).tallyBase
  match op.toNat with
  | 0x58 => s.inTier2 (fieldOf b 24 6)
  | 0x90 => s.inTier2 (fieldOf b 38 6) || s.inTier2 (fieldOf b 32 6)
  | 0x92 => s.inTier2 (fieldOf b 32 6) || s.inTier2 (s.readRec (fieldOf b 32 6)).mant || s.inTier2 tally
  | 0x94 => s.inTier2 (fieldOf b 32 6) || s.inTier2 (fieldOf b 38 6) || s.inTier2 tally
  | 0xA4 => true
  | 0xB4 =>
    let f := redF b
    s.inTier2 f.src || s.inTier2 f.dst
      || (f.kind < 3 && (s.inTier2 (s.readRec f.src).mant || s.inTier2 (s.readRec f.dst).mant))
  | 0xB5 => s.inTier2 (gatF b).src || s.inTier2 (gatF b).dst
  | _ => false

/-- An update or another descriptor that reads tier 2 is not served (R158, R245): an update stops at
`element`; the others write nothing. None where no such descriptor waits. -/
def State.stallDesc (s : State) (q seq : BitVec 16) (element : Nat) : Option State :=
  let stall := outcm stTierStall 0 0
  match s.outcomeWaits.find? (fun w => w.queue == q && w.seq == seq) with
  | some w =>
    if w.opcode ≠ 0x94 then some (s.updResume w (some element))
    else if s.descTier2 w.opcode w.body then
      some (({ s with outcomeWaits := s.outcomeWaits.erase w } : State).complete q seq stall)
    else none
  | none =>
    match s.peruo.collWaits.find? (fun w => w.queue == q && w.seq == seq) with
    | some w => if s.descTier2 w.opcode w.body then some (s.endColl w stall) else none
    | none =>
      match s.waitingDesc q seq with
      | none => none
      | some (op, d) =>
        if !s.canDispatch d op then none
        else if op = 0x80 ∨ op = 0x81 then some (s.dispatchUpd d op (some element))
        else if s.descTier2 op d.body then some ((s.handOver d (engineOf q op d.body)).finish d stall)
        else none

/-- A move that runs is not served. -/
def State.stallMove (s : State) (j : Nat) : Option State :=
  match Tab.find s.objects j with
  | some o => if o.state = .promoting ∨ o.state = .demoting then some (s.moveFails j) else none
  | none => none

/-- A transfer is not served at byte `off`. -/
def State.stallXfer (s : State) (q seq : BitVec 16) (off : Nat) : Option State :=
  match s.xfer q seq with
  | none => none
  | some x =>
    if !x.accepted ∨ !s.touchesTier2 x then none
    else match s.sendOf x with
      | some m => s.stallDelivery m (off / max 1 m.bytes)
      | none => some (s.failXfer q seq stTierStall (cutPoint (s.xferRows x) off))

/-- A tier 2 request has not been served within T2_STALL_TIMEOUT (R245): it fails, and is counted where the
issuer has such a request. -/
def execT2StallTimeoutExpiry (issuer : T2Issuer) (s : State) : Result :=
  if !s.ready then .next s
  else
    let t := match issuer with
      | .transfer q seq off => s.stallXfer q seq off
      | .update q seq element => s.stallDesc q seq element
      | .move j => s.stallMove j
      | .coreLoad agent line => s.stallRead agent line
    .next (match t with
      | some t => t.count 0x7909 4 1
      | none => s)

/-! ### Grants (R235) -/

/-- LEASE_REQ field `i`, from 1. -/
def State.leaseReqAt (s : State) (i : Nat) : Nat := s.leaseReq.getD (i - 1) 0

/-- The lease that the request fields ask for, before it is placed. -/
def State.requested (s : State) : Lease :=
  { Lease.init with
    state := .active, t1Bytes := s.leaseReqAt 1, t2Bytes := s.leaseReqAt 2, t1Quota := s.leaseReqAt 3,
    t2Quota := s.leaseReqAt 4, q1 := s.leaseReqAt 5, q2 := s.leaseReqAt 6,
    dieMask := BitVec.ofNat 64 (s.leaseReqAt 7), queues := s.leaseReqAt 8,
    host := bitOf (s.leaseReqAt 9) 0 }

/-- The field rules of Table TIR-4. Reserved bits of FLAGS are ignored (R6). -/
def State.requestOk (s : State) : Bool :=
  let l := s.requested
  l.t1Bytes % 32768 == 0 && l.t2Bytes % 524288 == 0 && decide (l.t1Bytes ≤ l.t1Quota)
    && decide (l.t2Bytes / 65536 * frameCharge ≤ l.t2Quota) && decide (s.leaseReqAt 7 < 2 ^ 26)

/-- The lowest free aligned address of a window of `size` bytes for `n` bytes, among extents
`used` (base, bytes); candidates are 0 and the ends of the extents. -/
def placeExtent (used : List (Nat × Nat)) (size n : Nat) : Option Nat :=
  if n = 0 then some 0
  else
    let ok := fun (a : Nat) => decide (a + n ≤ size) && used.all (fun u => !overlaps a n u.1 u.2)
    (((0 :: used.map (fun u => u.1 + u.2)).filter ok).foldl (fun (m : Option Nat) a => optMin m a) none)

/-- Extents of the leases that exist, in tier 1 or (by window offset) in tier 2. -/
def State.extents (s : State) (two : Bool) : List (Nat × Nat) :=
  ((s.leases.map Prod.snd).filter (fun l => l.state != .free)).filterMap (fun l =>
    let b := if two then l.t2Bytes else l.t1Bytes
    if b = 0 then none else some (if two then l.t2Base - t2Base else l.t1Base, b))

/-- What a grant decides: a reason, or the lease placed. -/
def State.grantCase (s : State) : Except Nat (Nat × Lease) :=
  let l := s.requested
  let ls := s.heldLeases ++ [l]
  let leased := fun (d : Nat) => (s.leases.map Prod.snd).any (fun k =>
    k.state != .free && bitOf k.dieMask.toNat d)
  let free := (rangeFrom 1 1023).find? (fun n => (s.lease n).state == .free)
  if s.restoring then .error 8
  else if !s.requestOk then .error 6
  else match free with
    | none => .error 7
    | some n =>
      if (bitList 26 l.dieMask.toNat).any (fun d => !s.dieActive d || leased d) then .error 4
      else if !poolT1 s ls then .error 1
      else if !poolT2 s ls then .error 2
      else if !hubPools s ls then .error 3
      else match placeExtent (s.extents false) t1Size l.t1Bytes,
          placeExtent (s.extents true) (t2End - t2Base) l.t2Bytes with
        | some a, some b =>
          .ok (n, { l with t1Base := if l.t1Bytes = 0 then 0 else a
                           t2Base := if l.t2Bytes = 0 then 0 else t2Base + b
                           grantSeq := s.grantSeq + 1 })
        | _, _ => .error 5

def leaseWord (reason lease : Nat) : BitVec 64 := BitVec.ofNat 64 (reason * 2 ^ 56 + lease % 2 ^ 16)

/-- Die store of tensor die `d`. -/
def dieStore (d : Nat) : Nat := dieStoreBase + d * dieStoreStride

/-- LEASE_GRANT (R235). -/
def State.grantLease (s : State) : State :=
  match s.grantCase with
  | .error r => { s.count 0x7909 6 1 with leaseResult := leaseWord r 0 }
  | .ok (n, l) =>
    let s := (s.clearRange l.t1Base l.t1Bytes).clearRange l.t2Base l.t2Bytes
    let s := (s.freshRange l.t1Base l.t1Bytes).freshRange l.t2Base l.t2Bytes
    let s := (bitList 26 l.dieMask.toNat).foldl (fun (s : State) d =>
      s.clearRange (dieStore d) dieStoreBytes) s
    { s.count 0x7909 5 1 with
      leases := Tab.write s.leases n l, grantSeq := l.grantSeq, leaseResult := leaseWord 0 n }

/-- The regions of BAR2 and of Peruo that belong to lease `n` are disabled for good (R284, R319). -/
def State.dropRegions (s : State) (n : Nat) : State :=
  { s with
    host := { s.host with regions := s.host.regions.map (fun e =>
      if e.2.lease = n then (e.1, { e.2 with enabled := false, lost := true }) else e) }
    peruo := { s.peruo with regions := s.peruo.regions.map (fun e =>
      if e.2.lease = n then (e.1, { e.2 with enabled := false }) else e) } }

/-- Frees everything that lease `n` held (R237). An object of it that another lease still pins has no owner from
now on, and is freed when its last pin drops (R242). -/
def State.freeLease (s : State) (n : Nat) : State :=
  let l := s.lease n
  let s := s.dropRegions n
  let s := (s.objects.filter (fun e => e.2.owner == n && e.2.pins.isEmpty)).foldl (fun (s : State) e =>
    s.freeObj e.1 e.2.size) s
  let s : State := { s with objects := s.objects.map (fun e =>
    if e.2.owner = n then (e.1, { e.2 with owner := 0 }) else e) }
  let s := (s.clearRange l.t1Base l.t1Bytes).clearRange l.t2Base l.t2Bytes
  { s with stash := Tab.remove s.stash n, leases := Tab.remove s.leases n }

/-- A queue of lease `n` exists. -/
def State.leaseHasQueue (s : State) (n : Nat) : Bool :=
  s.queues.any (fun e => e.2.state != .free && e.2.lease == n)

/-- Why a release of lease `n` is refused (R237); 0 when it is not. -/
def State.releaseReason (s : State) (n : Nat) : Nat :=
  if n = 0 ∨ 1023 < n ∨ (s.lease n).state = .free then 18
  else if s.leaseHasQueue n then 16
  else if s.objects.any (fun e => e.2.pins.contains n) then 17
  else if s.objects.any (fun e => e.2.owner == n && e.2.pins.any (fun p => p != n)) then 17
  else 0

def State.releaseLease (s : State) (n : Nat) : State :=
  let r := s.releaseReason n
  let s := if r = 0 then s.freeLease n else s
  { s with leaseResult := leaseWord r n }

def execLeaseGrant (_value : Byte) (s : State) : Result := s.onCmd (fun s => (s.grantLease, .ok))

def execLeaseRelease (lease : BitVec 16) (s : State) : Result :=
  s.onCmd (fun s => (s.releaseLease lease.toNat, .ok))

/-! ### Revocation and the loss of a hub (R242 to R244) -/

/-- Lease `n` is revoked: its pins drop, its queues enter REVOKED and their descriptors complete with
NO_LEASE; without a queue it is freed at once. -/
def State.revokeLease (s : State) (n : Nat) : State :=
  let l := s.lease n
  let s := { s with leases := Tab.write s.leases n { l with state := .revoked } }
  let s := ((s.dropRegions n).count 0x7909 7 1).event (0x2900 + n) 1 srcDevice 2 0
  let qs := (s.queues.filter (fun e => e.2.state != .free && e.2.lease == n)).map Prod.fst
  let s := qs.foldl (fun (s : State) q =>
    let k := BitVec.ofNat 16 q
    let s := (s.queue k).fetched.foldl (fun (s : State) f => s.cutPending k f) s
    let c := s.queue k
    -- no doorbell under an earlier epoch is acted on again (R299)
    s.setQueue k { c with state := .revoked
                          sqTail := if c.state = .orphaned then c.nextSeq else c.sqTail }) s
  let pinned := (s.objects.filter (fun e => e.2.pins.contains n)).map Prod.fst
  let owned := (s.objects.filter (fun e => e.2.owner == n)).map Prod.fst
  let s := { s with objects := s.objects.map (fun e =>
    let pins := e.2.pins.filter (fun p => p ≠ n)
    (e.1, { e.2 with pins := pins
                     byDevice := e.2.byDevice || (e.2.state == .demoting && pins.isEmpty) })) }
  let s := (pinned ++ owned.filter (fun j => !pinned.contains j)).foldl
    (fun (s : State) j => s.unpinned j) s
  if s.leaseHasQueue n then s else s.freeLease n

/-- Drops eligible or not, in ascending key order, until the stash fits its quota (R244). -/
def State.fitStash (s : State) (n : Nat) (tier2 : Bool) (quota fuel : Nat) : State :=
  match fuel with
  | 0 => s
  | k + 1 =>
    let x := s.stashOf n
    if usedUnits x.entries tier2 ≤ quota then s
    else match (x.entries.filter (fun e => e.tier2 == tier2)).foldl stashInsert [] with
      | [] => s
      | e :: _ =>
        (s.setStash n { x with entries := x.entries.filter (fun y =>
          !(y.key == e.key && y.live == e.live)) }).fitStash n tier2 quota k

/-- The leases in descending grant sequence. -/
def State.newestFirst (s : State) : List Nat :=
  let ls := s.leases.filter (fun e => e.2.state == .active)
  (ls.foldl (fun (acc : List (Nat × Nat)) e =>
    let lo := acc.takeWhile (fun x => decide (e.2.grantSeq < x.1))
    lo ++ [(e.2.grantSeq, e.1)] ++ acc.drop lo.length) []).map Prod.snd

/-- R234 holds in tier 1 (`two` false) or tier 2, pool and hubs. -/
def State.tierFits (s : State) (two : Bool) : Bool :=
  let ls := s.heldLeases
  let n := s.activeHubs.length
  if two then
    poolT2 s ls && decide (ceilDiv (codecHeadroom + s.reserveT2) n
      + (ls.map (fun l => hubShare l.t2Quota n 65536
          + hubShare (4096 * l.q2) n 65536)).sum ≤ hubT2)
  else
    poolT1 s ls && decide (ceilDiv s.reserveT1 n
      + (ls.map (fun l => hubShare l.t1Quota n 4096 + hubShare (4096 * l.q1) n 4096)).sum ≤ hubT1)

/-- Lease `n` with its stash quota of one tier set to `v`. -/
def State.setStashQuota (s : State) (n : Nat) (two : Bool) (v : Nat) : State :=
  let l := s.lease n
  { s with leases := Tab.write s.leases n (if two then { l with q2 := v } else { l with q1 := v }) }

/-- The largest quota in [0, hi] with which the tier fits, by halving; 0 when none does. -/
def State.largestQuota (s : State) (n : Nat) (two : Bool) (lo hi fuel : Nat) : Nat :=
  match fuel with
  | 0 => lo
  | k + 1 =>
    if hi ≤ lo then lo
    else
      let mid := (lo + hi + 1) / 2
      if (s.setStashQuota n two mid).tierFits two then s.largestQuota n two mid hi k
      else s.largestQuota n two lo (mid - 1) k

/-- Step 1 of R244 for one lease. -/
def State.cutStashQuota (s : State) (two : Bool) (n : Nat) : State :=
  let l := s.lease n
  let old := if two then l.q2 else l.q1
  if s.tierFits two ∨ old = 0 then s
  else
    let v := s.largestQuota n two 0 old 64
    let s := s.setStashQuota n two v
    let s := (s.count 0x7909 8 1).event (0x2900 + n) (if two then 0xA else 9) srcDevice v 0
    s.fitStash n two v 65536

/-- Step 2 of R244 for one lease. -/
def State.cutLease (s : State) (two : Bool) (n : Nat) : State :=
  if s.tierFits two then s else s.revokeLease n

/-- R244 for one tier. -/
def State.restoreTier (s : State) (two : Bool) : State :=
  let s := s.newestFirst.foldl (fun (s : State) n => s.cutStashQuota two n) s
  s.newestFirst.foldl (fun (s : State) n => s.cutLease two n) s

/-- Steps 3 and 4 of R243: the ledger is brought back, and the moves that touched a retired hub fail. -/
def State.restoreLedger (s : State) : State :=
  if !s.restoring then s
  else
    let s := (s.restoreTier false).restoreTier true
    let s := ((s.objects.filter (fun e => e.2.doomed)).map Prod.fst).foldl
      (fun (s : State) j => s.moveFails j) s
    { s with restoring := false }

/-- Stash entries that had a line on a retired hub are dropped: one with a whole run of 8 granules or
frames always, a smaller one by a placement that cannot be seen, a free value (R243, log 42). -/
def State.dropStashOn (s : State) : State :=
  s.stash.foldl (fun (s : State) x =>
    x.2.entries.foldl (fun (s : State) e =>
      let whole := if e.tier2 then decide (524288 ≤ e.length) else decide (32768 ≤ e.length)
      let r := s.draw
      if whole || bitOf r.1 0 then
        let y := r.2.stashOf x.1
        r.2.setStash x.1 (Stash.sweep { y with entries := y.entries.map (fun z =>
          if z.key = e.key ∧ z.live = e.live ∧ e.live then { z with dying := true } else z) })
      else r.2) s) s

/-- Hub `k` retires (R243): steps 1 and 2 here; the idle block restores the ledger (log 43). Every move under way
has a granule on it, since an object holds whole runs of 8 (R227). -/
def State.retireHub (s : State) (k : Nat) : State :=
  let before := s.activeHubs
  let s := s.setDieState (dieHub k) 2
  let c := s.coh
  let loss : HubLoss := { hub := k, before := before, settled := [], fresh := [] }
  let s : State := { s with coh := { c with losses := c.losses ++ [loss] } }
  let touched := fun (o : TierObj) => { o with
    doomed := o.doomed || o.state == .promoting || o.state == .demoting }
  let s : State := { s with objects := s.objects.map (fun e => (e.1, touched e.2)) }
  let s := s.dropStashOn
  { s with restoring := true }

def execTirCountersClear (_value : Byte) (s : State) : Result :=
  s.onCmd (fun s => (s.clearCounters (objKey 0x7901 0) (objKey 0x7909 0xF), .ok))

end Sys2Proof.Machine
end

