-- ==== Sys2Proof/Machine/Coherence.lean ====
section
/-!
DEFINITION. Olique coherence (11): what agents ask and answer, the host's part, and the settlement of
agents that die or do not answer.
-/

namespace Sys2Proof.Machine

open Sys2Proof

/-! ### Requests (Table COH-5) -/

/-- The agent waits for an answer about the line: a request, an ACK or a WB_ACK is under way. It sends no other
request for the line until then (log 48). -/
def Coh.asking (c : Coh) (agent line : Nat) : Bool :=
  c.txns.any (fun t => t.2.req.agent == agent && t.2.req.line == line && !t.2.dropped)
    || c.waitq.any (fun q => q.2.any (fun r => r.agent == agent && r.line == line))
    || (c.fill agent line).isSome
    || c.wbBuf.any (fun l => l.agent == agent && l.line == line)
    || c.msgs.any (fun m => match m with
      | .grant a l _ _ _ _ => a == agent && l == line
      | .data a l _ _ => a == agent && l == line
      | .ack a l => a == agent && l == line
      | _ => false)

/-- Each hub takes 4,096 transactions at a time (R255). -/
def State.hubCredit (s : State) (line : Nat) : Bool :=
  let h := s.homeHub (64 * line)
  let mine := fun (l : Nat) => s.homeHub (64 * l) == h
  h.isNone || decide ((s.coh.txns.filter (fun t => mine t.2.req.line)).length
    + ((s.coh.waitq.filter (fun q => mine q.1)).map (fun q => q.2.length)).sum < 4096)

/-- An agent may send a request for the line now: it is live, the line is cacheable, its hub takes another
transaction, and the agent has none under way. Agent 39 asks for device lines through the port (R282). -/
def State.mayAsk (s : State) (agent line : Nat) : Bool :=
  s.ready && s.agentLive agent && cacheable line && !s.coh.asking agent line && s.hubCredit line
    && (agent != hostAgent || (!hostLine line && s.hostServes))

/-- A byte of the line that no lease holds, or that lies in a peer range, is no core's (R226, R287). -/
def State.coreFaults (s : State) (agent line : Nat) : Bool :=
  decide (agent < 31) && (!s.leasedByte (64 * line)
    || (hostLine line && s.inPeerRange (64 * line - hostBase)))

/-- A core of the agent asks for byte `offset` of a line, or takes an access exception (R226). -/
def State.coreAsks (s : State) (r : Req) : State :=
  if s.coreFaults r.agent r.line then s.trapReq r else s.ask r

def execRdS (agent : Nat) (x : LoadAt) (s : State) : Result :=
  if s.mayAsk agent x.line ∧ (s.coh.copy agent x.line).isNone then
    .next (s.coreAsks { plainReq .rdS agent x.line with offset := x.offset, fetch := x.fetch })
  else .next s

def execRdX (agent : Nat) (x : ByteAt) (s : State) : Result :=
  if s.mayAsk agent x.line ∧ (s.coh.copy agent x.line).isNone then
    .next (s.coreAsks { plainReq .rdX agent x.line with offset := x.offset })
  else .next s

/-- UPG is sent for a line held in S or O. -/
def execUpg (agent : Nat) (x : ByteAt) (s : State) : Result :=
  match s.coh.copy agent x.line with
  | some l =>
    if s.mayAsk agent x.line ∧ (l.st = .s ∨ l.st = .o) then
      .next (s.coreAsks { plainReq .upg agent x.line with offset := x.offset })
    else .next s
  | none => .next s

/-- The agent evicts a line: it waits in the write-back buffer until WB_ACK (R256, R259). -/
def State.evict (s : State) (l : CacheLine) (k : ReqKind) : State :=
  let c := s.coh
  let s := s.setCoh { c with
    lines := c.lines.filter (fun x => !(x.agent == l.agent && x.line == l.line))
    wbBuf := c.wbBuf ++ [l]
    reserved := c.reserved.filter (fun x => x ≠ (l.agent, l.line)) }
  s.arrive { plainReq k l.agent l.line with bytes := l.bytes }

/-- An M or O line leaves by WB, with what the agent's cores have stored into it (Table COH-3). What the host
held is what it writes back. -/
def execWb (agent : Nat) (x : StoredLine) (s : State) : Result :=
  if !s.mayAsk agent x.line then .next s
  else
    let t := s.storedIn agent x.line x.stored
    match t.coh.copy agent x.line with
    | some l =>
      if agent = hostAgent ∧ l.st ≠ .s ∧ x.stored.length = 64 then
        .next (t.evict { l with bytes := x.stored, st := .m } .wb)
      else if l.st = .m ∨ l.st = .o then .next (t.evict l .wb) else .next s
    | none => .next s

/-- An E or S line leaves by CLN. -/
def execCln (agent line : Nat) (s : State) : Result :=
  match s.coh.copy agent line with
  | some l =>
    if s.mayAsk agent line ∧ (l.st = .e ∨ l.st = .s) then .next (s.evict l .cln) else .next s
  | none => .next s

/-! ### Snoops at their agents (Table COH-7) -/

/-- The snoop of this kind to the agent that is in flight. -/
def Coh.inFlight (c : Coh) (k : SnoopKind) (agent line : Nat) : Option Snoop :=
  c.msgs.findSome? (fun m => match m with
    | .snoop x => if x.kind = k ∧ x.agent = agent ∧ x.line = line then some x else none
    | _ => none)

/-- A snoop reaches its agent. `f` tells what the agent's cores have stored into the line by then, if
anything. -/
def State.snooped (s : State) (k : SnoopKind) (agent : Nat) (f : StoredLine) : State :=
  match s.coh.inFlight k agent f.line with
  | none => s
  | some x => (s.storedIn agent f.line f.stored).snoopArrives x

def execSnpS (agent : Nat) (f : StoredLine) (s : State) : Result := .next (s.snooped .snpS agent f)
def execSnpX (agent : Nat) (f : StoredLine) (s : State) : Result := .next (s.snooped .snpX agent f)
def execSnpCur (agent : Nat) (f : StoredLine) (s : State) : Result := .next (s.snooped .snpCur agent f)
def execSnpInv (agent line : Nat) (s : State) : Result :=
  .next (s.snooped .snpInv agent { line := line, stored := [] })

/-- The delay of R260 has run: the snoop is answered. -/
def execLrSnoopDelayExpiry (agent line : Nat) (s : State) : Result :=
  match s.coh.lrHeld.find? (fun x => x.agent == agent && x.line == line) with
  | none => .next s
  | some x => .next (s.endDelay x)

/-! ### Responses at the home -/

/-- A message that is in flight is delivered; one that is not changes nothing. -/
def State.deliverIf (s : State) (m : CohMsg) : State := if s.coh.has m then s.deliverMsg m else s

def execRspI (agent line : Nat) (s : State) : Result :=
  .next (s.deliverIf (.rspI agent line (!s.coh.has (.rspI agent line false))))

def execRspS (agent line : Nat) (s : State) : Result :=
  .next (s.deliverIf (.rspS agent line (!s.coh.has (.rspS agent line false))))

def execRspO (agent line : Nat) (s : State) : Result :=
  .next (s.deliverIf (.rspO agent line (!s.coh.has (.rspO agent line false))))

def execRspFwd (agent line : Nat) (dirty : Bool) (s : State) : Result :=
  .next (s.deliverIf (.rspFwd agent line dirty (!s.coh.has (.rspFwd agent line dirty false))))

def execAck (agent line : Nat) (s : State) : Result := .next (s.deliverIf (.ack agent line))

/-! ### At the requester -/

/-- The GRANT on its way to an agent for a line: its state, its poison, CONTENDED, and whether the agent owns
the line already. -/
def Coh.grantFor (c : Coh) (agent line : Nat) : Option (Option Moesi × Bool × Bool × Bool) :=
  c.msgs.findSome? (fun m => match m with
    | .grant a l st p k y => if a = agent ∧ l = line then some (st, p, k, y) else none
    | _ => none)

/-- The data on its way to an agent for a line, and whether it is poisoned. -/
def Coh.dataFor (c : Coh) (agent line : Nat) : Option (List Byte × Bool) :=
  c.msgs.findSome? (fun m => match m with
    | .data a l b p => if a = agent ∧ l = line then some (b, p) else none
    | _ => none)

def execGrant (agent line : Nat) (s : State) : Result :=
  match s.coh.grantFor agent line with
  | none => .next s
  | some g => .next (s.grantArrives agent line g)

def execData (agent line : Nat) (s : State) : Result :=
  match s.coh.dataFor agent line with
  | none => .next s
  | some d => .next (s.dataArrives agent line d)

def execWbAck (agent line : Nat) (s : State) : Result := .next (s.deliverIf (.wbAck agent line))

/-! ### The host (R273 to R276) -/

/-- The host's answer to a CXL.cache or ATS request: its data, or a refusal, which is a poison response
(R271, R278). -/
def execCxlCacheResponse (line : Nat) (hostData : Option (List Byte)) (s : State) : Result :=
  match s.coh.txn line with
  | none => .next s
  | some t =>
    if !t.needHost then .next s
    else match hostData with
      | some b =>
        let s := s.putLine line (slice b 0 64) false
        .next ((s.setCoh (s.coh.setTxn line { t with needHost := false })).advance line)
      | none =>
        .next ((s.setCoh (s.coh.setTxn line { t with needHost := false, refused := true })).advance line)

/-- A host snoop is looked up in the filter (R274). The device's transaction on the line ends first, unless it
waits for the host itself (log 81). -/
def State.hostSnoops (s : State) (k : ReqKind) (line : Nat) : State :=
  let s := (s.drain line line false).count 0x7919 0 1
  let e := s.coh.entry line
  let r := plainReq k hostSnoop line
  if e.holders = [] ∨ !hostLine line then (s.count 0x7919 1 1).emit (.hostRsp line false none false)
  else if (s.coh.txn r.key).isSome then s
  else (s.openTxn r).advance r.key

def execSnpdata (line : Nat) (s : State) : Result :=
  if s.ready ∧ s.host.cxlUp then .next (s.hostSnoops .rdS line) else .next s
def execSnpinv (line : Nat) (s : State) : Result :=
  if s.ready ∧ s.host.cxlUp then .next (s.hostSnoops .rdX line) else .next s
def execSnpcur (line : Nat) (s : State) : Result :=
  if s.ready ∧ s.host.cxlUp then .next (s.hostSnoops .rdNc line) else .next s

def execBirsp (line : Nat) (hostData : Option (List Byte)) (keeps : Bool) (s : State) : Result :=
  match s.coh.biWait.find? (fun x => x.line == line) with
  | none => .next s
  | some x => .next (s.hostReturns x hostData keeps)

/-! ### Settlements -/

/-- The sharer's copy is fetched and written to memory, and the sharers stay (R269). -/
def State.saveFromSharer (s : State) (line : Nat) (sh : List Nat) : State :=
  let held := sh.filterMap (fun a => match s.coh.answering a line with
    | some l => some l.bytes
    | none => s.coh.dataSent a line)
  let s := match held.head? with
    | some b => s.putLine line b false
    | none => s
  s.setCoh (s.coh.setEntry line .s 0 sh)

/-- One entry that names the dead or silent agent `a` (R269, R270). -/
def State.settleEntry (s : State) (line a why : Nat) : State :=
  let e := s.coh.entry line
  let sh := e.sharers.filter (fun x => x ≠ a)
  if e.owned && e.owner == a then
    let dirty := (s.coh.answering a line).any (fun l => l.st == .m || l.st == .o)
    if sh ≠ [] then s.saveFromSharer line sh
    else if hostLine line then
      let s := if dirty then s.count 0x7919 5 1 else s
      s.setCoh (s.coh.setEntry line .i 0 [])
    else s.poisonLine line why a
  else if e.sharers.contains a then s.setCoh (s.coh.dropHolder line a)
  else s

/-- Nothing of agent `a` is left in the fabric. -/
def Coh.forget (c : Coh) (a : Nat) : Coh :=
  { c with
    lines := c.lines.filter (fun l => l.agent ≠ a)
    wbBuf := c.wbBuf.filter (fun l => l.agent ≠ a)
    fills := c.fills.filter (fun f => f.agent ≠ a)
    reserved := c.reserved.filter (fun x => x.1 ≠ a)
    lrHeld := c.lrHeld.filter (fun x => x.agent ≠ a)
    biWait := c.biWait.filter (fun x => x.agent ≠ a)
    predictor := c.predictor.filter (fun x => x.1 / 1024 ≠ a)
    farOps := c.farOps.filter (fun x => x.agent ≠ a)
    traps := Tab.remove c.traps a
    msgs := c.msgs.filter (fun m => match m with
      | .snoop x => x.agent != a
      | .rspI b _ _ | .rspS b _ _ | .rspO b _ _ => b != a
      | .rspFwd b _ _ _ | .data b _ _ _ => b != a
      | .grant b _ _ _ _ _ => b != a
      | .ack b _ | .wbAck b _ => b != a) }

/-- The answers that the agent sent before it died still reach their homes. -/
def State.sinkAnswers (s : State) (a : Nat) : State :=
  (s.coh.msgs.filter (fun m => match m with
    | .rspI b _ _ | .rspS b _ _ | .rspO b _ _ => b == a
    | .rspFwd b _ _ _ => b == a
    | _ => false)).foldl (fun (s : State) m => s.deliverIf m) s

/-- Transactions of the dead agent: a granted one is released, and an ungranted one is dropped. What its snoops
bring goes to the home, and a line whose data an owner had sent to the agent for ownership is lost (R269, log
46). -/
def State.dropTxnsOf (s : State) (a : Nat) : State :=
  (s.coh.txns.filter (fun t => t.2.req.agent == a)).foldl (fun (s : State) t =>
    let n := t.2.req.line
    if t.2.granted then (s.setCoh (s.coh.endTxn t.1)).beginAll
    else
      let lost := (t.2.req.kind == .rdX || t.2.req.kind == .upg)
        && (t.2.forwarded || (s.coh.dataSent a n).isSome)
      (s.setCoh ((s.coh.setTxn t.1 { t.2 with dropped := true, lost := lost }).redirect a n)).advance t.1) s

/-- Waiting requests of the dead agent are dropped; a write-back that has reached its home is written
(R269). -/
def State.dropWaitsOf (s : State) (a : Nat) : State :=
  let wbs := (s.coh.waitq.map (fun q => q.2.filter (fun r => r.agent == a && r.kind == .wb))).flatten
  let s : State := { s with coh := { s.coh with
    waitq := s.coh.waitq.map (fun q => (q.1, q.2.filter (fun r => r.agent != a))) } }
  wbs.foldl (fun (s : State) r => s.finishWb r) s

/-- Transactions that await an answer of agent `a` go on without it. -/
def State.unwaitAgent (s : State) (a : Nat) : State :=
  (s.coh.txns.filter (fun t => t.2.waitFor.contains a)).foldl (fun (s : State) t =>
    s.answered t.2.req.isHost a t.2.req.line) s

/-- The lines whose entries name agent `a`, those with a request waiting first (R269). -/
def State.linesNaming (s : State) (a : Nat) : List Nat :=
  let ls := (s.coh.dir.filter (fun e => e.2.holders.contains a)).map Prod.fst
  let hot := fun (l : Nat) => (s.coh.txn l).isSome || !(Tab.read s.coh.waitq [] l).isEmpty
  ls.filter hot ++ ls.filter (fun l => !hot l)

/-- Reclamation of every line of a dead tensor, core or link die (R269). -/
def State.reclaim (s : State) (a : Nat) : State :=
  let s := (s.sinkAnswers a).dropWaitsOf a
  let s := (s.linesNaming a).foldl (fun (s : State) l =>
    let before := s.mem.poison.contains l
    let s := (s.cohCount l 6 1).settleEntry l a 3
    if !before && s.mem.poison.contains l then s.cohCount l 7 1 else s) s
  let s := s.dropTxnsOf a
  let s := s.setCoh (s.coh.forget a)
  (s.unwaitAgent a).beginAll

/-- The home settles the one line on which a privileged agent has not answered (R270). What the agent has sent
is discarded, its data to the requester too. -/
def State.privTimeout (s : State) (line : Nat) : State :=
  match s.coh.txn line with
  | none => s
  | some t =>
    match t.waitFor.find? privileged with
    | none => s
    | some a =>
      let s : State := (s.cohCount line 8 1).settleEntry line a 4
      let c := s.coh
      let s := s.setCoh { c with
        lines := c.lines.filter (fun l => !(l.agent == a && l.line == line))
        biWait := c.biWait.filter (fun x => !(x.agent == a && x.line == line))
        msgs := c.msgs.filter (fun m => match m with
          | .snoop x => !(x.agent == a && x.line == line)
          | .rspI b l _ | .rspS b l _ | .rspO b l _ => !(b == a && l == line)
          | .rspFwd b l _ _ => !(b == a && l == line)
          | .data b l _ _ => !(b == t.req.agent && l == line)
          | _ => true)
        fills := c.fills.map (fun f =>
          if f.agent = t.req.agent ∧ f.line = line then { f with data := none } else f)
        txns := Tab.write c.txns line { t with forwarded := false, fwdDue := false, bytes := none } }
      s.answered false a line

def execPrivSnoopTimeoutExpiry (line : Nat) (s : State) : Result :=
  if s.ready then .next (s.privTimeout line) else .next s

/-- Every copy, entry and message of the lines that satisfy `p` is discarded. -/
def Coh.purge (c : Coh) (p : Nat → Bool) : Coh :=
  { c with
    lines := c.lines.filter (fun l => !p l.line)
    wbBuf := c.wbBuf.filter (fun l => !p l.line)
    dir := c.dir.filter (fun e => !p e.1)
    reserved := c.reserved.filter (fun x => !p x.2)
    lrHeld := c.lrHeld.filter (fun x => !p x.line)
    biWait := c.biWait.filter (fun x => !p x.line)
    msgs := c.msgs.filter (fun m => match m with
      | .snoop x => !p x.line
      | .rspI _ l _ | .rspS _ l _ | .rspO _ l _ => !p l
      | .rspFwd _ l _ _ | .data _ l _ _ => !p l
      | .grant _ l _ _ _ _ => !p l
      | .ack _ l | .wbAck _ l => !p l) }

/-- The engines' reads of the lines that satisfy `p` that are not answered yet. -/
def Coh.openReads (c : Coh) (p : Nat → Bool) : List Nat :=
  ((c.txns.filter (fun t => p t.2.req.line && t.2.req.kind == .rdNc && !t.2.req.isHost)).map
      (fun t => t.2.req.line))
    ++ ((c.waitq.filter (fun q => p q.1)).map (fun q =>
      (q.2.filter (fun r => r.kind == .rdNc)).map Req.line)).flatten
    ++ c.msgs.filterMap (fun m => match m with
      | .data a l _ _ => if a = engineAgent ∧ p l then some l else none
      | _ => none)

/-- Every transaction on the lines that satisfy `p` ends with a poison response, and every copy, entry and
message of them is gone (R271, R272). -/
def State.purgeLines (s : State) (p : Nat → Bool) : State :=
  let owed := s.coh.fills.filter (fun f => p f.line)
  let reads := s.coh.openReads p
  let c := s.coh.purge p
  let s := s.setCoh { c with
    txns := c.txns.filter (fun t => !p t.2.req.line)
    waitq := c.waitq.filter (fun q => !p q.1)
    fills := c.fills.map (fun f => if p f.line then { f with data := none, grant := none } else f) }
  let s := owed.foldl (fun (s : State) f => (s.cohCount f.line 9 1).answerPoison f.agent f.line) s
  reads.foldl (fun (s : State) l =>
    (s.cohCount l 9 1).setCoh (s.coh.send (.data engineAgent l zeroLine true))) s

/-- The coherence side of a hub's retirement, with the hubs that were active before (R272). -/
def State.purgeHub (s : State) (before : List Nat) (k : Nat) : State :=
  (s.purgeLines (fun l => s.homeAmong before (64 * l) == some k)).beginAll

/-- R271: host-held device lines are settled at once, and device copies of the host window go. -/
def State.settleHost (s : State) : State :=
  let held := (s.coh.dir.filter (fun e => e.2.holders.contains hostAgent)).map Prod.fst
  let s := held.foldl (fun (s : State) l =>
    let em := (s.coh.entry l).owned && (s.coh.entry l).owner == hostAgent
    let s := s.settleEntry l hostAgent 4
    if em && s.mem.poison.contains l then s.count 0x7919 6 1 else s) s
  let dirty := ((s.coh.lines ++ s.coh.wbBuf.filter (fun l => !l.gone)).filter (fun l =>
    hostLine l.line && (l.st == .m || l.st == .o))).length
  let s := (s.count 0x7919 5 dirty).purgeLines hostLine
  let s := (s.dropWaitsOf hostAgent).dropTxnsOf hostAgent
  let s := s.setCoh (s.coh.forget hostAgent)
  (s.unwaitAgent hostAgent).beginAll

/-! ### Draft commands (R277) -/

/-- An entry in the layout of Table COH-4. -/
def State.dirWord (s : State) (line : Nat) : Nat :=
  let e := s.coh.entry line
  let st := match e.st with
    | .i => 0
    | .s => 1
    | .em => 2
    | .o => 3
  let busy := if (s.coh.txn line).isSome then 1 else 0
  if e.st = .i then 0
  else st * 2 ^ 62 + busy * 2 ^ 61 + (if e.owned then e.owner else 0) * 2 ^ 55
    + maskOf (e.sharers.filter (fun a => decide (a < 42)))

/-- A write to DIR_PROBE_ADDR latches the line's entry. -/
def State.probeDir (s : State) (v : Nat) : State :=
  { s with coh := { s.coh with probeAddr := BitVec.ofNat 64 v
                               probeEntry := BitVec.ofNat 64 (s.dirWord (v / 64)) } }

def execDirProbeAddr (value : BitVec 64) (s : State) : Result :=
  s.onCmd (fun s => (s.probeDir value.toNat, .ok))

def execCohCountersClear (_value : Byte) (s : State) : Result :=
  s.onCmd (fun s => (s.clearCounters (objKey 0x7911 0) (objKey 0x7919 0xF), .ok))

end Sys2Proof.Machine
end

