-- ==== Sys2Proof/Machine/Host.lean ====
section
/-!
DEFINITION. The host port (12): BAR2 and HDM accesses, the admin commands, the host epoch and the owner
abort.
-/

namespace Sys2Proof.Machine

open Sys2Proof

/-- The host can reach the port: it is ready and its link carries data. -/
def State.portUp (s : State) : Bool := s.ready && s.host.portReady && s.host.linkUp

/-! ### Regions (R282 to R284) -/

/-- The aperture of BAR2 in bytes. -/
def State.aperture (s : State) : Nat := s.host.bar2Size / 4096

/-- Where BAR2 offset `x` lies: the enabled region that holds it, and the local address. -/
def State.regionAt (s : State) (x : Nat) : Option (Region × Nat) :=
  let ap := s.aperture
  (s.host.regions.map Prod.snd).findSome? (fun g =>
    let b := g.first * ap
    if g.enabled ∧ b ≤ x ∧ x < b + g.length ∧ x < b + g.apertures * ap then some (g, g.target + (x - b))
    else none)

/-- The pieces of `n` bytes at BAR2 offset `x`, line by line: offset in the access, length, and the local
address where the access is permitted. -/
def State.barPieces (s : State) (x n : Nat) (w : Bool) : List (Nat × Nat × Option Nat) :=
  (linesOf x n).map (fun l =>
    let lo := max x (64 * l)
    let hi := min (x + n) (64 * l + 64)
    (lo - x, hi - lo,
      match s.regionAt lo with
      | some (g, a) => if (if w then g.wr else g.rd) then some a else none
      | none => none))

/-- Bytes and poison of a permitted read, served as RD_NC. -/
def State.readPieces (s : State) (ps : List (Nat × Nat × Option Nat)) : State × List Byte × Bool :=
  ps.foldl (fun (r : State × List Byte × Bool) p =>
    match p.2.2 with
    | none => r
    | some a =>
      let bad := r.1.anyPoison a p.2.1
      let b := if bad then List.replicate p.2.1 0 else r.1.bytesAt a p.2.1
      (r.1.noteRead a p.2.1, r.2.1 ++ b, r.2.2 || bad)) (s, [], false)

/-- Writes the bytes that `d` gives from `a`, as WR_NC, or stores poison with reason 6. A masked write
leaves a poisoned line poisoned (R265). -/
def State.inboundWrite (s : State) (a : Nat) (d : List (Option Byte)) (poison : Bool) : State :=
  if s.objWrite a = .refused then s
  else if poison then s.poisonRange a d.length 6 0xFF
  else if d.all Option.isSome then s.writeMem a (d.map (fun b => b.getD 0))
  else ((List.range d.length).zip d).foldl (fun (s : State) e =>
    match e.2 with
    | some b => s.writeMem (a + e.1) [b]
    | none => s) s

/-- A piece of the write meets an object that moves: the write is held, and offered again (R240). -/
def State.barHeld (s : State) (ps : List (Nat × Nat × Option Nat)) : Bool :=
  ps.any (fun p => match p.2.2 with
    | some a => s.objWrite a == .held
    | none => false)

/-- CXL.io read of BAR2. -/
def execBar2Read (offset length : Nat) (s : State) : Result :=
  if !s.portUp then .next s
  else
    let ps := s.barPieces offset length false
    if ps.any (fun p => p.2.2.isNone) then .next ((s.count 0x7921 0xC 1).emit .completerAbort)
    else
      let r := s.readPieces ps
      .next (r.1.emit (.bar2Data r.2.1 r.2.2))

/-- Writes the permitted pieces of the bytes `data`; the others are dropped. -/
def State.barStore (s : State) (ps : List (Nat × Nat × Option Nat)) (data : List Byte) (poison : Bool) :
    State :=
  ps.foldl (fun (s : State) p =>
    match p.2.2 with
    | some a => s.inboundWrite a (((data.drop p.1).take p.2.1).map some) poison
    | none => s) s

/-- CXL.io posted write of BAR2: what no region takes is dropped, and the write counted once. -/
def execBar2Write (offset : Nat) (data : List Byte) (poison : Bool) (s : State) : Result :=
  if !s.portUp then .next s
  else
    let ps := s.barPieces offset data.length true
    if s.barHeld ps then .next s
    else
      let s := if ps.any (fun p => p.2.2.isNone) then s.count 0x7921 0xC 1 else s
      .next (s.barStore ps data poison)

/-- CXL.mem read of the HDM line at `offset`. -/
def execMemrd (offset : Nat) (s : State) : Result :=
  if !(s.portUp && s.host.cxlUp) then .next s
  else
    let ps := s.barPieces (offset / 64 * 64) 64 false
    if ps.any (fun p => p.2.2.isNone) then
      .next ((s.count 0x7921 0xD 1).emit (.memData (List.replicate 64 0) true))
    else
      let r := s.readPieces ps
      .next (r.1.emit (.memData r.2.1 r.2.2))

/-- CXL.mem write of the HDM line at `offset`; `mask` selects bytes. -/
def execMemwr (offset : Nat) (mask : BitVec 64) (data : List Byte) (poison : Bool) (s : State) :
    Result :=
  if !(s.portUp && s.host.cxlUp) then .next s
  else
    let ps := s.barPieces (offset / 64 * 64) 64 true
    if s.barHeld ps then .next s
    else
      let d := (List.range 64).map (fun i => if mask.getLsbD i then some (data.getD i 0) else none)
      .next ((ps.foldl (fun (s : State) p =>
        match p.2.2 with
        | some a => s.inboundWrite a d poison
        | none => s.count 0x7921 0xD 1) s).emit .memDone)

/-! ### The port (R278, R279) -/

/-- The port trains at `gts` GT/s and `width` lanes, not before step 5 of a start. -/
def execPortReady (gts width : Nat) (s : State) : Result :=
  if s.ready ∧ s.host.attach ≠ .lost ∧ s.module.perstN ∧ 0 < gts ∧ gts ≤ 64 ∧ 0 < width ∧ width ≤ 16 then
    .next (s.setHost { s.host with
      portReady := true, linkUp := true, gts := gts, width := width
      cxlUp := decide (32 ≤ gts ∧ 8 ≤ width) })
  else .next s

/-- A configuration request: Request Retry Status until the port is ready; a Resizable BAR write sizes
BAR2 and HDM (R282). -/
def execConfigurationRequest (r : CfgRequest) (s : State) : Result :=
  if !s.host.portReady then .next (if s.power.mode = .off then s else s.emit .retryStatus)
  else match r with
    | .read => .next (s.emit .cfgDone)
    | .resizeBar2 n =>
      let s := if 34 ≤ n ∧ n ≤ 43 then s.setHost { s.host with bar2Size := 2 ^ n } else s
      .next (s.emit .cfgDone)

/-! ### Host-epoch changes (R297, R298) -/

/-- The descriptor is of a kind that runs on a shuttle. -/
def shuttleOpcode (o : Byte) : Bool :=
  let n := o.toNat
  decide ((0x10 ≤ n ∧ n ≤ 0x12) ∨ n = 0x72 ∨ n = 0x73 ∨ n = 0xB0 ∨ n = 0xB1)

/-- A descriptor as the transfer it would be. -/
def State.asXfer (s : State) (q : BitVec 16) (f : Fetched) : Xfer :=
  { queue := q, seq := f.seq, opcode := f.opcode, body := f.body, die := (s.queue q).die, shuttle := 0,
    step := 0, accepted := false, slot := none, got := [], reads := [], todo := [], sent := false,
    zeroRead := false, signalled := false, bad := none, heldOnce := false }

/-- An end of the transfer lies in the host window. -/
def State.hostEnd (s : State) (x : Xfer) : Bool :=
  let at0 := fun (a n : Nat) => touchesHost a (max 1 n)
  (s.xferRows x).any (fun r =>
    let h := fun (p : Spot) => match p with
      | .mem a => at0 a r.length
      | .pcie _ => true
      | _ => false
    h r.src || h r.dst) ||
  (x.opcode == 0xB1 &&
    (at0 (fieldOf x.body 32 6) 16 || at0 (fieldOf x.body 38 6) 16 ||
      (match decodeAddr s (fieldOf x.body 24 8) with
       | .here a => at0 a 16
       | _ => false)))

/-- Step 4: descriptors of queue `q` with an end in the host window complete with HOST_EPOCH (R209). -/
def State.cutHostEnds (s : State) (q : BitVec 16) : State :=
  ((s.queue q).fetched.filter (fun f => match f.phase with
    | .done _ _ _ => false
    | _ => shuttleOpcode f.opcode && s.hostEnd (s.asXfer q f))).foldl
    (fun (s : State) f => s.cutOne q stHostEpoch true f) s

/-- Step 5 for queue `q`: the uncertain range is latched and its records are held. -/
def State.orphan (s : State) (q : BitVec 16) : State :=
  let c := s.queue q
  if c.state ≠ .active ∨ !hostFacing c then s
  else
    let u := if c.cqConfirmed = c.cqWritten then none else some (c.cqConfirmed, c.cqWritten - 1)
    (s.setQueue q { c with
      state := .orphaned, uncertain := u, replayFrom := c.cqConfirmed
      held := if u.isSome then c.unconfirmed else [], unconfirmed := [], flushReads := [],
      sinceFlush := 0, abortTail := none, fails := 0, retryWait := false }).count 0x7921 0xA 1

/-- Steps 1 to 5 of R297. The records that step 4 produces on a host-facing queue are held, so those
queues are orphaned before their descriptors complete. -/
def State.hostLeaves (s : State) (st : AttachState) : State :=
  let h := s.host
  let s : State := { s with
    host := { h with
      epoch := h.epoch + 1, attach := st
      regions := h.regions.map (fun e => (e.1, { e.2 with enabled := false })) }
    msixPending := [] }
  let s := (s.count 0x7921 9 1).event 0x4801 1 dieHost s.host.epoch.toNat 0
  let s := s.settleHost
  let qs := (Tab.keys s.queues).map (fun q => BitVec.ofNat 16 q)
  let s := qs.foldl (fun (s : State) q => s.orphan q) s
  qs.foldl (fun (s : State) q => s.cutHostEnds q) s

/-- PERST_N resets the registers that the host writes (R431, log 47). -/
def HostIf.perstReset (h : HostIf) : HostIf :=
  { h with eventVector := 0, adminHost := Admin.init, regBytes := [] }

/-- A low of less than 400 ns is ignored and one of 600 ns counts (R441); between, it may do either. -/
def perstCounts (s : State) (lowNs : Nat) : Bool × State :=
  if lowNs < 400 then (false, s)
  else if 600 ≤ lowNs then (true, s)
  else let r := s.draw; (bitOf r.1 0, r.2)

/-- A cause of R297. A lost attachment, or a module that has not started, has none (R432). -/
def State.epochChange (s : State) (c : EpochCause) : State :=
  if !s.ready ∨ s.host.attach = .lost then s
  else
    let down := fun (s : State) => s.setHost { s.host with
      portReady := false, linkUp := false, cxlUp := false, gts := 0, width := 0 }
    match c with
    | .perst n =>
      let r := perstCounts s n
      if r.1 then
        let s := down ((r.2.count 0x7981 7 1).hostLeaves .detached)
        s.setHost s.host.perstReset
      else r.2
    | .hotReset | .linkDown => if s.host.linkUp then down (s.hostLeaves .detached) else s
    | .flr => if s.portUp then s.hostLeaves .detached else s

def execHostEpochChange (cause : EpochCause) (s : State) : Result := .next (s.epochChange cause)

/-! ### Admin commands (R290) -/

def State.admin (s : State) (b : AdminBlock) : Admin :=
  match b with
  | .hostBlock => s.host.adminHost
  | .localBlock => s.host.adminLocal

def State.setAdmin (s : State) (b : AdminBlock) (a : Admin) : State :=
  s.setHost (match b with
    | .hostBlock => { s.host with adminHost := a }
    | .localBlock => { s.host with adminLocal := a })

/-- The end of a command: a result with its value. -/
def State.adminEnd (s : State) (b : AdminBlock) (result value : Nat) : State :=
  s.setAdmin b { s.admin b with result := result, value := BitVec.ofNat 16 value }

/-- The host block refuses every command but ATTACH while the host is not ATTACHED. -/
def State.adminShut (s : State) (b : AdminBlock) : Bool :=
  b == .hostBlock && s.host.attach != .attached

/-- A command reaches its block: the host's through the port, the local one from the package. -/
def State.adminReach (s : State) (b : AdminBlock) : Bool :=
  match b with
  | .hostBlock => s.portUp
  | .localBlock => s.ready

/-- The frame of an admin command: `f` answers a refusal, or the new state with its value. -/
def State.onAdmin (s : State) (b : AdminBlock) (f : State → Admin → Except Nat (State × Nat)) : Result :=
  if !s.adminReach b then .next s
  else match f s (s.admin b) with
    | .error r => .next (s.adminEnd b r 0)
    | .ok x => .next (x.1.adminEnd b 0 x.2)

/-- DEPTH of R288. -/
def depthOk (d : Nat) : Bool := decide (4 ≤ d ∧ d ≤ 32768) && Nat.land d (d - 1) == 0

/-- A ring of `n` bytes at `a` lies in the lease's tier 1 extent, its object window or the host
window. -/
def State.ringLeased (s : State) (l a n : Nat) : Bool :=
  s.leaseCovers l a n &&
    (match spaceOf a, spaceOf (a + n - 1) with
     | .tier1, .tier1 => true
     | .object _, .object _ => true
     | .hostWindow, .hostWindow => true
     | _, _ => false)

/-- Results 13 and 7 of a pair of rings. -/
def State.ringsBad (s : State) (l depth sq cq : Nat) : Option Nat :=
  if !(s.lease l).host ∧ (touchesHost sq (64 * depth) ∨ touchesHost cq (16 * depth)) then some 13
  else if !s.ringLeased l sq (64 * depth) ∨ !s.ringLeased l cq (16 * depth) then some 7
  else none

/-- Queues of lease `n` that exist. -/
def State.leaseQueues (s : State) (n : Nat) : Nat :=
  (s.queues.filter (fun e => e.2.state != .free && e.2.lease == n)).length

/-- The queue number that CREATE takes: the one named, or the lowest FREE one. -/
def State.newQueue (s : State) (a : Admin) : Option Nat :=
  let free := fun (q : Nat) => (s.queue (BitVec.ofNat 16 q)).state == .free
  if a.aflags.getLsbD 0 then (List.range 65536).find? free
  else if free a.queue.toNat then some a.queue.toNat else none

def State.createQueue (s : State) (b : AdminBlock) (a : Admin) : Except Nat (State × Nat) :=
  let l := a.lease.toNat
  let depth := a.depth.toNat
  let fieldsOk := depthOk depth && a.sqBase.toNat % 64 == 0 && a.cqBase.toNat % 64 == 0
    && (a.vector == 0xFFFF || decide (a.vector.toNat < 2048))
  if s.adminShut b then .error 14
  else if l = 0 ∨ 1023 < l ∨ (s.lease l).state ≠ .active then .error 2
  else if !fieldsOk then .error 5
  else if 26 ≤ a.die.toNat ∨ !bitOf (s.lease l).dieMask.toNat a.die.toNat then .error 6
  else match s.newQueue a with
    | none => .error 4
    | some q =>
      if (s.lease l).queues ≤ s.leaseQueues l then .error 3
      else match s.ringsBad l depth a.sqBase.toNat a.cqBase.toNat with
        | some r => .error r
        | none =>
          let c : QCtx :=
            { QCtx.init with
              state := .active, lease := l, die := a.die.toNat, sqBase := a.sqBase.toNat,
              cqBase := a.cqBase.toNat, depth := depth, vector := a.vector,
              irqOnError := a.aflags.getLsbD 1, limit := s.obj 0x3500 3 16 }
          .ok (s.setQueue (BitVec.ofNat 16 q) c, q)

def execCreate (b : AdminBlock) (s : State) : Result := s.onAdmin b (fun s a => s.createQueue b a)

/-- The queue cannot be destroyed (R289). -/
def State.queueBusy (s : State) (q : BitVec 16) : Bool :=
  (s.queue q).fetched.any (fun f => match f.phase with
    | .done _ _ _ => false
    | _ => true)
  || (Tab.find s.treadle q.toNat).isSome || (Tab.find s.attached q.toNat).isSome

def State.destroyQueue (s : State) (b : AdminBlock) (a : Admin) : Except Nat (State × Nat) :=
  let q := a.queue
  let c := s.queue q
  if s.adminShut b then .error 14
  else if c.state = .free then .ok (s, q.toNat)
  else if s.queueBusy q then .error 8
  else
    let s : State := (List.range 8).foldl (fun (s : State) l => s.dropChain c.die l q) s
    let s : State := { s with queues := Tab.remove s.queues q.toNat }
    let s := if (s.lease c.lease).state = .revoked ∧ !s.leaseHasQueue c.lease then s.freeLease c.lease
      else s
    .ok (s, q.toNat)

def execDestroy (b : AdminBlock) (s : State) : Result := s.onAdmin b (fun s a => s.destroyQueue b a)

/-- Writes the held records again, the uncertain ones first (R299). -/
def State.replay (s : State) (q : BitVec 16) (held : List CRec) (uncertain : Nat) : State :=
  ((List.range held.length).zip held).foldl (fun (s : State) e =>
    s.putRecord q e.2 (decide (e.1 < uncertain)) true) s

def State.reattachQueue (s : State) (b : AdminBlock) (a : Admin) : Except Nat (State × Nat) :=
  let q := a.queue
  let c := s.queue q
  let sq := if a.sqBase = 0 then c.sqBase else a.sqBase.toNat
  let cq := if a.cqBase = 0 then c.cqBase else a.cqBase.toNat
  if s.adminShut b ∨ s.host.attach = .lost then .error 14
  else if c.state ≠ .orphaned then .error 9
  else if sq % 64 ≠ 0 ∨ cq % 64 ≠ 0 ∨ a.cqHead ≠ c.replayFrom then .error 5
  else match s.ringsBad c.lease c.depth sq cq with
    | some r => .error r
    | none =>
      let n := match c.uncertain with
        | some u => seqAhead u.1 u.2 + 1
        | none => 0
      let s := s.setQueue q { c with
        state := .active, sqBase := sq, cqBase := cq, cqHead := a.cqHead, sqTail := c.nextSeq,
        cqWritten := c.replayFrom, cqConfirmed := c.replayFrom, unconfirmed := [], flushReads := [],
        sinceFlush := 0, uncertain := none, held := [] }
      let s := s.replay q c.held n
      let d := s.queue q
      let s := if c.held ≠ [] ∧ cqInHost d ∧ d.flushReads.getLast? ≠ some d.cqWritten then
        s.issueFlush q else s
      .ok (s.pump q, c.held.length)

def execReattach (b : AdminBlock) (s : State) : Result := s.onAdmin b (fun s a => s.reattachQueue b a)

def State.attachHost (s : State) (a : Admin) : Except Nat (State × Nat) :=
  let h := s.host
  if h.attach = .lost then .error 14
  else if a.epoch ≠ h.epoch then .error 10
  else .ok (s.setHost { h with
      attach := .attached
      regions := h.regions.map (fun e => (e.1, { e.2 with enabled := !e.2.lost })) },
    h.epoch.toNat % 65536)

def execAttach (b : AdminBlock) (s : State) : Result := s.onAdmin b (fun s a => s.attachHost a)

/-- The first run of `n` apertures that no region occupies. -/
def State.apertureRun (s : State) (n : Nat) : Option Nat :=
  let used := (s.host.regions.map Prod.snd).map (fun g => (g.first, g.apertures))
  if n = 0 then none else placeExtent used 4096 n

def State.registerRegion (s : State) (b : AdminBlock) (a : Admin) : Except Nat (State × Nat) :=
  let l := a.lease.toNat
  let r := a.region.toNat
  let t := a.target.toNat
  let n := a.length.toNat
  let bad := touchesHost t n || (match spaceOf t with | .control => true | _ => false)
  if s.adminShut b then .error 14
  else if l = 0 ∨ 1023 < l ∨ (s.lease l).state ≠ .active then .error 2
  else if 4096 ≤ r ∨ n = 0 ∨ n % 65536 ≠ 0 ∨ t % 65536 ≠ 0 then .error 5
  else if (Tab.find s.host.regions r).isSome then .error 12
  else if bad ∨ !s.leaseCovers l t n then .error 7
  else
    let k := if s.aperture = 0 then 0 else ceilDiv n s.aperture
    match s.apertureRun k with
    | none => .error 11
    | some f =>
      let g : Region :=
        { enabled := s.host.attach == .attached, lost := false, rd := a.aflags.getLsbD 2,
          wr := a.aflags.getLsbD 3, lease := l, first := f, apertures := k, target := t, length := n }
      .ok (s.setHost { s.host with regions := Tab.write s.host.regions r g }, f)

def execRegionRegister (b : AdminBlock) (s : State) : Result :=
  s.onAdmin b (fun s a => s.registerRegion b a)

def State.releaseRegion (s : State) (b : AdminBlock) (a : Admin) : Except Nat (State × Nat) :=
  let r := a.region.toNat
  if s.adminShut b then .error 14
  else if 4096 ≤ r then .error 5
  else if (Tab.find s.host.regions r).isNone then .error 12
  else .ok (s.setHost { s.host with regions := Tab.remove s.host.regions r }, r)

def execRegionRelease (b : AdminBlock) (s : State) : Result :=
  s.onAdmin b (fun s a => s.releaseRegion b a)

/-- A code that Table HST-6 does not list: RESULT 1, whatever the host's attachment. -/
def execBadCommand (b : AdminBlock) (code : Byte) (s : State) : Result :=
  if 1 ≤ code.toNat ∧ code.toNat ≤ 6 then .next s else s.onAdmin b (fun _ _ => .error 1)

/-- A write of `code` to ADM_CMD (R290). -/
def State.adminWrite (s : State) (b : AdminBlock) (code : Byte) : Result :=
  match code.toNat with
  | 1 => execCreate b s
  | 2 => execDestroy b s
  | 3 => execReattach b s
  | 4 => execAttach b s
  | 5 => execRegionRegister b s
  | 6 => execRegionRelease b s
  | _ => execBadCommand b code s

/-! ### Owner abort (R300) -/

def State.abortQueue (s : State) (q : BitVec 16) : State :=
  let c := s.queue q
  if c.state = .free then s
  else
    let s := s.cutQueue q stAborted false
    let c := s.queue q
    if c.state = .orphaned ∨ c.nextSeq = c.sqTail then s
    else (s.setQueue q { c with abortTail := some c.sqTail, fails := 0, retryWait := false }).pump q

def execQueueAbort (q : BitVec 16) (s : State) : Result := s.onCmd (fun s => (s.abortQueue q, .ok))

def execHstCountersClear (_value : Byte) (s : State) : Result :=
  s.onCmd (fun s => (s.clearCounters (objKey 0x7921 0) (objKey 0x7921 0xF), .ok))

end Sys2Proof.Machine
end

