-- ==== Sys2Proof/Machine/Trust.lean ====
section
/-!
DEFINITION. Trust (R399 to R415): the OTP, derived keys, firmware images, the ROM's part of a start,
measurements, the owner and operator keys and the anti-rollback counters.
-/

namespace Sys2Proof.Machine

open Sys2Proof

/-! ### The OTP and the keys (Tables SEC-1, SEC-2) -/

def vendorKey : List Byte := (List.range 32).map Config.vendorPk

def idsBytes : List Byte := (List.range 32).map Config.ids

/-- s of R401 for a key `k` and a label. -/
def deriveSeed (k : List Byte) (label : String) : List Byte :=
  hmac256 k (ascii label ++ [1]) ++ (hmac256 k (ascii label ++ [2])).take 16

def identitySeed : List Byte := deriveSeed idsBytes "KL30 identity"

def identityPk : List Byte := slice (Config.slhKeygen identitySeed) 0 32

def uds : List Byte := hmac256 idsBytes (ascii "KL30 DICE UDS")

/-- The wrap pad of an OWNERSHIP count. -/
def wrapPad (ownership : Nat) : List Byte := hmac256 uds (ascii "KL30 wrap" ++ toLe 1 ownership)

/-! ### Anti-rollback counters (R413, Table SEC-9) -/

/-- The value in force of counter `i`. -/
def State.arCounter (s : State) (i : Nat) : Nat := max (s.sec.fuses0.getD i 0) (s.sec.fuses1.getD i 0)

/-- Management die `k` is in service. -/
def State.mgmtUp (s : State) (k : Nat) : Bool := s.dieState (dieMgmt k) != 2

/-- Blows fuses of counter `i` on each management die in service until it reads `v`. -/
def State.blowTo (s : State) (i v : Nat) : State :=
  let up := fun (k : Nat) (l : List Nat) => if s.mgmtUp k then l.set i (max v (l.getD i 0)) else l
  let f0 := up 0 s.sec.fuses0
  let f1 := up 1 s.sec.fuses1
  let n := f0.getD i 0 - s.sec.fuses0.getD i 0 + (f1.getD i 0 - s.sec.fuses1.getD i 0)
  { s with sec := { s.sec with fuses0 := f0, fuses1 := f1 } }.count 0x7971 7 n

/-- The ROM blows fuses on the lower die until the two agree (R413). -/
def State.topUp (s : State) : State :=
  (List.range 8).foldl (fun (s : State) i => s.blowTo i (s.arCounter i)) s

/-! ### Firmware images (Tables SEC-3, SEC-4) -/

def imgNat (img : List Byte) (i n : Nat) : Nat := leNat (slice img i n)

def imgVersion (img : List Byte) : Nat := imgNat img 4 4
def imgSvn (img : List Byte) : Nat := imgNat img 8 1
def manifestBytes : Nat := 64 + 48 * 7
def imgManifest (img : List Byte) : List Byte := slice img 0 manifestBytes
def signatureBytes : Nat := 7856

/-- An entry of the component table. -/
structure FwComp where
  kind   : Nat
  offset : Nat
  length : Nat
  digest : List Byte
  deriving DecidableEq, Repr

def imgComps (img : List Byte) : List FwComp :=
  (List.range 7).map (fun j =>
    let c := 64 + 48 * j
    { kind := imgNat img c 1, offset := imgNat img (c + 4) 4, length := imgNat img (c + 8) 4,
      digest := slice img (c + 16) 32 })

/-- The component of a kind. -/
def imgComp (img : List Byte) (kind : Nat) : Option FwComp := (imgComps img).find? (fun c => c.kind == kind)

def compsDisjoint (l : List FwComp) : Bool :=
  match l with
  | [] => true
  | c :: t => t.all (fun x => decide (c.offset + c.length ≤ x.offset ∨ x.offset + x.length ≤ c.offset))
      && compsDisjoint t

/-- Check 1. -/
def imgHeaderOk (img : List Byte) : Bool :=
  let zero := fun i n => (slice img i n).all (· == 0)
  slice img 0 4 == ascii "KLFW" && imgNat img 9 1 == 0xA1 && imgNat img 10 2 == 7 && zero 16 48
    && (List.range 7).all (fun j => zero (64 + 48 * j + 1) 3 && zero (64 + 48 * j + 12) 4)

/-- Check 3. -/
def imgCompsOk (img : List Byte) : Bool :=
  let cs := imgComps img
  cs.all (fun c => decide (c.offset + c.length ≤ img.length)) && compsDisjoint cs
    && (List.range 7).all (fun k => cs.any (fun c => c.kind == k))

/-- The code of Table SEC-4: the first check that fails, 0 when none does. `done` says that the image is
whole. -/
def imageCheck (img : List Byte) (done : Bool) (fwSvn : Nat) : Nat :=
  let body := fun (c : FwComp) => slice img c.offset c.length
  if !imgHeaderOk img then 1
  else if !done ∨ 16777216 < imgNat img 12 4 ∨ imgNat img 12 4 ≠ img.length then 2
  else if !imgCompsOk img then 3
  else if imgSvn img < fwSvn ∨ 64 < imgSvn img then 4
  else if !Config.slhVerify vendorKey (imgManifest img)
      (slice img (img.length - signatureBytes) signatureBytes) then 5
  else if (imgComps img).any (fun c => sha256 (body c) != c.digest) then 6
  else if (imgComp img 6).any (fun c => Config.certKey (body c) != vendorKey) then 7
  else 0

/-! ### Which die runs what (R396, R406) -/

/-- KIND of the component that die `d` runs; none for memory and NAND dies. -/
def dieKind (d : Nat) : Option Nat :=
  if d < 26 then some 5
  else if d < 34 then some 3
  else if d < 82 then none
  else if d < 87 then some 4
  else if d < 95 then some 1
  else if d = 95 then some 2
  else if d < 98 then some 0
  else none

/-- FW_DIE_SLOT: 0xFF for a die without firmware, a retired one among them (log 60). -/
def State.fwDieSlot (s : State) (d : Nat) : Nat :=
  if (dieKind d).isNone ∨ s.dieState d = 2 then 0xFF else Tab.read s.fw.dieSlot 0 d

def Firmware.slot (f : Firmware) (k : Nat) : Option (List Byte) := if k = 0 then f.slotA else f.slotB

/-- The active management die, and the standby. -/
def State.mgmtIn (s : State) (st : Nat) : Option Nat :=
  [dieMgmt 0, dieMgmt 1].find? (fun d => s.dieState d == st)

/-- The slot that the active management die runs. -/
def State.fwActive (s : State) : Nat :=
  match s.mgmtIn 0 with
  | some d => Tab.read s.fw.dieSlot 0 d
  | none => 0

/-! ### Measurements (Table SEC-5) -/

def romDigestBytes : List Byte := (List.range 32).map Config.romDigest

/-- The digest of the component that die `d` runs, or 32 zero bytes. -/
def State.dieDigest (s : State) (d : Nat) : List Byte :=
  match dieKind d, s.fw.slot (s.fwDieSlot d) with
  | some k, some img =>
    if s.fwDieSlot d = 0xFF then zeroKey else ((imgComp img k).map FwComp.digest).getD zeroKey
  | _, _ => zeroKey

/-- MR2: the fold over the dies. -/
def State.mr2 (s : State) : List Byte :=
  (List.range 100).foldl (fun x d => sha256 (x ++ toLe 1 d ++ toLe 1 (s.fwDieSlot d) ++ s.dieDigest d)) zeroKey

def State.mr4 (s : State) : List Byte := sha256 (toLe 4 s.draft.epoch ++ configDigest s.draft.active)

def State.mr5 (s : State) : List Byte :=
  sha256 (toLe 4 s.sec.ownerGen ++ toLe 4 s.sec.operatorGen ++ [if s.sec.owned then 1 else 0])

/-- Measurement register `i`. -/
def State.measurement (s : State) (i : Nat) : List Byte :=
  match i with
  | 0 => romDigestBytes
  | 1 => Tab.read s.sec.mr zeroKey 1
  | 2 => s.mr2
  | 3 => Tab.read s.sec.mr zeroKey 3
  | 4 => s.mr4
  | 5 => s.mr5
  | _ => zeroKey

/-! ### The ROM (R405) -/

/-- A slot's copy passes at a start: what was verified at installation can since have failed check 4
alone (log 61). -/
def State.slotBoots (s : State) (k : Nat) : Bool :=
  match s.fw.slot k with
  | none => false
  | some img => decide (s.arCounter 0 = 0 ∨ s.arCounter 0 ≤ imgSvn img)

/-- Steps 1 to 4 for the management dies, which measure the same images (R401): the counters agree, the
first copy that passes is measured, and the alias key is derived. False when no copy passes. -/
def State.rom (s : State) (recorded : Nat) : State × Bool :=
  let s := s.topUp
  let copies := nandCount s.journal
  let pick := [recorded, 1 - recorded].find? s.slotBoots
  let reject := fun (s : State) (n : Nat) => s.count 0x7971 1 n
  match pick with
  | none => (reject s (2 * copies), false)
  | some k =>
    if copies = 0 then (s, false)
    else
      let s := if k = recorded then s else reject s copies
      let counters := (List.range 8).map s.arCounter
      let mr1 := sha256 (imgManifest ((s.fw.slot k).getD []))
      let mr3 := sha256 (counters.map (fun c => BitVec.ofNat 8 c))
      let cdi := hmac256 uds (romDigestBytes ++ mr1 ++ mr3)
      let seed := deriveSeed cdi "KL30 alias"
      let slots := Tab.write (Tab.write s.fw.dieSlot (dieMgmt 0) k) (dieMgmt 1) k
      ({ s with
          power := { s.power with idsLocked := true }
          fw := { s.fw with dieSlot := slots }
          sec := { s.sec with bootCounters := counters, mr := [(1, mr1), (3, mr3)], aliasSeed := seed,
                              aliasPk := slice (Config.slhKeygen seed) 0 32 } }, true)

/-- ALIAS_CERT (R402). -/
def State.aliasCert (s : State) : List Byte :=
  Config.aliasCert s.sec.aliasPk (s.measurement 0 ++ s.measurement 1 ++ s.measurement 3)

/-! ### Persistent values (R342) -/

/-- A VALUE record: index, sub-index, length and the value (log 40). -/
def State.keepValue (s : State) (index sub : Nat) (v : List Byte) : State :=
  s.record 0x04 0 (toLe 2 index ++ toLe 1 sub ++ [0] ++ toLe 4 v.length ++ v)

/-! ### Owner and operator keys (R410, R411) -/

/-- The key of a kind. -/
def Sec.key (x : Sec) (owner : Bool) : List Byte := if owner then x.ownerKey else x.operatorKey

/-- A key as the journal holds it. -/
def wrapKey (pad key : List Byte) : List Byte := List.zipWith (· ^^^ ·) key pad ++ hmac256 pad key

/-- Why a key cannot be written. -/
def State.keyResult (s : State) (key : List Byte) : DapResult :=
  if key.length ≠ 32 then .length
  else if key = zeroKey ∧ s.sec.owned then .range
  else if !s.journalUp then .refused
  else .ok

/-- Step 1 of R411: the key and its generation are journaled and in force. -/
def State.setKey (s : State) (owner : Bool) (key : List Byte) : State :=
  let x := s.sec
  let x := if owner then { x with ownerKey := key, ownerGen := x.ownerGen + 1
                                  owned := x.owned || key != zeroKey }
    else { x with operatorKey := key, operatorGen := x.operatorGen + 1 }
  let sub := if owner then 1 else 2
  let s := s.keepValue 0x6810 sub (wrapKey (wrapPad (s.arCounter 1)) key)
  let s := s.keepValue 0x6810 (sub + 2) (toLe 4 (if owner then x.ownerGen else x.operatorGen))
  let s := if x.owned = s.sec.owned then s else s.keepValue 0x6800 1 [1]
  { s with sec := x }.count 0x7971 6 1

/-- Sessions end: their kept responses and a staging set that one of them holds go with them (R354,
R355). -/
def State.endSessions (s : State) (p : Session → Bool) : State :=
  let d := s.draft
  let keepSet := d.stagingSess = 0 ∨ d.sessions.any (fun x => x.num == d.stagingSess && !p x)
  { s with draft :=
    { d with sessions := d.sessions.filter (fun x => !p x)
             stagingSess := if keepSet then d.stagingSess else 0
             staged := if keepSet then d.staged else []
             partials := if keepSet then d.partials else [] } }

/-- Step 3 of R411. -/
def State.endKeySessions (s : State) (owner : Bool) : State :=
  let n := (s.draft.sessions.filter (fun x => x.ownerKey == owner)).length
  (s.endSessions (fun x => x.ownerKey == owner)).count 0x7971 8 n

def State.writeKey (s : State) (owner : Bool) (key : List Byte) : State × DapResult :=
  match s.keyResult key with
  | .ok => ((s.setKey owner key).endKeySessions owner, .ok)
  | r => (s, r)

def execOwnerKey (key : List Byte) (s : State) : Result := s.onCmd (fun s => s.writeKey true key)

def execOperatorKey (key : List Byte) (s : State) : Result := s.onCmd (fun s => s.writeKey false key)

/-! ### OWNER_RELEASE (R412) -/

/-- R412: one fuse, then both keys as zeros under the new pad, UNOWNED, and every session ends. -/
def State.ownerRelease (s : State) (value : Byte) : State × DapResult :=
  if value ≠ 0xA5 ∨ s.leases.any (fun e => e.2.state != .free) ∨ 64 ≤ s.arCounter 1 ∨ !s.journalUp then
    (s, .refused)
  else
    let s := s.blowTo 1 (s.arCounter 1 + 1)
    let w := wrapKey (wrapPad (s.arCounter 1)) zeroKey
    let s := ((s.keepValue 0x6810 1 w).keepValue 0x6810 2 w).keepValue 0x6800 1 [0]
    let s := { s with sec := { s.sec with ownerKey := zeroKey, operatorKey := zeroKey, owned := false } }
    (s.endSessions (fun _ => true), .ok)

def execOwnerRelease (value : Byte) (s : State) : Result := s.onCmd (fun s => s.ownerRelease value)

end Sys2Proof.Machine
end

