-- ==== Sys2Proof/Machine/Firmware.lean ====
section
/-!
DEFINITION. Installing and activating firmware (R395 to R397, R414), and the switchover of the management
dies.
-/

namespace Sys2Proof.Machine

open Sys2Proof

/-! ### FW_IMAGE -/

def imageMax : Nat := 16777216
def segmentMax : Nat := 1170

/-- A segment of a DOMAIN image (R348): the image and whether it is whole afterwards, or why not. -/
def takeSegment (img : List Byte) (done : Bool) (maxLen offset : Nat) (last : Bool) (b : List Byte) :
    Except DapResult (List Byte × Bool) :=
  if segmentMax < b.length ∨ maxLen < offset + b.length then .error .length
  else if offset = 0 then .ok (b, last)
  else if done ∨ offset ≠ img.length then .error .offset
  else .ok (img ++ b, last)

def State.fwImage (s : State) (offset : Nat) (last : Bool) (b : List Byte) : State × DapResult :=
  match takeSegment s.fw.image s.fw.imageDone imageMax offset last b with
  | .error r => (s, r)
  | .ok r => ({ s with fw := { s.fw with image := r.1, imageDone := r.2 } }, .ok)

def execFwImage (offset : Nat) (last : Bool) (bytes : List Byte) (s : State) : Result :=
  s.onCmd (fun s => s.fwImage offset last bytes)

/-! ### FW_INSTALL -/

/-- A FIRMWARE record: what it says, a number and a value (log 40). -/
def State.fwRecord (s : State) (what a v : Nat) : State :=
  s.record 0x0A 0 (toLe 1 what ++ toLe 1 a ++ toLe 2 0 ++ toLe 4 v)

def State.setCheck (s : State) (c : Nat) : State := { s with sec := { s.sec with checkResult := c } }

/-- R395 and R404: a valid image goes to the inactive slot. -/
def State.fwInstall (s : State) : State × DapResult :=
  let c := imageCheck s.fw.image s.fw.imageDone (s.arCounter 0)
  if c ≠ 0 then ((s.setCheck c).count 0x7971 0 1, .refused)
  else if !s.journalUp then (s.setCheck 0, .refused)
  else
    let k := 1 - s.fwActive
    let img := some s.fw.image
    let f := if k = 0 then { s.fw with slotA := img } else { s.fw with slotB := img }
    ((({ s with fw := f }).setCheck 0).fwRecord 0 k (imgVersion s.fw.image), .ok)

def execFwInstall (_value : Byte) (s : State) : Result := s.onCmd State.fwInstall

/-! ### Switchover of the management dies (R397, R354, R374) -/

/-- The standby takes control and the former active die becomes the standby. -/
def State.switchover (s : State) : State :=
  match s.mgmtIn 0, s.mgmtIn 3 with
  | some a, some b => (s.setDieState a 3).setDieState b 0
  | _, _ => s

/-! ### FW_ACTIVATE -/

/-- The dies of the roll after the management dies, in the order of R396. -/
def State.rollOrder (s : State) : List Nat :=
  let inSt := fun (st : Nat) (l : List Nat) => l.filter (fun d => s.dieState d == st)
  let alive := fun (l : List Nat) => l.filter (fun d => s.dieState d != 2)
  alive (rangeFrom 87 8) ++ alive [dieHost] ++ alive (rangeFrom 26 8) ++ alive (rangeFrom 82 5)
    ++ inSt 1 (List.range 26) ++ inSt 0 (List.range 26)

/-- The management dies of the roll: the standby, then the former active die. -/
def State.mgmtOrder (s : State) : List Nat := (s.mgmtIn 3).toList ++ (s.mgmtIn 0).toList

/-- Die `d` loads slot `k`, which it journals. -/
def State.loadDie (s : State) (k d : Nat) : State :=
  { s with fw := { s.fw with dieSlot := Tab.write s.fw.dieSlot d k } }.fwRecord 1 d k

/-- Dies of a list move to slot `k`, each counted. -/
def State.moveDies (s : State) (k : Nat) (l : List Nat) : State :=
  l.foldl (fun (s : State) d => (s.loadDie k d).count 0x7951 0xD 1) s

/-- Both management dies have passed through the ROM on slot `k`: MR1, MR3 and the alias key follow. -/
def State.remeasure (s : State) (k : Nat) : State := (s.rom k).1

/-- R414: the target is journaled, the fuses are blown, and an event is posted. -/
def State.burnSvn (s : State) (svn : Nat) : State :=
  if svn ≤ s.arCounter 0 then s
  else
    let s := { s with fw := { s.fw with burnTarget := svn } }.fwRecord 2 0 svn
    (s.blowTo 0 svn).event 0x6802 0 srcDevice svn 0

/-- R397: die `f` fails after `moved` have moved; they return to slot `k` in reverse order. -/
def State.rollBack (s : State) (k f : Nat) (moved : List Nat) : State :=
  let m := moved.filter (fun d => 96 ≤ d)
  let s := moved.reverse.foldl (fun (s : State) d => s.loadDie k d) s
  let s := if m = [] then s else s.remeasure k
  let s := if m = [] then s else s.switchover
  s.event 0x6051 f f (s.fwDieSlot f) 0

/-- R396: the inactive slot rolls across the dies. -/
def State.fwActivate (s : State) (failing : Option Nat) : State × DapResult :=
  let old := s.fwActive
  let k := 1 - old
  match s.fw.slot k with
  | none => (s.setCheck 1, .refused)
  | some img =>
    if imgSvn img < s.arCounter 0 then (s.setCheck 4, .refused)
    else if !s.journalUp then (s, .refused)
    else
      let mg := s.mgmtOrder
      let order := mg ++ s.rollOrder
      let moved := order.takeWhile (fun d => some d != failing)
      let s := s.moveDies k moved
      let s := if mg.length = 2 ∧ moved ≠ [] then s.switchover else s
      let s := if moved.any (fun d => 96 ≤ d) then s.remeasure k else s
      if moved.length < order.length then (s.rollBack old (order.getD moved.length 0) moved, .refused)
      else
        let s := { s with journal := s.journal.live 6 1 }
        (s.burnSvn (imgSvn img), .ok)

def execFwActivate (_value : Byte) (failing : Option Nat) (s : State) : Result :=
  s.onCmd (fun s => s.fwActivate failing)

end Sys2Proof.Machine
end

