-- ==== Sys2Proof/Machine/Journal.lean ====
section
/-!
DEFINITION. What the journal does of itself (R383 to R391): pages, checkpoints, lifetime records, NAND dies
that leave service, static relocation and row repair.
-/

namespace Sys2Proof.Machine

open Sys2Proof

/-! ### NAND dies (R387, R390) -/

def Journal.nand (j : Journal) (k : Nat) : Nand := if k = 0 then j.nand0 else j.nand1

def Journal.setNand (j : Journal) (k : Nat) (n : Nand) : Journal :=
  if k = 0 then { j with nand0 := n } else { j with nand1 := n }

/-- NAND die `k` leaves service, as a change of role (R15, R387, log 62). -/
def State.failNand (s : State) (k : Nat) : State :=
  let n := s.journal.nand k
  if n.failed then s
  else { s with journal := s.journal.setNand k { n with failed := true } }.setDieState (dieNand k) 2

/-- Good pool blocks below 1,024 end a die's service. -/
def State.checkNands (s : State) : State :=
  [0, 1].foldl (fun (s : State) k => if (s.journal.nand k).good < 1024 then s.failNand k else s) s

def execNandDieFail (die : Nat) (s : State) : Result :=
  if s.power.draftUp && decide (die < 2) then .next (s.failNand die) else .next s

/-! ### Pages (R384) -/

def execJournalPageProgrammed (s : State) : Result :=
  let j := s.journal.programPage
  let s := s.count 0x7951 0xB (j.retiredBlocks - s.journal.retiredBlocks)
  .next (({ s with journal := j } : State).watchForecasts State.checkNands)

/-! ### Checkpoints (R386) -/

/-- A stored value: its key, its length and its bytes. -/
def encodeValues (t : Tab (List Byte)) : List Byte :=
  (t.map (fun e => toLe 4 e.1 ++ toLe 4 e.2.length ++ e.2)).flatten

def encodeCounts (t : Tab Nat) : List Byte := (t.map (fun e => toLe 8 e.1 ++ toLe 4 e.2)).flatten

/-- The body of a CHECKPOINT record (log 40). -/
def State.ckptBody (s : State) : List Byte :=
  let pend := match s.draft.pending with
    | none => []
    | some p => toLe 8 p.step ++ toLe 4 p.epoch ++ encodeValues p.values
  encodeValues s.draft.active ++ pend ++ encodeCounts s.repairs ++ encodeCounts s.dies
    ++ encodeCounts s.journal.nand0.erases ++ encodeCounts s.journal.nand1.erases
    ++ encodeCounts s.journal.lifetime ++ s.commit.lastBody ++ s.commit.lastBolt ++ encodeCounts s.fw.dieSlot

/-- CHECKPOINT_INTERVAL in bytes. -/
def State.ckptInterval (s : State) : Nat := s.obj 0x6020 3 1024 * 2 ^ 20

/-- After CHECKPOINT_INTERVAL of log, the record; its blocks come free once it is programmed. -/
def execCheckpoint (s : State) : Result :=
  if !s.journalUp ∨ s.journal.sinceCkpt < s.ckptInterval then .next s
  else
    let body := s.ckptBody
    let s := s.record 0x0D 0 body
    .next { s with journal := { s.journal with
      sinceCkpt := 0, ckpt := some (s.journal.tailBytes, jrecLength body) } }

/-! ### Lifetime (R383, R393) -/

/-- A LIFETIME record: the six counters of 0x7960. -/
def State.lifetimeRecord (s : State) : State :=
  s.record 0x08 0 ((rangeFrom 1 6).map (fun k => toLe 8 (Tab.read s.journal.lifetime 0 k))).flatten

/-- An hour of power-on time. -/
def execLifetime (s : State) : Result :=
  if s.power.draftUp then
    .next (s.watchForecasts (fun s =>
      ({ s with journal := s.journal.live 1 1 } : State).lifetimeRecord))
  else .next s

/-! ### Static relocation (R390) -/

/-- Good pool blocks, ascending. -/
def Nand.goodBlocks (n : Nand) : List Nat :=
  (rangeFrom poolFirst poolBlocks).filter (fun b => !n.retired.contains b)

def Nand.eraseOf (n : Nand) (b : Nat) : Nat := Tab.read n.erases 0 b

def lowestBy (f : Nat → Nat) (l : List Nat) : Option Nat :=
  match l with
  | [] => none
  | b :: r => some (r.foldl (fun m x => if f x < f m then x else m) b)

def highestBy (f : Nat → Nat) (l : List Nat) : Option Nat :=
  match l with
  | [] => none
  | b :: r => some (r.foldl (fun m x => if f m < f x then x else m) b)

/-- The move of R390: the live block with the lowest count, and the free good block with the highest. -/
def Nand.relocation (n : Nand) : Option (Nat × Nat) :=
  let g := n.goodBlocks
  match lowestBy n.eraseOf g, highestBy n.eraseOf g with
  | some lo, some hi =>
    if n.eraseOf hi ≤ n.eraseOf lo + 1000 then none
    else
      match (g.filter (fun b => n.live.contains b && n.eraseOf b == n.eraseOf lo)).head?,
        highestBy n.eraseOf (g.filter (fun b => !n.live.contains b)) with
      | some a, some b => some (a, b)
      | _, _ => none
  | _, _ => none

def execWearLevelRelocation (die : Nat) (s : State) : Result :=
  if !s.journalUp ∨ 2 ≤ die ∨ (s.journal.nand die).failed then .next s
  else
    let n := s.journal.nand die
    match n.relocation with
    | none => .next s
    | some (a, b) =>
      let c := n.eraseOf b + 1
      let s := s.record 0x07 0 (toLe 2 die ++ toLe 2 b ++ toLe 4 c)
      let n := s.journal.nand die
      let n := { n with erases := Tab.write n.erases b c
                        live := n.live.map (fun x => if x = a then b else x) }
      .next ({ s with journal := s.journal.setNand die n }.count 0x7951 0xE 1)

end Sys2Proof.Machine
end

