-- ==== Sys2Proof/Machine/Peers.lean ====
section
/-!
DEFINITION. Records between devices (R313 to R320, R322): agreement checks, puts, gets, atomics and signals
at the target, responses at the origin, HELLO, and the loss of a peer.
-/

namespace Sys2Proof.Machine

open Sys2Proof

/-! ### The loss of a peer (R317) -/

/-- One outstanding transaction to a peer ends with `st`. -/
def State.failXact (s : State) (x : Xact) (st : Byte) : State :=
  if x.kind = 4 then s
  else
    let s := { s with peruo := { s.peruo with
      xacts := s.peruo.xacts.filter (fun y => !(y.peer == x.peer && y.xtag == x.xtag)) } }
    match s.xfer x.queue x.seq with
    | some _ => s.failXfer x.queue x.seq st x.offset
    | none => s.complete x.queue x.seq
        (outcm st (if st = stCfgMismatch ∨ st = stViewChanged then x.peer else 0) 0)

/-- Every transaction and held record to `p` ends with `st`, and the collectives are looked at again. -/
def State.failPeer (s : State) (p : Nat) (st : Byte) : State :=
  let l := s.outstanding p
  let s := { s with peruo := { s.peruo with
    heldRecs := s.peruo.heldRecs.filter (fun x => x.peer != p)
    helloOut := s.peruo.helloOut.filter (fun x => x != p) } }
  (l.foldl (fun (s : State) x => s.failXact x st) s).pumpColls

/-- Members of the domain that a PEER_DOWN can reach. -/
def State.reachable (s : State) : List Nat :=
  ((List.range 64).map (fun d => podOf (s.obj 0x5000 3 0) d)).filter (fun p =>
    p != s.ownPod && (s.refusal p false).isNone)

/-- Peer `p` is LOST from here on. -/
def State.markLost (s : State) (p : Nat) : State :=
  ((s.setPeer p .lost).count 0x7939 4 1).failPeer p stPeerLost

/-- This device declares `p` lost and says so in its domain (R317). -/
def State.declareLost (s : State) (p : Nat) : State :=
  if s.peerState p = .member ∨ s.peerState p = .cfgMismatch then
    let s := s.setPeer p .lost
    let v := BitVec.ofNat 32 (viewNumber s.viewRecord)
    let s := s.reachable.foldl (fun (s : State) q =>
      s.sendNow q false 0 s.draft.deviceStep (.peerDown p v)) s
    s.markLost p
  else s

/-- A transaction, a HELLO or a packet of the peer's awaits an answer. -/
def State.awaitsPeer (s : State) (p : Nat) : Bool :=
  (s.outstanding p).any (fun x => x.kind != 4) || s.peruo.helloOut.contains p
    || decide (0 < (s.eth p).unacked)

def execXactTimeoutExpiry (peer : Nat) (s : State) : Result :=
  if s.ready ∧ s.awaitsPeer peer then .next (s.declareLost peer) else .next s

/-! ### Agreement (R313, R315) -/

/-- What becomes of an arriving record. -/
inductive Agree where
  | discard
  | refuse (st : Byte)
  | accept
  deriving DecidableEq, Repr

/-- A record of step `t` under header `h`: from a device that is not a member it is discarded, and one whose
pair or view differs is refused, the pair first (log 52). -/
def State.agree (s : State) (h : XHdr) (t : Nat) : Agree :=
  if h.dst ≠ s.ownPod ∨ !viewHas (s.viewAt t) h.src then .discard
  else if (h.epoch, h.digest) ≠ s.pairAt t ∨ s.peerState h.src = .cfgMismatch then .refuse stCfgMismatch
  else if h.view.toNat ≠ viewNumber (s.viewAt t) then .refuse stViewChanged
  else .accept

/-- NONMEMBER_FRAMES counts a frame from a device that is not a member. -/
def State.noteStranger (s : State) (h : XHdr) (t : Nat) : State :=
  if h.dst = s.ownPod ∧ !viewHas (s.viewAt t) h.src then s.count 0x7939 0xD 1 else s

/-- Answers the transaction of header `h`. -/
def State.respond (s : State) (h : XHdr) (t : Nat) (pod : Bool) (r : OutRec) : State :=
  s.sendNow h.src pod h.xtag t r

/-- An answer of status `st` alone. -/
def plainRsp (st : Byte) : OutRec := .rsp st 0 0 [] []

/-- The frame of a record of step `t` that arrives under `h`: `f` is its effect when both sides agree. -/
def State.onRecord (s : State) (h : XHdr) (t : Nat) (pod : Bool) (f : State → State) : Result :=
  if !s.ready then .next s
  else match s.agree h t with
    | .discard => .next (s.noteStranger h t)
    | .refuse st =>
      let s := s.count 0x7939 (if st = stCfgMismatch then 0 else 1) 1
      .next (s.respond h t pod (.rsp st 0 (BitVec.ofNat 32 s.ownPod) [] []))
    | .accept => .next (f s)

/-! ### Operations at the target (R318 to R320) -/

/-- Every byte lies within some lease. -/
def State.leased (s : State) (a n : Nat) : Bool :=
  s.leases.any (fun l => s.leaseCovers l.1 a n)

/-- Where a put of `n` bytes goes, or the status that refuses it. -/
def State.putTarget (s : State) (h : XHdr) (r : PutRec) : Except Byte Nat :=
  if r.region = noRegion then
    if r.pod ∨ !sameDomain h.src s.ownPod then .error stBadField
    else if s.leased r.addr r.length then .ok r.addr else .error stNoLease
  else s.regionCheck r.region r.addr r.length (if r.pod then 1 else 0)

def execPut (h : XHdr) (r : PutRec) (s : State) : Result :=
  s.onRecord h r.step r.pod (fun s =>
    match s.putTarget h r with
    | .error st => s.respond h r.step r.pod (plainRsp st)
    | .ok a =>
      match s.objWrite a with
      | .held => s
      | .refused => s.respond h r.step r.pod (plainRsp stBadField)
      | .free =>
        let s := s.writeMem a (slice r.data.bytes 0 r.length)
        let bad := (r.data.poison.map (fun k => a / 64 + k)).filter (linesOf a r.length).contains
        (s.poisonResult bad).respond h r.step r.pod (plainRsp stDone))

def execGet (h : XHdr) (r : GetRec) (s : State) : Result :=
  s.onRecord h r.step false (fun s =>
    if r.region ≠ noRegion ∨ !sameDomain h.src s.ownPod then s.respond h r.step false (plainRsp stBadField)
    else if !s.leased r.addr r.length then s.respond h r.step false (plainRsp stNoLease)
    else
      let bad := (s.poisonIn r.addr r.length).map (fun l => l - r.addr / 64)
      let bytes := s.bytesAt r.addr r.length
      (s.noteRead r.addr r.length).respond h r.step false (.rsp stDone 0 0 bytes bad))

/-- The cached answer of an atomic, for XACT_TIMEOUT (R318). -/
def State.cachedAtomic (s : State) (src : Nat) (tag : BitVec 12) : Option OutRec :=
  (s.peruo.atomics.find? (fun e => e.1 == src && e.2.1 == tag
    && decide (s.power.aCycles - e.2.2.2 ≤ 1000 * s.obj 0x5001 1 10000))).map (fun e => e.2.2.1)

def State.cacheAtomic (s : State) (src : Nat) (tag : BitVec 12) (r : OutRec) : State :=
  { s with peruo := { s.peruo with
      atomics := s.peruo.atomics.filter (fun e => !(e.1 == src && e.2.1 == tag))
        ++ [(src, tag, r, s.power.aCycles)] } }

def execAtom (h : XHdr) (r : AtomRec) (s : State) : Result :=
  s.onRecord h r.step false (fun s =>
    let refuse := fun (s : State) st => s.respond h r.step false (plainRsp st)
    match s.cachedAtomic h.src h.xtag with
    | some o => (s.count 0x7939 0xE 1).respond h r.step false o
    | none =>
      if !atomicWidthOk r.op r.width ∨ !sameDomain h.src s.ownPod then refuse s stBadField
      else if !s.leased r.addr r.width then refuse s stNoLease
      else match s.objWrite r.addr with
        | .held => s
        | .refused => refuse s stBadField
        | .free =>
          if s.anyPoison r.addr r.width then refuse (s.noteRead r.addr r.width) stPoisonSrc
          else
            let first := leNat (slice r.operand 0 r.width)
            let second := leNat (slice r.operand r.width r.width)
            let x := if r.op = 9 then s.atomicAt r.addr r.op r.width second first
              else s.atomicAt r.addr r.op r.width first 0
            let o : OutRec := .rsp stDone x.1 0 [] []
            (x.2.cacheAtomic h.src h.xtag o).respond h r.step false o)

def execSignal (h : XHdr) (r : SignalRec) (s : State) : Result :=
  s.onRecord h r.step false (fun s =>
    if 1 < r.mode ∨ 4095 < r.token ∨ !s.tensorDie r.die then s.respond h r.step false (plainRsp stBadField)
    else (s.signalToken r.die r.token r.mode r.increment).respond h r.step false (plainRsp stDone))

/-! ### Responses (R312, R313) -/

/-- A collective of this device ends with the status that a member refused it with. -/
def State.refuseColl (s : State) (x : Xact) (st : Byte) (detail : BitVec 32) : State :=
  match s.peruo.collWaits.find? (fun w => w.queue == x.queue && w.seq == x.seq) with
  | some w => s.endColl w (st, detail, 0)
  | none => s

/-- The response to outstanding transaction `x`. -/
def State.takeRsp (s : State) (x : Xact) (r : RspRec) : State :=
  if x.kind = 4 then
    if r.status = stDone then s else s.refuseColl x r.status r.detail
  else
    let s := { s with peruo := { s.peruo with
      xacts := s.peruo.xacts.filter (fun y => !(y.peer == x.peer && y.xtag == x.xtag)) } }
    match s.xfer x.queue x.seq with
    | none => s.complete x.queue x.seq (r.status, if r.status = stDone then 0 else r.detail, 0)
    | some f =>
      let s : State :=
        let data : RemoteData := { bytes := slice r.data.bytes 0 x.length, poison := r.data.poison }
        let old : RemoteData := { bytes := toLe x.length r.old.toNat, poison := [] }
        if r.status ≠ stDone then s.failXfer x.queue x.seq r.status x.offset
        else if x.kind = 1 then
          s.updXfer x.queue x.seq (fun y => { y with got := Tab.write f.got x.offset data })
        else if x.kind = 2 then
          s.updXfer x.queue x.seq (fun y => { y with got := Tab.write f.got 0 old })
        else s
      s.drive x.queue x.seq

/-- RSP (R312). One whose status is no code of Table SCO-3 is discarded, so that no such code reaches a
completion record (R9, log 74). -/
def execRsp (h : XHdr) (r : RspRec) (s : State) : Result :=
  let t := s.draft.deviceStep
  if !s.ready ∨ h.dst ≠ s.ownPod ∨ !statusListed r.status then .next s
  else if !viewHas (s.viewAt t) h.src then .next (s.noteStranger h t)
  else match s.peruo.xacts.find? (fun x => x.peer == h.src && x.xtag == h.xtag) with
    | none => .next s
    | some x => .next (s.takeRsp x r)

/-! ### Collective records (R322, R323, R328) -/

/-- The collectives of group `g` are looked at again. -/
def State.pumpGroup (s : State) (g : Nat) : State :=
  (s.peruo.collWaits.filter (fun w => collGroup w.body == g)).foldl (fun (s : State) w =>
    if s.peruo.collWaits.contains w then s.pumpColl w else s) s

def execColl (h : XHdr) (r : CollRec) (s : State) : Result :=
  s.onRecord h r.step false (fun s =>
    if !s.collAwaited r.group r.collSeq then s
    else (s.putMsg { s.collMsg r.group h.src r.collSeq with coll := some r }).pumpGroup r.group)

/-- The step of a collective that a member's EXP belongs to, as its COLL gave it. -/
def State.expStep (s : State) (src : Nat) (r : ExpRec) : Nat :=
  match (s.collMsg r.group src r.collSeq).coll with
  | some c => c.step
  | none => s.draft.deviceStep

def execExp (h : XHdr) (r : ExpRec) (s : State) : Result :=
  s.onRecord h (s.expStep h.src r) false (fun s =>
    if !s.collAwaited r.group r.collSeq then s
    else (s.putMsg { s.collMsg r.group h.src r.collSeq with exp := some r }).pumpGroup r.group)

def execBarrier (h : XHdr) (r : BarrierRec) (s : State) : Result :=
  s.onRecord h r.step false (fun s =>
    if !s.collAwaited r.group r.collSeq then s
    else (s.putMsg { s.collMsg r.group h.src r.collSeq with barrier := some r }).pumpGroup r.group)

/-! ### HELLO and PEER_DOWN (R316, R317) -/

/-- HELLO disagrees: equal views with different digests, or different pairs for the current step. -/
def State.helloDiffers (s : State) (r : HelloRec) : Bool :=
  let own := s.helloRec
  (r.view == own.view && r.viewDigest != own.viewDigest) || (r.epoch, r.digest) != (own.epoch, own.digest)

def State.takeHello (s : State) (p : Nat) (r : HelloRec) : State :=
  let s : State := if s.peruo.helloOut.contains p then
      { s with peruo := { s.peruo with helloOut := s.peruo.helloOut.erase p } }
    else s.sendNow p false 0 s.draft.deviceStep (.hello s.helloRec)
  if s.helloDiffers r then
    ((s.setPeer p .cfgMismatch).event (0x5100 + p / 256) (p % 256) srcDevice 3 0).failPeer p stCfgMismatch
  else s.releaseRecs p

def execHello (h : XHdr) (r : HelloRec) (s : State) : Result :=
  let t := s.draft.deviceStep
  if !s.ready ∨ h.dst ≠ s.ownPod then .next s
  else if !viewHas (s.viewAt t) h.src then .next (s.noteStranger h t)
  else if s.peerState h.src ≠ .member then .next s
  else .next (s.takeHello h.src r)

/-- This device is EXCLUDED: every domain transaction ends with PEER_LOST (Table PRU-5). -/
def State.exclude (s : State) : State :=
  let s := s.setPeer s.ownPod .excluded
  ((s.peruo.xacts.map Xact.peer).eraseDups.filter (fun p => sameDomain p s.ownPod)).foldl
    (fun (s : State) p => s.failPeer p stPeerLost) s.pumpColls

def execPeerDown (h : XHdr) (lost : Nat) (view : BitVec 32) (s : State) : Result :=
  if !s.ready ∨ h.dst ≠ s.ownPod then .next s
  else if !viewHas s.viewRecord h.src then .next (s.count 0x7939 0xD 1)
  else if view.toNat ≠ viewNumber s.viewRecord then .next s
  else if lost = s.ownPod then .next s.exclude
  else if s.peerState lost = .member ∨ s.peerState lost = .cfgMismatch then .next (s.markLost lost)
  else .next s

/-! ### Descriptors (R335, R336) -/

/-- SCOPE and PEER of a put or a signal (R336). -/
def State.scopeOk (s : State) (scope peer : Nat) : Bool :=
  if scope = 0 then decide (peer < domainSize s)
  else if scope = 1 then s.podMode != 0 && decide (peer < 12288)
  else if scope = 2 then
    s.obj 0x5500 1 0 != 0 && decide (peer < 256)
      && ((s.objBytes 0x5501 peer (List.replicate 32 0)).getD 26 0).getLsbD 0
  else false

def execPruPut (d : Desc) (s : State) : Result :=
  s.onDesc d 0xB0 (fun s =>
    let f := putF d.body
    let src := match decodeAddr s f.src with
      | .here a => some a
      | _ => none
    if !f.rsvd ∨ 4 < fieldBits d.body 16 2 0 ∨ !s.scopeOk f.scope f.peer ∨ src.isNone ∨ 1023 < f.region
        ∨ (f.scope = 1 ∧ f.peer = s.ownPod) ∨ (f.signal ∧ (f.scope = 2 ∨ 4095 < f.token ∨ 25 < f.sigDie))
        ∨ (f.signal ∧ s.putPeer f.scope f.peer = s.ownPod ∧ !s.tensorDie f.sigDie) then s.finish d badField
    else if f.length = 0 then s.finish d doneEmpty
    else if !s.within d.queue (src.getD 0) f.length then s.finish d noLease
    else s.handXfer d 0xB0 (shuttleOf d.queue d.body))

def execPruAtomic (d : Desc) (s : State) : Result :=
  s.onDesc d 0xB1 (fun s =>
    let op := fieldOf d.body 16 1
    let w := fieldOf d.body 17 1
    let t := decodeAddr s (fieldOf d.body 24 8)
    let ref := fieldOf d.body 32 6
    let out := fieldOf d.body 38 6
    let here := match t with
      | .here a => some a
      | _ => none
    let meets := fun (x : ObjWrite) => s.objWrite out == x || (match here with
      | some a => s.objWrite a == x
      | none => false)
    if !fieldZero d.body 18 24 ∨ !fieldZero d.body 44 60 ∨ !atomicWidthOk op w ∨ t = .bad then
      s.finish d badField
    else if !s.within d.queue ref (if op = 9 then 2 * w else w) ∨ !s.within d.queue out w
        ∨ (here.isSome ∧ !s.within d.queue (here.getD 0) w) then s.finish d noLease
    else if meets .refused then s.finish d badField
    else if meets .held then s
    else s.handXfer d 0xB1 (d.queue.toNat % 4))

/-- It follows every earlier descriptor of its queue (R320). -/
def execPruSignal (d : Desc) (s : State) : Result :=
  s.onDesc d 0xB2 (fun s =>
    let scope := fieldBits d.body 17 2 1
    let peer := fieldOf d.body 18 2
    let die := fieldOf d.body 22 1
    let mode := fieldOf d.body 23 1
    let token := fieldOf d.body 48 2
    let inc := BitVec.ofNat 32 (fieldOf d.body 52 4)
    let p := s.putPeer scope peer
    let t := s.stepOf d.queue
    if fieldOf d.body 16 1 ≠ 0 ∨ fieldBits d.body 17 0 0 ≠ 0 ∨ fieldBits d.body 17 7 3 ≠ 0
        ∨ !fieldZero d.body 20 22 ∨ !fieldZero d.body 24 48 ∨ !fieldZero d.body 50 52
        ∨ !fieldZero d.body 56 60 ∨ 1 < scope ∨ !s.scopeOk scope peer ∨ 1 < mode ∨ 4095 < token ∨ 25 < die
        ∨ (p = s.ownPod ∧ !s.tensorDie die) then s.finish d badField
    else if !s.earlierDone d then s
    else if p = s.ownPod then s.runNow d 0xB2 (fun s => (s.signalToken die token mode inc, doneOk))
    else match s.refusal p (scope == 1) with
      | some st => s.finish d (outcm st (if st = stCfgMismatch then p else 0) 0)
      | none =>
        if !s.tagRoom p then s
        else (s.handOver d .dispatch).sendXact p (scope == 1) d.queue d.seq 3 0 0 t
          (.signal mode die t token inc))

def execPruRegion (d : Desc) (s : State) : Result :=
  s.onDesc d 0xB7 (fun s =>
    let r := fieldOf d.body 16 2
    let op := fieldOf d.body 18 1
    let perm := fieldOf d.body 19 1
    let a := fieldOf d.body 24 6
    let n := fieldOf d.body 32 8
    let g := s.region r
    let put := fun (s : State) (t : Tab PRegion) => { s with peruo := { s.peruo with regions := t } }
    if !fieldZero d.body 20 24 ∨ !fieldZero d.body 30 32 ∨ !fieldZero d.body 40 60 ∨ 1 < op ∨ 7 < perm
        ∨ 1023 < r then s.finish d badField
    else if op = 1 then
      if !g.registered ∨ perm ≠ 0 ∨ a ≠ 0 ∨ n ≠ 0 then s.finish d badField
      else s.runNow d 0xB7 (fun s => (put s (Tab.remove s.peruo.regions r), doneOk))
    else if g.registered then s.finish d badField
    else if n = 0 then s.finish d doneEmpty
    else if !s.within d.queue a n then s.finish d noLease
    else s.runNow d 0xB7 (fun s =>
      let x : PRegion :=
        { registered := true, enabled := true, perm := BitVec.ofNat 3 perm,
          lease := (s.queue d.queue).lease, target := a, length := n }
      (put s (Tab.write s.peruo.regions r x), doneOk)))

end Sys2Proof.Machine
end

