-- ==== Sys2Proof/Machine/Lanes.lean ====
section
/-!
DEFINITION. Lanes and packets (R302 to R311, R330 to R333): training, markers, received flits, replay, the
failure and the sparing of a lane, go-back-N in Ethernet mode, and far datagrams.
-/

namespace Sys2Proof.Machine

open Sys2Proof

/-! ### Moving records off a lane (R309) -/

/-- A record that was sent to a region of the pod. -/
def OutRec.podScope (r : OutRec) : Bool :=
  match r with
  | .put _ _ _ _ pod _ => pod
  | _ => false

/-- Records with a flit unacknowledged on lane `n` are sent whole again on another lane. -/
def State.moveRecs (s : State) (n : Nat) : State :=
  let x := s.lane n
  let s := s.setLane n { x with replay := [], queued := [[], [], [], []], recs := [] }
  x.recs.foldl (fun (s : State) r =>
    let pa := s.path r.hdr.dst r.out.podScope
    match pa.1[r.hdr.xtag.toNat % max 1 pa.1.length]? with
    | none => s
    | some l => s.pushRec l r.hdr r.out) s

/-- Domain device `b` has neither a lane of its bundle that carries or trains, nor the relay (R311, R317). -/
def State.bundleGone (s : State) (b : Nat) : Bool :=
  s.domainLanes b == [] && s.podLanes == [] &&
    !(List.range 128).any (fun n => match laneRole n with
      | .domain j =>
        (match domainLanePeer (domainSize s) (ownDevice s) j with
         | some x => x.1 == b && (s.lane n).st == .training
         | none => false)
      | _ => false)

/-- Domain members that no lane reaches are lost (R317). -/
def State.loseUnreachable (s : State) : State :=
  ((List.range (domainSize s)).filter (fun b => b != ownDevice s)).foldl (fun (s : State) b =>
    if s.bundleGone b then s.declareLost (podOf (s.obj 0x5000 3 0) b) else s) s

/-! ### Failure and sparing (R309, R310) -/

def LaneSt.code (x : LaneSt) : Nat :=
  match x with
  | .training => 0
  | .up => 1
  | .idle => 2
  | .spare => 3
  | .failed => 4
  | .miscabled => 5
  | .ethernet => 6

/-- LANE_STATE (Table PRU-11). -/
def Lane.value (x : Lane) : Nat := x.st.code * 2 ^ 28 + x.replaced.toNat * 2 ^ 20

/-- The credits a receiver advertises (Table PRU-3). -/
def advertised : List Nat := [64, 64, 512, 256]

/-- Lane `n` enters its new role: journaled, in force and posted (R309, R392, R304). -/
def State.setLaneRole (s : State) (n : Nat) (x : Lane) : State :=
  s.watchForecasts (fun s =>
    let s := s.roleRecord 2 (n + 256 * x.replaced.toNat) x.st.code
    (s.setLane n x).event 0x5003 n (dieLink (n / 16)) x.value 0)

/-- The lane that replaces a failed one of link die `k`: an idle domain lane, else lane 15 (R310). DESIGN
CHOICE: of several idle domain lanes the lowest-numbered; the manual asks only for an idle one (log 73). -/
def State.replacement (s : State) (k : Nat) : Option Nat :=
  match (rangeFrom (16 * k) 8).find? (fun n => (s.lane n).st == .idle) with
  | some n => some n
  | none => if (s.lane (16 * k + 15)).st = .spare then some (16 * k + 15) else none

/-- The lane whose traffic lane `n` carries. -/
def State.laneServed (s : State) (n : Nat) : Nat :=
  let r := (s.lane n).replaced.toNat
  if r = 0xFF then n else r

/-- One lane fewer is held as a spare (SPARE_LANES_LEFT). -/
def State.useSpare (s : State) : State :=
  { s with peruo := { s.peruo with sparesLeft := s.peruo.sparesLeft - 1 } }

/-- Lane `n` fails: it leaves service for good, a spare may take its traffic, and its records go elsewhere. -/
def State.failLane (s : State) (n : Nat) : State :=
  let x := s.lane n
  let served := s.laneServed n
  if x.st = .failed ∨ 128 ≤ n then s
  else
    let carried := x.st == .up || x.st == .ethernet || x.st == .training
    let s := (s.setLaneRole n { x with st := .failed, replaced := 0xFF }).count (linkCounter n) 7 1
    let s : State := if x.st = .spare then s.useSpare else s
    let s : State := if !carried ∨ s.obj 0x5000 7 0 = 0 then s
      else match s.replacement (n / 16) with
        | none => s
        | some m =>
          let y : Lane := { Lane.init with
            st := .up, replaced := BitVec.ofNat 8 served, credits := advertised }
          let s : State := if m % 16 = 15 then s.useSpare else s
          (s.setLaneRole m y).count (linkCounter m) 8 1
    (s.moveRecs n).loseUnreachable

def execLaneFail (lane : Nat) (s : State) : Result :=
  if s.ready then .next (s.failLane lane) else .next s

/-- Events of the last second, by their times (1 GHz A-clock). -/
def State.recent (s : State) (l : List Nat) : List Nat :=
  l.filter (fun t => decide (s.power.aCycles - t < 1000000000))

/-- The lane retrains; R306 forcing it a second time within one second makes it fail (R309). -/
def State.forceRetrain (s : State) (n : Nat) : State :=
  let x := s.lane n
  let f := s.recent x.forced ++ [s.power.aCycles]
  let s := (s.setLane n { x with st := .training, resends := 0, forced := f }).count (linkCounter n) 6 1
  if 2 ≤ f.length then s.failLane n else s

/-! ### Training and markers (R302, R304, R308) -/

/-- The peer at the other end of a domain lane, with its lane number in the domain (R308). -/
def State.farEnd (s : State) (j : Nat) : Option (Nat × Nat) :=
  let n := domainSize s
  let a := ownDevice s
  match domainLanePeer n a j with
  | none => none
  | some (b, m) => some (podOf (s.obj 0x5000 3 0) b, (if a < b then a else a - 1) + m * (n - 1))

/-- A lane comes up, or its port in Ethernet mode; credits are advertised and unacknowledged flits are
resent. The ends of a domain lane exchange HELLO (R316). -/
def State.laneUp (s : State) (n : Nat) : State :=
  let x := s.lane n
  let eth := s.ethLane n
  let s := s.setLane n { x with
    st := if eth then .ethernet else .up, credits := advertised, owed := [0, 0, 0, 0] }
  let s : State := match x.replay.head? with
    | some r => s.emit (.resend n r.1)
    | none => s
  let s := if eth then s else s.drainLane n
  match laneRole n with
  | .domain j =>
    (match s.farEnd j with
     | some e =>
       let s : State := if (s.path e.1 false).1.length ≤ 1 then
           { s with peruo := { s.peruo with helloOut := s.peruo.helloOut.filter (fun x => x != e.1) } }
         else s
       s.sendHello e.1
     | none => s)
  | _ => s

def execLaneTrained (lane : Nat) (s : State) : Result :=
  if s.ready ∧ lane < 128 ∧ (s.lane lane).st = .training then .next (s.laneUp lane) else .next s

/-- The identity in a marker is not the one that the cabling must give. A replacement reaches its peer
through a switch, and pod lanes end on switches. -/
def State.wrongCable (s : State) (lane pod linkDie laneNo : Nat) : Bool :=
  match laneRole lane with
  | .domain j =>
    (s.lane lane).replaced == 0xFF && (match s.farEnd j with
      | some e => !(pod == e.1 && linkDie == e.2 / 8 && laneNo == e.2 % 8)
      | none => false)
  | _ => false

def execLaneMarker (lane pod linkDie laneNo : Nat) (credits : List Nat) (s : State) : Result :=
  let x := s.lane lane
  if !s.ready ∨ 128 ≤ lane ∨ !(x.st == .up || x.st == .training) then .next s
  else if s.wrongCable lane pod linkDie laneNo then
    let s := s.setLane lane { x with st := .miscabled }
    let s := s.event 0x5003 lane (dieLink (lane / 16)) (s.lane lane).value 0
    .next ((s.moveRecs lane).loseUnreachable)
  else if credits.length = 4 then .next ((s.setLane lane { x with credits := credits }).drainLane lane)
  else .next s

/-! ### Received flits (R303 to R307) -/

/-- The receiver asks for replay once, and drops every later flit until then (R306). -/
def State.askReplay (s : State) (n : Nat) : State :=
  let x := s.lane n
  if x.awaiting then s
  else (s.setLane n { x with awaiting := true }).emit (.nak n x.rxSeq)

/-- A block is discarded as uncorrectable; more than UNCORR_LIMIT within one second fail the lane. -/
def State.dropBlock (s : State) (n : Nat) : State :=
  let x := s.lane n
  let u := s.recent x.uncorr ++ [s.power.aCycles]
  let s := (s.setLane n { x with uncorr := u }).count (linkCounter n) 3 1
  if s.obj 0x5001 3 16 < u.length then s.failLane n else s.askReplay n

/-- A NAK that names `a` as received: the flits after it are resent, or the lane retrains (R306). -/
def State.takeNak (s : State) (n : Nat) (a : BitVec 12) : State :=
  let y := (s.lane n).ackUpTo a
  match y.replay.head? with
  | none => s.setLane n y
  | some r =>
    let y := { y with resends := y.resends + 1 }
    let s := (s.setLane n y).count (linkCounter n) 5 1
    if s.obj 0x5001 2 8 < y.resends then s.forceRetrain n else s.emit (.resend n r.1)

def execNak (lane : Nat) (ack : BitVec 12) (s : State) : Result :=
  if s.ready ∧ lane < 128 ∧ (s.lane lane).st = .up then .next ((s.takeNak lane ack).drainLane lane)
  else .next s

/-- RTYPE of the records a control flit carries. -/
def recordTypes (f : Flit) : List Nat :=
  (List.range f.recordCount).map (fun k => (f.payload.getD (32 * k) 0).toNat)

/-- Counts what an accepted flit holds: FLITS_RECEIVED, POISON_FLITS, and records of unknown type. -/
def State.countFlit (s : State) (die : Nat) (f : Flit) : State :=
  match f.ftype with
  | .idle | .reserved => s
  | .control =>
    (s.count (0x7931 + die) 1 1).count 0x7939 3
      ((recordTypes f).filter (fun r => decide (r = 0 ∨ 11 < r))).length
  | .data =>
    (s.count (0x7931 + die) 1 1).count (0x7931 + die) 0xA (if bitsOf f.mask.toNat 14 0 = 0 then 0 else 1)

/-- Acknowledgement and credits of a flit whose header holds. -/
def State.takeHeader (s : State) (n : Nat) (f : Flit) : State :=
  let x := s.lane n
  let s := s.setLane n { x with credits := addAt x.credits f.creditVc f.credits }
  if f.nak then s.takeNak n f.ack else s.setLane n ((s.lane n).ackUpTo f.ack)

/-- A whole flit: in order it is accepted, ahead of its turn it asks for replay, and a repeat is dropped. Its
records reach the device as the commands of their own rows. -/
def State.takeFlit (s : State) (n : Nat) (f : Flit) : State :=
  let s := s.takeHeader n f
  let x := s.lane n
  match f.ftype with
  | .idle => s
  | .reserved => s.askReplay n
  | _ =>
    if f.flitSeq = x.rxSeq + 1 then
      (s.setLane n { x with rxSeq := f.flitSeq, awaiting := false, owed := addAt x.owed f.vc 1 }).countFlit
        (n / 16) f
    else if (f.flitSeq - x.rxSeq).toNat < 2048 ∧ f.flitSeq ≠ x.rxSeq then s.askReplay n
    else s

def execFlitReceive (lane : Nat) (b : Block) (s : State) : Result :=
  if !s.ready ∨ 128 ≤ lane ∨ (s.lane lane).st ≠ .up then .next s
  else
    let s := s.count (linkCounter lane) 2 b.corrected
    if b.uncorrectable then .next (s.dropBlock lane)
    else if !flitHeaderOk b.flit then .next ((s.count (linkCounter lane) 4 1).dropBlock lane)
    else if !flitRecordsOk b.flit then .next ((s.count 0x7939 2 1).dropBlock lane)
    else .next ((s.takeFlit lane (flitOf b.flit)).drainLane lane)

/-! ### Ethernet mode (R331, R332) -/

/-- Packets from ACK_PSN + 1 leave again. -/
def State.ethResend (s : State) (p : Nat) : State :=
  let x := s.eth p
  if x.unacked = 0 then s
  else (s.count 0x7939 8 x.unacked).sendPackets p
    ((List.range x.flown.length).zip x.flown |>.map (fun e => (x.acked + 1 + BitVec.ofNat 32 e.1, e.2)))

/-- The acknowledgement of a packet: progress, the window under CE echo and clean round trips, and NAK. -/
def State.ethAcked (s : State) (p : Nat) (k : EthPacket) : State :=
  let x := s.eth p
  let moved := (k.ackPsn - x.acked).toNat
  let ok := decide (moved ≤ x.unacked)
  let s := if k.ceEcho then s.count 0x7939 9 1 else s
  let x : EthPeer := if ok then { x with acked := k.ackPsn, flown := x.flown.drop moved } else x
  let round := ok && decide (0 < moved) && decide ((x.acked - x.mark).toNat < 2 ^ 31)
  let y : EthPeer :=
    if k.ceEcho then { x with window := max 16 (x.window / 2), mark := x.txPsn }
    else if round then { x with window := min (s.obj 0x5500 7 256) (x.window + 1), mark := x.txPsn }
    else x
  let s := s.drainEth p y
  if k.nak then s.ethResend p else s

/-- A packet of acknowledgement alone leaves for peer `p`. -/
def State.sendAck (s : State) (p : Nat) (nak ce : Bool) : State :=
  let x := s.eth p
  s.emit (.frame (s.frameTo p (encapHeader true nak ce 0 x.txPsn x.rxPsn)))

/-- The flits of an accepted packet. -/
def State.takePacket (s : State) (l : List (List Byte)) : State :=
  l.foldl (fun (s : State) b =>
    if !flitHeaderOk b then s.count 0x7931 4 1
    else if !flitRecordsOk b then s.count 0x7939 2 1
    else s.countFlit 0 (flitOf b)) s

/-- Packets are accepted in PSN order only; a gap is answered with NAK, and CE is echoed. -/
def State.ethTake (s : State) (p : Nat) (k : EthPacket) : State :=
  let x := s.eth p
  if k.ackOnly then s
  else if k.psn = x.rxPsn + 1 then
    let s := s.setEth p { x with rxPsn := k.psn, ceSeen := k.ceMarked }
    (s.takePacket k.flits).sendAck p false k.ceMarked
  else s.sendAck p (decide ((k.psn - x.rxPsn).toNat < 2 ^ 31 ∧ k.psn ≠ x.rxPsn)) k.ceMarked

/-- A UDP datagram to this device's `port`: `f` takes its content. Another frame is no datagram of the device's,
and one whose checksum fails is discarded and counted. -/
def State.onDatagram (s : State) (frame : List Byte) (port : Nat) (f : State → Datagram → State) : Result :=
  if !s.ready ∨ s.obj 0x5500 1 0 = 0 then .next s
  else match datagramOf frame with
    | none => .next s
    | some d =>
      if !s.ownFrame d ∨ d.dport ≠ port then .next s
      else if !d.sumOk then .next (s.count 0x7939 0xA 1)
      else .next (f s d)

/-- A packet of Ethernet mode in a good datagram. -/
def State.takeEth (s : State) (k : EthPacket) : State :=
  if k.version ≠ 1 ∨ !k.ecrcOk then s
  else if !viewHas s.viewRecord k.src then s.count 0x7939 0xD 1
  else (s.ethAcked k.src k).ethTake k.src k

def execEthFrameReceive (frame : List Byte) (s : State) : Result :=
  s.onDatagram frame s.ethPort (fun s d => s.takeEth (packetOf d))

def execEthRtoExpiry (peer : Nat) (s : State) : Result :=
  if s.ready then .next (s.ethResend peer) else .next s

/-! ### Far datagrams (R333) -/

/-- The data go into a region with FAR permission; a datagram that does not fit one is dropped. -/
def State.takeFar (s : State) (p : FarDatagram) : State :=
  match s.regionCheck p.region p.offset p.length 2 with
  | .error _ => s.count 0x7939 0xC 1
  | .ok a =>
    if p.data.length ≠ p.length ∨ s.objWrite a ≠ .free then s.count 0x7939 0xC 1
    else s.writeMem a p.data

def execFarDatagramReceive (frame : List Byte) (s : State) : Result :=
  s.onDatagram frame (s.obj 0x5500 8 51731) (fun s d => s.takeFar (farOf d.data))

end Sys2Proof.Machine
end

