-- ==== Sys2Proof/Machine/Power.lean ====
section
/-!
DEFINITION. Power, clocks, starts and resets (R388, R389, R416 to R432), and the coolant and air alerts
(R442, R444).
-/

namespace Sys2Proof.Machine

open Sys2Proof

def State.setPower (s : State) (p : Power) : State := { s with power := p }

/-- Step 2 of a start is behind the module and no stop has begun: "running" in R416. -/
def State.stagesUp (s : State) : Bool := s.module.pwrGood

/-! ### What outlives power (R342, R389, R423) -/

/-- Retired control cores and the roles that passed on stay as they were. -/
def keepCores (t : Tab CtrlCore) : Tab CtrlCore :=
  t.map (fun e => (e.1, { CtrlCore.init with retired := e.2.retired, dispatch := e.2.dispatch }))

/-- Failed lanes and the lanes that replace them stay; every other lane begins anew. -/
def keepLanes (t : Tab Lane) : Tab Lane :=
  (t.filter (fun e => e.2.st == .failed || e.2.replaced != 0xFF)).map (fun e =>
    (e.1, { Lane.init with st := if e.2.st = .failed then .failed else .training, replaced := e.2.replaced }))

/-- The Draft after power-on: persistent values, the epoch and a pending stepped ARM. -/
def keepDraft (d : Draft) : Draft :=
  { Draft.init with active := d.active, epoch := d.epoch, prevEpoch := d.prevEpoch, prevActive := d.prevActive
                    prevStep := d.prevStep
                    pending := d.pending.map (fun p => { p with byWhom := 0 }) }

def keepCommit (c : Commit) : Commit := { c with result := 0, restore := 0 }

def keepFw (f : Firmware) : Firmware := { f with image := [], imageDone := false }

def keepSec (x : Sec) : Sec :=
  { x with mr := [], aliasPk := zeroKey, aliasSeed := [], checkResult := 0, bootCounters := [] }

/-- A stop or a module reset: everything volatile is as at power-on (R389, R431). The queue, what has been
sent and the drawn free values are the model's own. -/
def State.losePower (s : State) (m : PowerMode) : State :=
  let p := s.power
  let lost := s.dieState dieHost == 2
  { State.reset with
    pending := s.pending, dies := s.dies, sent := s.sent, fresh := s.fresh
    draft := keepDraft s.draft
    journal := { s.journal with tailBytes := 0, accepting := false }
    commit := keepCommit s.commit
    repairs := s.repairs
    fw := keepFw s.fw
    sec := keepSec s.sec
    cores := keepCores s.cores
    coreSlots := s.coreSlots
    peruo := { Peruo.init with lanes := keepLanes s.peruo.lanes, sparesLeft := s.peruo.sparesLeft }
    host := { HostIf.init with attach := if lost then .lost else .detached }
    module := { Module.init with perstN := s.module.perstN }
    power := { Power.init with mode := m, stopCause := p.stopCause, stageFailed := p.stageFailed } }

/-! ### The flush (R388) -/

/-- The last page is filled with PAD. -/
def Journal.pad (j : Journal) : Journal :=
  let r := j.tailBytes % pageBytes
  if r = 0 then j
  else
    let gap := pageBytes - r
    let n := if gap < 24 then gap + pageBytes else gap
    j.append 0x0F 0 (List.replicate (n - 20) 0)

/-- The tail is programmed to the last byte. -/
def Journal.flush (j : Journal) (fuel : Nat) : Journal :=
  match fuel with
  | 0 => j
  | k + 1 =>
    if j.tailBytes = 0 ∨ nandCount j = 0 then j
    else (if j.tailBytes < pageBytes then j.pad else j).programPage.flush k

/-- The cause of the stop is journaled before it (R431), acceptance ends and the tail goes out. -/
def State.flushTail (s : State) : State :=
  { s with journal := { s.journal.flush 512 with accepting := false } }

def State.setCause (s : State) (c : Nat) : State :=
  (s.setPower { s.power with stopCause := c }).keepValue 0x7010 3 (toLe 1 c)

/-- The power-fail sequence with stop cause `c` (Table REC-9, R421, R432); where no journal controller runs,
the module simply halts. -/
def State.powerFail (s : State) (c : Nat) (m : PowerMode) : State :=
  let s := if !s.power.draftUp then s
    else
      let s := s.setPower { s.power with stopCause := c }
      let s := if c = 1 then { s with journal := s.journal.live 2 1 } else s
      (s.lifetimeRecord.record 0x0E 0 (toLe 1 c)).flushTail
  s.losePower m

/-! ### Roots (R425 to R427) -/

/-- Root `k` is locked. -/
def State.rootLocked (s : State) (k : Nat) : Bool := s.power.rootLock.getLsbD k

def rootBits (a b : Bool) : BitVec 2 := (if a then 1 else 0) ||| (if b then 2 else 0)

/-- ROOT_LOCK takes a value; ROOT_SINGLE holds while one root is locked. -/
def State.setRoots (s : State) (v : BitVec 2) : State :=
  (s.setPower { s.power with rootLock := v }).setAlert alRoot (v == 1 || v == 2)

/-- The active role passes to the other root. -/
def State.switchRoot (s : State) : State :=
  let k := 1 - s.power.clockRoot
  ((s.setPower { s.power with clockRoot := k }).count 0x7981 6 1).event 0x7030 1 srcDevice k 0

/-- The records, newest first, that lie whole in what has been programmed; `n` bytes have not been. -/
def programmed (l : List JRec) (n : Nat) : List JRec :=
  match l with
  | [] => []
  | r :: t => if n = 0 then r :: t else programmed t (n - r.bytes.length)

/-- The tails are lost, with every record that was not yet programmed (R424). -/
def Journal.loseTail (j : Journal) : Journal :=
  { j with log := (programmed j.log.reverse j.tailBytes).reverse, tailBytes := 0 }

/-- No clock is left: every die is held in reset and nothing is flushed (R424, log 63). -/
def State.noClock (s : State) : State :=
  let t := { s with journal := s.journal.loseTail }.losePower .halted
  ((t.setPower { t.power with startState := 0xF0, rootLock := 0 }).setAlert alHalted true)

/-- Root `k` is gone: the role passes when it was active (R426). -/
def State.loseRoot (s : State) (k : Nat) : State :=
  let v := rootBits (k != 0 && s.rootLocked 0) (k != 1 && s.rootLocked 1)
  if v = 0 then s.noClock
  else
    let s := if s.power.clockRoot = k then s.switchRoot else s
    s.setRoots v

def execRootSwitch (_value : Byte) (s : State) : Result :=
  s.onCmd (fun s =>
    if s.rootLocked (1 - s.power.clockRoot) then (s.switchRoot, .ok) else (s, .refused))

def execRootLossOfLock (s : State) : Result :=
  if s.power.draftUp && s.rootLocked s.power.clockRoot then .next (s.loseRoot s.power.clockRoot) else .next s

def execStandbyRootLock (locked : Bool) (s : State) : Result :=
  let k := 1 - s.power.clockRoot
  if s.power.draftUp && (!locked || s.mgmtUp k) then
    .next (s.setRoots (rootBits (if k = 0 then locked else s.rootLocked 0)
      (if k = 1 then locked else s.rootLocked 1)))
  else .next s

/-! ### Management dies (R374, R424) -/

/-- The active management die fails: the standby takes control, and the root follows when its die is
retired. -/
def State.mgmtFails (s : State) : State :=
  match s.mgmtIn 0, s.mgmtIn 3 with
  | some a, some b => ((s.setDieState b 0).setDieState a 2).loseRoot (a - 96)
  | some a, none => { s with dies := Tab.write s.dies a 2 }.noClock
  | _, _ => s

def execMgmtSwitchover (s : State) : Result :=
  if s.power.draftUp && (s.mgmtIn 3).isSome then .next s.mgmtFails else .next s

def execNoManagementDie (s : State) : Result :=
  if s.stagesUp then
    .next { s with dies := Tab.write (Tab.write s.dies (dieMgmt 0) 2) (dieMgmt 1) 2 }.noClock
  else .next s

/-! ### The input (R416, R420, R421) -/

def State.setInput (s : State) (mv : Nat) : State := s.setPower { s.power with inputMv := mv }

def execInputLow (mv : Nat) (s : State) : Result :=
  if s.stagesUp && s.power.draftUp && decide (60000 ≤ mv ∧ mv < 62000) then
    .next (((s.setInput mv).count 0x7981 4 1).event 0x7000 1 srcDevice mv 0)
  else .next s

def execInputHighBand (mv : Nat) (s : State) : Result :=
  if s.stagesUp && s.power.draftUp && decide (80000 < mv ∧ mv ≤ 82000) then
    .next ((s.setInput mv).event 0x7000 1 srcDevice mv 0)
  else .next s

/-- A low of less than `lo` is ignored and one of `hi` counts; between, it may do either (R441). -/
def State.filtered (s : State) (n lo hi : Nat) : Bool × State :=
  if n < lo then (false, s)
  else if hi ≤ n then (true, s)
  else let r := s.draw; (bitOf r.1 0, r.2)

def execPwrfailN (src : PwrFailSource) (s : State) : Result :=
  if !s.stagesUp then .next s
  else match src with
    | .fastFall mv => if mv < 62000 then .next (s.powerFail 1 .off) else .next s
    | .below59 mv => if mv < 59000 then .next (s.powerFail 1 .off) else .next s
    | .driven n =>
      let r := s.filtered n 4000 5000
      if r.1 then .next ((r.2.count 0x7991 5 1).powerFail 1 .off) else .next r.2

def execOvervoltageShutdown (mv : Nat) (s : State) : Result :=
  if s.stagesUp && decide (82000 < mv) then .next (s.powerFail 2 .off) else .next s

/-- The input falls away while the module is halted or latched off (R419, R429). -/
def execLossOfInput (s : State) : Result :=
  match s.power.mode with
  | .halted | .thermalOff => .next (s.powerFail 1 .off)
  | _ => .next s

/-! ### Stages, pacing, temperature, hold-up (R418, R419, R422) -/

/-- A stage is isolated for good; with fewer than 4 left the module stops. -/
def State.stageFails (s : State) (k : Nat) : State :=
  let s := s.watchForecasts (fun s =>
    let s := s.roleRecord 3 k 1
    let s := s.setPower { s.power with stageFailed := insertNat s.power.stageFailed k }
    (s.count 0x7981 5 1).event 0x7002 k srcDevice 1 0)
  let s := s.setAlert alStage true
  if s.activeStages < 4 then s.powerFail 3 .off else s

def execStageFailure (stage : Nat) (s : State) : Result :=
  if s.stagesUp && decide (stage < 7) && !s.power.stageFailed.contains stage then .next (s.stageFails stage)
  else .next s

/-- POWER_LIMIT_NOW (R418). -/
def State.powerLimitNow (s : State) : Nat := min (s.obj 0x7001 1 7800) (1300 * min s.activeStages 6)

/-- PEAK_LIMIT_NOW (R418). -/
def State.peakLimitNow (s : State) : Nat := 1500 * min s.activeStages 6

def execPacingEngage (cause : PaceCause) (s : State) : Result :=
  if s.ready then .next (s.setPower { s.power with pacing := some cause, paceCause := some cause })
  else .next s

/-- The permitted fraction moves by 1⁄16 (R419). -/
def execPacingAdjust (cleared : Bool) (s : State) : Result :=
  let p := s.power
  if !s.ready then .next s
  else if cleared then
    let up := min 16 (p.paceSixteenths + 1)
    .next (s.setPower { p with pacing := none, paceSixteenths := up
                               paceCause := if up = 16 then none else p.paceCause })
  else if p.pacing = none then .next s
  else .next (s.setPower { p with paceSixteenths := max 1 (p.paceSixteenths - 1) })

def execThermalShutdown (_die : Nat) (deci : Int) (s : State) : Result :=
  if s.stagesUp && decide (1150 < deci) then .next (s.powerFail 4 .thermalOff) else .next s

def holdupFloor : Nat := 33000

def execHoldupLow (mj : Nat) (s : State) : Result :=
  if s.power.draftUp && decide (mj < holdupFloor) then
    let s := ((s.setPower { s.power with holdupMj := mj }).count 0x7981 8 1).event 0x7000 4 srcDevice mj 0
    .next (s.setAlert alHoldup true)
  else .next s

/-! ### Coolant and air (R444, Table MOD-10) -/

/-- An excursion sets bit `i` of ALERT_SOURCES, with an event when the bit was clear. It is counted under `code`
when the bit was clear or this quantity was within its range (`was`, log 21). -/
def State.raiseExcursion (s : State) (i code : Nat) (was : Bool) : State :=
  let set := s.module.alerts.getLsbD i
  let s := (if set && !was then s else s.count 0x7991 code 1).setAlert i true
  if set then s else s.event 0x7050 1 srcDevice s.module.alerts.toNat 0

def inletOk (t : Int) : Bool := decide (150 ≤ t ∧ t ≤ 400)
def flowOk (f : Nat) : Bool := decide (800 ≤ f)
def ambientOk (t : Int) : Bool := decide (100 ≤ t ∧ t ≤ 350)

/-- The ten seconds that a coolant excursion has stood are out of range. -/
def execCoolantExcursion (e : CoolantEvent) (s : State) : Result :=
  let m := s.module
  if !s.power.draftUp then .next s
  else match e with
    | .tempOut t =>
      if inletOk t then .next s
      else .next ((({ s with module := { m with inletTemp := t } } : State).raiseExcursion alCoolant 0
        (inletOk m.inletTemp)).count 0x7991 3 10)
    | .flowOut f =>
      if flowOk f then .next s
      else .next ((({ s with module := { m with flow := f } } : State).raiseExcursion alCoolant 1
        (flowOk m.flow)).count 0x7991 3 10)
    | .inside t f =>
      if inletOk t && flowOk f then
        .next (({ s with module := { m with inletTemp := t, flow := f } } : State).setAlert alCoolant false)
      else .next s

def execAirExcursion (e : AirEvent) (s : State) : Result :=
  let m := s.module
  if !s.power.draftUp then .next s
  else match e with
    | .out t =>
      if ambientOk t then .next s
      else .next (({ s with module := { m with ambient := t } } : State).raiseExcursion alAir 2 false)
    | .inside t =>
      if ambientOk t then .next (({ s with module := { m with ambient := t } } : State).setAlert alAir false)
      else .next s

/-! ### The start sequence (R428 to R430) -/

/-- The start stops (R429). -/
def State.halt (s : State) : State :=
  (s.setPower { s.power with mode := .halted, startState := 0xF0 }).setAlert alHalted true

/-- Readings that only the surroundings decide (R416, R433, R444): free values within their limits, the
current and the power within those of R30 and R417. -/
def State.sense (s : State) : State :=
  let d := fun (i : Nat) => Config.freeValue (s.fresh + i)
  let t := fun (i : Nat) => signedOf 16 (d i)
  { s with
    fresh := s.fresh + 8
    power := { s.power with inputMa := d 0 % 130001, inputW := d 1 % (s.powerLimitNow + 1)
                            ibusMv := 11760 + d 2 % 481, dieTempMax := t 3 }
    module := { s.module with inletTemp := t 4, outletTemp := t 5, flow := d 6 % 2 ^ 16, ambient := t 7 } }

/-- Steps 1 and 2: the input has held and the stages start. -/
def State.startStages (s : State) : State :=
  let v := s.draw
  let s := (v.2.setInput (64000 + v.1 % 18001)).sense
  s.setAlert alStage (s.activeStages != 7)

/-- Step 3: the roots lock; M0's takes the role when both do. -/
def State.startRoots (s : State) (env : StartEnv) : State :=
  let a := env.root0Locks && s.mgmtUp 0
  let b := env.root1Locks && s.mgmtUp 1
  let s := s.setPower { s.power with clockRoot := if a then 0 else 1, aCycles := 0 }
  s.setRoots (rootBits a b)

/-- Step 4: OTP (a certificate that fails its CRC is only counted, R399), images and keys, a burn that power cut
short, and the journal. False when no image passes. -/
def State.startRom (s : State) (env : StartEnv) : State × Bool :=
  let s := if env.otpOk && env.certOk then s else s.count 0x7971 2 1
  if !env.otpOk then (s, false)
  else
    let recorded := s.fwActive
    let s := (s.blowTo 0 s.fw.burnTarget).rom recorded
    if s.2 then
      let t := s.1
      ({ t with journal := { t.journal with accepting := true }
                power := { t.power with draftUp := true } }, true)
    else s

/-- A spare of the kind of die `d`, one of the `n` from `lo`, steps in for it: with fresh looms (R65), or with
its slot of hart IDs (R103). The spare is answered. -/
def State.stepIn (s : State) (d lo n : Nat) : State × Option Nat :=
  match s.pickSpare lo n with
  | none => (s, none)
  | some x =>
    let s := { s with fresh := s.fresh + 1 }.setDieState x 0
    (if x < 26 then s.freshLooms x
     else { s with coreSlots := s.coreSlots.map (fun y => if y = d then x else y) }, some x)

/-- The lanes of link die `k` fail with it, the ones that could replace others first. -/
def State.failLinkDie (s : State) (k : Nat) : State :=
  let ls := rangeFrom (16 * k) 16
  let rest := fun (n : Nat) => (s.lane n).st == .idle || (s.lane n).st == .spare
  (ls.filter rest ++ ls.filter (fun n => !rest n)).foldl (fun (s : State) n => s.failLane n) s

/-- A die that fails training or self-test is retired, and a spare of its kind steps in (R430). -/
def State.selfTestFails (s : State) (d : Nat) : State :=
  if 100 ≤ d ∨ s.dieState d = 2 ∨ !s.power.draftUp then s
  else
    let was := s.dieState d
    let s := s.count 0x7981 9 1
    if d < 26 then
      let s := s.setDieState d 2
      if was = 0 then (s.stepIn d 0 26).1 else s
    else if d < 34 then s.retireHub (d - 26)
    else if d < 82 then
      let k := if d < 50 then (d - 34) / 2 else (d - 50) / 4
      let s := s.setDieState d 2
      if s.dieActive (dieHub k) then s.retireHub k else s
    else if d < 87 then
      let s := s.setDieState d 2
      if was = 0 then (s.stepIn d 82 5).1 else s
    else if d < 95 then (s.setDieState d 2).failLinkDie (d - 87)
    else if d = 95 then
      let s := s.setDieState d 2
      s.setHost { s.host with attach := .lost }
    else if d < 98 then
      if was = 0 then s.mgmtFails else (s.setDieState d 2).loseRoot (d - 96)
    else s.failNand (d - 98)

/-- Steps 5 to 9: hold-up, roles, training, lanes and self-test. -/
def State.startRest (s : State) (env : StartEnv) : State :=
  let s := s.setPower { s.power with holdupMj := env.holdupMj }
  if env.holdupMj < holdupFloor then s.halt
  else
    let s := s.poweredDies.foldl (fun (s : State) d => s.freshLooms d) s
    let s := env.failedDies.foldl (fun (s : State) d => s.selfTestFails d) s
    if !s.power.draftUp then s
    else
      let s := s.setPower { s.power with mode := .running, startState := 9, lastStartMs := env.durationMs }
      let s := env.lanesUp.foldl (fun (s : State) n =>
        if n < 128 ∧ (s.lane n).st = .training then s.laneUp n else s) s
      s.event 0x7010 1 srcDevice 9 0

/-- Steps 4 to 9. -/
def State.startFrom4 (s : State) (env : StartEnv) : State :=
  let r := s.startRom env
  if r.2 then r.1.startRest env else r.1.halt

/-- Steps 3 to 9, with PWR_GOOD high. -/
def State.startFrom3 (s : State) (env : StartEnv) : State :=
  let s := { s with module := { s.module with pwrGood := true } }.startRoots env
  if s.power.rootLock = 0 then s.halt else s.startFrom4 env

/-- A cold start, from step 1 (Table PWR-4). -/
def State.coldStart (s : State) (env : StartEnv) : State :=
  let s := (s.setPower { s.power with mode := .starting }).startStages
  if s.activeStages < 4 then s.halt else s.startFrom3 env

def execColdStart (env : StartEnv) (s : State) : Result :=
  if s.power.mode = .off then .next (s.coldStart env) else .next s

/-! ### Resets (R431, R432) -/

/-- A module reset: the cause is journaled, the tail goes out, and every chiplet is held. -/
def State.holdReset (s : State) (c : Nat) : State :=
  let p := s.power
  let good := s.module.pwrGood
  let s := if p.draftUp then (s.setCause c).flushTail else s
  let t := s.losePower .resetHeld
  { t with
    module := { t.module with pwrGood := good }
    power := { t.power with inputMv := p.inputMv, ibusMv := p.ibusMv, holdupMj := p.holdupMj
                            rootLock := p.rootLock, clockRoot := p.clockRoot } }

def execMrstN (lowMs : Nat) (s : State) : Result :=
  match s.power.mode with
  | .running | .starting | .halted =>
    let r := s.filtered lowMs 900 1000
    if r.1 then
      let t := (r.2.count 0x7991 4 1).holdReset 5
      .next { t with module := { t.module with mrstN := false } }
    else .next r.2
  | .thermalOff =>
    let r := s.filtered lowMs 900 1000
    if r.1 then .next (r.2.setPower { r.2.power with mode := .off }) else .next r.2
  | _ => .next s

def State.moduleReset (s : State) (value : Byte) : State × DapResult :=
  if value = 0xA5 then (s.setPower { s.power with resetPending := true }, .ok) else (s, .refused)

def execModuleReset (value : Byte) (s : State) : Result := s.onCmd (fun s => s.moduleReset value)

/-- Steps 4 to 9 from a held module; the stages and the roots are looked at again, since a module that had
halted before step 4 has none (R424). -/
def State.warmStart (s : State) (env : StartEnv) : State :=
  let s := { s with module := { s.module with mrstN := true } }.sense
  let s := (s.setPower { s.power with mode := .starting }).setAlert alStage (s.activeStages != 7)
  if s.activeStages < 4 then s.halt
  else if s.power.rootLock = 0 then s.startFrom3 env
  else (s.setRoots s.power.rootLock).startFrom4 env

/-- After MRST_N rises, or 100 ms after MODULE_RESET. -/
def execWarmStart (env : StartEnv) (s : State) : Result :=
  if s.power.mode = .resetHeld then .next (s.warmStart env)
  else if s.power.resetPending then .next ((s.holdReset 6).warmStart env)
  else .next s

end Sys2Proof.Machine
end

