-- ==== Sys2Proof/Machine/Deaths.lean ====
section
/-!
DEFINITION. Dies that are declared dead (R18, R103, R243, R268 to R274, R374, R375, R380) and control cores
that retire (R102).
-/

namespace Sys2Proof.Machine

open Sys2Proof

/-! ### Hubs (R243, R272) -/

/-- Hub `k` retires, with its directory slice and every copy of its lines. -/
def State.loseHub (s : State) (k : Nat) : State :=
  let before := s.activeHubs
  (s.retireHub k).purgeHub before k

def execHubRetire (hub : Nat) (s : State) : Result :=
  if s.ready && decide (hub < 8) && s.dieActive (dieHub hub) then .next (s.loseHub hub) else .next s

/-! ### What goes with a tensor die (R374, R375) -/

/-- How a descriptor on a dead die ends. -/
def deadOutcome : Outcm := outcm stPoisonSrc 0xFFFFFFFF 0

/-- One uncompleted descriptor of a queue that the dead die served. -/
def State.cutDead (s : State) (q : BitVec 16) (f : Fetched) : State :=
  let l := (s.queue q).lease
  let mine := fun (a b : BitVec 16) => a == q && b == f.seq
  match f.phase with
  | .done _ _ _ => s
  | .waiting => (s.dropWaits q f.seq).complete q f.seq deadOutcome
  | .running e =>
    match e with
    | .shuttle _ =>
      let s := if f.opcode = 0x72 then s.endPut l q f.seq none
        else if f.opcode = 0x73 then s.getCount l (keyOf f.body) false false
        else s
      let s : State := { s with
        xfers := s.xfers.filter (fun x => !mine x.queue x.seq)
        mcastSends := s.mcastSends.filter (fun x => !mine x.queue x.seq) }
      (s.dropWaits q f.seq).complete q f.seq deadOutcome
    | .collective =>
      (match s.peruo.collWaits.find? (fun w => mine w.queue w.seq) with
       | some w => s.endColl w deadOutcome
       | none => s.complete q f.seq deadOutcome)
    | _ => (s.dropWaits q f.seq).complete q f.seq deadOutcome

def State.cutDeadQueue (s : State) (q : BitVec 16) : State :=
  ((s.queue q).fetched.filter (fun f => match f.phase with | .done _ _ _ => false | _ => true)).foldl
    (fun (s : State) f => s.cutDead q f) s

/-- The table without the keys of die `d`, of which each die has `n`. -/
def dropKeys {α : Type} (t : Tab α) (d n : Nat) : Tab α := t.filter (fun e => e.1 / n ≠ d)

/-- Looms of die `d` leave every multicast group, and held deliveries go on without them. -/
def State.leaveGroups (s : State) (d : Nat) : State :=
  let stay := fun (l : List Nat) => l.filter (fun m => m / 8 ≠ d)
  let s : State := { s with
    mcast := s.mcast.map (fun e => (e.1, stay e.2))
    mcastSends := s.mcastSends.map (fun m =>
      { m with held := m.held.map (fun y => { y with pending := stay y.pending }) }) }
  s.mcastSends.foldl (fun (s : State) m =>
    match s.xfer m.queue m.seq with
    | some x => s.releaseHeld m x.shuttle
    | none => s) s

/-- Everything that tensor die `d` held is lost: engines, treadle set and tokens, rings, groups and die
store. -/
def State.clearDie (s : State) (d : Nat) : State :=
  let homed := fun (g : Nat) => g / 256 = d
  let s : State := { s with
    looms := (dropKeys s.looms d 8).map (fun e =>
      (e.1, { e.2 with mcastHome := e.2.mcastHome.filter (fun h => h.2 ≠ d) }))
    heddles := dropKeys s.heddles d 4
    vecs := dropKeys s.vecs d 16
    rings := dropKeys s.rings d 256
    tokens := dropKeys s.tokens d 4096
    segs := s.segs.filter (fun g => g.die ≠ d)
    mcast := s.mcast.filter (fun e => !homed e.1)
    cores := s.cores.map (fun e =>
      if e.1 / 64 = d then
        (e.1, { CtrlCore.init with retired := e.2.retired, dispatch := e.2.dispatch })
      else e) }
  (s.clearRange (dieStore d) dieStoreBytes).leaveGroups d

/-- Queues that die `d` serves. -/
def State.servedBy (s : State) (d : Nat) : List Nat :=
  (s.queues.filter (fun e => e.2.state != .free && e.2.die == d)).map Prod.fst

/-- QSTATE (Table HST-11). -/
def State.qstate (s : State) (q : BitVec 16) : Nat :=
  let c := s.queue q
  let st := match c.state with
    | .free => 0
    | .active => 1
    | .orphaned => 2
    | .revoked => 3
  st * 2 ^ 62 + c.nextSeq.toNat * 2 ^ 32 + c.sqTail.toNat * 2 ^ 16 + c.cqHead.toNat

/-- Queue `q` is served by die `x` from now on, bound in no treadle set. -/
def State.rebind (s : State) (q x : Nat) : State :=
  let k := BitVec.ofNat 16 q
  { s.setQueue k { s.queue k with die := x } with
    treadle := Tab.remove s.treadle q, readyOrder := s.readyOrder.filter (fun y => y ≠ q) }

/-- The leases whose DIE_MASK names die `d`. -/
def State.leasesOn (s : State) (d : Nat) : List Nat :=
  (s.leases.filter (fun e => e.2.state != .free && e.2.dieMask.getLsbD d)).map Prod.fst

def State.setMask (s : State) (n : Nat) (m : Nat) : State :=
  { s with leases := Tab.write s.leases n { s.lease n with dieMask := BitVec.ofNat 64 m } }

/-- The spare takes the place of die `d` in the masks, and its queues (R374). -/
def State.moveToSpare (s : State) (d x : Nat) : State :=
  let s := s.clearRange (dieStore x) dieStoreBytes
  let s := (s.leasesOn d).foldl (fun (s : State) n =>
    s.setMask n ((s.lease n).dieMask.toNat - 2 ^ d + 2 ^ x)) s
  (s.servedBy d).foldl (fun (s : State) q => s.rebind q x) s

/-- Steps 1, 4, 5 and 6 of R375: the mask loses the die, and its queues go to the lowest die that stays. -/
def State.moveToRest (s : State) (d : Nat) : State :=
  let ls := s.leasesOn d
  let s := ls.foldl (fun (s : State) n => s.setMask n ((s.lease n).dieMask.toNat - 2 ^ d)) s
  let s := (s.servedBy d).foldl (fun (s : State) q =>
    match (bitList 26 (s.lease (s.queue (BitVec.ofNat 16 q)).lease).dieMask.toNat).head? with
    | none => s
    | some x =>
      (s.rebind q x).event (0x4900 + q / 256) (q % 256) x (s.qstate (BitVec.ofNat 16 q)) 0) s
  (ls.filter (fun n => (s.lease n).dieMask = 0 && (s.lease n).state == .active)).foldl
    (fun (s : State) n => s.revokeLease n) s

/-- A tensor die is declared dead. -/
def State.tensorDies (s : State) (d : Nat) : State :=
  let qs := s.servedBy d
  let was := s.dieState d
  let s := s.setDieState d 2
  if was ≠ 0 then s
  else
    let r := s.stepIn d 0 26
    let s := qs.foldl (fun (s : State) q => s.cutDeadQueue (BitVec.ofNat 16 q)) r.1
    let s := s.clearDie d
    match r.2 with
    | some x => s.moveToSpare d x
    | none => s.moveToRest d

/-! ### Core dies (R103, R380) -/

/-- Hart IDs of the slot that core die `d` fills. -/
def State.hartsOf (s : State) (d : Nat) : List Nat :=
  match s.coreSlots.findIdx? (fun y => y == d) with
  | some k => rangeFrom (64 * k) 64
  | none => []

/-- SERVER_HARTS. -/
def State.serverHarts (s : State) : Nat := 64 * (s.activeDies 82 5).length

/-- A core die is declared dead: its harts stop, and the spare's leave reset STOPPED. -/
def State.coreDies (s : State) (d : Nat) : State :=
  let was := s.dieState d
  let hs := s.hartsOf d
  let s := s.setDieState d 2
  if was ≠ 0 then s
  else
    let s : State := { s with hartsStopped := s.hartsStopped.filter (fun h => !hs.contains h) }
    let r := s.stepIn d 82 5
    let s := if r.2.isSome then { r.1 with hartsStopped := hs.foldl insertNat r.1.hartsStopped } else r.1
    s.event 0x2100 1 d s.serverHarts 0

/-- The operating system starts a STOPPED hart; what it then runs is software's (log 9). -/
def execHartStart (hart : Nat) (_addr _opaque : BitVec 64) (s : State) : Result :=
  if s.ready then .next { s with hartsStopped := s.hartsStopped.filter (fun h => h ≠ hart) } else .next s

/-! ### Agents (R268) -/

/-- The host die is declared dead (R18, R271, R297). -/
def State.hostDies (s : State) : State :=
  let s := s.setDieState dieHost 2
  let s := s.setHost { s.host with
    portReady := false, linkUp := false, cxlUp := false, gts := 0, width := 0 }
  s.hostLeaves .lost

/-- A management die is declared dead. -/
def State.mgmtDies (s : State) (d : Nat) : State :=
  if s.dieState d = 0 then s.mgmtFails
  else (s.setDieState d 2).loseRoot (d - 96)

/-- Agent `a` is DEAD, and its lines are reclaimed (R269). -/
def State.buryAgent (s : State) (a : Nat) : State :=
  (s.setCoh { s.coh with agentState := Tab.write s.coh.agentState a 2 }).reclaim a

/-- Agent `a` is declared dead: its die is retired, and its spare, if one remains, steps in. -/
def State.agentDies (s : State) (a : Nat) : State :=
  let d := dieOfAgent a
  if 42 ≤ a ∨ s.dieState d = 2 then s
  else if a < 26 then (s.tensorDies d).buryAgent a
  else if a < 31 then (s.coreDies d).buryAgent a
  else if a < 39 then ((s.setDieState d 2).failLinkDie (d - 87)).buryAgent a
  else if a = 39 then
    let s := s.hostDies
    s.setCoh { s.coh with agentState := Tab.write s.coh.agentState a 2 }
  else
    let s := s.mgmtDies d
    s.setCoh { s.coh with agentState := Tab.write s.coh.agentState a 2 }

def execAgentDead (agent : Nat) (s : State) : Result :=
  if s.ready then .next (s.agentDies agent) else .next s

/-- A snoop of `agent` stands unanswered. -/
def State.owesAnswer (s : State) (agent : Nat) : Bool :=
  s.coh.txns.any (fun t => t.2.waitFor.contains agent)

def execAgentSnoopLimitExpiry (agent : Nat) (s : State) : Result :=
  if s.ready && !privileged agent && s.owesAnswer agent then .next (s.agentDies agent) else .next s

/-! ### The host snoop deadline (R274) -/

/-- The messages of a host-class snoop of `line`. -/
def CohMsg.ofHostSnoop (m : CohMsg) (line : Nat) : Bool :=
  match m with
  | .snoop x => x.host && x.line == line
  | .rspI _ l h | .rspS _ l h | .rspO _ l h => h && l == line
  | .rspFwd _ l _ h => h && l == line
  | _ => false

/-- The host die answers for a silent holder, and counts the miss. What SnpInv took from the device is gone for
a request that waits for the host beside it, too (log 81). -/
def State.answerForHolder (s : State) (line : Nat) (t : Txn) : State :=
  let em := (s.coh.entry line).st == .em
  let c := s.coh
  let c := { c with
    txns := Tab.remove c.txns (txnKey true line)
    msgs := c.msgs.filter (fun m => !m.ofHostSnoop line) }
  let c := if t.req.kind = .rdX then
      (match c.txn line with
       | some d => (c.purge (fun l => l == line)).setTxn line { d with waitFor := [] }
       | none => c.purge (fun l => l == line))
    else c
  (((s.setCoh c).advance line).count 0x7919 2 1).emit
    (if em then .hostRsp line true (some zeroLine) true else .hostRsp line false none false)

def execSnoopDeadlineMiss (agent line : Nat) (s : State) : Result :=
  match s.coh.txn (txnKey true line) with
  | none => .next s
  | some t =>
    if !s.ready ∨ !t.waitFor.contains agent then .next s
    else
      let s := s.answerForHolder line t
      .next (if privileged agent then s else s.agentDies agent)

/-! ### Control cores (R102) -/

def execControlCoreRetire (die core : Nat) (s : State) : Result :=
  if !s.ready ∨ 26 ≤ die ∨ s.dieState die = 2 ∨ 64 ≤ core ∨ (s.core die core).retired then .next s
  else
    let s := s.roleRecord 1 (die * 64 + core) 1
    let s := s.retireCore die core
    let s := s.event 0x2010 die die (s.coresRetired die) 0
    .next (if s.hasDispatch die then s else s.agentDies die)

end Sys2Proof.Machine
end

