-- ==== Sys2Proof/Machine/DraftTable.lean ====
section
/-!
DEFINITION. The objects of the Draft (R338 to R343): every row of the object tables of the chapters, in
ascending order.
-/

namespace Sys2Proof.Machine

open Sys2Proof

/-- A row of an object table: indices, sub-indices, type code (Table DFT-1), access and privilege as Table
DFT-3 codes them, whether the object is persistent and binding, its length (the maximum of a DOMAIN) and a
scalar's default. -/
structure ObjRow where
  iLo  : Nat
  iHi  : Nat
  sLo  : Nat
  sHi  : Nat
  ty   : Nat
  acc  : Nat
  priv : Nat
  pers : Bool
  bind : Bool
  len  : Nat
  dflt : Nat
  deriving DecidableEq, Repr

/-- PART_NUMBER to PPR_LEFT. -/
def objRows0 : List ObjRow :=
  [⟨0x1000, 0x1000, 0x1, 0x1, 10, 0, 0, true, false, 8, 0⟩,
   ⟨0x1000, 0x1000, 0x2, 0x2, 2, 0, 0, true, false, 1, 161⟩,
   ⟨0x1000, 0x1000, 0x3, 0x3, 10, 0, 0, true, false, 16, 0⟩,
   ⟨0x1010, 0x1010, 0x0, 0x63, 2, 0, 0, true, false, 1, 0⟩,
   ⟨0x1011, 0x1011, 0x1, 0x1, 2, 0, 0, true, false, 1, 24⟩,
   ⟨0x1011, 0x1011, 0x2, 0x2, 2, 0, 0, true, false, 1, 4⟩,
   ⟨0x1011, 0x1011, 0x3, 0x3, 2, 0, 0, true, false, 1, 8⟩,
   ⟨0x1011, 0x1011, 0x4, 0x4, 2, 0, 0, true, false, 1, 8⟩,
   ⟨0x1011, 0x1011, 0x5, 0x5, 2, 0, 0, false, false, 1, 7⟩,
   ⟨0x1012, 0x1012, 0x1, 0x1, 5, 0, 0, false, false, 8, 768000000000⟩,
   ⟨0x1012, 0x1012, 0x2, 0x2, 5, 0, 0, false, false, 8, 4096000000000⟩,
   ⟨0x1100, 0x1100, 0x1, 0x1, 10, 0, 0, true, false, 6, 0⟩,
   ⟨0x1100, 0x1100, 0x2, 0x2, 3, 2, 2, true, false, 2, 51729⟩,
   ⟨0x1100, 0x1100, 0x3, 0x3, 2, 0, 0, false, false, 1, 0⟩,
   ⟨0x1100, 0x1100, 0x4, 0x4, 1, 2, 2, true, false, 1, 1⟩,
   ⟨0x1101, 0x1101, 0x1, 0x1, 2, 2, 2, true, false, 1, 255⟩,
   ⟨0x1101, 0x1101, 0x2, 0x2, 2, 2, 2, true, false, 1, 8⟩,
   ⟨0x1101, 0x1101, 0x3, 0x3, 2, 2, 2, true, false, 1, 32⟩,
   ⟨0x1101, 0x1101, 0x4, 0x4, 2, 2, 2, true, false, 1, 0⟩,
   ⟨0x1102, 0x1102, 0x1, 0x1, 2, 0, 0, true, false, 1, 16⟩,
   ⟨0x1102, 0x1102, 0x2, 0x2, 4, 2, 2, true, false, 4, 300⟩,
   ⟨0x1102, 0x1102, 0x3, 0x3, 2, 0, 0, false, false, 1, 0⟩,
   ⟨0x1102, 0x1102, 0x10, 0x1F, 5, 0, 2, false, false, 8, 0⟩,
   ⟨0x1103, 0x1103, 0x1, 0x1, 1, 2, 2, true, false, 1, 0⟩,
   ⟨0x1200, 0x1200, 0x1, 0x1, 4, 0, 0, true, false, 4, 1⟩,
   ⟨0x1200, 0x1200, 0x2, 0x2, 11, 0, 0, true, false, 32, 0⟩,
   ⟨0x1200, 0x1200, 0x3, 0x3, 4, 0, 0, true, false, 4, 0⟩,
   ⟨0x1200, 0x1200, 0x4, 0x4, 11, 0, 0, true, false, 32, 0⟩,
   ⟨0x1200, 0x1200, 0x5, 0x5, 5, 0, 0, true, false, 8, 18446744073709551615⟩,
   ⟨0x1200, 0x1200, 0x6, 0x6, 4, 0, 0, true, false, 4, 0⟩,
   ⟨0x1200, 0x1200, 0x7, 0x7, 11, 0, 0, true, false, 32, 0⟩,
   ⟨0x1200, 0x1200, 0x8, 0x8, 5, 0, 0, false, false, 8, 0⟩,
   ⟨0x1200, 0x1200, 0x9, 0x9, 4, 0, 0, false, false, 4, 0⟩,
   ⟨0x1200, 0x1200, 0xA, 0xA, 3, 0, 0, false, false, 2, 0⟩,
   ⟨0x1200, 0x1200, 0x10, 0x10, 2, 4, 2, false, false, 1, 0⟩,
   ⟨0x1200, 0x1200, 0x11, 0x11, 12, 0, 0, false, false, 192, 0⟩,
   ⟨0x2010, 0x2010, 0x0, 0x19, 5, 0, 0, true, false, 8, 0⟩,
   ⟨0x2100, 0x2100, 0x1, 0x1, 3, 0, 0, false, false, 2, 256⟩,
   ⟨0x2400, 0x2400, 0x22, 0x51, 3, 0, 0, true, false, 2, 0⟩,
   ⟨0x2401, 0x2401, 0x22, 0x51, 3, 0, 0, true, false, 2, 0⟩]

/-- T1_LEASABLE to STASH_FULL_WAIT. -/
def objRows1 : List ObjRow :=
  [⟨0x2800, 0x2800, 0x1, 0x1, 5, 0, 0, false, false, 8, 768000000000⟩,
   ⟨0x2800, 0x2800, 0x2, 0x2, 5, 0, 0, false, false, 8, 3732000000000⟩,
   ⟨0x2800, 0x2800, 0x3, 0x3, 5, 0, 0, false, false, 8, 0⟩,
   ⟨0x2800, 0x2800, 0x4, 0x4, 5, 0, 0, false, false, 8, 0⟩,
   ⟨0x2800, 0x2800, 0x5, 0x5, 5, 0, 0, false, false, 8, 0⟩,
   ⟨0x2800, 0x2800, 0x6, 0x6, 5, 0, 0, false, false, 8, 0⟩,
   ⟨0x2801, 0x2801, 0x1, 0x1, 5, 2, 2, true, false, 8, 0⟩,
   ⟨0x2801, 0x2801, 0x2, 0x2, 5, 2, 2, true, false, 8, 300000000000⟩,
   ⟨0x2801, 0x2801, 0x3, 0x3, 5, 0, 0, true, false, 8, 64000000000⟩,
   ⟨0x2802, 0x2802, 0x1, 0x1, 4, 2, 1, true, false, 4, 50⟩,
   ⟨0x2802, 0x2802, 0x2, 0x2, 4, 2, 1, true, false, 4, 10⟩,
   ⟨0x2810, 0x2810, 0x1, 0x9, 5, 1, 1, false, false, 8, 0⟩,
   ⟨0x2811, 0x2811, 0x0, 0x0, 2, 4, 1, false, false, 1, 0⟩,
   ⟨0x2811, 0x2811, 0x1, 0x1, 5, 0, 0, false, false, 8, 0⟩,
   ⟨0x2811, 0x2811, 0x2, 0x2, 3, 4, 1, false, false, 2, 0⟩,
   ⟨0x2901, 0x2CFF, 0x1, 0x11, 5, 0, 0, false, false, 8, 0⟩,
   ⟨0x2E00, 0x2E0F, 0x0, 0xFF, 5, 0, 0, false, false, 8, 0⟩,
   ⟨0x3000, 0x3000, 0x1, 0x1, 2, 2, 1, true, false, 1, 0⟩,
   ⟨0x3000, 0x3000, 0x2, 0x2, 2, 0, 0, true, false, 1, 4⟩,
   ⟨0x3000, 0x3000, 0x3, 0x3, 3, 0, 0, true, false, 2, 1024⟩,
   ⟨0x3000, 0x3000, 0x4, 0x4, 3, 0, 0, true, false, 2, 8192⟩,
   ⟨0x3000, 0x3000, 0x5, 0x5, 2, 0, 0, true, false, 1, 2⟩,
   ⟨0x3001, 0x3001, 0x0, 0xB, 4, 0, 0, true, false, 4, 0⟩,
   ⟨0x3002, 0x3002, 0x0, 0x19, 2, 0, 0, false, false, 1, 0⟩,
   ⟨0x3100, 0x3100, 0x1, 0x1, 2, 0, 0, true, false, 1, 16⟩,
   ⟨0x3100, 0x3100, 0x2, 0x2, 2, 0, 0, true, false, 1, 4⟩,
   ⟨0x3100, 0x3100, 0x3, 0x3, 2, 0, 0, true, false, 1, 16⟩,
   ⟨0x3200, 0x3200, 0x1, 0x1, 2, 0, 0, true, false, 1, 4⟩,
   ⟨0x3200, 0x3200, 0x2, 0x2, 4, 0, 0, true, false, 4, 65536⟩,
   ⟨0x3200, 0x3200, 0x3, 0x3, 1, 2, 1, true, false, 1, 1⟩,
   ⟨0x3300, 0x3300, 0x1, 0x1, 3, 0, 0, true, false, 2, 16384⟩,
   ⟨0x3300, 0x3300, 0x2, 0x2, 2, 0, 0, true, false, 1, 32⟩,
   ⟨0x3300, 0x3300, 0x3, 0x3, 2, 0, 0, true, false, 1, 255⟩,
   ⟨0x3300, 0x3300, 0x4, 0x4, 2, 0, 0, true, false, 1, 2⟩,
   ⟨0x3300, 0x3300, 0x5, 0x5, 3, 2, 1, true, false, 2, 256⟩,
   ⟨0x3400, 0x3400, 0x1, 0x1, 2, 0, 0, true, false, 1, 4⟩,
   ⟨0x3400, 0x3400, 0x2, 0x2, 2, 0, 0, true, false, 1, 4⟩,
   ⟨0x3401, 0x3401, 0x1, 0x1, 3, 0, 0, true, false, 2, 4096⟩,
   ⟨0x3401, 0x3401, 0x2, 0x2, 2, 0, 0, true, false, 1, 16⟩,
   ⟨0x3402, 0x3402, 0x1, 0x1, 4, 2, 1, true, false, 4, 10000⟩]

/-- STASH_ENTRIES_MAX to BAR2_SIZE. -/
def objRows2 : List ObjRow :=
  [⟨0x3402, 0x3402, 0x2, 0x2, 4, 0, 0, true, false, 4, 65536⟩,
   ⟨0x3403, 0x3403, 0x1, 0x1, 4, 2, 1, true, false, 4, 65536⟩,
   ⟨0x3403, 0x3403, 0x2, 0x2, 5, 2, 1, true, true, 8, 16000000000⟩,
   ⟨0x3500, 0x3500, 0x1, 0x1, 2, 0, 0, true, false, 1, 4⟩,
   ⟨0x3500, 0x3500, 0x2, 0x2, 2, 0, 0, true, false, 1, 64⟩,
   ⟨0x3500, 0x3500, 0x3, 0x3, 3, 2, 1, true, false, 2, 16⟩,
   ⟨0x3500, 0x3500, 0x4, 0x4, 3, 0, 0, true, false, 2, 256⟩,
   ⟨0x3500, 0x3500, 0x5, 0x5, 3, 0, 0, true, false, 2, 256⟩,
   ⟨0x3500, 0x3500, 0x6, 0x6, 2, 0, 0, true, false, 1, 4⟩,
   ⟨0x3520, 0x3539, 0x0, 0xFF, 4, 0, 0, false, false, 4, 0⟩,
   ⟨0x3801, 0x3801, 0x1, 0x1, 2, 2, 1, true, true, 1, 1⟩,
   ⟨0x3801, 0x3801, 0x2, 0x2, 5, 2, 2, true, true, 8, 0⟩,
   ⟨0x3802, 0x3802, 0x1, 0x1, 6, 2, 1, true, true, 1, 16⟩,
   ⟨0x3802, 0x3802, 0x2, 0x2, 6, 2, 1, true, true, 1, 224⟩,
   ⟨0x3802, 0x3802, 0x3, 0x3, 6, 2, 1, true, true, 1, 40⟩,
   ⟨0x3802, 0x3802, 0x4, 0x4, 4, 2, 1, true, true, 4, 2000⟩,
   ⟨0x3803, 0x3803, 0x1, 0x1, 2, 2, 1, true, true, 1, 1⟩,
   ⟨0x3803, 0x3803, 0x2, 0x2, 2, 2, 1, true, true, 1, 2⟩,
   ⟨0x3803, 0x3803, 0x3, 0x3, 4, 2, 1, true, true, 4, 1024⟩,
   ⟨0x3803, 0x3803, 0x4, 0x4, 3, 2, 1, true, true, 2, 64⟩,
   ⟨0x3804, 0x3804, 0x1, 0x1, 3, 2, 1, true, false, 2, 1000⟩,
   ⟨0x3804, 0x3804, 0x2, 0x2, 3, 2, 1, true, false, 2, 50⟩,
   ⟨0x3804, 0x3804, 0x3, 0x3, 3, 2, 1, true, false, 2, 16⟩,
   ⟨0x3804, 0x3804, 0x4, 0x4, 2, 0, 0, true, false, 1, 16⟩,
   ⟨0x3810, 0x3810, 0x1, 0x1, 3, 2, 1, true, true, 2, 0⟩,
   ⟨0x3810, 0x3810, 0x2, 0x2, 4, 2, 1, true, true, 4, 0⟩,
   ⟨0x3811, 0x3811, 0x0, 0x3F, 5, 0, 0, false, false, 8, 0⟩,
   ⟨0x3812, 0x3812, 0x0, 0x0, 5, 0, 0, false, false, 8, 0⟩,
   ⟨0x3812, 0x3812, 0x1, 0x1, 2, 4, 1, false, false, 1, 0⟩,
   ⟨0x4000, 0x4000, 0x1, 0x1, 5, 2, 1, true, false, 8, 0⟩,
   ⟨0x4000, 0x4000, 0x2, 0x2, 4, 2, 1, true, false, 4, 0⟩,
   ⟨0x4000, 0x4000, 0x3, 0x3, 3, 0, 0, true, false, 2, 256⟩,
   ⟨0x4001, 0x4001, 0x1, 0x1, 2, 0, 0, true, false, 1, 1⟩,
   ⟨0x4001, 0x4001, 0x2, 0x2, 2, 0, 0, true, false, 1, 2⟩,
   ⟨0x4001, 0x4001, 0x3, 0x3, 3, 0, 0, true, false, 2, 256⟩,
   ⟨0x4002, 0x4002, 0x1, 0x1, 3, 0, 0, true, false, 2, 4096⟩,
   ⟨0x4002, 0x4002, 0x2, 0x2, 2, 0, 0, true, false, 1, 64⟩,
   ⟨0x4002, 0x4002, 0x3, 0x3, 3, 0, 0, true, false, 2, 256⟩,
   ⟨0x4800, 0x4800, 0x1, 0x1, 4, 0, 0, false, false, 4, 0⟩,
   ⟨0x4800, 0x4800, 0x2, 0x2, 5, 0, 0, false, false, 8, 0⟩]

/-- HOST_EPOCH to ETH_WINDOW. -/
def objRows3 : List ObjRow :=
  [⟨0x4801, 0x4801, 0x1, 0x1, 4, 0, 0, false, false, 4, 1⟩,
   ⟨0x4801, 0x4801, 0x2, 0x2, 2, 0, 0, false, false, 1, 1⟩,
   ⟨0x4810, 0x4810, 0x1, 0x1, 4, 0, 0, true, false, 4, 65536⟩,
   ⟨0x4810, 0x4810, 0x2, 0x2, 3, 0, 0, true, false, 2, 32768⟩,
   ⟨0x4810, 0x4810, 0x3, 0x3, 3, 0, 0, true, false, 2, 2048⟩,
   ⟨0x4810, 0x4810, 0x4, 0x4, 3, 0, 0, true, false, 2, 4096⟩,
   ⟨0x4810, 0x4810, 0x5, 0x5, 4, 0, 0, false, false, 4, 0⟩,
   ⟨0x4811, 0x4811, 0x1, 0x1, 4, 2, 1, true, false, 4, 250⟩,
   ⟨0x4811, 0x4811, 0x2, 0x2, 2, 0, 0, true, false, 1, 8⟩,
   ⟨0x4811, 0x4811, 0x3, 0x3, 3, 2, 1, true, false, 2, 32⟩,
   ⟨0x4820, 0x4820, 0x0, 0x0, 3, 4, 2, false, false, 2, 0⟩,
   ⟨0x4840, 0x4840, 0x0, 0xF, 10, 2, 2, true, false, 16, 0⟩,
   ⟨0x4900, 0x49FF, 0x0, 0xFF, 5, 0, 0, false, false, 8, 0⟩,
   ⟨0x4A00, 0x4AFF, 0x0, 0xFF, 5, 0, 0, false, false, 8, 0⟩,
   ⟨0x4B00, 0x4B0F, 0x0, 0xFF, 5, 0, 0, false, false, 8, 0⟩,
   ⟨0x5000, 0x5000, 0x1, 0x1, 2, 0, 0, true, false, 1, 128⟩,
   ⟨0x5000, 0x5000, 0x2, 0x2, 2, 2, 2, true, true, 1, 1⟩,
   ⟨0x5000, 0x5000, 0x3, 0x3, 2, 2, 2, true, false, 1, 0⟩,
   ⟨0x5000, 0x5000, 0x4, 0x4, 2, 2, 2, true, false, 1, 0⟩,
   ⟨0x5000, 0x5000, 0x5, 0x5, 3, 0, 0, true, false, 2, 0⟩,
   ⟨0x5000, 0x5000, 0x6, 0x6, 2, 2, 2, true, true, 1, 0⟩,
   ⟨0x5000, 0x5000, 0x7, 0x7, 1, 2, 2, true, false, 1, 0⟩,
   ⟨0x5001, 0x5001, 0x1, 0x1, 4, 2, 1, true, false, 4, 10000⟩,
   ⟨0x5001, 0x5001, 0x2, 0x2, 2, 2, 1, true, false, 1, 8⟩,
   ⟨0x5001, 0x5001, 0x3, 0x3, 4, 2, 1, true, false, 4, 16⟩,
   ⟨0x5002, 0x5002, 0x1, 0x1, 4, 0, 0, true, false, 4, 0⟩,
   ⟨0x5002, 0x5002, 0x2, 0x2, 5, 0, 0, true, false, 8, 0⟩,
   ⟨0x5002, 0x5002, 0x3, 0x3, 12, 2, 2, true, false, 1544, 0⟩,
   ⟨0x5003, 0x5003, 0x0, 0x7F, 4, 0, 0, true, false, 4, 0⟩,
   ⟨0x5100, 0x512F, 0x0, 0xFF, 2, 0, 0, false, false, 1, 0⟩,
   ⟨0x5200, 0x5203, 0x0, 0xFF, 5, 0, 0, false, false, 8, 0⟩,
   ⟨0x5300, 0x530F, 0x0, 0xFF, 5, 0, 0, false, false, 8, 0⟩,
   ⟨0x5400, 0x5400, 0x0, 0xFF, 10, 0, 0, false, false, 24, 0⟩,
   ⟨0x5500, 0x5500, 0x1, 0x1, 2, 2, 2, true, false, 1, 0⟩,
   ⟨0x5500, 0x5500, 0x2, 0x2, 10, 2, 2, true, true, 8, 0⟩,
   ⟨0x5500, 0x5500, 0x3, 0x3, 10, 2, 2, true, false, 6, 0⟩,
   ⟨0x5500, 0x5500, 0x4, 0x4, 3, 2, 2, true, false, 2, 51730⟩,
   ⟨0x5500, 0x5500, 0x5, 0x5, 2, 2, 1, true, false, 1, 16⟩,
   ⟨0x5500, 0x5500, 0x6, 0x6, 4, 2, 1, true, false, 4, 200⟩,
   ⟨0x5500, 0x5500, 0x7, 0x7, 3, 2, 1, true, false, 2, 256⟩]

/-- FAR_INGEST_PORT to BOLT_NOTE. -/
def objRows4 : List ObjRow :=
  [⟨0x5500, 0x5500, 0x8, 0x8, 3, 2, 2, true, false, 2, 51731⟩,
   ⟨0x5501, 0x5501, 0x0, 0xFF, 10, 2, 2, true, false, 32, 0⟩,
   ⟨0x5800, 0x5800, 0x1, 0x1, 4, 0, 0, true, false, 4, 4194304⟩,
   ⟨0x5800, 0x5800, 0x2, 0x2, 2, 0, 0, true, false, 1, 16⟩,
   ⟨0x5800, 0x5800, 0x3, 0x3, 4, 0, 0, true, false, 4, 2097152⟩,
   ⟨0x5801, 0x5801, 0x1, 0x1, 2, 2, 1, true, false, 1, 0⟩,
   ⟨0x5801, 0x5801, 0x2, 0x2, 2, 2, 1, true, false, 1, 8⟩,
   ⟨0x5810, 0x5810, 0x1, 0x1, 4, 2, 2, true, false, 4, 100⟩,
   ⟨0x5811, 0x5811, 0x1, 0x1, 4, 2, 2, true, false, 4, 1000⟩,
   ⟨0x5812, 0x5812, 0x1, 0x1, 3, 0, 0, true, false, 2, 150⟩,
   ⟨0x5820, 0x5820, 0x0, 0x29, 2, 0, 0, false, false, 1, 0⟩,
   ⟨0x5830, 0x5830, 0x1, 0x1, 2, 0, 0, false, false, 1, 0⟩,
   ⟨0x5831, 0x5831, 0x0, 0xFF, 5, 0, 0, false, false, 8, 0⟩,
   ⟨0x5840, 0x5840, 0x1, 0x1, 5, 1, 1, false, false, 8, 0⟩,
   ⟨0x5840, 0x5840, 0x2, 0x2, 5, 0, 1, false, false, 8, 0⟩,
   ⟨0x6000, 0x6000, 0x1, 0x1, 2, 2, 2, true, false, 1, 255⟩,
   ⟨0x6000, 0x6000, 0x2, 0x2, 2, 2, 2, true, false, 1, 255⟩,
   ⟨0x6010, 0x6010, 0x0, 0x0, 10, 4, 1, false, false, 16, 0⟩,
   ⟨0x6010, 0x6010, 0x1, 0x1, 5, 0, 0, false, false, 8, 0⟩,
   ⟨0x6010, 0x6010, 0x2, 0x2, 5, 0, 0, true, false, 8, 18446744073709551615⟩,
   ⟨0x6010, 0x6010, 0x3, 0x3, 5, 0, 0, true, false, 8, 0⟩,
   ⟨0x6011, 0x6011, 0x0, 0x0, 10, 4, 2, false, false, 16, 0⟩,
   ⟨0x6011, 0x6011, 0x1, 0x1, 5, 0, 0, false, false, 8, 0⟩,
   ⟨0x6012, 0x6012, 0x0, 0x0, 10, 4, 2, false, false, 24, 0⟩,
   ⟨0x6012, 0x6012, 0x1, 0x1, 5, 4, 2, false, false, 8, 0⟩,
   ⟨0x6020, 0x6020, 0x1, 0x1, 4, 0, 0, false, false, 4, 0⟩,
   ⟨0x6020, 0x6020, 0x2, 0x2, 5, 0, 0, true, false, 8, 1⟩,
   ⟨0x6020, 0x6020, 0x3, 0x3, 4, 2, 1, true, false, 4, 1024⟩,
   ⟨0x6021, 0x6021, 0x0, 0x1, 4, 0, 0, true, false, 4, 0⟩,
   ⟨0x6022, 0x6022, 0x0, 0x1, 4, 0, 0, true, false, 4, 0⟩,
   ⟨0x6023, 0x6023, 0x0, 0x1, 4, 0, 0, true, false, 4, 0⟩,
   ⟨0x6030, 0x6030, 0x1, 0x1, 3, 2, 2, true, false, 2, 64⟩,
   ⟨0x6040, 0x6040, 0x0, 0x5, 4, 0, 0, false, false, 4, 4294967295⟩,
   ⟨0x6050, 0x6050, 0x1, 0x1, 12, 3, 2, false, false, 16777216, 0⟩,
   ⟨0x6050, 0x6050, 0x2, 0x2, 2, 4, 2, false, false, 1, 0⟩,
   ⟨0x6050, 0x6050, 0x3, 0x3, 2, 4, 2, false, false, 1, 0⟩,
   ⟨0x6050, 0x6050, 0x4, 0x4, 4, 0, 0, true, false, 4, 0⟩,
   ⟨0x6050, 0x6050, 0x5, 0x5, 4, 0, 0, true, false, 4, 0⟩,
   ⟨0x6051, 0x6051, 0x0, 0x63, 2, 0, 0, true, false, 1, 0⟩,
   ⟨0x6060, 0x6060, 0x0, 0x0, 10, 4, 1, false, false, 24, 0⟩]

/-- LAST_BOLT to ALERT_MASK. -/
def objRows5 : List ObjRow :=
  [⟨0x6060, 0x6060, 0x1, 0x1, 10, 0, 0, true, false, 24, 0⟩,
   ⟨0x6800, 0x6800, 0x1, 0x1, 2, 0, 0, true, false, 1, 0⟩,
   ⟨0x6800, 0x6800, 0x2, 0x2, 10, 0, 0, true, false, 32, 0⟩,
   ⟨0x6800, 0x6800, 0x3, 0x3, 10, 0, 0, true, false, 32, 0⟩,
   ⟨0x6800, 0x6800, 0x4, 0x4, 10, 0, 0, false, false, 32, 0⟩,
   ⟨0x6801, 0x6801, 0x0, 0x7, 11, 0, 0, false, false, 32, 0⟩,
   ⟨0x6802, 0x6802, 0x0, 0x7, 2, 0, 0, true, false, 1, 0⟩,
   ⟨0x6803, 0x6803, 0x1, 0x1, 2, 0, 0, false, false, 1, 0⟩,
   ⟨0x6810, 0x6810, 0x1, 0x1, 10, 3, 2, true, false, 32, 0⟩,
   ⟨0x6810, 0x6810, 0x2, 0x2, 10, 3, 2, true, false, 32, 0⟩,
   ⟨0x6810, 0x6810, 0x3, 0x3, 4, 0, 0, true, false, 4, 0⟩,
   ⟨0x6810, 0x6810, 0x4, 0x4, 4, 0, 0, true, false, 4, 0⟩,
   ⟨0x6810, 0x6810, 0x5, 0x5, 2, 4, 2, false, false, 1, 0⟩,
   ⟨0x6820, 0x6820, 0x1, 0x1, 12, 0, 0, true, false, 10240, 0⟩,
   ⟨0x6820, 0x6820, 0x2, 0x2, 12, 0, 0, false, false, 10240, 0⟩,
   ⟨0x7000, 0x7000, 0x1, 0x1, 4, 0, 0, false, false, 4, 0⟩,
   ⟨0x7000, 0x7000, 0x2, 0x2, 4, 0, 0, false, false, 4, 0⟩,
   ⟨0x7000, 0x7000, 0x3, 0x3, 4, 0, 0, false, false, 4, 0⟩,
   ⟨0x7000, 0x7000, 0x4, 0x4, 4, 0, 0, false, false, 4, 0⟩,
   ⟨0x7000, 0x7000, 0x5, 0x5, 4, 0, 0, false, false, 4, 0⟩,
   ⟨0x7001, 0x7001, 0x1, 0x1, 4, 2, 1, true, false, 4, 7800⟩,
   ⟨0x7001, 0x7001, 0x2, 0x2, 4, 0, 0, false, false, 4, 7800⟩,
   ⟨0x7001, 0x7001, 0x3, 0x3, 4, 0, 0, false, false, 4, 9000⟩,
   ⟨0x7002, 0x7002, 0x0, 0x6, 2, 0, 0, true, false, 1, 0⟩,
   ⟨0x7010, 0x7010, 0x1, 0x1, 2, 0, 0, false, false, 1, 0⟩,
   ⟨0x7010, 0x7010, 0x2, 0x2, 4, 0, 0, false, false, 4, 0⟩,
   ⟨0x7010, 0x7010, 0x3, 0x3, 2, 0, 0, true, false, 1, 0⟩,
   ⟨0x7020, 0x7020, 0x1, 0x1, 2, 4, 2, false, false, 1, 0⟩,
   ⟨0x7030, 0x7030, 0x1, 0x1, 2, 0, 0, false, false, 1, 0⟩,
   ⟨0x7030, 0x7030, 0x2, 0x2, 2, 0, 0, false, false, 1, 3⟩,
   ⟨0x7030, 0x7030, 0x3, 0x3, 5, 0, 0, false, false, 8, 0⟩,
   ⟨0x7030, 0x7030, 0x4, 0x4, 2, 4, 2, false, false, 1, 0⟩,
   ⟨0x7040, 0x7040, 0x1, 0x1, 7, 0, 0, false, false, 2, 0⟩,
   ⟨0x7040, 0x7040, 0x2, 0x2, 2, 2, 1, true, false, 1, 100⟩,
   ⟨0x7041, 0x7041, 0x1, 0x1, 7, 0, 0, false, false, 2, 0⟩,
   ⟨0x7041, 0x7041, 0x2, 0x2, 7, 0, 0, false, false, 2, 0⟩,
   ⟨0x7041, 0x7041, 0x3, 0x3, 3, 0, 0, false, false, 2, 0⟩,
   ⟨0x7041, 0x7041, 0x4, 0x4, 7, 0, 0, false, false, 2, 0⟩,
   ⟨0x7050, 0x7050, 0x1, 0x1, 2, 0, 0, false, false, 1, 0⟩,
   ⟨0x7050, 0x7050, 0x2, 0x2, 2, 2, 2, true, false, 1, 0⟩]

/-- EVENT_NEXT to DFT_COUNTERS_CLEAR. -/
def objRows6 : List ObjRow :=
  [⟨0x7800, 0x7800, 0x1, 0x1, 4, 0, 0, false, false, 4, 0⟩,
   ⟨0x7801, 0x7801, 0x0, 0xFF, 10, 0, 0, false, false, 32, 0⟩,
   ⟨0x7820, 0x7820, 0x0, 0x0, 2, 4, 1, false, false, 1, 0⟩,
   ⟨0x7820, 0x7820, 0x1, 0x1, 5, 0, 0, false, false, 8, 0⟩,
   ⟨0x7820, 0x7820, 0x2, 0x2, 5, 0, 0, false, false, 8, 0⟩,
   ⟨0x7820, 0x7820, 0x3, 0x3, 5, 0, 0, false, false, 8, 0⟩,
   ⟨0x7820, 0x7820, 0x4, 0x4, 5, 0, 0, false, false, 8, 0⟩,
   ⟨0x7820, 0x7820, 0x5, 0x5, 5, 0, 0, false, false, 8, 0⟩,
   ⟨0x7820, 0x7820, 0x6, 0x6, 5, 0, 0, false, false, 8, 0⟩,
   ⟨0x782F, 0x782F, 0x0, 0x0, 2, 4, 1, false, false, 1, 0⟩,
   ⟨0x7830, 0x7849, 0x0, 0x7F, 5, 0, 0, false, false, 8, 0⟩,
   ⟨0x7850, 0x7850, 0x0, 0x0, 2, 4, 1, false, false, 1, 0⟩,
   ⟨0x7851, 0x786A, 0x0, 0x7F, 5, 0, 0, false, false, 8, 0⟩,
   ⟨0x7870, 0x7870, 0x0, 0x19, 5, 0, 0, false, false, 8, 0⟩,
   ⟨0x7871, 0x7871, 0x0, 0x19, 5, 0, 0, false, false, 8, 0⟩,
   ⟨0x787F, 0x787F, 0x0, 0x0, 2, 4, 1, false, false, 1, 0⟩,
   ⟨0x7880, 0x7899, 0x0, 0xF, 5, 0, 0, false, false, 8, 0⟩,
   ⟨0x78A0, 0x78A0, 0x0, 0x0, 2, 4, 1, false, false, 1, 0⟩,
   ⟨0x78A1, 0x78BA, 0x0, 0xF, 5, 0, 0, false, false, 8, 0⟩,
   ⟨0x78BB, 0x78BB, 0x0, 0x7, 5, 0, 0, false, false, 8, 0⟩,
   ⟨0x78C0, 0x78C0, 0x0, 0x0, 2, 4, 1, false, false, 1, 0⟩,
   ⟨0x78C1, 0x78C1, 0x0, 0xF, 5, 0, 0, false, false, 8, 0⟩,
   ⟨0x78D0, 0x78D0, 0x0, 0x0, 2, 4, 1, false, false, 1, 0⟩,
   ⟨0x78D1, 0x78D1, 0x0, 0xF, 5, 0, 0, false, false, 8, 0⟩,
   ⟨0x78E0, 0x78E0, 0x0, 0x0, 2, 4, 1, false, false, 1, 0⟩,
   ⟨0x78E1, 0x78FA, 0x0, 0x3F, 5, 0, 0, false, false, 8, 0⟩,
   ⟨0x7900, 0x7900, 0x0, 0x0, 2, 4, 1, false, false, 1, 0⟩,
   ⟨0x7901, 0x7908, 0x0, 0xF, 5, 0, 0, false, false, 8, 0⟩,
   ⟨0x7909, 0x7909, 0x0, 0xF, 5, 0, 0, false, false, 8, 0⟩,
   ⟨0x7910, 0x7910, 0x0, 0x0, 2, 4, 1, false, false, 1, 0⟩,
   ⟨0x7911, 0x7918, 0x0, 0xF, 5, 0, 0, false, false, 8, 0⟩,
   ⟨0x7919, 0x7919, 0x0, 0xF, 5, 0, 0, false, false, 8, 0⟩,
   ⟨0x791A, 0x791A, 0x0, 0x29, 5, 0, 0, false, false, 8, 0⟩,
   ⟨0x791B, 0x791B, 0x0, 0x29, 5, 0, 0, false, false, 8, 0⟩,
   ⟨0x7920, 0x7920, 0x0, 0x0, 2, 4, 1, false, false, 1, 0⟩,
   ⟨0x7921, 0x7921, 0x0, 0xF, 5, 0, 0, false, false, 8, 0⟩,
   ⟨0x7930, 0x7930, 0x0, 0x0, 2, 4, 1, false, false, 1, 0⟩,
   ⟨0x7931, 0x7938, 0x0, 0xF, 5, 0, 0, false, false, 8, 0⟩,
   ⟨0x7939, 0x7939, 0x0, 0xF, 5, 0, 0, false, false, 8, 0⟩,
   ⟨0x7940, 0x7940, 0x0, 0x0, 2, 4, 1, false, false, 1, 0⟩]

/-- DFT_COUNTER to MOD_COUNTER. -/
def objRows7 : List ObjRow :=
  [⟨0x7941, 0x7941, 0x0, 0xF, 5, 0, 0, false, false, 8, 0⟩,
   ⟨0x7950, 0x7950, 0x0, 0x0, 2, 4, 1, false, false, 1, 0⟩,
   ⟨0x7951, 0x7951, 0x0, 0xF, 5, 0, 0, false, false, 8, 0⟩,
   ⟨0x7960, 0x7960, 0x1, 0x6, 5, 0, 0, true, false, 8, 0⟩,
   ⟨0x7970, 0x7970, 0x0, 0x0, 2, 4, 1, false, false, 1, 0⟩,
   ⟨0x7971, 0x7971, 0x0, 0xF, 5, 0, 0, false, false, 8, 0⟩,
   ⟨0x7980, 0x7980, 0x0, 0x0, 2, 4, 1, false, false, 1, 0⟩,
   ⟨0x7981, 0x7981, 0x0, 0xF, 5, 0, 0, false, false, 8, 0⟩,
   ⟨0x7990, 0x7990, 0x0, 0x0, 2, 4, 1, false, false, 1, 0⟩,
   ⟨0x7991, 0x7991, 0x0, 0x7, 5, 0, 0, false, false, 8, 0⟩]

/-- Every object. -/
def objRows : List ObjRow :=
  objRows0 ++ objRows1 ++ objRows2 ++ objRows3 ++ objRows4 ++ objRows5 ++ objRows6 ++ objRows7

end Sys2Proof.Machine
end

