-- ==== Sys2Proof/Machine/Spdm.lean ====
section
/-!
DEFINITION. The SPDM 1.3 responder (R407 to R409). The codes and layouts of SPDM messages are those of DMTF
DSP0274, which the manual names (PRESUMED, log 64).
-/

namespace Sys2Proof.Machine

open Sys2Proof

/-! ### Certificates and measurements (Tables SEC-6A, SEC-7, SEC-8) -/

/-- The vendor root certificate of the image that the management dies run. -/
def State.rootCert (s : State) : List Byte :=
  match s.fw.slot s.fwActive with
  | some img => ((imgComp img 6).map (fun c => slice img c.offset c.length)).getD []
  | none => []

/-- The chain of slot 0: length, the digest of the root, and the three certificates. -/
def State.certChain (s : State) : List Byte :=
  let root := s.rootCert
  let certs := root ++ Config.identityCert ++ s.aliasCert
  toLe 2 (36 + certs.length) ++ [0, 0] ++ sha256 root ++ certs

def partNumber : List Byte := ascii "KL30-M72"

def serialBytes : List Byte := (List.range 16).map Config.moduleSerial

def State.ownedByte (s : State) : Byte := if s.sec.owned then 1 else 0

/-- The device report. -/
def State.deviceReport (s : State) : List Byte :=
  partNumber ++ [0xA1, s.ownedByte] ++ toLe 2 s.ownPod ++ serialBytes ++ toLe 4 s.draft.epoch
    ++ configDigest s.draft.active ++ toLe 8 s.commit.last ++ toLe 4 (viewNumber s.viewRecord)
    ++ (List.range 8).map (fun i => BitVec.ofNat 8 (s.arCounter i)) ++ toLe 4 s.sec.ownerGen
    ++ toLe 4 s.sec.operatorGen ++ (List.range 100).map (fun d => BitVec.ofNat 8 (s.fwDieSlot d))

/-- Value type and value of measurement block `i`. -/
def State.measValue (s : State) (i : Nat) : Nat × List Byte :=
  match i with
  | 1 => (0x00, s.measurement 0)
  | 2 => (0x01, s.measurement 1)
  | 3 => (0x01, s.measurement 2)
  | 4 => (0x02, s.measurement 3)
  | 5 => (0x03, s.measurement 4)
  | 6 => (0x87, toLe 8 (s.arCounter 0))
  | _ => (0x84, s.deviceReport)

/-- A measurement block; bit 7 of the type marks raw form. -/
def State.measBlock (s : State) (i : Nat) : List Byte :=
  let v := s.measValue i
  toLe 1 i ++ [1] ++ toLe 2 (3 + v.2.length) ++ toLe 1 v.1 ++ toLe 2 v.2.length ++ v.2

/-- The measurement summary of a CHALLENGE: none, the immutable ROM alone, or all blocks. -/
def State.measSummary (s : State) (kind : Nat) : List Byte :=
  if kind = 1 then sha256 (s.measBlock 1)
  else if kind = 0xFF then sha256 ((rangeFrom 1 7).flatMap s.measBlock)
  else []

/-! ### Messages -/

def spdmLimit : Nat := 1180

/-- ERROR with its code and data. -/
def spdmError (code : Nat) (data : Byte) : List Byte := [0x13, 0x7F] ++ toLe 1 code ++ [data]

def errInvalid : List Byte := spdmError 0x01 0
def errUnexpected : List Byte := spdmError 0x04 0
def errUnsupported (code : Byte) : List Byte := spdmError 0x07 code
def errVersion : List Byte := spdmError 0x41 0

def isError (r : List Byte) : Bool := r.getD 1 0 == 0x7F

/-- Capabilities of Table SEC-6A. -/
def spdmFlags : Nat := 0x20036

/-- The extended asymmetric algorithm of Table SEC-6A. -/
def extAsym : List Byte := [0x03, 0x00, 0x02, 0x00]

/-- What a signature covers: the prefix of SPDM 1.3, the context and the digest of the messages. -/
def signedBytes (context : String) (messages : List Byte) : List Byte :=
  let c := ascii context
  (ascii "dmtf-spdm-v1.3.*dmtf-spdm-v1.3.*dmtf-spdm-v1.3.*dmtf-spdm-v1.3.*")
    ++ List.replicate (36 - c.length) 0 ++ c ++ sha256 messages

/-- A signature under the alias key (R402), 17,088 bytes. -/
def State.aliasSign (s : State) (context : String) (messages : List Byte) : List Byte :=
  slice (Config.slhSign s.sec.aliasSeed (signedBytes context messages)) 0 17088

/-- A nonce of the responder. -/
def State.spdmNonce (s : State) : List Byte × State :=
  ((List.range 32).map (Config.randomByte s.fresh), { s with fresh := s.fresh + 1 })

def State.conn (s : State) (t : Nat) : Spdm := Tab.read s.spdm Spdm.init t

def State.setConn (s : State) (t : Nat) (c : Spdm) : State := { s with spdm := Tab.write s.spdm t c }

/-- A signature is counted. -/
def State.countSign (s : State) : State := s.count 0x7971 4 1

/-! ### Requests: `p1` and `p2` are the parameters, `b` the bytes after them -/

/-- GET_VERSION begins a connection. -/
def State.spdmVersion (s : State) (t : Nat) (msg : List Byte) : State × List Byte :=
  let r : List Byte := [0x10, 0x04, 0, 0, 0, 1, 0x00, 0x13]
  (s.setConn t { Spdm.init with phase := 1, setup := msg ++ r }, r)

def State.spdmCapabilities (s : State) (t : Nat) (msg : List Byte) : State × List Byte :=
  let c := s.conn t
  let r : List Byte := [0x13, 0x61, 0, 0, 0, Config.spdmTimeExponent, 0, 0] ++ toLe 4 spdmFlags
    ++ toLe 4 spdmLimit ++ toLe 4 Config.spdmMaxMessage
  if c.phase = 0 then (s, errUnexpected)
  else if msg.length < 20 then (s, errInvalid)
  else (s.setConn t { c with phase := 2, setup := c.setup ++ msg ++ r }, r)

/-- The extended algorithms that a request offers, four bytes each. -/
def extOffered (b : List Byte) (n : Nat) : List (List Byte) :=
  (List.range n).map (fun i => slice b (28 + 4 * i) 4)

def State.spdmAlgorithms (s : State) (t : Nat) (msg b : List Byte) : State × List Byte :=
  let c := s.conn t
  let hash := (b.getD 8 0).getLsbD 0
  let meas := (b.getD 2 0).getLsbD 0
  let ext := (extOffered b (b.getD 24 0).toNat).contains extAsym
  let r : List Byte := [0x13, 0x63, 0, 0] ++ toLe 2 40 ++ [1, 0] ++ toLe 4 2 ++ toLe 4 0 ++ toLe 4 1
    ++ List.replicate 11 0 ++ [0, 1, 0, 0, 0] ++ extAsym
  if c.phase < 2 then (s, errUnexpected)
  else if b.length < 28 ∨ leNat (slice b 0 2) ≠ msg.length ∨ !hash ∨ !meas ∨ !ext then (s, errInvalid)
  else (s.setConn t { c with phase := 3, setup := c.setup ++ msg ++ r }, r)

def State.spdmDigests (s : State) (t : Nat) (msg : List Byte) : State × List Byte :=
  let c := s.conn t
  let r : List Byte := [0x13, 0x01, 1, 1] ++ sha256 s.certChain
  if c.phase < 3 then (s, errUnexpected)
  else (s.setConn t { c with certs := c.certs ++ msg ++ r }, r)

/-- Slot 0 only; a portion ends with the chain. -/
def State.spdmCertificate (s : State) (t : Nat) (msg : List Byte) (p1 p2 : Byte) (b : List Byte) :
    State × List Byte :=
  let c := s.conn t
  let chain := s.certChain
  let off := leNat (slice b 0 2)
  let n := min (leNat (slice b 2 2)) (chain.length - off)
  let r : List Byte :=
    if p2.getLsbD 0 then [0x13, 0x02, 0, 0] ++ toLe 2 0 ++ toLe 2 chain.length
    else [0x13, 0x02, 0, 0] ++ toLe 2 n ++ toLe 2 (chain.length - off - n) ++ slice chain off n
  if c.phase < 3 then (s, errUnexpected)
  else if p1.toNat % 16 ≠ 0 ∨ b.length ≠ 4 ∨ chain.length ≤ off then (s, errInvalid)
  else (s.setConn t { c with certs := c.certs ++ msg ++ r }, r)

def State.spdmChallenge (s : State) (t : Nat) (msg : List Byte) (p1 p2 : Byte) (b : List Byte) :
    State × List Byte :=
  let c := s.conn t
  let kind := p2.toNat
  if c.phase < 3 then (s, errUnexpected)
  else if p1 ≠ 0 ∨ b.length ≠ 40 ∨ (kind ≠ 0 ∧ kind ≠ 1 ∧ kind ≠ 0xFF) then (s, errInvalid)
  else
    let n := s.spdmNonce
    let s := n.2
    let r : List Byte := [0x13, 0x03, 0, 1] ++ sha256 s.certChain ++ n.1 ++ s.measSummary kind ++ [0, 0]
      ++ slice b 32 8
    let sig := s.aliasSign "responder-challenge_auth signing" (c.setup ++ c.certs ++ msg ++ r)
    ((s.setConn t { c with certs := [], meas := [] }).countSign, r ++ sig)

/-- R409: one block, all of them, or their number; the nonce of the request is under the signature. -/
def State.spdmMeasurements (s : State) (t : Nat) (msg : List Byte) (p1 p2 : Byte) (b : List Byte) :
    State × List Byte :=
  let c := s.conn t
  let signed := p1.getLsbD 0
  let op := p2.toNat
  let ctx := if signed then 33 else 0
  if c.phase < 3 then (s, errUnexpected)
  else if b.length ≠ ctx + 8 ∨ (7 < op ∧ op ≠ 0xFF) ∨ (signed ∧ b.getD 32 0 ≠ 0) then (s, errInvalid)
  else
    let blocks := if op = 0 then [] else if op = 0xFF then rangeFrom 1 7 else [op]
    let rec_ := blocks.flatMap s.measBlock
    let n := s.spdmNonce
    let s := n.2
    let r : List Byte := [0x13, 0x60, if op = 0 then 7 else 0, 0] ++ toLe 1 blocks.length
      ++ toLe 3 rec_.length ++ rec_ ++ n.1 ++ [0, 0] ++ slice b ctx 8
    let l := c.meas ++ msg ++ r
    if signed then
      let sig := s.aliasSign "responder-measurements signing" (c.setup ++ l)
      ((s.setConn t { c with meas := [] }).countSign, r ++ sig)
    else (s.setConn t { c with meas := l }, r)

/-- A request other than a chunk. -/
def State.spdmPlain (s : State) (t : Nat) (version code p1 p2 : Byte) (b : List Byte) : State × List Byte :=
  let msg := [version, code, p1, p2] ++ b
  if code = 0x84 then s.spdmVersion t msg
  else if version ≠ 0x13 then (s, errVersion)
  else match code.toNat with
    | 0xE1 => s.spdmCapabilities t msg
    | 0xE3 => s.spdmAlgorithms t msg b
    | 0x81 => s.spdmDigests t msg
    | 0x82 => s.spdmCertificate t msg p1 p2 b
    | 0x83 => s.spdmChallenge t msg p1 p2 b
    | 0xE0 => s.spdmMeasurements t msg p1 p2 b
    | _ => (s, errUnsupported code)

/-! ### Chunks -/

/-- A response above 1,180 bytes is kept, and its place taken by LargeResponse with a handle. -/
def State.largeOut (s : State) (t : Nat) (r : List Byte) : State × List Byte :=
  if r.length ≤ spdmLimit then (s, r)
  else
    let c := s.conn t
    let h := c.outHandle + 1
    (s.setConn t { c with chunkOut := r, outSeq := 0, outHandle := h }, spdmError 0x0F 0 ++ [h])

/-- The next chunk of a large response. -/
def State.spdmChunkGet (s : State) (t : Nat) (p2 : Byte) (b : List Byte) : State × List Byte :=
  let c := s.conn t
  let seq := leNat (slice b 0 2)
  let head := if seq = 0 then toLe 4 c.chunkOut.length else []
  let first := spdmLimit - 16
  let per := spdmLimit - 12
  let off := if seq = 0 then 0 else first + per * (seq - 1)
  let n := min (if seq = 0 then first else per) (c.chunkOut.length - off)
  let last := decide (c.chunkOut.length ≤ off + n)
  if c.phase < 3 ∨ c.chunkOut = [] then (s, errUnexpected)
  else if b.length ≠ 2 ∨ p2 ≠ c.outHandle ∨ seq ≠ c.outSeq then (s, errInvalid)
  else
    let r : List Byte := [0x13, 0x06, if last then 1 else 0, p2] ++ toLe 2 seq ++ [0, 0] ++ toLe 4 n ++ head
      ++ slice c.chunkOut off n
    (s.setConn t { c with outSeq := seq + 1, chunkOut := if last then [] else c.chunkOut }, r)

/-- A chunk of a large request; the last one is answered with the response to the whole. -/
def State.spdmChunkSend (s : State) (t : Nat) (p1 p2 : Byte) (b : List Byte) : State × List Byte :=
  let c := s.conn t
  let seq := leNat (slice b 0 2)
  let n := leNat (slice b 4 4)
  let head := if seq = 0 then 12 else 8
  let size := if seq = 0 then leNat (slice b 8 4) else c.inSize
  let img := (if seq = 0 then [] else c.chunkIn) ++ b.drop head
  let last := p1.getLsbD 0
  let ack : List Byte := [0x13, 0x05, 0, p2] ++ toLe 2 seq
  if c.phase < 3 then (s, errUnexpected)
  else if b.length ≠ head + n ∨ (seq ≠ 0 ∧ (seq ≠ c.inSeq ∨ p2 ≠ c.inHandle)) ∨ size < img.length
      ∨ (last ∧ img.length ≠ size) then
    (s.setConn t { c with chunkIn := [], inSeq := 0 }, errInvalid)
  else if !last then
    (s.setConn t { c with chunkIn := img, inSize := size, inSeq := seq + 1, inHandle := p2 }, ack)
  else
    let s := s.setConn t { c with chunkIn := [], inSize := 0, inSeq := 0 }
    let r := s.spdmPlain t (img.getD 0 0) (img.getD 1 0) (img.getD 2 0) (img.getD 3 0) (img.drop 4)
    let o := if r.2.length + 6 ≤ spdmLimit then (r.1, r.2) else r.1.largeOut t r.2
    (o.1, ack ++ o.2)

/-- One request on transport `t`: its response, with requests and errors counted (Table SEC-11). -/
def State.spdmRequest (s : State) (t : Nat) (version code p1 p2 : Byte) (b : List Byte) : State × List Byte :=
  let s := s.count 0x7971 3 1
  let chunk := code = 0x85 ∨ code = 0x86
  let r :=
    if chunk ∧ version ≠ 0x13 then (s, errVersion)
    else if code = 0x85 then s.spdmChunkSend t p1 p2 b
    else if code = 0x86 then s.spdmChunkGet t p2 b
    else
      let r := s.spdmPlain t version code p1 p2 b
      r.1.largeOut t r.2
  let wrong := isError r.2 && r.2.getD 2 0 != 0x0F
  (if wrong then r.1.count 0x7971 5 1 else r.1, r.2)

/-! ### Over MCTP (R407) -/

def transportCode (t : Transport) : Nat :=
  match t with
  | .t1s => 0
  | .mctp => 1
  | .mailbox => 2

/-- MCTP carries messages while the PCIe data link is up (R345). -/
def State.mctpUp (s : State) : Bool := s.power.draftUp && s.host.linkUp

/-- A request as MCTP message type 0x05. Outside a session SPDM travels on no other transport. -/
def State.spdmOver (s : State) (code : Byte) (m : SpdmMsg) : Result :=
  if m.transport = .mctp ∧ s.mctpUp then
    let r := s.spdmRequest 1 m.version code m.param1 m.param2 m.rest
    .next (r.1.emit (.spdm .mctp (r.2.getD 1 0) r.2))
  else .next s

def execGetVersion (m : SpdmMsg) (s : State) : Result := s.spdmOver 0x84 m
def execGetCapabilities (m : SpdmMsg) (s : State) : Result := s.spdmOver 0xE1 m
def execNegotiateAlgorithms (m : SpdmMsg) (s : State) : Result := s.spdmOver 0xE3 m
def execGetDigests (m : SpdmMsg) (s : State) : Result := s.spdmOver 0x81 m
def execGetCertificate (m : SpdmMsg) (s : State) : Result := s.spdmOver 0x82 m
def execChallenge (m : SpdmMsg) (s : State) : Result := s.spdmOver 0x83 m
def execGetMeasurements (m : SpdmMsg) (s : State) : Result := s.spdmOver 0xE0 m
def execChunkSend (m : SpdmMsg) (s : State) : Result := s.spdmOver 0x85 m
def execChunkGet (m : SpdmMsg) (s : State) : Result := s.spdmOver 0x86 m

/-- Any other request. -/
def execSpdmUnsupportedRequest (code : Byte) (m : SpdmMsg) (s : State) : Result := s.spdmOver code m

end Sys2Proof.Machine
end

