-- ==== Sys2Proof/Machine/DraftValues.lean ====
section
/-!
DEFINITION. Reading the Draft (R338 to R343): which objects exist, their meta words and defaults, and the
active value of each object as the state gives it.
-/

namespace Sys2Proof.Machine

open Sys2Proof

/-! ### Objects by name -/

/-- Object 0xIIII.SS. -/
structure ObjId where
  index : Nat
  sub   : Nat
  deriving DecidableEq, Repr

def ObjId.key (o : ObjId) : Nat := objKey o.index o.sub

def idOfKey (k : Nat) : ObjId := { index := k / 256, sub := k % 256 }

def ObjRow.holds (r : ObjRow) (o : ObjId) : Bool :=
  decide (r.iLo ≤ o.index ∧ o.index ≤ r.iHi ∧ r.sLo ≤ o.sub ∧ o.sub ≤ r.sHi)

/-- The row of an object, when it exists. -/
def objRow (o : ObjId) : Option ObjRow := objRows.find? (fun r => r.holds o)

/-- The first object of a row at `o` or after it. -/
def ObjRow.nextFrom (r : ObjRow) (o : ObjId) : Option ObjId :=
  if o.index < r.iLo then some { index := r.iLo, sub := r.sLo }
  else if r.iHi < o.index then none
  else if o.sub < r.sLo then some { index := o.index, sub := r.sLo }
  else if o.sub ≤ r.sHi then some o
  else if o.index < r.iHi then some { index := o.index + 1, sub := r.sLo }
  else none

def ObjId.before (a b : ObjId) : Bool := decide (a.key < b.key)

/-- The first existing object at `o` or after it, with its row. -/
def nextObject (o : ObjId) : Option (ObjId × ObjRow) :=
  objRows.foldl (fun (m : Option (ObjId × ObjRow)) r =>
    match r.nextFrom o, m with
    | none, m => m
    | some x, none => some (x, r)
    | some x, some y => if x.before y.1 then some (x, r) else some y) none

/-- Up to `n` objects from `o` on, in ascending order (R348). -/
def listObjects (o : ObjId) (n : Nat) : List (ObjId × ObjRow) :=
  match n with
  | 0 => []
  | k + 1 =>
    match nextObject o with
    | none => []
    | some x => x :: listObjects (idOfKey (x.1.key + 1)) k

/-! ### Types, access and privileges (Tables DFT-1 to DFT-3) -/

def accRO : Nat := 0
def accRW : Nat := 1
def accRWS : Nat := 2
def accWO : Nat := 3
def accCmd : Nat := 4
def tyBool : Nat := 1
def tyDomain : Nat := 12

def ObjRow.scalar (r : ObjRow) : Bool := decide (r.ty < 10)
def ObjRow.signed (r : ObjRow) : Bool := decide (6 ≤ r.ty ∧ r.ty ≤ 9)

def Role.rank (r : Role) : Nat :=
  match r with
  | .observe => 0
  | .operate => 1
  | .own => 2

/-- A staged copy of the object exists, complete or not. -/
def Draft.holdsStaged (d : Draft) (o : ObjId) : Bool :=
  (Tab.find d.staged o.key).isSome || (Tab.find d.partials o.key).isSome

/-- The meta word. -/
def State.meta (s : State) (o : ObjId) (r : ObjRow) : Nat :=
  r.ty * 2 ^ 28 + r.acc * 2 ^ 25 + r.priv * 2 ^ 23 + (if r.pers then 2 ^ 22 else 0)
    + (if r.bind then 2 ^ 21 else 0) + (if s.draft.holdsStaged o then 2 ^ 20 else 0)

/-! ### Values by chapter -/

/-- The unset bytes of an OCTETS or DIGEST256 object. -/
def zeros (n : Nat) : List Byte := List.replicate n 0

def boolNat (b : Bool) : Nat := if b then 1 else 0

/-- 0x1010 to 0x1012, the census (R14, R31). -/
def State.censusValue (s : State) (o : ObjId) : Nat :=
  if o.index = 0x1010 then s.dieState o.sub
  else if o.index = 0x1011 then
    match o.sub with
    | 1 => countState s 0 26 0
    | 2 => countState s 82 5 0
    | 3 => s.activeHubs.length
    | 4 => s.peruo.sparesLeft
    | _ => s.activeStages
  else if o.sub = 1 then s.t1Served else s.t2Served

def sessionView (d : Draft) (i : Nat) : Nat :=
  match d.sessions[i]? with
  | none => 0
  | some x => x.num.toNat * 2 ^ 32 + x.role.rank * 2 ^ 30 + transportCode x.transport * 2 ^ 28
      + (if d.stagingSess = x.num then 2 ^ 27 else 0)

/-- 0x1100 to 0x1200 (Table DFT-13). -/
def State.draftValue (s : State) (o : ObjId) : Nat :=
  let d := s.draft
  if o.index = 0x1100 then d.mctpEid.toNat
  else if o.index = 0x1102 then
    if o.sub = 1 then 16 else if o.sub = 3 then d.sessions.length else sessionView d (o.sub - 0x10)
  else match o.sub with
    | 1 => d.epoch
    | 3 => d.prevEpoch
    | 5 => (d.pending.map PendingArm.step).getD (2 ^ 64 - 1)
    | 6 => (d.pending.map PendingArm.epoch).getD 0
    | 8 => d.deviceStep
    | 9 => d.stagingSess.toNat
    | _ => d.staged.length + d.partials.length

/-- The active values as a pending stepped ARM would leave them. -/
def Draft.merged (d : Draft) (v : Tab (List Byte)) : Tab (List Byte) := Tab.writeAll d.active v

/-- The digests of 0x1200. -/
def State.digestValue (s : State) (sub : Nat) : List Byte :=
  let d := s.draft
  match sub with
  | 2 => configDigest d.active
  | 4 => if d.prevStep.isSome then configDigest d.prevActive else zeroKey
  | _ =>
    match d.pending with
    | some p => configDigest (d.merged p.values)
    | none => zeroKey

def State.usedT1 (s : State) (n : Nat) : Nat :=
  (s.lease n).t1Bytes + s.pinnedBytes n + 4096 * usedUnits (s.stashOf n).entries false

def State.usedT2 (s : State) (n : Nat) : Nat :=
  (s.lease n).t2Bytes / 65536 * frameCharge + s.ownedCharge n + 4096 * usedUnits (s.stashOf n).entries true

def LeaseState.code (x : LeaseState) : Nat :=
  match x with
  | .free => 0
  | .active => 1
  | .revoked => 2

/-- LEASE_VIEW (Table TIR-7). -/
def State.leaseView (s : State) (n sub : Nat) : Nat :=
  let l := s.lease n
  match sub with
  | 0x01 => l.state.code
  | 0x02 => l.grantSeq
  | 0x03 => l.t1Base
  | 0x04 => l.t1Bytes
  | 0x05 => l.t1Quota
  | 0x06 => l.t2Base
  | 0x07 => l.t2Bytes
  | 0x08 => l.t2Quota
  | 0x09 => l.q1
  | 0x0A => l.q2
  | 0x0B => l.t1Charge
  | 0x0C => if l.state = .free then 0 else s.usedT1 n
  | 0x0D => l.t2Charge
  | 0x0E => if l.state = .free then 0 else s.usedT2 n
  | 0x0F => l.dieMask.toNat
  | 0x10 => l.queues
  | _ => boolNat l.host

def ObjState.code (x : ObjState) : Nat :=
  match x with
  | .residentT2 => 0
  | .promoting => 1
  | .residentT1 => 2
  | .demoting => 3

/-- OBJECT_STATE. -/
def State.objectState (s : State) (j : Nat) : Nat :=
  match Tab.find s.objects j with
  | none => 0
  | some o => o.state.code * 2 ^ 62 + boolNat o.packed * 2 ^ 61 + 2 ^ 60 + o.owner * 2 ^ 50
      + o.pins.length * 2 ^ 40 + s.heldSectors j o

/-- Tier 2 stash entries: what they are charged, and their logical bytes (log 66). -/
def State.stashT2 (s : State) : Nat × Nat :=
  let es := (s.stash.map (fun x => x.2.entries.filter StashEntry.tier2)).flatten
  (4096 * (es.map StashEntry.units).sum, (es.map StashEntry.length).sum)

/-- 0x2800 and 0x2801.03 (Table TIR-7). -/
def State.tierValue (s : State) (o : ObjId) : Nat :=
  if o.index = 0x2801 then codecHeadroom
  else match o.sub with
    | 1 => s.t1Served - s.reserveT1
    | 2 => s.t2Served - codecHeadroom - s.reserveT2
    | 3 => (s.heldLeases.map Lease.t1Charge).sum
    | 4 => (s.heldLeases.map Lease.t2Charge).sum
    | 5 => 512 * (s.extentSectors.1 + (s.objects.map (fun e => s.heldSectors e.1 e.2)).sum) + s.stashT2.1
    | _ => 65536 * s.extentSectors.2
      + (s.objects.map (fun e => s.heldLogical e.1 e.2)).sum + s.stashT2.2

def loomShape (k : Nat) : Nat :=
  let t := shapeTable.getD k (0, 0)
  t.1 * 2 ^ 16 + t.2

/-- LOOM_MODE_NOW of a die. -/
def State.loomModes (s : State) (die : Nat) : Nat :=
  maskOf ((List.range 8).filter (fun l => (s.loom die l).shapeMode))

/-- CREEL_STATE. -/
def State.creelState (s : State) (die r : Nat) : Nat :=
  let x := s.ring die r
  let full := (List.range 16).filter (fun k => slotAt x k == .full || slotAt x k == .faulted)
  if !x.configured then 0
  else x.head * 2 ^ 28 + x.tail * 2 ^ 24 + (x.slots - 1) * 2 ^ 20 + maskOf full * 2 ^ 4 + 1

def CtxState.code (x : CtxState) : Nat :=
  match x with
  | .closed => 0
  | .opened => 1
  | .sealed => 2

/-- TEMPLE_CTX_STATE. -/
def State.ctxValue (s : State) (k : Nat) : Nat :=
  let c := s.ctx k
  unsignedOf 8 c.ls * 2 ^ 56 + c.state.code * 2 ^ 54 + boolNat c.perch * 2 ^ 53 + c.step % 2 ^ 53

def AttachState.code (x : AttachState) : Nat :=
  match x with
  | .attached => 0
  | .detached => 1
  | .lost => 2

/-- 0x4800 to 0x4810 (Table HST-16). -/
def State.hostValue (s : State) (o : ObjId) : Nat :=
  let h := s.host
  if o.index = 0x4800 then
    if o.sub = 2 then h.bar2Size
    else if h.attach = .lost then 0
    else h.gts * 2 ^ 24 + h.width * 2 ^ 16 + boolNat h.cxlUp * 2 + boolNat h.linkUp
  else if o.index = 0x4801 then if o.sub = 1 then h.epoch.toNat else h.attach.code
  else (s.queues.filter (fun e => e.2.state != .free)).length

/-- QUNCERTAIN (Table HST-12). -/
def QCtx.uncertainValue (c : QCtx) : Nat :=
  (match c.uncertain with
   | none => 0
   | some u => u.1.toNat * 2 ^ 48 + u.2.toNat * 2 ^ 32 + 2 ^ 31) + c.held.length

/-- REGION_VIEW. -/
def State.regionView (s : State) (k : Nat) : Nat :=
  match Tab.find s.host.regions k with
  | none => 0
  | some g => boolNat g.enabled * 2 ^ 63 + boolNat g.rd * 2 ^ 62 + boolNat g.wr * 2 ^ 61 + g.lease * 2 ^ 51
      + g.apertures * 2 ^ 38 + g.first * 2 ^ 26

def PeerSt.code (x : PeerSt) : Nat :=
  match x with
  | .absent => 0
  | .member => 1
  | .lost => 2
  | .cfgMismatch => 3
  | .self => 4
  | .excluded => 5

/-- PRU_REGION_VIEW. -/
def State.pruRegionView (s : State) (k : Nat) : Nat :=
  match Tab.find s.peruo.regions k with
  | none => 0
  | some g => boolNat g.registered * 2 ^ 63 + g.perm.toNat * 2 ^ 60 + g.lease * 2 ^ 50 + g.target % 2 ^ 48

/-- GROUP_VIEW. -/
def State.groupView (s : State) (k : Nat) : Nat :=
  match Tab.find s.peruo.groups k with
  | none => 0
  | some g => 2 ^ 63 + boolNat g.podScope * 2 ^ 62 + g.members.length * 2 ^ 48 + g.rank * 2 ^ 32
      + g.nextSeq.toNat

/-- BARRIER_OUTCOME. -/
def State.outcomeBytes (s : State) (k : Nat) : List Byte :=
  match Tab.find s.peruo.outcomes k with
  | none => zeros 24
  | some x => toLe 8 x.step ++ [if x.flag then 1 else 0, 0, 0, 0] ++ toLe 4 x.members ++ toLe 8 x.sum.toNat

/-- POISON_LOG (Table COH-11). -/
def State.poisonEntry (s : State) (k : Nat) : Nat :=
  match Tab.find s.coh.poisonLog k with
  | none => 0
  | some e => e.reason * 2 ^ 56 + e.agent * 2 ^ 48 + 64 * e.line % 2 ^ 48

/-- EVENT_LOG: record SEQ mod 256. -/
def State.eventEntry (s : State) (k : Nat) : List Byte :=
  match Tab.find s.draft.events k with
  | none => zeros 32
  | some e =>
    let n := s.draft.eventNext
    let back := (n + 255 - k) % 256
    e.bytes (n - 1 - back)

/-- 0x6021 to 0x6023 of NAND die `k`. -/
def State.nandValue (s : State) (index k : Nat) : Nat :=
  let n := s.journal.nand k
  if index = 0x6021 then (if n.failed then 2 ^ 31 else 0) + n.good * 2 ^ 16
  else if index = 0x6022 then (n.erases.map Prod.snd).foldl max 0
  else (n.erases.map Prod.snd).sum / poolBlocks

def State.slotVersion (s : State) (k : Nat) : Nat := ((s.fw.slot k).map imgVersion).getD 0

/-- 0x6010 to 0x6051 (Table REC-12). -/
def State.recoveryValue (s : State) (o : ObjId) : Nat :=
  match o.index, o.sub with
  | 0x6010, 1 => s.commit.result.toNat
  | 0x6010, 2 => s.commit.last
  | 0x6010, _ => s.commit.stampDigest.toNat
  | 0x6011, _ => s.commit.restore.toNat
  | 0x6020, 1 => s.journal.tailBytes
  | 0x6020, _ => s.journal.nextSeq
  | 0x6021, k => s.nandValue 0x6021 k
  | 0x6022, k => s.nandValue 0x6022 k
  | 0x6023, k => s.nandValue 0x6023 k
  | 0x6040, k => s.forecast k
  | 0x6050, 4 => s.slotVersion 0
  | 0x6050, _ => s.slotVersion 1
  | _, d => s.fwDieSlot d

/-- 0x7000 to 0x7050 (Tables PWR-6, MOD-12). -/
def State.powerValue (s : State) (o : ObjId) : Nat :=
  let p := s.power
  let m := s.module
  match o.index, o.sub with
  | 0x7000, 1 => p.inputMv
  | 0x7000, 2 => p.inputMa
  | 0x7000, 3 => p.inputW
  | 0x7000, 4 => p.holdupMj
  | 0x7000, _ => p.ibusMv
  | 0x7001, 2 => s.powerLimitNow
  | 0x7001, _ => s.peakLimitNow
  | 0x7002, k => boolNat (p.stageFailed.contains k)
  | 0x7010, 1 => p.startState
  | 0x7010, 2 => p.lastStartMs
  | 0x7010, _ => p.stopCause
  | 0x7030, 1 => p.clockRoot
  | 0x7030, 2 => p.rootLock.toNat
  | 0x7030, _ => p.aCycles
  | 0x7040, _ => unsignedOf 16 p.dieTempMax
  | 0x7041, 1 => unsignedOf 16 m.inletTemp
  | 0x7041, 2 => unsignedOf 16 m.outletTemp
  | 0x7041, 3 => m.flow
  | 0x7041, _ => unsignedOf 16 m.ambient
  | _, _ => m.alerts.toNat

/-- 0x6800 to 0x6810 where scalar (Table SEC-10). -/
def State.trustValue (s : State) (o : ObjId) : Nat :=
  match o.index, o.sub with
  | 0x6800, _ => boolNat s.sec.owned
  | 0x6802, k => s.arCounter k
  | 0x6803, _ => s.sec.checkResult
  | 0x6810, 3 => s.sec.ownerGen
  | _, _ => s.sec.operatorGen

/-- Scalars of 0x5000 to 0x5840 (Tables PRU-11, COH-13). -/
def State.fabricValue (s : State) (o : ObjId) (r : ObjRow) : Nat :=
  let i := o.index
  if i = 0x5000 then if o.sub = 5 then s.ownPod else r.dflt
  else if i = 0x5002 then
    if o.sub = 1 then viewNumber s.viewRecord else (viewDigest s.viewRecord).toNat
  else if i = 0x5003 then (s.lane o.sub).value
  else if 0x5100 ≤ i ∧ i ≤ 0x512F then (s.peerState (256 * (i - 0x5100) + o.sub)).code
  else if 0x5200 ≤ i ∧ i ≤ 0x5203 then s.pruRegionView (256 * (i - 0x5200) + o.sub)
  else if 0x5300 ≤ i ∧ i ≤ 0x530F then s.groupView (256 * (i - 0x5300) + o.sub)
  else if i = 0x5820 then Tab.read s.coh.agentState 0 o.sub
  else if i = 0x5830 then s.coh.poisonNext % 256
  else if i = 0x5831 then s.poisonEntry o.sub
  else if i = 0x5840 then if o.sub = 1 then s.coh.probeAddr.toNat else s.coh.probeEntry.toNat
  else r.dflt

/-- Scalars of 0x2010 to 0x4B0F. -/
def State.coreValue (s : State) (o : ObjId) (r : ObjRow) : Nat :=
  let i := o.index
  if i = 0x2010 then s.coresRetired o.sub
  else if i = 0x2100 then s.serverHarts
  else if i = 0x2400 then s.pprDone o.sub
  else if i = 0x2401 then s.pprLeft o.sub
  else if i = 0x2800 ∨ i = 0x2801 then s.tierValue o
  else if i = 0x2810 then s.leaseReqAt o.sub
  else if i = 0x2811 then s.leaseResult.toNat
  else if 0x2901 ≤ i ∧ i ≤ 0x2CFF then s.leaseView (i - 0x2900) o.sub
  else if 0x2E00 ≤ i ∧ i ≤ 0x2E0F then s.objectState (256 * (i - 0x2E00) + o.sub)
  else if i = 0x3001 then loomShape o.sub
  else if i = 0x3002 then s.loomModes o.sub
  else if 0x3520 ≤ i ∧ i ≤ 0x3539 then s.creelState (i - 0x3520) o.sub
  else if i = 0x3811 then s.ctxValue o.sub
  else if i = 0x3812 then s.templeAlarms
  else if i = 0x4800 ∨ i = 0x4801 ∨ (i = 0x4810 ∧ o.sub = 5) then s.hostValue o
  else if 0x4900 ≤ i ∧ i ≤ 0x49FF then s.qstate (BitVec.ofNat 16 (256 * (i - 0x4900) + o.sub))
  else if 0x4A00 ≤ i ∧ i ≤ 0x4AFF then
    (s.queue (BitVec.ofNat 16 (256 * (i - 0x4A00) + o.sub))).uncertainValue
  else if 0x4B00 ≤ i ∧ i ≤ 0x4B0F then s.regionView (256 * (i - 0x4B00) + o.sub)
  else r.dflt

/-- A scalar that is not RWS. -/
def State.scalarValue (s : State) (o : ObjId) (r : ObjRow) : Nat :=
  let i := o.index
  if i = 0x1010 ∨ i = 0x1011 ∨ i = 0x1012 then s.censusValue o
  else if i = 0x1100 ∨ i = 0x1102 ∨ i = 0x1200 then s.draftValue o
  else if i < 0x2000 then r.dflt
  else if i < 0x5000 then s.coreValue o r
  else if i < 0x6000 then s.fabricValue o r
  else if i < 0x6800 then s.recoveryValue o
  else if i < 0x7000 then s.trustValue o
  else if i < 0x7800 then s.powerValue o
  else if i = 0x7800 then s.draft.eventNext
  else if i = 0x7960 then Tab.read s.journal.lifetime 0 o.sub
  else s.counter i o.sub

/-- OCTETS, DIGEST256 and DOMAIN objects that are not RWS. -/
def State.bytesValue (s : State) (o : ObjId) : List Byte :=
  match o.index, o.sub with
  | 0x1000, 1 => partNumber
  | 0x1000, _ => serialBytes
  | 0x1100, _ => (List.range 6).map Config.mgmtMac
  | 0x1200, 0x11 => canonicalImage s.draft.active
  | 0x1200, k => s.digestValue k
  | 0x5400, k => s.outcomeBytes k
  | 0x6060, _ => s.commit.lastBolt
  | 0x6800, 2 => vendorKey
  | 0x6800, 3 => identityPk
  | 0x6800, _ => s.sec.aliasPk
  | 0x6801, k => s.measurement k
  | 0x6820, 1 => Config.identityCert
  | 0x6820, _ => s.aliasCert
  | _, k => s.eventEntry k

/-- The active value of an object that can be read. -/
def State.value (s : State) (o : ObjId) (r : ObjRow) : List Byte :=
  if r.acc = accRWS then
    if r.ty = tyDomain then s.viewRecord else s.objBytes o.index o.sub (toLe r.len r.dflt)
  else if r.scalar then toLe r.len (s.scalarValue o r)
  else s.bytesValue o

/-! ### Defaults (R342) -/

/-- DEFAULT of DESCRIBE: a scalar's, in 64 bits, with the sign of a signed one; else 0. -/
def defaultOf (o : ObjId) (r : ObjRow) : Nat :=
  if !r.scalar ∨ r.acc = accCmd ∨ r.acc = accWO then 0
  else if o.index = 0x1010 then Tab.read resetDies 0 o.sub
  else if o.index = 0x3001 then loomShape o.sub
  else if o.index = 0x5002 then
    if o.sub = 2 then (viewDigest (List.replicate 8 0 ++ oneBit 1536 0)).toNat else 0
  else if o.index = 0x2401 then Config.pprLeft o.sub
  else if o.index = 0x6050 ∧ o.sub = 4 then imgVersion Config.factoryImage
  else if r.signed then unsignedOf 64 (signedOf (8 * r.len) r.dflt)
  else r.dflt

end Sys2Proof.Machine
end

