-- ==== Sys2Proof/Machine/Arm.lean ====
section
/-!
DEFINITION. Staging and ARM (R355 to R360): the staging set, validation, immediate and stepped ARMs, the
switch at QCTL_STEP, and what a new configuration changes at once.
-/

namespace Sys2Proof.Machine

open Sys2Proof

/-! ### The staging set (R355) -/

/-- The set is emptied and let go. -/
def Draft.emptySet (d : Draft) : Draft := { d with staged := [], partials := [], stagingSess := 0 }

/-- A session may stage: the set is its own, or free for it to claim. -/
def Draft.mayStage (d : Draft) (num : BitVec 32) : Bool := d.stagingSess == 0 || d.stagingSess == num

/-- A whole staged copy. -/
def Draft.stage (d : Draft) (num : BitVec 32) (k : Nat) (v : List Byte) : Draft :=
  { d with staged := Tab.write d.staged k v, partials := Tab.remove d.partials k, stagingSess := num }

/-- RWS objects other than VIEW_STAGED, with their defaults. -/
def defaultSet : List (Nat × List Byte) :=
  (objRows.filter (fun r => r.acc == accRWS && r.ty != tyDomain)).flatMap (fun r =>
    (rangeFrom r.iLo (r.iHi + 1 - r.iLo)).flatMap (fun i =>
      (rangeFrom r.sLo (r.sHi + 1 - r.sLo)).map (fun x => (objKey i x, toLe r.len r.dflt))))

/-- CONFIG_DEFAULTS for a session. -/
def State.configDefaults (s : State) (num : BitVec 32) : State × DapResult :=
  if !s.draft.mayStage num then (s, .stagingBusy)
  else ({ s with draft := defaultSet.foldl (fun d e => d.stage num e.1 e.2) s.draft }, .ok)

def execConfigDefaults (session : BitVec 32) (s : State) : Result :=
  s.onCmd (fun s =>
    if s.draft.sessions.any (fun x => x.num == session) then s.configDefaults session else (s, .privilege))

/-! ### Rules of the objects, in the state `t` that the set would leave -/

/-- Device memory: tier 1, tier 2 or an object window. -/
def inDeviceMemory (a : Nat) : Bool :=
  match spaceOf a with
  | .tier1 | .tier2 | .object _ => true
  | _ => false

def between (lo n hi : Nat) : Bool := decide (lo ≤ n ∧ n ≤ hi)

/-- MIRROR_BUDDY and MIRROR_WARD (Table REC-12). -/
def State.mirrorOk (t : State) (n : Nat) : Bool :=
  n == 0xFF || (decide (n < domainSize t) && n != ownDevice t && domainSize t != 1)

/-- A view record that may be armed over the one in force (R315). -/
def State.viewOk (s t : State) (v : List Byte) : Bool :=
  v.length == 1544 && decide (viewNumber s.viewRecord < viewNumber v) && viewHas v t.ownPod

/-- An object's own rule for its value `v`, with n the number it spells: rules of indices up to 0x4FFF. -/
def State.lowRule (t : State) (index sub : Nat) (v : List Byte) : Bool :=
  let n := leNat v
  match index, sub with
  | 0x1100, 2 => n != 0
  | 0x1101, 2 => n != 0
  | 0x1102, 2 => between 10 n 86400
  | 0x2802, 1 => between 1 n 10000
  | 0x2802, 2 => between 1 n 1000
  | 0x3000, 1 => between 0 n 1
  | 0x3300, 5 => between 16 n 1024
  | 0x3402, 1 => between 0 n 1000000
  | 0x3403, 1 => between 256 n 16777216
  | 0x3403, 2 => n != 0
  | 0x3500, 3 => between 1 n 256
  | 0x3801, 1 => between 1 n 2
  | 0x3802, 4 => between 1 n 1000000
  | 0x3803, 1 => between 0 n 2
  | 0x3803, 2 => between 0 n 2
  | 0x3803, 4 => n != 0
  | 0x3804, 1 => between 16 n 4096
  | 0x3810, 2 => decide (n ≤ 65536 ∧ t.obj 0x3810 1 0 + n ≤ 65536)
  | 0x4000, 1 => n % 256 == 0 && inDeviceMemory n
  | 0x4000, 2 => between 0 n 1048576
  | 0x4811, 1 => between 50 n 10000
  | 0x4811, 3 => between 1 n 1024
  | 0x4840, _ => leNat (slice v 0 8) % 4096 == 0 && leNat (slice v 8 8) % 4096 == 0
  | _, _ => true

/-- Rules of indices from 0x5000 on. -/
def State.highRule (t : State) (index sub : Nat) (v : List Byte) : Bool :=
  let n := leNat v
  match index, sub with
  | 0x5000, 2 => n == 1 || between 16 n 64
  | 0x5000, 3 => between 0 n 191
  | 0x5000, 4 => decide (n < domainSize t)
  | 0x5000, 6 => between 0 n 2
  | 0x5001, 1 => between 100 n 1000000
  | 0x5001, 2 => between 2 n 32
  | 0x5500, 1 => between 0 n 127
  | 0x5500, 3 => (v.getD 5 0) == 0 && (v.getD 4 0) &&& 0x3F == 0
  | 0x5500, 5 => between 1 n 16
  | 0x5500, 6 => between 20 n 100000
  | 0x5500, 7 => between 16 n 4096
  | 0x5801, 1 => between 0 n 2
  | 0x5801, 2 => between 1 n 15
  | 0x5810, 1 => between 10 n 10000
  | 0x5811, 1 => between 100 n 100000
  | 0x6000, _ => t.mirrorOk n
  | 0x6020, 3 => between 64 n 16384
  | 0x6030, 1 => n != 0
  | 0x7001, 1 => between 3000 n 7800
  | 0x7040, 2 => between 85 n 105
  | 0x7050, 2 => !bitOf n 0 && !bitOf n 7
  | _, _ => true

/-- Objects that change together (R149, R197): the other one of a pair. -/
def partner (o : ObjId) : Option ObjId :=
  match o.index, o.sub with
  | 0x3810, 1 => some { index := 0x3810, sub := 2 }
  | 0x3810, 2 => some { index := 0x3810, sub := 1 }
  | 0x4000, 1 => some { index := 0x4000, sub := 2 }
  | 0x4000, 2 => some { index := 0x4000, sub := 1 }
  | _, _ => none

/-- R200, in the values of `t`. -/
def State.scalesOk (t : State) : Bool :=
  let f := fun (sub d : Nat) => signedOf 8 (t.obj 0x3802 sub d)
  decide (f 2 224 ≤ f 1 16 ∧ f 1 16 ≤ f 3 40)

/-- MIRROR_BUDDY and MIRROR_WARD stay inside the domain of `t` where they are not staged themselves: they
name another device below its size, and none when it is solitary (R26, R29, R367). -/
def State.mirrorsStay (s t : State) : Bool :=
  [1, 2].all (fun sub =>
    (Tab.find s.draft.staged (objKey 0x6000 sub)).isSome || t.mirrorOk (t.obj 0x6000 sub 0xFF))

/-- A rule between objects holds for the staged object `o`: R149 and R197, R200, and for DOMAIN_SIZE and
DOMAIN_DEVICE that the device and its mirrors lie in the domain. -/
def State.pairRule (s t : State) (o : ObjId) : Bool :=
  let alone := match partner o with
    | none => false
    | some p => (Tab.find s.draft.staged o.key).isSome && (Tab.find s.draft.staged p.key).isNone
  let same := s.obj o.index o.sub 0 == t.obj o.index o.sub 0
  let scale := o.index != 0x3802 || 3 < o.sub || t.scalesOk
  let domain := o.index != 0x5000 || (o.sub != 2 && o.sub != 4)
    || (decide (t.obj 0x5000 4 0 < t.obj 0x5000 2 1) && s.mirrorsStay t)
  (!alone || same) && scale && domain

/-- R234 under the reserves of `t`. -/
def State.ledgerOk (t : State) (two : Bool) : Bool := t.tierFits two

/-- The reason why object `o` fails, in the order 5, 4, 1, 2, 3. -/
def State.armFault (s t : State) (stepped : Bool) (o : ObjId) (r : ObjRow) : Option Nat :=
  let staged := (Tab.find s.draft.staged o.key).isSome
  let reserve := o.index == 0x2801 && staged
  let v := t.value o r
  let own := if r.ty = tyDomain then !staged || s.viewOk t ((Tab.find s.draft.staged o.key).getD [])
    else if o.index < 0x5000 then t.lowRule o.index o.sub v else t.highRule o.index o.sub v
  if (Tab.find s.draft.partials o.key).isSome then some 5
  else if stepped && reserve then some 4
  else if !own then some 1
  else if !s.pairRule t o then some 2
  else if reserve && !t.ledgerOk (o.sub == 2) then some 3
  else none

/-- The objects that validation looks at, ascending. -/
def Draft.checked (d : Draft) : List Nat :=
  (Tab.keys d.staged ++ Tab.keys d.partials).foldl insertNat []

/-- The state with the staged values in force. -/
def State.withStaged (s : State) : State :=
  { s with draft := { s.draft with active := s.draft.merged s.draft.staged } }

/-- The first failing object of the set and its reason (R356). -/
def State.firstFault (s : State) (stepped : Bool) : Option (ObjId × Nat) :=
  let t := s.withStaged
  s.draft.checked.findSome? (fun k =>
    let o := idOfKey k
    match objRow o with
    | none => none
    | some r => (s.armFault t stepped o r).map (fun n => (o, n)))

/-! ### A new configuration comes into force -/

/-- The role of a lane under the configuration of `s`: its far end, or its port. -/
def State.laneUse (s : State) (n : Nat) : Option (Nat × Nat) × Bool :=
  match laneRole n with
  | .domain j => (domainLanePeer (domainSize s) (ownDevice s) j, false)
  | _ => (none, s.ethLane n)

/-- Lanes whose use has changed leave it and train anew (log 67). -/
def State.reuseLanes (s old : State) : State :=
  (List.range 128).foldl (fun (s : State) n =>
    let x := s.lane n
    if s.laneUse n = old.laneUse n ∨ x.st = .failed ∨ x.replaced ≠ 0xFF then s
    else (s.setLane n { Lane.init with st := s.laneRest n, recs := x.recs }).moveRecs n) s

/-- A new view resets every peer state (Table PRU-5), and HELLO is exchanged again before held records. -/
def State.newView (s : State) : State :=
  let ps := (s.peruo.heldRecs.map HeldRec.peer).foldl insertNat []
  let s : State := { s with peruo := { s.peruo with peers := [], greeted := [], helloOut := [] } }
  ps.foldl (fun (s : State) p => s.sendHello p) s

/-- What follows at once from values that have come into force over those of `old`. -/
def State.reconfigured (s old : State) : State :=
  let s := s.reuseLanes old
  let s := if s.viewRecord = old.viewRecord then s else s.newView
  s.driveAlert

/-! ### ARM (R356 to R360) -/

/-- The body of an ARM response. -/
def armBody (epoch : Nat) (digest : List Byte) (f : Option (ObjId × Nat)) : List Byte :=
  toLe 4 epoch ++ slice digest 0 8 ++
    (match f with
     | none => zeros 4
     | some x => toLe 2 x.1.index ++ toLe 1 x.1.sub ++ toLe 1 x.2)

/-- The pair in force, as a response body gives it. -/
def State.armNow (s : State) (f : Option (ObjId × Nat)) : List Byte :=
  armBody s.draft.epoch (configDigest s.draft.active) f

/-- An ARM record (log 40). -/
def State.armRecord (s : State) (flags : Byte) (epoch step : Nat) (v : Tab (List Byte)) : State :=
  s.record 0x02 flags (toLe 4 epoch ++ toLe 8 step ++ encodeValues v)

/-- The epoch that an accepted ARM sets (R359). -/
def nextEpoch (epoch req : Nat) : Nat := max (epoch + 1) req

/-- A queue has a step in force below the step of the last switch (R358). -/
def State.stepsBehind (s : State) : Bool :=
  match s.draft.prevStep with
  | none => false
  | some k => s.queues.any (fun e => e.2.state != .free && decide (e.2.step < k))

/-- The end of an ARM: its result, its body, and the state. -/
abbrev ArmEnd := DapResult × List Byte × State

def State.armStop (s : State) (r : DapResult) : ArmEnd := (r, s.armNow none, s)

/-- Validation, then `f` with the new epoch. -/
def State.armChecked (s : State) (stepped : Bool) (req : Nat) (f : State → Nat → ArmEnd) : ArmEnd :=
  if s.draft.epoch = 0xFFFFFFFF then s.armStop .epochExhausted
  else match s.firstFault stepped with
    | some x => (.armRefused, s.armNow (some x), s.count 0x7941 0xC 1)
    | none =>
      if !s.journalUp then s.armStop .refused
      else f (s.count 0x7941 0xB 1) (nextEpoch s.draft.epoch req)

/-- ARM without AT_STEP. -/
def State.armAtOnce (s : State) (req : Nat) : ArmEnd :=
  if s.draft.pending.isSome then s.armStop .armPending
  else s.armChecked false req (fun s e =>
    let t := (s.armRecord 0 e (2 ^ 64 - 1) s.draft.staged)
    let d := { t.draft with active := t.draft.merged t.draft.staged, epoch := e }
    let t := ({ t with draft := d.emptySet } : State).reconfigured s
    (.ok, t.armNow none, t))

/-- ARM with AT_STEP. -/
def State.armStepped (s : State) (by_ : BitVec 32) (req step : Nat) : ArmEnd :=
  if step ≤ s.draft.deviceStep then s.armStop .stepPassed
  else if s.draft.pending.isSome ∨ s.stepsBehind then s.armStop .armPending
  else s.armChecked true req (fun s e =>
    let v := s.draft.staged
    let t := s.armRecord 1 e step v
    let d := { t.draft with pending := some { byWhom := by_, step := step, epoch := e, values := v } }
    (.ok, armBody e (configDigest (d.merged v)) none, { t with draft := d.emptySet }))

/-- ARM with CANCEL, of a session with the role `role`. -/
def State.armCancel (s : State) (num : BitVec 32) (role : Role) : ArmEnd :=
  match s.draft.pending with
  | none => s.armStop .refused
  | some p =>
    if role ≠ .own ∧ p.byWhom ≠ num then s.armStop .privilege
    else if !s.journalUp then s.armStop .refused
    else
      let t := s.armRecord 2 s.draft.epoch p.step []
      let t := { t with draft := { t.draft with pending := none } }
      (.ok, t.armNow none, t)

/-- An ARM message of session `num`: CANCEL, or an ARM that the session may issue (R356). -/
def State.armOf (s : State) (num : BitVec 32) (role : Role) (atStep cancel : Bool) (req step : Nat) : ArmEnd :=
  let d := s.draft
  if cancel then s.armCancel num role
  else if !(d.stagingSess == num || (d.stagingSess == 0 && role == .own)) then s.armStop .privilege
  else if atStep then s.armStepped num req step
  else s.armAtOnce req

/-! ### The switch (R358) -/

/-- A QCTL_STEP to `step` carries DEVICE_STEP to the step of the pending ARM. -/
def State.switchDue (s : State) (step : Nat) : Option PendingArm :=
  match s.draft.pending with
  | none => none
  | some p => if p.step ≤ max s.draft.deviceStep step then some p else none

/-- The pending pair comes into force, and the one in force becomes the previous one. -/
def State.switchTo (s : State) (p : PendingArm) : State :=
  let t := s.record 0x03 0 (toLe 4 p.epoch ++ toLe 8 p.step)
  let d := t.draft
  let d := { d with prevActive := d.active, prevEpoch := d.epoch, prevStep := some p.step
                    active := d.merged p.values, epoch := p.epoch, pending := none }
  (({ t with draft := d } : State).reconfigured s).count 0x7941 0xD 1

/-- QCTL_STEP sets the step of queue `q`, and DEVICE_STEP where it is higher. -/
def State.setStep (s : State) (q : BitVec 16) (step : Nat) : State :=
  let s := match s.switchDue step with
    | none => s
    | some p => s.switchTo p
  let s := s.setQueue q { s.queue q with step := step }
  { s with draft := { s.draft with deviceStep := max s.draft.deviceStep step } }

/-- QCTL_STEP (R296). It waits while a switch that it brings about cannot be journaled. -/
def execQctlStep (d : Desc) (s : State) : Result :=
  let step := fieldOf d.body 16 8
  if (s.switchDue step).isSome && !s.journalUp then .next s
  else s.onDesc d 0x01 (fun s =>
    if !fieldZero d.body 24 60 then s.finish d badField
    else s.runNow d 0x01 (fun s => (s.setStep d.queue step, doneOk)))

end Sys2Proof.Machine
end

