-- ==== Sys2Proof/Machine/Backward.lean ====
section
/-!
DEFINITION. BWD_PICK (R125 to R128) and block-wise attention recompute (R141 to R143).
-/

namespace Sys2Proof.Machine

open Sys2Proof

/-! ### Body and record (Tables BWD-3, BWD-4) -/

structure AttnF where
  opfIn   : Nat
  opfStat : Nat
  opfOut  : Nat
  es      : Nat
  ep      : Nat
  edp     : Nat
  eds     : Nat
  mask    : Nat
  causal  : Bool
  bq      : Nat
  bk      : Nat
  qOff    : Nat
  kOff    : Nat
  ref     : Nat
  rsvd    : Bool
  deriving DecidableEq, Repr

def attnF (b : BitVec 352) : AttnF :=
  { opfIn := fieldOf b 16 1, opfStat := fieldOf b 17 1, opfOut := fieldOf b 18 1,
    es := fieldOf b 19 1, ep := fieldOf b 20 1, edp := fieldOf b 21 1, eds := fieldOf b 22 1,
    mask := fieldOf b 23 1, causal := bitOf (fieldOf b 24 1) 7, bq := fieldOf b 26 2,
    bk := fieldOf b 28 2, qOff := fieldOf b 30 4, kOff := fieldOf b 34 4, ref := fieldOf b 38 6,
    rsvd := fieldBits b 24 6 0 == 0 && fieldOf b 25 1 == 0 && fieldZero b 44 60 }

/-- Table BWD-4. -/
structure AttnRec where
  q     : Nat
  k     : Nat
  v     : Nat
  dO    : Nat
  m     : Nat
  r     : Nat
  dd    : Nat
  dq    : Nat
  dk    : Nat
  dv    : Nat
  curve : Nat
  rsvd  : Bool
  deriving DecidableEq, Repr

def State.readAttn (s : State) (a : Nat) : AttnRec :=
  let f := fun i => s.natAt (a + i) 6
  { q := f 0, k := f 6, v := f 12, dO := f 18, m := f 24, r := f 30, dd := f 36, dq := f 42,
    dk := f 48, dv := f 54, curve := f 60, rsvd := s.natAt (a + 66) 30 == 0 }

def blockSize (n : Nat) : Bool := n == 64 || n == 128 || n == 256

/-- The checks of the descriptor's own fields (R143, R195). -/
def attnFieldsOk (f : AttnF) (cfg : NumCfg) : Bool :=
  match decodeOpf f.opfIn, decodeOpf f.opfStat, decodeOpf f.opfOut with
  | some i, some _, some o =>
    (i.fmt == .sk16 || i.fmt == .sk8) && o.fmt == .acc64 && !cfg.tabby
      && blockSize f.bq && blockSize f.bk && f.mask != 0 && f.rsvd
      && [f.es, f.ep, f.edp, f.eds].all (fun e => e != 0x80 && e != 0x7F)
  | _, _, _ => false

/-- Head widths of R143. -/
def headOk (f : Fmt) (d : Nat) : Bool := d == 64 || d == 128 || (f == .sk8 && d == 256)

/-- An output image lies in die store or in tier 1 (R143). -/
def imageHere (die a n : Nat) : Bool := inDieStore die a n || decide (a + n ≤ t1Size)

/-- DETAIL of a BWD_ATTN: rows of the dQ image; the engine bits are not stated for a set of looms and
are a free value (log 31). -/
def State.attnOutcm (s : State) (st : Byte) (row : Nat) : State × Outcm :=
  let r := s.draw
  (r.2, outcm st (r.1 % 16 * 2 ^ 28 + row) 0)

/-! ### Values (R141) -/

/-- RNE in fixed-scale mode to SK16 at exponent `e`: the element and whether it saturated. -/
def fixedElem (e : Int) (x : XV) : Elem × Bool :=
  match x with
  | .nar => (.nar, false)
  | .num m k =>
    let q := if e ≤ k then m * 2 ^ (k - e).toNat else roundEven m (e - k).toNat
    let v := saturate Fmt.sk16.max q
    (.val v, v != q)

def fixedValue (e : Int) (x : Elem) : XV := valueOf (.exp e) x

/-- The operands of a BWD_ATTN. -/
structure AttnEnv where
  f     : AttnF
  q     : View
  k     : View
  v     : View
  dO    : View
  m     : View
  r     : View
  dd    : View
  curve : Curve

/-- A pair takes part (R141). -/
def AttnEnv.open (a : AttnEnv) (i j : Nat) : Bool :=
  !a.f.causal || decide (a.f.kOff + j ≤ a.f.qOff + i)

/-- A row product of two views over their columns as a reduction group. -/
def rowDot (x y : View) (i j : Nat) : XV :=
  (groupOf false ((List.range x.cols).map (fun c =>
    prodTerm 8 (x.scale i c) (y.scale j c) (x.elem i c) (y.elem j c)))).1

/-- P and dS of one pair, with how many of the four requantizations saturated (R141). -/
def AttnEnv.pair (a : AttnEnv) (i j : Nat) : Elem × Elem × Nat :=
  let e := fun (b : Nat) => signedOf 8 b
  let sS := fixedElem (e a.f.es) (rowDot a.q a.k i j)
  let c := (curveAt a.curve (XV.sub (fixedValue (e a.f.es) sS.1) (a.m.value i 0))).1
  let p := fixedElem (e a.f.ep) (XV.mul c (a.r.value i 0))
  let dp := fixedElem (e a.f.edp) (rowDot a.dO a.v i j)
  let ds := fixedElem (e a.f.eds)
    (XV.mul (fixedValue (e a.f.ep) p.1) (XV.sub (fixedValue (e a.f.edp) dp.1) (a.dd.value i 0)))
  (p.1, ds.1, ([sS.2, p.2, dp.2, ds.2].filter id).length)

/-- The three gradient images. -/
inductive AttnOut where
  | dQ | dK | dV
  deriving DecidableEq, Repr

/-- The terms of one output element (R142): `ps` holds the pairs row by row. -/
def AttnEnv.terms (a : AttnEnv) (ps : List (List (Elem × Elem × Nat))) (o : AttnOut) (row col : Nat) :
    List Term :=
  let at_ := fun (i j : Nat) => (ps.getD i []).getD j (.val 0, .val 0, 0)
  let ds : Scale := .exp (signedOf 8 a.f.eds)
  let pp : Scale := .exp (signedOf 8 a.f.ep)
  match o with
  | .dQ => ((List.range a.k.rows).filter (fun j => a.open row j)).map (fun j =>
      prodTerm 0 ds (a.k.scale j col) (at_ row j).2.1 (a.k.elem j col))
  | .dK => ((List.range a.q.rows).filter (fun i => a.open i row)).map (fun i =>
      prodTerm 0 ds (a.q.scale i col) (at_ i row).2.1 (a.q.elem i col))
  | .dV => ((List.range a.q.rows).filter (fun i => a.open i row)).map (fun i =>
      prodTerm 0 pp (a.dO.scale i col) (at_ i row).1 (a.dO.elem i col))

/-- One output skein: its elements are aligned at the largest group maximum in it (R142). -/
def attnSkein (ts : List (List Term)) : OutSkein × FmtCounts :=
  let base := (ts.map groupMax).foldl optMax none
  let b := base.getD 0
  let sums := ts.map (fun t => (t.any Term.nar,
    t.foldl (fun (acc : Int) (x : Term) => match x.key with
      | some k => acc + shiftFloor x.v (k - b + 8)
      | none => acc) 0))
  let zero_ := sums.all (fun x => x.1 || x.2 == 0)
  accSkeinAt (sums.map (fun x => if x.1 then XV.nar else XV.num x.2 (b - 8)))
    (if zero_ then none else some (b - 8))

/-- The skeins of one image that lie wholly below row `limit`. -/
def AttnEnv.image (a : AttnEnv) (ps : List (List (Elem × Elem × Nat))) (o : AttnOut) (p : OutPlane)
    (limit : Nat) : SkeinOut × FmtCounts :=
  let g := p.opf.grid p.rows p.cols
  let places := ((List.range g.1).map (fun i => (List.range g.2).map (fun j => (i, j)))).flatten
  let keep := places.filter (fun ij =>
    (skeinPlaces p.opf p.rows p.cols ij.1 ij.2).all (fun rc => decide (rc.1 < limit)))
  keep.foldl (fun acc ij =>
    let r := attnSkein ((skeinPlaces p.opf p.rows p.cols ij.1 ij.2).map (fun rc =>
      a.terms ps o rc.1 rc.2))
    (acc.1 ++ [(ij, r.1)], acc.2.add r.2)) ([], FmtCounts.zero)

/-- A pair draws on a poisoned line of Q, K, V, dO, m, r or D. -/
def AttnEnv.pairBad (a : AttnEnv) (i j : Nat) : Bool :=
  a.open i j && (a.q.rowPoisoned i || a.k.rowPoisoned j || a.v.rowPoisoned j || a.dO.rowPoisoned i
    || a.m.rowPoisoned i || a.r.rowPoisoned i || a.dd.rowPoisoned i)

/-- The first row of an image that draws on a poisoned line. -/
def AttnEnv.firstBad (a : AttnEnv) (o : AttnOut) : Option Nat :=
  match o with
  | .dQ => firstRow a.q.rows (fun i => (List.range a.k.rows).any (fun j => a.pairBad i j))
  | _ => firstRow a.k.rows (fun j => (List.range a.q.rows).any (fun i => a.pairBad i j))

/-- Blocks that run and blocks that are wholly masked (R141). -/
def AttnEnv.blocks (a : AttnEnv) : Nat × Nat :=
  let all := ((List.range (ceilDiv a.q.rows a.f.bq)).map (fun i =>
    (List.range (ceilDiv a.k.rows a.f.bk)).map (fun j => (i, j)))).flatten
  let runs := all.filter (fun b =>
    let lastQ := min a.q.rows ((b.1 + 1) * a.f.bq) - 1
    a.open lastQ (b.2 * a.f.bk))
  (runs.length, all.length - runs.length)

/-- Runs a checked BWD_ATTN on `die`. -/
def State.runAttn (s : State) (d : Desc) (die : Nat) (f : AttnF) (r : AttnRec) (oi os oo : Opf) :
    State × Outcm :=
  let cfg := s.numCfg d.queue
  let view := fun (o : Opf) (a : Nat) => s.recView (s.readRec a) o
  let env : AttnEnv :=
    { f := f, q := view oi r.q, k := view oi r.k, v := view oi r.v, dO := view oi r.dO, m := view os r.m,
      r := view os r.r, dd := view os r.dd, curve := s.readCurve r.curve }
  let scaleBad := [r.q, r.k, r.v, r.dO].any (fun a => s.scalePoisoned (s.readRec a) oi)
    || [r.m, r.r, r.dd].any (fun a => s.scalePoisoned (s.readRec a) os)
    || s.anyPoison r.curve (16 + 2 * env.curve.knots)
  if scaleBad then s.attnOutcm stPoisonSrc 0xFFFFFFF
  else
    let ps := (List.range env.q.rows).map (fun i => (List.range env.k.rows).map (fun j =>
      if env.open i j then env.pair i j else (.val 0, .val 0, 0)))
    let sat := ((ps.map (fun row => (row.map (fun x => x.2.2)).sum))).sum
    let plane := fun (a : Nat) =>
      let rc := s.readRec a
      ({ rcd := rc, opf := oo, rows := rc.rows, cols := rc.cols } : OutPlane)
    let badQ := env.firstBad .dQ
    let badK := env.firstBad .dK
    let outs := [(AttnOut.dQ, plane r.dq, badQ), (AttnOut.dK, plane r.dk, badK),
      (AttnOut.dV, plane r.dv, badK)]
    let imgs := outs.map (fun o =>
      (o.1, o.2.1, env.image ps o.1 o.2.1 (o.2.2.getD o.2.1.rows)))
    let s := imgs.foldl (fun (s : State) x => (s.writeSkeins x.2.1 x.2.2.1).countWatched d.queue cfg.step
      x.2.2.2) s
    let s := s.countWatched d.queue cfg.step { FmtCounts.zero with sat := sat }
    let b := env.blocks
    let s := (s.count (0x78A1 + die) 8 b.1).count (0x78A1 + die) 9 b.2
    let narRow := imgs.foldl (fun (m : Option (Option Nat)) x =>
      match firstNarRow x.2.1 x.2.2.1 with
      | some i => if x.1 = .dQ then some (some i) else (match m with | some y => some y | none => some none)
      | none => m) none
    match badQ, narRow with
    | some i, _ => s.attnOutcm stPoisonSrc i
    | none, some (some i) => s.attnOutcm stNarOut i
    | none, some none => s.attnOutcm stNarOut 0xFFFFFFF
    | none, none => (s, doneOk)

/-- A record names a plain plane of the given shape in the die store. -/
def State.attnPlane (s : State) (die a rows cols : Nat) (o : Opf) : Bool :=
  let r := s.readRec a
  recAddrOk die a && r.rsvd && r.source == 0 && r.rows == rows && r.cols == cols
    && r.scaleHere die o && r.mantHere die o.fmt

/-- An output record: die store or tier 1. -/
def State.attnImage (s : State) (die a rows cols : Nat) (o : Opf) : Bool :=
  let r := s.readRec a
  recAddrOk die a && r.rsvd && r.source == 0 && r.rows == rows && r.cols == cols
    && imageHere die r.scale (r.scaleExtent o) && imageHere die r.mant (r.mantExtent o.fmt)
    && (decide (r.rows ≤ 1) || decide (o.fmt.rowBytes r.cols ≤ r.rowStr))

/-- The local bytes an output record names lie in the lease. -/
def State.imageLeased (s : State) (q : BitVec 16) (a : Nat) (o : Opf) : Bool :=
  let r := s.readRec a
  s.within q r.scale (r.scaleExtent o) && s.within q r.mant (r.mantExtent o.fmt)

/-- The operand records of a BWD_ATTN. -/
def AttnRec.refs (r : AttnRec) : List Nat := [r.q, r.k, r.v, r.dO, r.m, r.r, r.dd, r.dq, r.dk, r.dv]

/-- The fields of the records that can be read agree with the shapes that R141 implies (R143). -/
def State.attnShapes (s : State) (die : Nat) (r : AttnRec) (oi os oo : Opf) : Bool :=
  let lost := fun (a : Nat) => s.anyPoison a 48
  let q := s.readRec r.q
  let k := s.readRec r.k
  let seqQ := fun (a : Nat) => if lost r.q then (s.readRec a).rows else q.rows
  let seqK := fun (a : Nat) => if lost r.k then (s.readRec a).rows else k.rows
  let w := fun (a : Nat) => if !lost r.q then q.cols else if !lost r.k then k.cols else (s.readRec a).cols
  let plane := fun (a rows cols : Nat) (o : Opf) => lost a || s.attnPlane die a rows cols o
  let image := fun (a rows : Nat) => lost a || s.attnImage die a rows (w a) oo
  (lost r.q || (decide (q.rows ≤ 65536) && headOk oi.fmt q.cols))
    && (lost r.k || (decide (k.rows ≤ 65536) && headOk oi.fmt k.cols))
    && plane r.q q.rows (w r.q) oi && plane r.k k.rows (w r.k) oi
    && plane r.v (seqK r.v) (w r.v) oi && plane r.dO (seqQ r.dO) (w r.dO) oi
    && plane r.m (seqQ r.m) 1 os && plane r.r (seqQ r.r) 1 os && plane r.dd (seqQ r.dd) 1 os
    && image r.dq (seqQ r.dq) && image r.dk (seqK r.dk) && image r.dv (seqK r.dv)
    && (s.anyPoison r.curve 16 || (curveOk (s.readCurve r.curve)
        && inDieStore die r.curve (16 + 2 * (s.readCurve r.curve).knots)))

/-- The status of a BWD_ATTN with legal own fields that ends at a check, in the order of R11: fields, an empty
extent, the lease, poison. -/
def State.attnCheck (s : State) (q : BitVec 16) (die : Nat) (f : AttnF) (oi os oo : Opf) : Option Byte :=
  let r := s.readAttn f.ref
  let lost := s.anyPoison f.ref 96
  let lostRec := fun (a : Nat) => s.anyPoison a 48
  let refsOk := r.rsvd && r.refs.all (recAddrOk die) && r.curve % 16 == 0 && inDieStore die r.curve 16
  if !lost && !(refsOk && s.attnShapes die r oi os oo) then some stBadField
  else if !lost && [r.q, r.k].any (fun a => !lostRec a && (s.readRec a).rows == 0) then some stDoneEmpty
  else if !(s.within q f.ref 96
      && (lost || [r.dq, r.dk, r.dv].all (fun a => lostRec a || s.imageLeased q a oo))) then some stNoLease
  else if lost || r.refs.any lostRec || s.anyPoison r.curve 16 then some stPoisonSrc
  else none

/-- A BWD_ATTN ends at its checks (R96, R143). -/
def State.attnEnds (s : State) (d : Desc) (st : Byte) : State :=
  if st = stDoneEmpty then s.finish d doneEmpty
  else
    let r := s.attnOutcm st 0xFFFFFFF
    r.1.finish d r.2

/-! ### Meanings -/

def execBwdPick (d : Desc) (s : State) : Result := .next (s.dispatchPick d 0x70 true)

def execBwdAttn (d : Desc) (s : State) : Result :=
  s.onDesc d 0x71 (fun s =>
    let die := (s.queue d.queue).die
    let f := attnF d.body
    match decodeOpf f.opfIn, decodeOpf f.opfStat, decodeOpf f.opfOut with
    | some oi, some os, some oo =>
      if !attnFieldsOk f (s.numCfg d.queue) ∨ f.ref % 16 ≠ 0 ∨ !inDieStore die f.ref 96 then
        s.attnEnds d stBadField
      else (match s.attnCheck d.queue die f oi os oo with
        | some st => s.attnEnds d st
        | none => s.runNow d 0x71 (fun s => s.runAttn d die f (s.readAttn f.ref) oi os oo))
    | _, _, _ => s.attnEnds d stBadField)

end Sys2Proof.Machine
end

