-- ==== Sys2Proof/Machine/CounterClears.lean ====
section
/-!
DEFINITION. The commands that clear a chapter's counters (R53). Writing any value clears them.
-/

namespace Sys2Proof.Machine

open Sys2Proof

/-- Clears the counters of indices `lo` to `hi`. -/
def State.clearIndices (s : State) (lo hi : Nat) : Result :=
  s.onCmd (fun s => (s.clearCounters (objKey lo 0) (objKey hi 0xFF), .ok))

def execFmtCountersClear (_value : Byte) (s : State) : Result := s.clearIndices 0x7820 0x7820
def execLoomCountersClear (_value : Byte) (s : State) : Result := s.clearIndices 0x7830 0x7849
def execVecCountersClear (_value : Byte) (s : State) : Result := s.clearIndices 0x7851 0x7871
def execReedCountersClear (_value : Byte) (s : State) : Result := s.clearIndices 0x7880 0x7899
def execBwdCountersClear (_value : Byte) (s : State) : Result := s.clearIndices 0x78A1 0x78BB
def execUpdCountersClear (_value : Byte) (s : State) : Result := s.clearIndices 0x78C1 0x78C1
def execStrCountersClear (_value : Byte) (s : State) : Result := s.clearIndices 0x78E1 0x78FA
def execPruCountersClear (_value : Byte) (s : State) : Result := s.clearIndices 0x7931 0x7939
def execDftCountersClear (_value : Byte) (s : State) : Result := s.clearIndices 0x7941 0x7941
def execRecCountersClear (_value : Byte) (s : State) : Result := s.clearIndices 0x7951 0x7951
def execSecCountersClear (_value : Byte) (s : State) : Result := s.clearIndices 0x7971 0x7971
def execPwrCountersClear (_value : Byte) (s : State) : Result := s.clearIndices 0x7981 0x7981
def execModCountersClear (_value : Byte) (s : State) : Result := s.clearIndices 0x7991 0x7991

end Sys2Proof.Machine
end

