-- ==== Sys2Proof/Machine/Dap.lean ====
section
/-!
DEFINITION. The Draft Access Protocol (R344 to R354, R449): messages, sessions, and what each request does.
-/

namespace Sys2Proof.Machine

open Sys2Proof

/-! ### Messages (Tables DFT-6, DFT-8) -/

def DapResult.code (r : DapResult) : Byte :=
  match r with
  | .ok => 0x00
  | .noObject => 0x01
  | .access => 0x02
  | .privilege => 0x03
  | .range => 0x04
  | .length => 0x05
  | .stagingBusy => 0x06
  | .offset => 0x07
  | .armRefused => 0x08
  | .armPending => 0x09
  | .stepPassed => 0x0A
  | .epochExhausted => 0x0B
  | .sessionsFull => 0x0C
  | .malformed => 0x0D
  | .refused => 0x0E

/-- A message without its TAG. -/
def dapBytes (mtype : Byte) (reqId : Nat) (session : Nat) (nonce : Nat) (result : Byte) (body : List Byte) :
    List Byte :=
  [1, mtype] ++ toLe 2 reqId ++ toLe 4 session ++ toLe 8 nonce ++ toLe 2 body.length ++ [result, 0] ++ body

/-- A message with its TAG under `key` (R347). -/
def withTag (key m : List Byte) : List Byte := m ++ hmac256 key m

/-- The request of a command as it arrives. -/
def dapRequest (m : DapMsg) (mtype : Byte) : List Byte :=
  [m.version, mtype] ++ toLe 2 m.reqId.toNat ++ toLe 4 m.session.toNat ++ toLe 8 m.nonce.toNat
    ++ toLe 2 m.length.toNat ++ [m.result, m.reserved] ++ m.body ++ m.tag

/-- A field of a message or of a body. -/
def at_ (b : List Byte) (i n : Nat) : Nat := leNat (slice b i n)

def bodyOfMsg (b : List Byte) : List Byte := (b.drop 20).take (b.length - 52)

def tagOk (key b : List Byte) : Bool :=
  hmac256 key (b.take (b.length - 32)) == b.drop (b.length - 32)

/-- VERSION, LENGTH, RESULT and the reserved byte of a request whose body has `n` bytes. -/
def headerOk (b : List Byte) (n : Nat) : Bool :=
  at_ b 0 1 == 1 && at_ b 16 2 == n && at_ b 18 2 == 0

/-- The body has the form of Table DFT-7, with reserved bits zero. -/
def bodyOk (mtype : Nat) (b : List Byte) : Bool :=
  match mtype with
  | 0x03 => b.length == 0
  | 0x10 => b.length == 10 && decide (at_ b 3 1 < 2)
  | 0x11 => decide (10 ≤ b.length) && at_ b 8 2 == b.length - 10 && decide (at_ b 3 1 < 2)
  | 0x12 => b.length == 3
  | 0x13 => b.length == 4
  | 0x20 => b.length == 16 && decide (at_ b 0 1 < 4) && at_ b 1 3 == 0
  | 0x21 => b.length == 0
  | 0x22 => b.length == 4
  | 0x30 => b.length == 5
  | 0x40 => decide (4 ≤ b.length)
  | _ => false

/-! ### Objects in a session (R341) -/

/-- The row of an object that a session of role `role` may act on, or why not. -/
def rowFor (role : Role) (o : ObjId) : Except DapResult ObjRow :=
  match objRow o with
  | none => .error .noObject
  | some r => if role.rank < r.priv then .error .privilege else .ok r

def objOf (b : List Byte) : ObjId := { index := at_ b 0 2, sub := at_ b 2 1 }

/-- The end of a request: result, body and state. -/
abbrev DapEnd := DapResult × List Byte × State

def State.dapStop (s : State) (r : DapResult) : DapEnd := (r, [], s)

/-! ### READ and DESCRIBE -/

/-- The staged copy of an object. -/
def Draft.stagedCopy (d : Draft) (k : Nat) : Option (List Byte) :=
  match Tab.find d.staged k with
  | some v => some v
  | none => Tab.find d.partials k

def State.dapRead (s : State) (role : Role) (b : List Byte) : DapEnd :=
  let o := objOf b
  match rowFor role o with
  | .error r => s.dapStop r
  | .ok r =>
    let off := at_ b 4 4
    if r.acc = accWO ∨ r.acc = accCmd then s.dapStop .access
    else
      let v := match (if at_ b 3 1 = 1 then s.draft.stagedCopy o.key else none) with
        | some v => v
        | none => s.value o r
      if v.length < off ∨ (r.ty ≠ tyDomain ∧ off ≠ 0) then s.dapStop .offset
      else
        let n := min (at_ b 8 2) (min (v.length - off) segmentMax)
        (.ok, toLe 4 (s.meta o r) ++ toLe 4 v.length ++ toLe 2 n ++ slice v off n, s)

def State.dapDescribe (s : State) (role : Role) (b : List Byte) : DapEnd :=
  let o := objOf b
  match rowFor role o with
  | .error r => s.dapStop r
  | .ok r => (.ok, toLe 4 (s.meta o r) ++ toLe 4 r.len ++ toLe 8 (defaultOf o r), s)

/-! ### ENUMERATE, STAGED_LIST and EVENT_READ -/

def State.entry (s : State) (x : ObjId × ObjRow) : List Byte :=
  toLe 2 x.1.index ++ toLe 1 x.1.sub ++ toLe 4 (s.meta x.1 x.2)

def State.listBody (s : State) (l : List (ObjId × ObjRow)) : List Byte :=
  toLe 1 l.length ++ l.flatMap s.entry

def State.dapEnumerate (s : State) (b : List Byte) : DapEnd :=
  (.ok, s.listBody (listObjects (objOf b) (at_ b 3 1)), s)

/-- Staged objects, ascending. -/
def Draft.stagedObjects (d : Draft) : List (ObjId × ObjRow) :=
  ((Tab.keys d.staged ++ Tab.keys d.partials).foldl insertNat []).filterMap (fun k =>
    (objRow (idOfKey k)).map (fun r => (idOfKey k, r)))

def State.dapStagedList (s : State) (b : List Byte) : DapEnd :=
  let l := s.draft.stagedObjects.filter (fun x => decide ((objOf b).key ≤ x.1.key))
  (.ok, s.listBody (l.take (at_ b 3 1)), s)

/-- The record of sequence `n`. -/
def Draft.eventBytes (d : Draft) (n : Nat) : List Byte :=
  match Tab.find d.events (n % 256) with
  | some e => e.bytes n
  | none => zeros 32

/-- R363: records from FROM_SEQ, or from the oldest held. -/
def State.dapEvents (s : State) (b : List Byte) : DapEnd :=
  let d := s.draft
  let oldest := d.eventNext - 256
  let from_ := at_ b 0 4
  let start := max from_ oldest
  let n := min (at_ b 4 1) (d.eventNext - start)
  let next := min start d.eventNext + n
  (.ok, toLe 4 next ++ toLe 1 n ++ [if from_ < oldest then 1 else 0, 0, 0]
    ++ (rangeFrom start n).flatMap d.eventBytes, s)

/-! ### WRITE (R340, R348, R355) -/

/-- A command object runs as the command of that name does. -/
def State.runAs (s : State) (f : State → Result) : State × DapResult :=
  match f s with
  | .next t => (t, t.draft.lastResult)
  | _ => (s, .refused)

/-- CMD objects below 0x7000, written with `v` in session `num`. -/
def State.cmdObject (s : State) (num : BitVec 32) (o : ObjId) (v : List Byte) : State × DapResult :=
  let b := v.getD 0 0
  let w := fun (i n : Nat) => at_ v i n
  let u64 := fun (i : Nat) => BitVec.ofNat 64 (w i 8)
  let u32 := fun (i : Nat) => BitVec.ofNat 32 (w i 4)
  let u16 := BitVec.ofNat 16 (w 0 2)
  match o.index, o.sub with
  | 0x1200, _ => s.configDefaults num
  | 0x2811, 0 => s.runAs (execLeaseGrant b)
  | 0x2811, _ => s.runAs (execLeaseRelease u16)
  | 0x3812, _ => s.runAs (execTempleAlarmClear b)
  | 0x4820, _ => s.runAs (execQueueAbort u16)
  | 0x6010, _ => s.runAs (execStepCommit (u64 0) (u64 8))
  | 0x6011, _ => s.runAs (execGroupRestore (u32 0) (u32 4) (u64 8))
  | 0x6012, 0 => s.runAs (execOutcomeAdopt (u64 0) (v.getD 8 0) (u32 12) (u64 16))
  | 0x6012, _ => s.runAs (execCommitRebase (u64 0))
  | 0x6050, 2 => s.runAs (execFwInstall b)
  | 0x6050, _ => s.runAs (execFwActivate b none)
  | 0x6060, _ => s.runAs (execBoltNote (u64 0) (u64 8) (u64 16))
  | _, _ => s.runAs (execOwnerRelease b)

/-- CMD objects from 0x7000 on. -/
def State.cmdControl (s : State) (o : ObjId) (v : List Byte) : State × DapResult :=
  let b := v.getD 0 0
  match o.index with
  | 0x7020 => s.runAs (execModuleReset b)
  | 0x7030 => s.runAs (execRootSwitch b)
  | 0x7820 => s.runAs (execFmtCountersClear b)
  | 0x782F => s.runAs (execLoomCountersClear b)
  | 0x7850 => s.runAs (execVecCountersClear b)
  | 0x787F => s.runAs (execReedCountersClear b)
  | 0x78A0 => s.runAs (execBwdCountersClear b)
  | 0x78C0 => s.runAs (execUpdCountersClear b)
  | 0x78D0 => s.runAs (execTempleCountersClear b)
  | 0x78E0 => s.runAs (execStrCountersClear b)
  | 0x7900 => s.runAs (execTirCountersClear b)
  | 0x7910 => s.runAs (execCohCountersClear b)
  | 0x7920 => s.runAs (execHstCountersClear b)
  | 0x7930 => s.runAs (execPruCountersClear b)
  | 0x7940 => s.runAs (execDftCountersClear b)
  | 0x7950 => s.runAs (execRecCountersClear b)
  | 0x7970 => s.runAs (execSecCountersClear b)
  | 0x7980 => s.runAs (execPwrCountersClear b)
  | _ => s.runAs (execModCountersClear b)

/-- The bits of byte `i` of an object's value that are not reserved: ETH_PORTS, FAR_PEER, VIEW_STAGED
and the FLAGS of LEASE_REQ have reserved ones (Tables PRU-11, TIR-9, R315). -/
def keptBits (o : ObjId) (i : Nat) : Byte :=
  match o.index, o.sub with
  | 0x5500, 1 => 0x7F
  | 0x5501, _ => if i = 6 ∨ i = 7 ∨ 26 < i then 0 else if i = 26 then 0x01 else 0xFF
  | 0x5002, 3 => if 4 ≤ i ∧ i < 8 then 0 else 0xFF
  | 0x2810, 9 => if i = 0 then 0x01 else 0
  | _, _ => 0xFF

/-- What a write keeps of a value: a reserved bit is ignored and reads as zero (R6). -/
def keptValue (o : ObjId) (v : List Byte) : List Byte :=
  v.zipIdx.map (fun x => x.1 &&& keptBits o x.2)

/-- RW objects: LEASE_REQ and DIR_PROBE_ADDR. -/
def State.writeNow (s : State) (o : ObjId) (v : List Byte) : State × DapResult :=
  let v := keptValue o v
  if o.index = 0x2810 then ({ s with leaseReq := s.leaseReq.set (o.sub - 1) (leNat v) }, .ok)
  else s.runAs (execDirProbeAddr (BitVec.ofNat 64 (leNat v)))

/-- A whole value goes into the staged copy. -/
def State.stageValue (s : State) (num : BitVec 32) (o : ObjId) (r : ObjRow) (v : List Byte) :
    State × DapResult :=
  if !s.draft.mayStage num then (s, .stagingBusy)
  else if r.ty = tyBool ∧ 1 < leNat v then (s, .range)
  else ({ s with draft := s.draft.stage num o.key (keptValue o v) }, .ok)

/-- A segment of VIEW_STAGED. -/
def State.stageSegment (s : State) (num : BitVec 32) (o : ObjId) (r : ObjRow) (off : Nat) (last : Bool)
    (v : List Byte) : State × DapResult :=
  let d := s.draft
  let done := (Tab.find d.partials o.key).isNone
  match takeSegment ((Tab.find d.partials o.key).getD []) done r.len off last v with
  | .error e => (s, e)
  | .ok img =>
    let kept := keptValue o img.1
    if !d.mayStage num then (s, .stagingBusy)
    else if img.2 then ({ s with draft := d.stage num o.key kept }, .ok)
    else ({ s with draft := { d with
        staged := Tab.remove d.staged o.key, partials := Tab.write d.partials o.key kept
        stagingSess := num } }, .ok)

/-- A write to an object that takes its value at once. -/
def State.writeObject (s : State) (num : BitVec 32) (o : ObjId) (r : ObjRow) (v : List Byte) :
    State × DapResult :=
  if r.acc = accRWS then s.stageValue num o r v
  else if r.acc = accRW then s.writeNow o v
  else if r.acc = accWO then s.writeKey (o.sub == 1) v
  else if o.index < 0x7000 then s.cmdObject num o v
  else s.cmdControl o v

def State.dapWrite (s : State) (num : BitVec 32) (role : Role) (b : List Byte) : DapEnd :=
  let o := objOf b
  let off := at_ b 4 4
  let last := at_ b 3 1 == 1
  let v := b.drop 10
  let ends := fun (x : State × DapResult) => (x.2, [], x.1)
  match rowFor role o with
  | .error r => s.dapStop r
  | .ok r =>
    if r.acc = accRO then s.dapStop .access
    else if r.ty = tyDomain then
      if r.acc = accRWS then ends (s.stageSegment num o r off last v) else ends (s.fwImage off last v)
    else if v.length ≠ r.len then s.dapStop .length
    else if off ≠ 0 then s.dapStop .offset
    else ends (s.writeObject num o r v)

/-! ### The other requests -/

/-- DISCARD empties the caller's set, or for an own session any set (R355). -/
def State.dapDiscard (s : State) (num : BitVec 32) (role : Role) : DapEnd :=
  if s.draft.stagingSess = num ∨ role = .own then (.ok, [], { s with draft := s.draft.emptySet })
  else s.dapStop .privilege

def State.dapArm (s : State) (num : BitVec 32) (role : Role) (b : List Byte) : DapEnd :=
  let f := at_ b 0 1
  s.armOf num role (bitOf f 0) (bitOf f 1) (at_ b 4 4) (at_ b 8 8)

def State.dapTunnel (s : State) (t : Transport) (b : List Byte) : DapEnd :=
  let r := s.spdmRequest (transportCode t) (b.getD 0 0) (b.getD 1 0) (b.getD 2 0) (b.getD 3 0) (b.drop 4)
  (.ok, r.2, r.1)

/-- COUNT lies outside its range (R449). -/
def countBad (mtype : Nat) (b : List Byte) : Bool :=
  match mtype with
  | 0x13 => at_ b 3 1 == 0 || decide (64 < at_ b 3 1)
  | 0x22 => at_ b 3 1 == 0 || decide (64 < at_ b 3 1)
  | 0x30 => at_ b 4 1 == 0 || decide (32 < at_ b 4 1)
  | _ => false

/-- A request that session `x` has sent, whose body is `b`. -/
def State.dapRun (s : State) (x : Session) (mtype : Nat) (b : List Byte) : DapEnd :=
  if countBad mtype b then s.dapStop .range
  else match mtype with
    | 0x03 => (.ok, [], s.endSessions (fun y => y.num == x.num))
    | 0x10 => s.dapRead x.role b
    | 0x11 => s.dapWrite x.num x.role b
    | 0x12 => s.dapDescribe x.role b
    | 0x13 => s.dapEnumerate b
    | 0x20 => s.dapArm x.num x.role b
    | 0x21 => s.dapDiscard x.num x.role
    | 0x22 => s.dapStagedList b
    | 0x30 => s.dapEvents b
    | _ => s.dapTunnel x.transport b

/-! ### Sessions (R351 to R354) -/

def Draft.session (d : Draft) (num : BitVec 32) : Option Session := d.sessions.find? (fun x => x.num == num)

/-- Replaces an open session; one that has ended stays ended. -/
def Draft.setSession (d : Draft) (x : Session) : Draft :=
  { d with sessions := d.sessions.map (fun y => if y.num = x.num then x else y) }

def State.setSession (s : State) (x : Session) : State := { s with draft := s.draft.setSession x }

/-- The response to a request of session `x`, with the session's next nonce; `keep` says that it is new. -/
def State.dapRespond (s : State) (x : Session) (k : Kept) (keep : Bool) : State × List Byte :=
  let n := x.txNonce + 1
  let m := dapBytes (k.mtype ||| 0x80) k.reqId.toNat x.num.toNat n k.result.code k.body
  let kept := if keep then (x.kept ++ [k]).drop (x.kept.length + 1 - 16) else x.kept
  (s.setSession { x with txNonce := n, kept := kept }, withTag x.key m)

/-- A request that has passed its TAG and its nonce. -/
def State.dapAccepted (s : State) (x : Session) (b : List Byte) : State × List Byte :=
  let id := BitVec.ofNat 16 (at_ b 2 2)
  let mtype := at_ b 1 1
  let body := bodyOfMsg b
  let x := { x with rxNonce := at_ b 8 8 }
  let s := s.setSession x
  match x.kept.find? (fun k => k.reqId == id) with
  | some k => (s.count 0x7941 8 1).dapRespond x k false
  | none =>
    let r : DapEnd := if headerOk b (b.length - 52) && bodyOk mtype body then s.dapRun x mtype body
      else (s.count 0x7941 6 1).dapStop .malformed
    r.2.2.dapRespond x { reqId := id, mtype := BitVec.ofNat 8 mtype, result := r.1, body := r.2.1 } true

/-- Roles that a key may open (R351). -/
def roleOf (key role : Nat) : Option Role :=
  match role with
  | 0 => some .observe
  | 1 => some .operate
  | 2 => if key = 1 then some .own else none
  | _ => none

def sessionLabel : List Byte := ascii "KL30 DAP session"

/-- The response to a SESSION_OPEN that opens nothing. -/
def State.openFails (s : State) (key b : List Byte) (r : DapResult) : State × List Byte :=
  let n := s.draw
  (n.2, withTag key (dapBytes 0x82 (at_ b 2 2) 0 (n.1 % 2 ^ 64) r.code []))

/-- SESSION_OPEN with a tag that holds. -/
def State.openSession (s : State) (t : Transport) (owner : Bool) (role : Role) (b : List Byte) :
    State × List Byte :=
  let key := s.sec.key owner
  let body := bodyOfMsg b
  let d := s.draft
  if !headerOk b (b.length - 52) ∨ at_ b 4 4 ≠ 0 ∨ body.length ≠ 20 ∨ at_ body 2 2 ≠ 0 then
    (s.count 0x7941 6 1).openFails key b .malformed
  else if 16 ≤ d.sessions.length ∨ d.nextSession = 0 then s.openFails key b .sessionsFull
  else
    let num := d.nextSession
    let dn := (List.range 16).map (Config.randomByte s.fresh)
    let k := hmac256 key (sessionLabel ++ slice body 4 16 ++ dn ++ toLe 4 num.toNat)
    let x : Session := { num := num, role := role, ownerKey := owner, transport := t, key := k, rxNonce := 0,
                         txNonce := 1, kept := [] }
    let s : State := { s with
      fresh := s.fresh + 1
      draft := { d with sessions := d.sessions ++ [x], nextSession := num + 1 } }
    (s.count 0x7941 9 1,
      withTag key (dapBytes 0x82 (at_ b 2 2) num.toNat 1 0 ([BitVec.ofNat 8 role.rank, 0, 0, 0] ++ dn)))

/-- A SESSION_OPEN request: dropped and counted when its tag fails or its key does not allow its role;
dropped on 10BASE-T1S while the module is UNOWNED (R410). -/
def State.dapOpen (s : State) (t : Transport) (b : List Byte) : State × Option (List Byte) :=
  let body := bodyOfMsg b
  let key := at_ body 1 1
  if t = .t1s ∧ !s.sec.owned then (s, none)
  else match roleOf key (at_ body 0 1) with
    | none => (s.count 0x7941 3 1, none)
    | some role =>
      if 1 < key ∨ !tagOk (s.sec.key (key == 1)) b then (s.count 0x7941 3 1, none)
      else
        let r := s.openSession t (key == 1) role b
        (r.1, some r.2)

/-! ### Messages on a transport -/

/-- The response body of IDENTIFY. -/
def State.identity (s : State) : List Byte :=
  partNumber ++ [0xA1, 0] ++ serialBytes ++ toLe 2 s.ownPod ++ toLe 4 s.draft.epoch
    ++ slice (configDigest s.draft.active) 0 8 ++ (List.range 6).map Config.mgmtMac

/-- IDENTIFY needs no session and carries no TAG; malformed in any way, it is dropped. -/
def State.dapIdentify (s : State) (b : List Byte) : State × Option (List Byte) :=
  if b.length ≠ 20 ∨ !headerOk b 0 ∨ at_ b 4 12 ≠ 0 then (s.count 0x7941 6 1, none)
  else (s.count 0x7941 7 1, some (dapBytes 0x81 (at_ b 2 2) 0 0 0 s.identity))

/-- A message on transport `t`, in the order of R449: the state and the response, if one is sent. -/
def State.dapHandle (s : State) (t : Transport) (multicast : Bool) (b : List Byte) :
    State × Option (List Byte) :=
  let mtype := at_ b 1 1
  let s := s.count 0x7941 (transportCode t) 1
  if mtype = 1 then s.dapIdentify b
  else if multicast then (s, none)
  else if b.length < 52 then (s.count 0x7941 6 1, none)
  else if mtype = 2 then s.dapOpen t b
  else match s.draft.session (BitVec.ofNat 32 (at_ b 4 4)) with
    | none => (s.count 0x7941 5 1, none)
    | some x =>
      if x.transport ≠ t then (s.count 0x7941 5 1, none)
      else if !tagOk x.key b then (s.count 0x7941 3 1, none)
      else if at_ b 8 8 ≤ x.rxNonce then (s.count 0x7941 4 1, none)
      else
        let r := s.dapAccepted x b
        (r.1, some r.2)

/-- The largest message (R347). -/
def dapMax : Nat := 1232

/-- A message over 10BASE-T1S or MCTP, and the response on the same transport. -/
def State.dapOver (s : State) (t : Transport) (multicast : Bool) (b : List Byte) : State :=
  if dapMax < b.length then s
  else
    let r := s.dapHandle t multicast b
    match r.2 with
    | none => r.1
    | some m => r.1.emit (.dap t m)

/-! ### The local mailbox (R346, Table DFT-5) -/

def State.setMailbox (s : State) (m : Mailbox) : State := { s with mailbox := m }

/-- MBX_DOORBELL. The request is handled whole, so BUSY is clear again when the command ends. -/
def State.doorbell (s : State) (value : Nat) : State :=
  let m := s.mailbox
  let n := value % 65536
  if s.obj 0x1100 4 1 = 0 ∨ m.busy ∨ m.respReady ∨ n < 20 ∨ dapMax < n then s.count 0x7941 0xE 1
  else
    let b := (List.range n).map (Tab.read m.reqBuf 0)
    let r := ({ s with mailbox := { m with busy := true } } : State).dapHandle .mailbox false b
    let t := r.1.setMailbox { r.1.mailbox with busy := false }
    match r.2 with
    | none => t
    | some p => t.setMailbox { t.mailbox with respReady := true, respLen := p.length, rspBuf := p }

/-- Bytes into REQ_BUF from offset `i`; a byte beyond it is not stored. -/
def State.fillRequest (s : State) (i : Nat) (b : List Byte) : State :=
  s.setMailbox { s.mailbox with
    reqBuf := ((List.range b.length).zip b).foldl (fun t e =>
      if i + e.1 < 0x4D0 then Tab.write t (i + e.1) e.2 else t) s.mailbox.reqBuf }

def execMbxDoorbell (value : BitVec 32) (s : State) : Result :=
  if s.power.draftUp then .next (s.doorbell value.toNat) else .next s

def execMbxAck (value : BitVec 32) (s : State) : Result :=
  if s.power.draftUp ∧ value.getLsbD 0 then .next (s.setMailbox { s.mailbox with respReady := false })
  else .next s

/-! ### The request commands -/

/-- A DAP request as its transport delivers it (R344 to R346). -/
def State.onDap (s : State) (m : DapMsg) (mtype : Byte) : Result :=
  let b := dapRequest m mtype
  match m.transport with
  | .t1s => if s.power.draftUp ∧ m.hopLimit = 255 then .next (s.dapOver .t1s m.multicast b) else .next s
  | .mctp => if s.mctpUp then .next (s.dapOver .mctp false b) else .next s
  | .mailbox => if s.power.draftUp then .next ((s.fillRequest 0 b).doorbell b.length) else .next s

def execIdentify (m : DapMsg) (s : State) : Result := s.onDap m 0x01
def execSessionOpen (m : DapMsg) (s : State) : Result := s.onDap m 0x02
def execSessionClose (m : DapMsg) (s : State) : Result := s.onDap m 0x03
def execRead (m : DapMsg) (s : State) : Result := s.onDap m 0x10
def execWrite (m : DapMsg) (s : State) : Result := s.onDap m 0x11
def execDescribe (m : DapMsg) (s : State) : Result := s.onDap m 0x12
def execEnumerate (m : DapMsg) (s : State) : Result := s.onDap m 0x13
def execArm (m : DapMsg) (s : State) : Result := s.onDap m 0x20
/-- The flags of the body make it a stepped ARM. -/
def execArmAtStep (m : DapMsg) (s : State) : Result := s.onDap m 0x20
/-- The flags of the body make it a CANCEL. -/
def execArmCancel (m : DapMsg) (s : State) : Result := s.onDap m 0x20
def execDiscard (m : DapMsg) (s : State) : Result := s.onDap m 0x21
def execStagedList (m : DapMsg) (s : State) : Result := s.onDap m 0x22
def execEventRead (m : DapMsg) (s : State) : Result := s.onDap m 0x30
def execSpdmTunnel (m : DapMsg) (s : State) : Result := s.onDap m 0x40
/-- An MTYPE that Table DFT-7 does not list. -/
def execUnknownMtype (mtype : Byte) (m : DapMsg) (s : State) : Result := s.onDap m mtype

/-- SESSION_IDLE_TIMEOUT has passed without an accepted message (R354). -/
def execSessionIdleTimeout (session : BitVec 32) (s : State) : Result :=
  if s.power.draftUp && (s.draft.session session).isSome then
    .next ((s.endSessions (fun x => x.num == session)).count 0x7941 0xA 1)
  else .next s

end Sys2Proof.Machine
end

