-- ==== Sys2Proof/Machine/Reed.lean ====
section
/-!
DEFINITION. The reed: direct convolution (R106 to R123).
-/

namespace Sys2Proof.Machine

open Sys2Proof

/-! ### Body and geometry record (Tables CNV-4, CNV-5) -/

structure ReedF where
  opfX    : Nat
  opfW    : Nat
  opfY    : Nat
  opfB    : Nat
  rqc     : Nat
  fe      : Nat
  mask    : Nat
  post    : Nat
  padCtl  : Nat
  padExp  : Nat
  padMant : Nat
  geom    : Nat
  biasRef : Nat
  argBase : Nat
  rsvd46  : Bool
  tensor  : Nat
  rsvd56  : Bool
  deriving DecidableEq, Repr

def reedF (b : BitVec 352) : ReedF :=
  { opfX := fieldOf b 16 1, opfW := fieldOf b 17 1, opfY := fieldOf b 18 1, opfB := fieldOf b 19 1,
    rqc := fieldOf b 20 1, fe := fieldOf b 21 1, mask := fieldOf b 22 1, post := fieldOf b 23 1,
    padCtl := fieldOf b 24 1, padExp := fieldOf b 25 1, padMant := fieldOf b 26 2,
    geom := fieldOf b 28 6, biasRef := fieldOf b 34 6, argBase := fieldOf b 40 6,
    rsvd46 := fieldZero b 46 52, tensor := fieldOf b 52 4, rsvd56 := fieldZero b 56 60 }

def ReedF.argmax (f : ReedF) : Bool := bitOf f.post 3
def ReedF.bias (f : ReedF) : Bool := bitOf f.post 2
def ReedF.relu (f : ReedF) : Bool := f.post % 4 == 1
def ReedF.padConst (f : ReedF) : Bool := bitOf f.padCtl 7

structure Geom where
  n : Nat
  h : Nat
  w : Nat
  cIn : Nat
  cOut : Nat
  kh : Nat
  kw : Nat
  strH : Nat
  strW : Nat
  dilH : Nat
  dilW : Nat
  top : Nat
  bottom : Nat
  left : Nat
  right : Nat
  g : Nat
  layX : Nat
  layY : Nat
  layW : Nat
  rsvd43 : Nat
  xMant : Nat
  xScale : Nat
  wMant : Nat
  wScale : Nat
  yMant : Nat
  yScale : Nat
  rsvd80 : Nat
  deriving DecidableEq, Repr

def State.readGeom (s : State) (a : Nat) : Geom :=
  let b := s.bytesAt a 96
  let f := fun i n => leNat (slice b i n)
  { n := f 0 4, h := f 4 4, w := f 8 4, cIn := f 12 4, cOut := f 16 4, kh := f 20 2, kw := f 22 2,
    strH := f 24 1, strW := f 25 1, dilH := f 26 1, dilW := f 27 1, top := f 28 2, bottom := f 30 2,
    left := f 32 2, right := f 34 2, g := f 36 4, layX := f 40 1, layY := f 41 1, layW := f 42 1,
    rsvd43 := f 43 1, xMant := f 44 6, xScale := f 50 6, wMant := f 56 6, wScale := f 62 6,
    yMant := f 68 6, yScale := f 74 6, rsvd80 := f 80 16 }

/-! ### Sizes (R106 to R108) -/

/-- The output size of one axis (R108). -/
def outSize (len k str dil lo hi : Nat) : Int :=
  ((len + lo + hi : Int) - dil * (k - 1) - 1) / str + 1

def Geom.oh (g : Geom) : Int := outSize g.h g.kh g.strH g.dilH g.top g.bottom
def Geom.ow (g : Geom) : Int := outSize g.w g.kw g.strW g.dilW g.left g.right
def Geom.gIn (g : Geom) : Nat := g.cIn / g.g
def Geom.gOut (g : Geom) : Nat := g.cOut / g.g

/-- The extent is zero (R119). -/
def Geom.empty (g : Geom) : Bool :=
  g.n == 0 || g.h == 0 || g.w == 0 || g.cIn == 0 || g.cOut == 0 || decide (g.oh ≤ 0 ∨ g.ow ≤ 0)

def layoutBlock (l : Nat) : Nat := 2 ^ (l + 1)

/-- Element offset of (n, c, h, w) in a layout (Table CNV-1) over extents N, C, H, W. -/
def layoutOffset (l nn cc hh ww n c h w : Nat) : Nat :=
  if l = 0 then ((n * hh + h) * ww + w) * cc + c
  else if l = 1 then ((n * cc + c) * hh + h) * ww + w
  else if l = 6 then ((c * hh + h) * ww + w) * nn + n
  else
    let b := layoutBlock l
    (((n * ceilDiv cc b + c / b) * hh + h) * ww + w) * b + c % b

/-- Elements, slots beyond C included, that a layout takes. -/
def layoutSize (l nn cc hh ww : Nat) : Nat :=
  if 2 ≤ l ∧ l ≤ 5 then nn * roundUp cc (layoutBlock l) * hh * ww else nn * cc * hh * ww

/-- Bytes of `n` packed elements (R33). -/
def packedBytes (f : Fmt) (n : Nat) : Nat := ceilDiv (n * f.bits) 8

/-- Bytes of the scale planes of `planes` planes of rows × cols. -/
def gridBytes (o : Opf) (planes rows cols : Nat) : Nat :=
  let g := o.grid rows cols
  planes * g.1 * g.2 * o.fmt.scaleBytes

/-! ### Checks (R119): the byte offset of the first failing field -/

/-- The first offset of a list of (offset, holds) whose check does not hold. -/
def firstFail (l : List (Nat × Bool)) : Option Nat := (l.find? (fun x => !x.2)).map Prod.fst

def skeinOpfOk (cfg : NumCfg) (v : Nat) : Bool :=
  match opfUnder cfg v with
  | some o => o.fmt != .acc64
  | none => false

/-- A plane lies in the die store; one without a byte lies anywhere (R118). -/
def planeHere (die a n : Nat) : Bool := n == 0 || inDieStore die a n

/-- Own fields, in byte order. -/
def reedFieldChecks (die : Nat) (f : ReedF) (cfg : NumCfg) : List (Nat × Bool) :=
  [(16, skeinOpfOk cfg f.opfX), (17, skeinOpfOk cfg f.opfW), (18, skeinOpfOk cfg f.opfY),
   (19, if f.bias then (opfUnder cfg f.opfB).isSome else f.opfB == 0),
   (20, rqcOk cfg (f.rqc - f.rqc / 4 % 2 * 4) 0), (21, rqcOk cfg f.rqc f.fe),
   (22, f.mask != 0), (23, decide (f.post < 16) && decide (f.post % 4 ≤ 1)),
   (24, f.padCtl % 128 == 0),
   (25, !(f.padConst && (f.padExp == 0x80 || f.padExp == 0x7F))),
   (26, !(f.padConst && f.padMant == 0x8000)),
   (28, f.geom % 16 == 0 && inDieStore die f.geom 96),
   (34, if f.bias then recAddrOk die f.biasRef else f.biasRef == 0),
   (40, if f.argmax then f.argBase != 0 && f.argBase % 4 == 0 else f.argBase == 0),
   (46, f.rsvd46), (56, f.rsvd56)]

/-- A bias record that the convolution accepts (R118, R119). -/
def biasOk (die : Nat) (f : ReedF) (g : Geom) (b : OpRec) : Bool :=
  match decodeOpf f.opfB with
  | some o => b.rsvd && b.source == 0 && b.rows == 1 && b.cols == g.cOut && b.scaleHere die o
      && b.mantHere die o.fmt
  | none => false

/-- Own fields whose legality rests on the geometry: the bias record, unless poison keeps it from being read,
and the place of the index plane. -/
def State.reedRefChecks (s : State) (die : Nat) (f : ReedF) (g : Geom) : List (Nat × Bool) :=
  [(34, !f.bias || s.anyPoison f.biasRef 48 || biasOk die f g (s.readRec f.biasRef)),
   (40, !f.argmax || planeHere die f.argBase (4 * g.n * g.oh.toNat * g.ow.toNat))]

/-- Geometry fields in byte order. -/
def geomChecks (die : Nat) (f : ReedF) (g : Geom) (ox ow oy : Opf) : List (Nat × Bool) :=
  let axis := fun v => decide (1 ≤ v ∧ v ≤ 64)
  let kern := fun v => decide (1 ≤ v ∧ v ≤ 255)
  let okG := decide (0 < g.g) && g.cIn % g.g == 0 && g.cOut % g.g == 0
  let oh := g.oh.toNat
  let ow_ := g.ow.toNat
  let at_ := planeHere die
  [(64, decide (g.n * oh * ow_ * g.cOut ≤ 2 ^ 40)),
   (84, kern g.kh && decide (g.kh * g.kw * g.gIn + (if f.bias then 1 else 0) ≤ 16777216)),
   (86, kern g.kw), (88, axis g.strH), (89, axis g.strW), (90, axis g.dilH), (91, axis g.dilW),
   (100, okG), (104, decide (g.layX ≤ 6)), (105, decide (g.layY ≤ 6)), (106, g.layW == 0),
   (107, g.rsvd43 == 0),
   (108, at_ g.xMant (packedBytes ox.fmt (layoutSize g.layX g.n g.cIn g.h g.w))),
   (114, at_ g.xScale (gridBytes ox (g.n * g.h) g.w g.cIn)),
   (120, at_ g.wMant (packedBytes ow.fmt (g.kh * g.kw * g.gIn * g.cOut))),
   (126, at_ g.wScale (gridBytes ow (g.kh * g.kw) g.gIn g.cOut)),
   (132, at_ g.yMant (packedBytes oy.fmt (layoutSize g.layY g.n g.cOut oh ow_))),
   (138, at_ g.yScale (gridBytes oy (g.n * oh) ow_ g.cOut)),
   (144, g.rsvd80 == 0)]

/-! ### Reading tensors -/

/-- What a running convolution works on. -/
structure ReedEnv where
  f    : ReedF
  g    : Geom
  ox   : Opf
  ow   : Opf
  oy   : Opf
  bias : View
  oh   : Nat
  owd  : Nat
  tabby : Bool

/-- Scale address of place (i, j) of plane `p` (R106). -/
def planeScale (o : Opf) (base p rows cols i j : Nat) : Nat :=
  let g := o.grid rows cols
  base + ((p * g.1 + i / o.extent.1) * g.2 + j / o.extent.2) * o.fmt.scaleBytes

/-- The element of format `f` at element offset `e` from `base`. -/
def State.denseElem (s : State) (f : Fmt) (base e : Nat) : Elem :=
  elemOf f (fun k => s.byteAt (base + k)) e

def ReedEnv.xOff (v : ReedEnv) (n h w c : Nat) : Nat :=
  layoutOffset v.g.layX v.g.n v.g.cIn v.g.h v.g.w n c h w

def ReedEnv.xScaleAddr (v : ReedEnv) (n h w c : Nat) : Nat :=
  planeScale v.ox v.g.xScale (n * v.g.h + h) v.g.w v.g.cIn w c

def State.xScale (s : State) (v : ReedEnv) (n h w c : Nat) : Scale :=
  scaleOfByte (s.natAt (v.xScaleAddr n h w c) 1)

def ReedEnv.wOff (v : ReedEnv) (r k j c : Nat) : Nat :=
  ((r * v.g.kw + k) * v.g.gIn + j) * v.g.cOut + c

def ReedEnv.wScaleAddr (v : ReedEnv) (r k j c : Nat) : Nat :=
  planeScale v.ow v.g.wScale (r * v.g.kw + k) v.g.gIn v.g.cOut j c

def State.wScale (s : State) (v : ReedEnv) (r k j c : Nat) : Scale :=
  scaleOfByte (s.natAt (v.wScaleAddr r k j c) 1)

/-- The input position of output (oh, ow) at tap (r, k), when it lies in the image. -/
def ReedEnv.pos (v : ReedEnv) (oh ow r k : Nat) : Option (Nat × Nat) :=
  let y : Int := (oh * v.g.strH + r * v.g.dilH : Int) - v.g.top
  let x : Int := (ow * v.g.strW + k * v.g.dilW : Int) - v.g.left
  if 0 ≤ y ∧ y < v.g.h ∧ 0 ≤ x ∧ x < v.g.w then some (y.toNat, x.toNat) else none

def ReedEnv.taps (v : ReedEnv) : List (Nat × Nat) :=
  ((List.range v.g.kh).map (fun r => (List.range v.g.kw).map (fun k => (r, k)))).flatten

/-- Output pixels, row-major. -/
def ReedEnv.pixels (v : ReedEnv) : Nat := v.g.n * v.oh * v.owd

/-- (n, oh, ow) of pixel `p`. -/
def ReedEnv.pixel (v : ReedEnv) (p : Nat) : Nat × Nat × Nat :=
  (p / (v.oh * v.owd), p / v.owd % v.oh, p % v.owd)

/-! ### The sum of R109 -/

/-- The terms of an output element. A weight that is not a number, at a tap that lies in zero padding, adds no
term (R109 item 2), although the expansion of R110 with zero skeins would make the result not a number: R109
defines the sum, and DESIGN CHOICE (log 76) follows it. -/
def State.reedTerms (s : State) (v : ReedEnv) (p c : Nat) : List Term :=
  let g := guardBits v.tabby
  let px := v.pixel p
  let grp := c / v.g.gOut
  let prods := (v.taps.map (fun t =>
    let ws := fun j => s.wScale v t.1 t.2 j c
    let we := fun j => s.denseElem v.ow.fmt v.g.wMant (v.wOff t.1 t.2 j c)
    match v.pos px.2.1 px.2.2 t.1 t.2 with
    | some hw =>
      (List.range v.g.gIn).map (fun j =>
        let ch := grp * v.g.gIn + j
        prodTerm g (s.xScale v px.1 hw.1 hw.2 ch) (ws j)
          (s.denseElem v.ox.fmt v.g.xMant (v.xOff px.1 hw.1 hw.2 ch)) (we j))
    | none =>
      if v.f.padConst then
        (List.range v.g.gIn).map (fun j =>
          prodTerm g (.exp (signedOf 8 v.f.padExp)) (ws j) (.val (signedOf 16 v.f.padMant)) (we j))
      else [])).flatten
  prods ++ (if v.f.bias then [v.bias.term g 0 c] else [])

/-- The value of output (pixel, channel) after the activation, and whether its group wrapped
(R109, R117). -/
def State.reedValue (s : State) (v : ReedEnv) (p c : Nat) : XV × Bool :=
  let r := groupOf v.tabby (s.reedTerms v p c)
  match r.1 with
  | .num m _ => if v.f.relu ∧ m < 0 then (.num 0 0, r.2) else r
  | .nar => r

/-! ### Poison (R112, R122) -/

/-- Element `e` at `base` has a byte on a poisoned line. -/
def State.densePoison (s : State) (f : Fmt) (base e : Nat) : Bool :=
  s.linePoisoned ((base + elemByte f e) / 64) || s.linePoisoned ((base + elemLast f e) / 64)

/-- Some live tap exists at (r, k): it reaches the image, or the pad is constant (R111). -/
def ReedEnv.tapLive (v : ReedEnv) (ps : List Nat) (t : Nat × Nat) : Bool :=
  v.f.padConst || ps.any (fun p =>
    let px := v.pixel p
    (v.pos px.2.1 px.2.2 t.1 t.2).isSome)

/-- The weights, their scales or the bias hold poison where they are read (R122). -/
def State.reedFixedPoison (s : State) (v : ReedEnv) : Bool :=
  if s.poisonFree then false
  else
    let live := v.taps.filter (v.tapLive (List.range v.pixels))
    live.any (fun t => (List.range v.g.gIn).any (fun j => (List.range v.g.cOut).any (fun c =>
        s.linePoisoned (v.wScaleAddr t.1 t.2 j c / 64) ||
          (match s.wScale v t.1 t.2 j c with
           | .exp _ => s.densePoison v.ow.fmt v.g.wMant (v.wOff t.1 t.2 j c)
           | _ => false))))
      || (v.f.bias && (v.bias.rowPoisoned 0 || (match decodeOpf v.f.opfB with
          | some o => s.scalePoisoned (s.readRec v.f.biasRef) o
          | none => false)))

/-- A group of pixel `p` needs a poisoned input line. -/
def State.pixelBad (s : State) (v : ReedEnv) (p : Nat) : Bool :=
  if s.poisonFree then false
  else
    let px := v.pixel p
    v.taps.any (fun t => match v.pos px.2.1 px.2.2 t.1 t.2 with
      | some hw => (List.range v.g.cIn).any (fun c =>
          s.linePoisoned (v.xScaleAddr px.1 hw.1 hw.2 c / 64) ||
            (match s.xScale v px.1 hw.1 hw.2 c with
             | .exp _ => s.densePoison v.ox.fmt v.g.xMant (v.xOff px.1 hw.1 hw.2 c)
             | _ => false))
      | none => false)

/-! ### Blocks and passes (R111, R113, R114) -/

/-- Input pixels of the image that a run of output pixels touches. -/
def ReedEnv.touched (v : ReedEnv) (ps : List Nat) : List Nat :=
  ps.foldl (fun a p =>
    let px := v.pixel p
    v.taps.foldl (fun a t => match v.pos px.2.1 px.2.2 t.1 t.2 with
      | some hw => insertNat a ((px.1 * v.g.h + hw.1) * v.g.w + hw.2)
      | none => a) a) []

/-- Line-buffer slices of 256 bytes that a run of pixels needs. -/
def ReedEnv.slices (v : ReedEnv) (start len : Nat) : Nat :=
  (v.touched (rangeFrom start len)).length * ceilDiv (v.g.cIn * v.ox.fmt.bits) 2048

/-- The longest run from `start`, at most `len`, that fits: whole output rows first, then runs of
output columns (R114). -/
def ReedEnv.fit (v : ReedEnv) (start len : Nat) : Nat :=
  let fits := fun n => decide (v.slices start n ≤ 16384)
  if fits len then len
  else
    let cand := ((List.range (len + 1)).reverse).filter (fun n => 0 < n && fits n)
    match cand.find? (fun n => (start + n) % v.owd == 0) with
    | some n => n
    | none => (cand.head?).getD 1

/-- Blocks as (start, length, shortened). -/
def ReedEnv.blocksFuel (v : ReedEnv) (mb start fuel : Nat) : List (Nat × Nat × Bool) :=
  match fuel with
  | 0 => []
  | k + 1 =>
    if v.pixels ≤ start then []
    else
      let want := min mb (v.pixels - start)
      let n := v.fit start want
      (start, n, n != want) :: v.blocksFuel mb (start + n) k

def State.reedBlocks (s : State) (v : ReedEnv) : List (Nat × Nat × Bool) :=
  let l := popCount 8 v.f.mask
  let mb := min 1024 (max (s.obj 0x3300 5 256) (ceilDiv v.pixels l))
  v.blocksFuel mb 0 v.pixels

/-- `n` cut into pieces of `k`, the last one shorter. -/
def cutInto (n k : Nat) : List Nat :=
  List.replicate (n / max 1 k) k ++ (if n % max 1 k = 0 then [] else [n % max 1 k])

/-- The warps of a block with `t` live taps, as rows and columns: one list of passes for each set of groups or
tile of output channels, in ascending order (R113). A group wider than a warp takes one group a pass. -/
def ReedEnv.units (v : ReedEnv) (t : Nat) : List (List (Nat × Nat)) :=
  let kw := cellRows v.ox.fmt v.ow.fmt
  let gi := v.g.gIn
  let go := v.g.gOut
  let tp := if gi ≤ kw then min t (kw / gi) else 1
  let packs := if gi ≤ kw then (cutInto t tp).map (fun n => n * gi)
    else (List.replicate t (cutInto gi kw)).flatten
  let sets := if 1 < v.g.g ∧ go ≤ 256 then
      (cutInto v.g.g (max 1 (min (kw / (tp * gi)) (256 / go)))).map (fun b => (b, b * go))
    else (List.replicate v.g.g ((cutInto go 256).map (fun n => (1, n)))).flatten
  if t = 0 then [] else sets.map (fun x => packs.map (fun r => (x.1 * r, x.2)))

/-- The shape of a pass: shape 0 for a full warp, else the smallest one that covers the warp, the lowest
number among equals (R113). -/
def passShape (x w : Fmt) (k n : Nat) : Nat :=
  let area := fun i => let t := tileOf i x w; t.1 * t.2
  let covers := (List.range 12).filter (fun i => let t := tileOf i x w; decide (k ≤ t.1 ∧ n ≤ t.2))
  if k = cellRows x w ∧ n = 256 then 0
  else (covers.find? (fun i => covers.all (fun j => decide (area i ≤ area j)))).getD 0

/-- A pass of a convolution: the loom it runs on and the shape it takes. -/
structure ReedPass where
  loom  : Nat
  shape : Nat
  deriving DecidableEq, Repr

/-- The passes of blocks with so many live taps. The units go to the masked looms in turn, lowest first
(R113, R114; that a loom takes every L-th unit is DEDUCED, log 76). -/
def ReedEnv.passList (v : ReedEnv) (live : List Nat) : List ReedPass :=
  let looms := (List.range 8).filter (fun l => bitOf v.f.mask l)
  let units := live.flatMap v.units
  (units.zip (List.range units.length)).flatMap (fun u =>
    u.1.map (fun p =>
      { loom := looms.getD (u.2 % max 1 looms.length) 0
        shape := passShape v.ox.fmt v.ow.fmt p.1 p.2 }))

/-- Every pass is a pick of its loom with a warp from the die store (R81, R115). -/
def State.countPasses (s : State) (die : Nat) (l : List ReedPass) : State :=
  l.foldl (fun (s : State) p =>
    (s.count (0x7830 + die) (16 * p.loom + 8) 1).count (0x7830 + die) (16 * p.loom + 9) 1) s

/-! ### Writing Y (R107, R117, R122) -/

/-- Writes codes at element offsets of a dense plane of `size` elements; the bytes no code touches stay, and
the bits of a written byte beyond the last element become zero codes (R37). -/
def State.writeDense (s : State) (f : Fmt) (base size : Nat) (codes : List (Nat × Nat)) : State :=
  let put := fun (t : Tab Nat) (e : Nat × Nat) =>
    if f.bits < 8 then
      let per := 8 / f.bits
      let k := e.1 / per
      let sh := 2 ^ (f.bits * (e.1 % per))
      let old := match Tab.find t k with
        | some b => b
        | none =>
          let b := (s.byteAt (base + k)).toNat
          if size / per = k then b % 2 ^ (f.bits * (size % per)) else b
      let field := old / sh % 2 ^ f.bits
      Tab.write t k (old - field * sh + e.2 * sh)
    else
      ((List.range (f.bits / 8)).foldl (fun t i =>
        Tab.write t (e.1 * (f.bits / 8) + i) (e.2 / 256 ^ i % 256)) t)
  let t := codes.foldl put []
  match t.head?, t.getLast? with
  | some lo, some hi =>
    s.writeRuns (base + lo.1) [] ((rangeFrom lo.1 (hi.1 + 1 - lo.1)).map (fun k =>
      (Tab.find t k).map (BitVec.ofNat 8)))
  | _, _ => s

/-- The skeins of plane (n, oh) of Y, those that hold a bad pixel left out. -/
def State.reedSkeins (s : State) (v : ReedEnv) (rd : Rounding) (bad : List Bool) (pl : Nat) :
    SkeinOut × FmtCounts :=
  let gr := v.oy.grid v.owd v.g.cOut
  let places := ((List.range gr.1).map (fun i => (List.range gr.2).map (fun j => (i, j)))).flatten
  let pix := fun (w : Nat) => pl * v.owd + w
  let keep := places.filter (fun ij =>
    (skeinPlaces v.oy v.owd v.g.cOut ij.1 ij.2).all (fun rc => !bad.getD (pix rc.1) false))
  keep.foldl (fun acc ij =>
    let ps := skeinPlaces v.oy v.owd v.g.cOut ij.1 ij.2
    let r := outSkein v.oy.fmt rd (ps.map (fun rc =>
      ((s.reedValue v (pix rc.1) rc.2).1, (pl * v.owd + rc.1) * v.g.cOut + rc.2)))
    (acc.1 ++ [(ij, r.1)], acc.2.add r.2)) ([], FmtCounts.zero)

/-- Writes one plane (n, oh) of Y. -/
def State.writeReedPlane (s : State) (v : ReedEnv) (pl : Nat) (bad : List Bool) (sk : SkeinOut) :
    State :=
  let n := pl / v.oh
  let oh := pl % v.oh
  let gr := v.oy.grid v.owd v.g.cOut
  let s := sk.foldl (fun (s : State) x =>
    s.writeMem (v.g.yScale + (pl * gr.1 + x.1.1) * gr.2 + x.1.2) (toLe 1 x.2.scale)) s
  let off := fun (c w : Nat) => layoutOffset v.g.layY v.g.n v.g.cOut v.oh v.owd n c oh w
  let codes := (sk.map (fun x => match x.2.mants with
    | none => []
    | some ms =>
      ((skeinPlaces v.oy v.owd v.g.cOut x.1.1 x.1.2).zip ms).map (fun y =>
        (off y.1.2 y.1.1, v.oy.fmt.encode y.2)))).flatten
  let beyond := if 2 ≤ v.g.layY ∧ v.g.layY ≤ 5 then
      ((List.range v.owd).map (fun w =>
        if bad.getD (pl * v.owd + w) false then []
        else (rangeFrom v.g.cOut (roundUp v.g.cOut (layoutBlock v.g.layY) - v.g.cOut)).map (fun c =>
          (off c w, 0)))).flatten
    else []
  s.writeDense v.oy.fmt v.g.yMant (layoutSize v.g.layY v.g.n v.g.cOut v.oh v.owd) (codes ++ beyond)

/-- Address and length of the planes of a convolution: X, the weights and the bias. -/
def ReedEnv.inputs (v : ReedEnv) (b : OpRec) : List (Nat × Nat) :=
  let g := v.g
  [(g.xMant, packedBytes v.ox.fmt (layoutSize g.layX g.n g.cIn g.h g.w)),
   (g.xScale, gridBytes v.ox (g.n * g.h) g.w g.cIn),
   (g.wMant, packedBytes v.ow.fmt (g.kh * g.kw * g.gIn * g.cOut)),
   (g.wScale, gridBytes v.ow (g.kh * g.kw) g.gIn g.cOut)]
    ++ (match v.f.bias, decodeOpf v.f.opfB with
        | true, some o => b.planeRanges o
        | _, _ => [])

/-- Y and the index plane. -/
def ReedEnv.outputs (v : ReedEnv) : List (Nat × Nat) :=
  let g := v.g
  [(g.yMant, packedBytes v.oy.fmt (layoutSize g.layY g.n g.cOut v.oh v.owd)),
   (g.yScale, gridBytes v.oy (g.n * v.oh) v.owd g.cOut)]
    ++ (if v.f.argmax then [(v.f.argBase, 4 * v.pixels)] else [])

/-- Runs a checked REED_CONV (R109, R117, R122). Outputs that overlap an input are undefined (R120). -/
def State.runReed (s : State) (d : Desc) (die : Nat) (v : ReedEnv) (cfg : NumCfg) : State × Outcm :=
  if s.reedFixedPoison v then (s, outcm stPoisonSrc 0xFFFFFFFF 0)
  else
    let rd : Rounding := roundingOf cfg v.f.rqc v.f.fe v.f.tensor
    let bad := (List.range v.pixels).map (fun p => s.pixelBad v p)
    let planes := (List.range (v.g.n * v.oh)).map (fun pl => (pl, s.reedSkeins v rd bad pl))
    let vals := fun p => (List.range v.g.cOut).map (fun c => (s.reedValue v p c).1)
    let good := (List.range v.pixels).filter (fun p => !bad.getD p false)
    let wrapped := ((good.map (fun p =>
      ((List.range v.g.cOut).filter (fun c => (s.reedValue v p c).2)).length))).sum
    let idx := if v.f.argmax then good.map (fun p => (p, argmaxOf (vals p))) else []
    let blocks := s.reedBlocks v
    let live := blocks.map (fun b => (v.taps.filter (v.tapLive (rangeFrom b.1 b.2.1))).length)
    let ntaps := v.g.kh * v.g.kw
    let rows := (v.touched (List.range v.pixels)).foldl (fun a k => insertNat a (k / v.g.w)) []
    let k := 0x7880 + die
    let t := planes.foldl (fun (t : State) x => t.writeReedPlane v x.1 bad x.2.1) s
    let t := planes.foldl (fun (t : State) x => t.countWatched d.queue cfg.step x.2.2) t
    let t := t.countWatched d.queue cfg.step { FmtCounts.zero with wrapped := wrapped }
    let t := idx.foldl (fun (t : State) x =>
      let t := t.writeMem (v.f.argBase + 4 * x.1) (toLe 4 (x.2.getD 0xFFFFFFFF))
      if x.2.isNone then t.count k 8 1 else t) t
    let t := t.count k 0 1
    let t := t.count k 2 ((live.map (fun n => ntaps - n)).sum)
    let passes := v.passList live
    let t := (t.count k 3 passes.length).countPasses die passes
    let t := t.count k 4 ((blocks.map (fun b =>
      (v.touched (rangeFrom b.1 b.2.1)).length * v.ox.fmt.rowBytes v.g.cIn)).sum)
    let t := t.count k 5 (v.g.n * v.g.h - rows.length)
    let t := t.count k 7 ((blocks.filter (fun b => b.2.2)).length)
    let t := if anyMeet (v.inputs (s.readRec v.f.biasRef)) v.outputs then t.undefine v.outputs else t
    let nar := planes.any (fun x => x.2.1.any (fun y => y.2.hasNar v.oy.fmt))
    match bad.findIdx? id with
    | some p => (t, outcm stPoisonSrc (p % 2 ^ 32) 0)
    | none => (t, if nar then outcm stNarOut 0 0 else doneOk)

/-- BAD_FIELD with the offset of the first failing field (R119). -/
def reedBad (off : Nat) : Outcm := outcm stBadField off 0

/-- The poison of a record that a convolution reads ends it before it writes (R122). -/
def reedPoison : Outcm := outcm stPoisonSrc 0xFFFFFFFF 0

/-- What a convolution with legal own fields and formats comes to, in the order of R11: the fields of its
bias record and geometry, an empty extent, the lease, poison. Its run is none when it ends at a check. -/
def State.reedOutcome (s : State) (d : Desc) (die : Nat) (f : ReedF) (ox ow oy : Opf) : Option Outcm :=
  let g := s.readGeom f.geom
  let lost := s.anyPoison f.geom 96
  let checks := if lost then [] else s.reedRefChecks die f g ++ geomChecks die f g ox ow oy
  match firstFail checks with
  | some o => some (reedBad o)
  | none =>
    if !lost && g.empty then some doneEmpty
    else if !s.within d.queue f.geom 96 || (f.bias && !s.within d.queue f.biasRef 48) then some noLease
    else if lost || (f.bias && s.anyPoison f.biasRef 48) then some reedPoison
    else none

/-- What the reed works on (R106). -/
def State.reedEnv (s : State) (f : ReedF) (cfg : NumCfg) (ox ow oy : Opf) : ReedEnv :=
  let g := s.readGeom f.geom
  { f := f, g := g, ox := ox, ow := ow, oy := oy, oh := g.oh.toNat, owd := g.ow.toNat, tabby := cfg.tabby
    bias := match f.bias, decodeOpf f.opfB with
      | true, some o => s.recView (s.readRec f.biasRef) o
      | _, _ => emptyView }

/-! ### Meaning -/

/-- REED_CONV. The table gives the reed no event of its completion, so a convolution runs whole in its own
step, and the second descriptor of R121 never has to wait (log 76). -/
def execReedConv (d : Desc) (s : State) : Result :=
  s.onDesc d 0x60 (fun s =>
    let die := (s.queue d.queue).die
    let cfg := s.numCfg d.queue
    let f := reedF d.body
    match firstFail (reedFieldChecks die f cfg), decodeOpf f.opfX, decodeOpf f.opfW, decodeOpf f.opfY with
    | none, some ox, some ow, some oy =>
      (match s.reedOutcome d die f ox ow oy with
        | some o => (if o = doneEmpty then s.count (0x7880 + die) 1 1 else s).finish d o
        | none => s.runNow d 0x60 (fun s => s.runReed d die (s.reedEnv f cfg ox ow oy) cfg))
    | some o, _, _, _ => s.finish d (reedBad o)
    | none, _, _, _ => s.finish d (reedBad 16))

end Sys2Proof.Machine
end

