-- ==== Sys2Proof/Machine/Registers.lean ====
section
/-!
DEFINITION. Register writes (R280, R281, R290, R292) and the management transports beside DAP (R344,
R345): neighbour discovery, echo, and MCTP control.
-/

namespace Sys2Proof.Machine

open Sys2Proof

/-! ### The admin block (Table HST-7) -/

/-- Bytes 0x00 to 0x33. -/
def Admin.toBytes (a : Admin) : List Byte :=
  [0, 0] ++ toLe 2 a.queue.toNat ++ toLe 2 a.lease.toNat ++ [a.die, a.aflags] ++ toLe 2 a.depth.toNat
    ++ toLe 2 a.vector.toNat ++ toLe 2 a.cqHead.toNat ++ toLe 2 a.region.toNat ++ toLe 8 a.sqBase.toNat
    ++ toLe 8 a.cqBase.toNat ++ toLe 8 a.target.toNat ++ toLe 8 a.length.toNat ++ toLe 4 a.epoch.toNat

/-- The fields of those bytes; bits [7:4] of AFLAGS are reserved and stay 0. -/
def Admin.ofBytes (a : Admin) (b : List Byte) : Admin :=
  let u16 := fun (i : Nat) => BitVec.ofNat 16 (at_ b i 2)
  let u64 := fun (i : Nat) => BitVec.ofNat 64 (at_ b i 8)
  { a with
    queue := u16 0x02, lease := u16 0x04, die := b.getD 6 0, aflags := b.getD 7 0 &&& 0x0F
    depth := u16 0x08, vector := u16 0x0A, cqHead := u16 0x0C, region := u16 0x0E
    sqBase := u64 0x10, cqBase := u64 0x18, target := u64 0x20, length := u64 0x28
    epoch := BitVec.ofNat 32 (at_ b 0x30 4) }

/-- Bytes `v` are written to the block from offset `i`; the byte of ADM_CMD, when among them, starts a
command after the others are stored. -/
def State.adminStore (s : State) (blk : AdminBlock) (i : Nat) (v : List Byte) : Result :=
  let a := s.admin blk
  let s := s.setAdmin blk (a.ofBytes (slice (overlay a.toBytes i v) 0 0x34))
  if i = 0 then s.adminWrite blk (v.getD 0 0) else .next s

/-! ### The map (Table HST-2) -/

/-- A 32-bit write to a doorbell slot. -/
def State.doorbellWrite (s : State) (offset width : Nat) (v : BitVec 32) : Result :=
  let q := BitVec.ofNat 16 (offset / 64)
  if offset % 64 = 0 then execSqDb q width v s
  else if offset % 64 = 4 then execCqDb q width v s
  else .next s

/-- The pending messages of vectors that are masked no longer are sent. -/
def State.sendPending (s : State) : State :=
  let go := s.msixPending.filter (fun v => !s.vectorMasked v)
  go.foldl (fun (s : State) v => s.msix v)
    { s with msixPending := s.msixPending.filter (fun v => s.vectorMasked v) }

/-- Bytes written to the MSI-X table or to the CXL component registers. -/
def State.storeRegs (s : State) (offset : Nat) (v : List Byte) : State :=
  (s.setHost { s.host with
    regBytes := ((List.range v.length).zip v).foldl (fun t e => Tab.write t (offset + e.1) e.2)
      s.host.regBytes }).sendPending

/-- EVENT_VECTOR, the one writable global register (Table HST-3). -/
def State.globalWrite (s : State) (i : Nat) (v : List Byte) : State :=
  if 0x10 ≤ i ∧ i < 0x12 then
    let old := toLe 2 s.host.eventVector.toNat
    s.setHost { s.host with eventVector := BitVec.ofNat 16 (leNat (slice (overlay old (i - 0x10) v) 0 2)) }
  else s

/-- The mailbox page of the control space (Table DFT-5). -/
def State.mailboxWrite (s : State) (i width : Nat) (v : List Byte) : Result :=
  let w := BitVec.ofNat 32 (leNat v)
  if i = 0 then execMbxDoorbell w s
  else if i = 8 then execMbxAck w s
  else if 0x1000 ≤ i ∧ i < 0x14D0 ∧ 0 < width then
    if s.power.draftUp then .next (s.fillRequest (i - 0x1000) v) else .next s
  else .next s

/-- A write of `width` bits at `offset` through BAR0 or the control space. -/
def State.mapWrite (s : State) (sp : RegSpace) (offset width : Nat) (value : BitVec 64) : Result :=
  let v := toLe (width / 8) value.toNat
  let host := sp == .bar0
  let blk := if host then AdminBlock.hostBlock else .localBlock
  if offset < 0x400000 then s.doorbellWrite offset width (value.setWidth 32)
  else if offset < 0x800000 then .next s
  else if offset < 0x801000 then .next (if host then s.globalWrite (offset - 0x800000) v else s)
  else if offset < 0x801034 then s.adminStore blk (offset - 0x801000) v
  else if 0x802000 ≤ offset ∧ offset < 0x80A000 then .next (if host then s.storeRegs offset v else s)
  else if 0x810000 ≤ offset ∧ offset < 0x820000 then .next (if host then s.storeRegs offset v else s)
  else if 0x1000000 ≤ offset ∧ !host then s.mailboxWrite (offset - 0x1000000) width v
  else .next s

/-- A register write: the host's through the port, the package's own from step 9 on; the mailbox answers as
soon as the Draft is reachable (R428). Widths are those of one aligned access. -/
def execRegisterWrite (sp : RegSpace) (offset width : Nat) (value : BitVec 64) (s : State) : Result :=
  let reach : Bool := match sp with
    | .bar0 => s.portUp
    | .control => s.ready || (s.power.draftUp && decide (0x1000000 ≤ offset))
  if reach ∧ (width = 8 ∨ width = 16 ∨ width = 32 ∨ width = 64) ∧ offset % (width / 8) = 0 then
    s.mapWrite sp offset width value
  else .next s

/-! ### IPv6 on the 10BASE-T1S port (R344) -/

/-- The device's link-local address: fe80::/64 with the modified EUI-64 of MGMT_MAC. -/
def linkLocal : List Byte :=
  let m := Config.mgmtMac
  [0xFE, 0x80, 0, 0, 0, 0, 0, 0, m 0 ^^^ 2, m 1, m 2, 0xFF, 0xFE, m 3, m 4, m 5]

/-- A solicitation of the device's address is answered; its hop limit must be 255 (R344). -/
def execNeighborSolicitation (target _source : List Byte) (hopLimit : Nat) (s : State) : Result :=
  if s.power.draftUp ∧ target = linkLocal ∧ hopLimit = 255 then .next (s.emit (.neighborAdvert linkLocal))
  else .next s

/-- An echo request to the device's address. -/
def execEchoRequest (target _source payload : List Byte) (s : State) : Result :=
  if s.power.draftUp ∧ target = linkLocal then .next (s.emit (.echoReply payload)) else .next s

/-! ### MCTP control (R345; the layouts of DSP0236, PRESUMED, log 65) -/

/-- A response: the command code, the completion code and the data. -/
def State.mctpAnswer (s : State) (code completion : Byte) (data : List Byte) : State :=
  s.emit (.mctp ([code, completion] ++ data))

/-- The bus owner assigns the EID; 0 and 0xFF are no endpoint's. -/
def execSetEndpointId (eid : Byte) (s : State) : Result :=
  if !s.mctpUp then .next s
  else if eid = 0 ∨ eid = 0xFF then .next (s.mctpAnswer 0x01 0x02 [])
  else
    .next (({ s with draft := { s.draft with mctpEid := eid } } : State).mctpAnswer 0x01 0 [0, eid, 0])

def execGetEndpointId (s : State) : Result :=
  if s.mctpUp then .next (s.mctpAnswer 0x02 0 [s.draft.mctpEid, 0, 0]) else .next s

/-- Message types of the endpoint: control, SPDM, vendor defined, and 0xFF for the base specification. -/
def mctpTypes : List Byte := [0x00, 0x05, 0x7E, 0xFF]

def execGetMctpVersionSupport (mtype : Byte) (s : State) : Result :=
  if !s.mctpUp then .next s
  else if mctpTypes.contains mtype then
    .next (s.mctpAnswer 0x04 0 (1 :: (List.range 4).map (Config.mctpVersion mtype)))
  else .next (s.mctpAnswer 0x04 0x80 [])

def execGetMessageTypeSupport (s : State) : Result :=
  if s.mctpUp then .next (s.mctpAnswer 0x05 0 [2, 0x05, 0x7E]) else .next s

/-- One vendor-defined set: PCI, the Vendor ID of R278, DAP. -/
def execGetVendorDefinedMessageSupport (selector : Byte) (s : State) : Result :=
  if !s.mctpUp then .next s
  else if selector = 0 then
    .next (s.mctpAnswer 0x06 0 ([0xFF, 0x00] ++ toBe 2 Config.vendorId.toNat ++ [0x00, 0x01]))
  else .next (s.mctpAnswer 0x06 0x02 [])

end Sys2Proof.Machine
end

