-- ==== Sys2Proof/Machine/Repair.lean ====
section
/-!
DEFINITION. Row repair and the lines that an error leaves poisoned (R231, R391).
-/

namespace Sys2Proof.Machine

open Sys2Proof

/-! ### Row repair (R391) -/

/-- A REPAIR record: intent (0) or done (1), die, channel, bank and row. -/
def State.repairRecord (s : State) (done die channel bank row : Nat) : State :=
  s.record 0x05 0 (toLe 1 done ++ toLe 1 die ++ toLe 2 channel ++ toLe 2 bank ++ toLe 2 0 ++ toLe 4 row)

/-- The class of the frame at local address `a`: an object's by its registration, RAW in an extent (R236). -/
def State.classAt (s : State) (a : Nat) : FrameClass :=
  match spaceOf a with
  | .object j => (match Tab.find s.objects j with
    | some o => frameClass o.opf o.rows o.cols (a - objAddr j)
    | none => .raw)
  | _ => .raw

/-- An error in tier 2 that ECC cannot correct (R231): in a frame of CLASS SCALE BODY_CRC no longer matches,
which poisons the frame and is counted; elsewhere a free value says whether it fell in the header or the tag
map, which poison the frame, or in the line's data (log 79). -/
def State.poisonT2 (s : State) (line : Nat) : State :=
  let f := 64 * line / 65536 * 65536
  if s.classAt f = .scale then
    let s := match s.homeHub f with
      | some h => s.count (hubCounter h) 8 1
      | none => s
    s.poisonRange f 65536 2 0xFF
  else
    let r := s.draw
    if bitOf r.1 0 then r.2.poisonRange f 65536 2 0xFF else r.2.poisonRange (64 * line) 64 2 0xFF

/-- Lines that cannot be corrected are poisoned (R231, R265, Table COH-12). -/
def State.poisonRow (s : State) (ls : List Nat) : State :=
  ls.foldl (fun (s : State) l =>
    if s.inTier2 (64 * l) then s.poisonT2 l else s.poisonRange (64 * l) 64 1 0xFF) s

/-- A stash entry of the failing die's tier may have a line in the row: where entries lie is not visible, so a
free value says whether, and which line is the first (R138, log 79). -/
def State.poisonStash (s : State) (tier2 : Bool) : State :=
  s.stash.foldl (fun (s : State) x =>
    x.2.entries.foldl (fun (s : State) e =>
      if e.tier2 ≠ tier2 ∨ e.length = 0 ∨ e.poison.isSome then s
      else
        let r := s.draw
        if !bitOf r.1 0 then r.2
        else
          let y := r.2.stashOf x.1
          r.2.setStash x.1 { y with entries := y.entries.map (fun z =>
            if z = e then { z with poison := some (r.1 / 2 % e.length / 64 * 64) } else z) }) s) s

/-- R391, steps 1 to 4; a bank with no repair left keeps its failing lines poisoned. -/
def State.rowRepair (s : State) (die channel bank row : Nat) (bad : List Nat) : State :=
  let k := repairKey die channel bank
  let used := Tab.read s.repairs 0 k
  let s := (s.repairRecord 0 die channel bank row).poisonRow bad
  let s := if bad = [] then s else s.poisonStash (decide (0x32 ≤ die))
  if Config.pprLeft die ≤ used then s
  else
    s.watchForecasts (fun s =>
      (({ s with repairs := Tab.write s.repairs k (used + 1) } : State).repairRecord 1 die channel bank
        row).count 0x7951 0xC 1)

def execRowRepair (die channel bank row : Nat) (lines uncorrectable : List Nat) (s : State) : Result :=
  if s.power.draftUp && memoryDies.contains die then
    .next (s.rowRepair die channel bank row (lines.filter uncorrectable.contains))
  else .next s

end Sys2Proof.Machine
end

