-- ==== Sys2Proof/Machine/Spans.lean ====
section
/-!
DEFINITION. Non-caching accesses and atomics at their homes (R250, R251, R257, R262 to R264), the device
control space among them (R281).
-/

namespace Sys2Proof.Machine

open Sys2Proof

/-! ### The control space as it is read (R281, R292, R346) -/

/-- The global registers (Table HST-3). -/
def State.globalRegs (s : State) : List Byte :=
  toLe 2 1 ++ List.replicate 6 0 ++ toLe 4 s.host.epoch.toNat ++ toLe 4 s.host.attach.code
    ++ toLe 2 s.host.eventVector.toNat ++ List.replicate 6 0 ++ toLe 8 s.aperture

/-- ADM_STATUS (Table HST-7). A command has ended when the write that starts it has, so BUSY reads 0. -/
def Admin.status (a : Admin) : Nat := a.result * 2 ^ 24 + a.value.toNat

/-- The admin block: its arguments, and ADM_STATUS at 0x40. -/
def Admin.regs (a : Admin) : List Byte := a.toBytes ++ List.replicate 12 0 ++ toLe 4 a.status

/-- A doorbell slot (Table HST-9): SQ_DB and CQ_DB are write-only. -/
def QCtx.slotRegs (c : QCtx) (state : Nat) : List Byte :=
  List.replicate 8 0 ++ toLe 8 state ++ toLe 8 c.uncertainValue

/-- MBX_STATUS (Table DFT-5). -/
def Mailbox.status (m : Mailbox) : Nat :=
  boolNat m.respReady * 2 ^ 31 + boolNat m.busy * 2 ^ 30 + m.respLen

/-- The byte at `i` of the control space; what is write-only, absent or reserved reads 0. -/
def State.controlByte (s : State) (i : Nat) : Byte :=
  if i < 0x400000 then
    let q := BitVec.ofNat 16 (i / 64)
    ((s.queue q).slotRegs (s.qstate q)).getD (i % 64) 0
  else if i < 0x800000 then 0
  else if i < 0x801000 then s.globalRegs.getD (i - 0x800000) 0
  else if i < 0x802000 then s.host.adminLocal.regs.getD (i - 0x801000) 0
  else if 0x1000004 ≤ i ∧ i < 0x1000008 then (toLe 4 s.mailbox.status).getD (i - 0x1000004) 0
  else if 0x1002000 ≤ i ∧ i < 0x10024D0 then s.mailbox.rspBuf.getD (i - 0x1002000) 0
  else 0

/-- The line of the control space at `line`. -/
def State.controlLine (s : State) (line : Nat) : List Byte :=
  (List.range 64).map (fun i => s.controlByte (64 * line - controlBase + i))

/-! ### The control space as it is written -/

/-- The aligned accesses that the enabled bytes of a line make, widest first: offset and bytes. -/
def accessesOf (mask : BitVec 64) (i fuel : Nat) : List (Nat × Nat) :=
  match fuel with
  | 0 => []
  | n + 1 =>
    let whole := fun (w : Nat) => decide (i % w = 0) && (List.range w).all (fun k => mask.getLsbD (i + k))
    if 64 ≤ i then []
    else if whole 8 then (i, 8) :: accessesOf mask (i + 8) n
    else if whole 4 then (i, 4) :: accessesOf mask (i + 4) n
    else if whole 2 then (i, 2) :: accessesOf mask (i + 2) n
    else if whole 1 then (i, 1) :: accessesOf mask (i + 1) n
    else accessesOf mask (i + 1) n

/-- The registers take the enabled bytes, one aligned access after another. -/
def State.controlWrite (s : State) (line : Nat) (mask : BitVec 64) (data : List Byte) : Result :=
  (accessesOf mask 0 64).foldl (fun (r : Result) a => match r with
    | .next t => execRegisterWrite .control (64 * line - controlBase + a.1) (8 * a.2)
        (BitVec.ofNat 64 (at_ data a.1 a.2)) t
    | x => x) (.next s)

/-- The line lies in the control space. -/
def controlLineAt (line : Nat) : Bool :=
  match spaceOf (64 * line) with
  | .control => true
  | _ => false

/-- The line lies in the control space, and its registers answer: the mailbox as soon as the Draft is
reachable (R428). -/
def State.controlReach (s : State) (line : Nat) : Bool :=
  controlLineAt line && (s.ready || (s.power.draftUp && decide (controlBase + 0x1000000 ≤ 64 * line)))

/-! ### RD_NC and WR_NC -/

/-- A non-caching read of a line: the data come back to the engine, core or port that asked. -/
def execRdNc (line : Nat) (s : State) : Result :=
  if s.controlReach line then
    .next (s.setCoh (s.coh.send (.data engineAgent line (s.controlLine line) false)))
  else if s.ready ∧ homed line ∧ s.hubCredit line then .next (s.arrive (plainReq .rdNc engineAgent line))
  else .next s

/-- A non-caching write of the bytes that `mask` enables. One that enables every byte writes the line in full,
as cbo.zero does with zeros (R265). -/
def execWrNc (line : Nat) (mask : BitVec 64) (data : List Byte) (s : State) : Result :=
  if s.controlReach line then s.controlWrite line mask data
  else if s.ready ∧ homed line ∧ s.hubCredit line then
    .next (s.arrive { plainReq .wrNc engineAgent line with mask := mask, bytes := slice data 0 64 })
  else .next s

/-! ### Atomics -/

/-- The operations that ATOM_N or a far atomic makes: those of Table COH-9, and LR (10) and SC (11), which
cores alone issue. -/
def atomicOk (agent offset : Nat) (op : AtomicOp) : Bool :=
  (atomicWidthOk op.op op.width
    || ((op.op == 10 || op.op == 11) && (op.width == 4 || op.width == 8) && decide (agent < 31)))
  && offset % op.width == 0 && decide (offset + op.width ≤ 64)

/-- An atomic on registers of the control space, at their home (R263). -/
def State.controlAtomic (s : State) (agent line offset : Nat) (op : AtomicOp) : Result :=
  let old := s.controlLine line
  let mask := BitVec.ofNat 64 ((2 ^ op.width - 1) * 2 ^ offset)
  match s.controlWrite line mask (atomicOnLine op offset old) with
  | .next t => .next (t.emit (.atomicResult agent line (leNat (slice old offset op.width))))
  | x => x

/-- A far atomic waits for its line, which `k` asks for (R262). -/
def State.farAsks (s : State) (k : ReqKind) (agent line offset : Nat) (op : AtomicOp) : State :=
  let f : FarOp := { agent := agent, line := line, offset := offset, op := op, taken := false }
  (s.setCoh { s.coh with farOps := s.coh.farOps ++ [f] }).ask
    { plainReq k agent line with offset := offset, op := some op }

/-- A far atomic (R262): at once in a line held in M or E, else once UPG or RD_X has brought the line. A write
to an object that moves waits, and is offered again; one that is refused is an access fault (R240). -/
def State.farAtomic (s : State) (agent line offset : Nat) (op : AtomicOp) : State :=
  match s.coh.copy agent line with
  | none => s.farAsks .rdX agent line offset op
  | some l =>
    if l.st = .s ∨ l.st = .o then s.farAsks .upg agent line offset op
    else
      let may : ObjWrite := if op.op = 10 then .free else s.objWrite (64 * line)
      match may with
      | .held => s
      | .refused => s.trapReq { plainReq .rdX agent line with offset := offset, op := some op }
      | .free =>
        let s := if op.op < 10 then s.setCoh (s.coh.predict agent line false 1) else s
        s.farRuns { agent := agent, line := line, offset := offset, op := op, taken := false } l

/-- The atomic runs near: LR and SC never do (R262, R263). -/
def State.atomicNear (s : State) (agent line : Nat) (op : AtomicOp) : Bool :=
  decide (op.op < 10) && s.runsNear agent line

/-- An atomic is issued: near at its home, or far in the agent's cache. SC without a reservation fails at
once. -/
def State.sendAtomic (s : State) (agent line offset : Nat) (op : AtomicOp) : State :=
  let r := { plainReq .atomN agent line with offset := offset, op := some op }
  if s.coreFaults agent line then s.trapReq r
  else if s.atomicNear agent line op then (if agent = engineAgent then s.arrive r else s.ask r)
  else if op.op = 11 ∧ !s.coh.reserved.contains (agent, line) then s.emit (.atomicResult agent line 1)
  else s.farAtomic agent line offset op

/-- The agents that issue atomics: every agent of Table COH-1 but the host, and the device itself. -/
def State.mayAtomic (s : State) (agent line : Nat) : Bool :=
  (agent == engineAgent || (s.agentLive agent && agent != hostAgent && !s.coh.asking agent line))
    && s.hubCredit line

def execAtomN (agent line offset : Nat) (op : AtomicOp) (s : State) : Result :=
  if !(s.ready && s.mayAtomic agent line && atomicOk agent offset op) then .next s
  else if controlLineAt line then
    (if op.op < 10 then s.controlAtomic agent line offset op else .next s)
  else if homed line ∧ (op.op < 10 ∨ cacheable line) ∧ (agent ≠ engineAgent ∨ !hostLine line) then
    .next (s.sendAtomic agent line offset op)
  else .next s

end Sys2Proof.Machine
end

