-- ==== Sys2Proof/Machine/Dispatch.lean ====
section
/-!
DEFINITION. The dispatch: one arm per command, a direct call of its meaning.
-/

namespace Sys2Proof.Machine

open Sys2Proof

def exec (i : Instr) (s : State) : Host.Outcome State Fault Refusal :=
  match i with
  | .qctlNop d => Sys2Proof.Machine.execQctlNop d s
  | .qctlStep d => Sys2Proof.Machine.execQctlStep d s
  | .qctlFlush d => Sys2Proof.Machine.execQctlFlush d s
  | .sqDb q width value => Sys2Proof.Machine.execSqDb q width value s
  | .cqDb q width value => Sys2Proof.Machine.execCqDb q width value s
  | .descriptorFetch q f => Sys2Proof.Machine.execDescriptorFetch q f s
  | .dbRetryExpiry q => Sys2Proof.Machine.execDbRetryExpiry q s
  | .flushReadReturn q => Sys2Proof.Machine.execFlushReadReturn q s
  | .shutCopy d => Sys2Proof.Machine.execShutCopy d s
  | .shutCopy2d d => Sys2Proof.Machine.execShutCopy2d d s
  | .transferAccept q seq => Sys2Proof.Machine.execTransferAccept q seq s
  | .transferComplete q seq => Sys2Proof.Machine.execTransferComplete q seq s
  | .shutMcast d => Sys2Proof.Machine.execShutMcast d s
  | .mcastDelivery q seq die loom => Sys2Proof.Machine.execMcastDelivery q seq die loom s
  | .mcastSet d => Sys2Proof.Machine.execMcastSet d s
  | .creelSet d => Sys2Proof.Machine.execCreelSet d s
  | .shutLimit d => Sys2Proof.Machine.execShutLimit d s
  | .slotEmpty die ring => Sys2Proof.Machine.execSlotEmpty die ring s
  | .loomPick d => Sys2Proof.Machine.execLoomPick d s
  | .pickAccept die loom => Sys2Proof.Machine.execPickAccept die loom s
  | .pickComplete die loom => Sys2Proof.Machine.execPickComplete die loom s
  | .loomChainDrop d => Sys2Proof.Machine.execLoomChainDrop d s
  | .loomSetMode d => Sys2Proof.Machine.execLoomSetMode d s
  | .vecEw2 d => Sys2Proof.Machine.execVecEw2 d s
  | .vecEw1 d => Sys2Proof.Machine.execVecEw1 d s
  | .vecFma d => Sys2Proof.Machine.execVecFma d s
  | .vecReduce d => Sys2Proof.Machine.execVecReduce d s
  | .vecArgmax d => Sys2Proof.Machine.execVecArgmax d s
  | .vecRequant d => Sys2Proof.Machine.execVecRequant d s
  | .vecConvert d => Sys2Proof.Machine.execVecConvert d s
  | .vecCurve d => Sys2Proof.Machine.execVecCurve d s
  | .vecGather d => Sys2Proof.Machine.execVecGather d s
  | .vecInstructionComplete die engine => Sys2Proof.Machine.execVecInstructionComplete die engine s
  | .seqLoad d => Sys2Proof.Machine.execSeqLoad d s
  | .seqStart d => Sys2Proof.Machine.execSeqStart d s
  | .seqStop d => Sys2Proof.Machine.execSeqStop d s
  | .ecall die core a7 a0 => Sys2Proof.Machine.execEcall die core a7 a0 s
  | .seqAccessFault die core f => Sys2Proof.Machine.execSeqAccessFault die core f s
  | .tiSubmit die core rd rs1 rs2 => Sys2Proof.Machine.execTiSubmit die core rd rs1 rs2 s
  | .tiWait die core rd rs1 => Sys2Proof.Machine.execTiWait die core rd rs1 s
  | .tiPoll die core rd rs1 => Sys2Proof.Machine.execTiPoll die core rd rs1 s
  | .tiStep die core rd => Sys2Proof.Machine.execTiStep die core rd s
  | .tiFence die core => Sys2Proof.Machine.execTiFence die core s
  | .controlCoreRetire die core => Sys2Proof.Machine.execControlCoreRetire die core s
  | .reedConv d => Sys2Proof.Machine.execReedConv d s
  | .bwdPick d => Sys2Proof.Machine.execBwdPick d s
  | .bwdAttn d => Sys2Proof.Machine.execBwdAttn d s
  | .stashPut d => Sys2Proof.Machine.execStashPut d s
  | .stashRoomFreed lease => Sys2Proof.Machine.execStashRoomFreed lease s
  | .stashFullWaitExpiry q seq => Sys2Proof.Machine.execStashFullWaitExpiry q seq s
  | .stashGet d => Sys2Proof.Machine.execStashGet d s
  | .stashDrop d => Sys2Proof.Machine.execStashDrop d s
  | .treadleBind d => Sys2Proof.Machine.execTreadleBind d s
  | .treadleGrant die => Sys2Proof.Machine.execTreadleGrant die s
  | .treadleWait d => Sys2Proof.Machine.execTreadleWait d s
  | .treadleSignal d => Sys2Proof.Machine.execTreadleSignal d s
  | .mbAdmit d => Sys2Proof.Machine.execMbAdmit d s
  | .mbRetire d => Sys2Proof.Machine.execMbRetire d s
  | .updStat d => Sys2Proof.Machine.execUpdStat d s
  | .updApply d => Sys2Proof.Machine.execUpdApply d s
  | .barrierOutcomeHeld q seq => Sys2Proof.Machine.execBarrierOutcomeHeld q seq s
  | .templeOpen d => Sys2Proof.Machine.execTempleOpen d s
  | .templeAttach d => Sys2Proof.Machine.execTempleAttach d s
  | .templeTally d => Sys2Proof.Machine.execTempleTally d s
  | .templeSeal d => Sys2Proof.Machine.execTempleSeal d s
  | .templeDecide d => Sys2Proof.Machine.execTempleDecide d s
  | .templeClose d => Sys2Proof.Machine.execTempleClose d s
  | .tierRegister d => Sys2Proof.Machine.execTierRegister d s
  | .tierFree d => Sys2Proof.Machine.execTierFree d s
  | .tierPromote d => Sys2Proof.Machine.execTierPromote d s
  | .tierEvict d => Sys2Proof.Machine.execTierEvict d s
  | .tierPack d => Sys2Proof.Machine.execTierPack d s
  | .moveEnds obj => Sys2Proof.Machine.execMoveEnds obj s
  | .t2LateThresholdExpiry hub cause fCycles => Sys2Proof.Machine.execT2LateThresholdExpiry hub cause fCycles s
  | .t2StallTimeoutExpiry issuer => Sys2Proof.Machine.execT2StallTimeoutExpiry issuer s
  | .demotionRetry obj => Sys2Proof.Machine.execDemotionRetry obj s
  | .hubRetire hub => Sys2Proof.Machine.execHubRetire hub s
  | .leaseGrant value => Sys2Proof.Machine.execLeaseGrant value s
  | .leaseRelease lease => Sys2Proof.Machine.execLeaseRelease lease s
  | .pruPut d => Sys2Proof.Machine.execPruPut d s
  | .pruAtomic d => Sys2Proof.Machine.execPruAtomic d s
  | .pruSignal d => Sys2Proof.Machine.execPruSignal d s
  | .pruGroup d => Sys2Proof.Machine.execPruGroup d s
  | .pruReduce d => Sys2Proof.Machine.execPruReduce d s
  | .pruGather d => Sys2Proof.Machine.execPruGather d s
  | .pruBarrier d => Sys2Proof.Machine.execPruBarrier d s
  | .pruRegion d => Sys2Proof.Machine.execPruRegion d s
  | .laneTrained lane => Sys2Proof.Machine.execLaneTrained lane s
  | .laneMarker lane pod linkDie laneNo credits => Sys2Proof.Machine.execLaneMarker lane pod linkDie laneNo credits s
  | .flitReceive lane b => Sys2Proof.Machine.execFlitReceive lane b s
  | .nak lane ack => Sys2Proof.Machine.execNak lane ack s
  | .laneFail lane => Sys2Proof.Machine.execLaneFail lane s
  | .put h r => Sys2Proof.Machine.execPut h r s
  | .get h r => Sys2Proof.Machine.execGet h r s
  | .atom h r => Sys2Proof.Machine.execAtom h r s
  | .signal h r => Sys2Proof.Machine.execSignal h r s
  | .rsp h r => Sys2Proof.Machine.execRsp h r s
  | .coll h r => Sys2Proof.Machine.execColl h r s
  | .exp h r => Sys2Proof.Machine.execExp h r s
  | .barrier h r => Sys2Proof.Machine.execBarrier h r s
  | .hello h r => Sys2Proof.Machine.execHello h r s
  | .peerDown h lost view => Sys2Proof.Machine.execPeerDown h lost view s
  | .xactTimeoutExpiry peer => Sys2Proof.Machine.execXactTimeoutExpiry peer s
  | .ethFrameReceive frame => Sys2Proof.Machine.execEthFrameReceive frame s
  | .ethRtoExpiry peer => Sys2Proof.Machine.execEthRtoExpiry peer s
  | .farDatagramReceive frame => Sys2Proof.Machine.execFarDatagramReceive frame s
  | .rdS agent access => Sys2Proof.Machine.execRdS agent access s
  | .rdX agent access => Sys2Proof.Machine.execRdX agent access s
  | .upg agent access => Sys2Proof.Machine.execUpg agent access s
  | .rdNc line => Sys2Proof.Machine.execRdNc line s
  | .wrNc line mask data => Sys2Proof.Machine.execWrNc line mask data s
  | .wb agent left => Sys2Proof.Machine.execWb agent left s
  | .cln agent line => Sys2Proof.Machine.execCln agent line s
  | .atomN agent line offset op => Sys2Proof.Machine.execAtomN agent line offset op s
  | .snpS agent found => Sys2Proof.Machine.execSnpS agent found s
  | .snpX agent found => Sys2Proof.Machine.execSnpX agent found s
  | .snpCur agent found => Sys2Proof.Machine.execSnpCur agent found s
  | .snpInv agent line => Sys2Proof.Machine.execSnpInv agent line s
  | .lrSnoopDelayExpiry agent line => Sys2Proof.Machine.execLrSnoopDelayExpiry agent line s
  | .rspI agent line => Sys2Proof.Machine.execRspI agent line s
  | .rspS agent line => Sys2Proof.Machine.execRspS agent line s
  | .rspO agent line => Sys2Proof.Machine.execRspO agent line s
  | .rspFwd agent line dirty => Sys2Proof.Machine.execRspFwd agent line dirty s
  | .grant agent line => Sys2Proof.Machine.execGrant agent line s
  | .ack agent line => Sys2Proof.Machine.execAck agent line s
  | .wbAck agent line => Sys2Proof.Machine.execWbAck agent line s
  | .data agent line => Sys2Proof.Machine.execData agent line s
  | .agentSnoopLimitExpiry agent => Sys2Proof.Machine.execAgentSnoopLimitExpiry agent s
  | .agentDead agent => Sys2Proof.Machine.execAgentDead agent s
  | .privSnoopTimeoutExpiry line => Sys2Proof.Machine.execPrivSnoopTimeoutExpiry line s
  | .snpdata line => Sys2Proof.Machine.execSnpdata line s
  | .snpinv line => Sys2Proof.Machine.execSnpinv line s
  | .snpcur line => Sys2Proof.Machine.execSnpcur line s
  | .snoopDeadlineMiss agent line => Sys2Proof.Machine.execSnoopDeadlineMiss agent line s
  | .birsp line hostData keeps => Sys2Proof.Machine.execBirsp line hostData keeps s
  | .memrd offset => Sys2Proof.Machine.execMemrd offset s
  | .memwr offset mask data poison => Sys2Proof.Machine.execMemwr offset mask data poison s
  | .bar2Read offset length => Sys2Proof.Machine.execBar2Read offset length s
  | .bar2Write offset data poison => Sys2Proof.Machine.execBar2Write offset data poison s
  | .peerTimeout q seq => Sys2Proof.Machine.execPeerTimeout q seq s
  | .hostEpochChange cause => Sys2Proof.Machine.execHostEpochChange cause s
  | .portReady gts width => Sys2Proof.Machine.execPortReady gts width s
  | .create b => Sys2Proof.Machine.execCreate b s
  | .destroy b => Sys2Proof.Machine.execDestroy b s
  | .reattach b => Sys2Proof.Machine.execReattach b s
  | .attach b => Sys2Proof.Machine.execAttach b s
  | .regionRegister b => Sys2Proof.Machine.execRegionRegister b s
  | .regionRelease b => Sys2Proof.Machine.execRegionRelease b s
  | .registerWrite sp offset width value => Sys2Proof.Machine.execRegisterWrite sp offset width value s
  | .queueAbort q => Sys2Proof.Machine.execQueueAbort q s
  | .identify m => Sys2Proof.Machine.execIdentify m s
  | .sessionOpen m => Sys2Proof.Machine.execSessionOpen m s
  | .sessionClose m => Sys2Proof.Machine.execSessionClose m s
  | .sessionIdleTimeout session => Sys2Proof.Machine.execSessionIdleTimeout session s
  | .read m => Sys2Proof.Machine.execRead m s
  | .write m => Sys2Proof.Machine.execWrite m s
  | .describe m => Sys2Proof.Machine.execDescribe m s
  | .enumerate m => Sys2Proof.Machine.execEnumerate m s
  | .arm m => Sys2Proof.Machine.execArm m s
  | .armAtStep m => Sys2Proof.Machine.execArmAtStep m s
  | .armCancel m => Sys2Proof.Machine.execArmCancel m s
  | .discard m => Sys2Proof.Machine.execDiscard m s
  | .stagedList m => Sys2Proof.Machine.execStagedList m s
  | .eventRead m => Sys2Proof.Machine.execEventRead m s
  | .spdmTunnel m => Sys2Proof.Machine.execSpdmTunnel m s
  | .mbxDoorbell value => Sys2Proof.Machine.execMbxDoorbell value s
  | .mbxAck value => Sys2Proof.Machine.execMbxAck value s
  | .neighborSolicitation target source hopLimit => Sys2Proof.Machine.execNeighborSolicitation target source hopLimit s
  | .echoRequest target source payload => Sys2Proof.Machine.execEchoRequest target source payload s
  | .setEndpointId eid => Sys2Proof.Machine.execSetEndpointId eid s
  | .getEndpointId => Sys2Proof.Machine.execGetEndpointId s
  | .getMctpVersionSupport mtype => Sys2Proof.Machine.execGetMctpVersionSupport mtype s
  | .getMessageTypeSupport => Sys2Proof.Machine.execGetMessageTypeSupport s
  | .getVendorDefinedMessageSupport selector => Sys2Proof.Machine.execGetVendorDefinedMessageSupport selector s
  | .getVersion m => Sys2Proof.Machine.execGetVersion m s
  | .getCapabilities m => Sys2Proof.Machine.execGetCapabilities m s
  | .negotiateAlgorithms m => Sys2Proof.Machine.execNegotiateAlgorithms m s
  | .getDigests m => Sys2Proof.Machine.execGetDigests m s
  | .getCertificate m => Sys2Proof.Machine.execGetCertificate m s
  | .challenge m => Sys2Proof.Machine.execChallenge m s
  | .getMeasurements m => Sys2Proof.Machine.execGetMeasurements m s
  | .chunkSend m => Sys2Proof.Machine.execChunkSend m s
  | .chunkGet m => Sys2Proof.Machine.execChunkGet m s
  | .spdmUnsupportedRequest code m => Sys2Proof.Machine.execSpdmUnsupportedRequest code m s
  | .fmtCountersClear value => Sys2Proof.Machine.execFmtCountersClear value s
  | .loomCountersClear value => Sys2Proof.Machine.execLoomCountersClear value s
  | .vecCountersClear value => Sys2Proof.Machine.execVecCountersClear value s
  | .reedCountersClear value => Sys2Proof.Machine.execReedCountersClear value s
  | .bwdCountersClear value => Sys2Proof.Machine.execBwdCountersClear value s
  | .updCountersClear value => Sys2Proof.Machine.execUpdCountersClear value s
  | .templeCountersClear value => Sys2Proof.Machine.execTempleCountersClear value s
  | .templeAlarmClear value => Sys2Proof.Machine.execTempleAlarmClear value s
  | .strCountersClear value => Sys2Proof.Machine.execStrCountersClear value s
  | .tirCountersClear value => Sys2Proof.Machine.execTirCountersClear value s
  | .cohCountersClear value => Sys2Proof.Machine.execCohCountersClear value s
  | .dirProbeAddr value => Sys2Proof.Machine.execDirProbeAddr value s
  | .hstCountersClear value => Sys2Proof.Machine.execHstCountersClear value s
  | .pruCountersClear value => Sys2Proof.Machine.execPruCountersClear value s
  | .configDefaults session => Sys2Proof.Machine.execConfigDefaults session s
  | .dftCountersClear value => Sys2Proof.Machine.execDftCountersClear value s
  | .stepCommit body stamps => Sys2Proof.Machine.execStepCommit body stamps s
  | .groupRestore first count entries => Sys2Proof.Machine.execGroupRestore first count entries s
  | .outcomeAdopt step flag members sum => Sys2Proof.Machine.execOutcomeAdopt step flag members sum s
  | .commitRebase step => Sys2Proof.Machine.execCommitRebase step s
  | .boltNote step digest label => Sys2Proof.Machine.execBoltNote step digest label s
  | .fwImage offset last bytes => Sys2Proof.Machine.execFwImage offset last bytes s
  | .fwInstall value => Sys2Proof.Machine.execFwInstall value s
  | .fwActivate value failing => Sys2Proof.Machine.execFwActivate value failing s
  | .recCountersClear value => Sys2Proof.Machine.execRecCountersClear value s
  | .ownerKey key => Sys2Proof.Machine.execOwnerKey key s
  | .operatorKey key => Sys2Proof.Machine.execOperatorKey key s
  | .ownerRelease value => Sys2Proof.Machine.execOwnerRelease value s
  | .secCountersClear value => Sys2Proof.Machine.execSecCountersClear value s
  | .moduleReset value => Sys2Proof.Machine.execModuleReset value s
  | .rootSwitch value => Sys2Proof.Machine.execRootSwitch value s
  | .pwrCountersClear value => Sys2Proof.Machine.execPwrCountersClear value s
  | .modCountersClear value => Sys2Proof.Machine.execModCountersClear value s
  | .journalPageProgrammed => Sys2Proof.Machine.execJournalPageProgrammed s
  | .checkpoint => Sys2Proof.Machine.execCheckpoint s
  | .lifetime => Sys2Proof.Machine.execLifetime s
  | .nandDieFail die => Sys2Proof.Machine.execNandDieFail die s
  | .wearLevelRelocation die => Sys2Proof.Machine.execWearLevelRelocation die s
  | .rowRepair die channel bank row lines uncorrectable => Sys2Proof.Machine.execRowRepair die channel bank row lines uncorrectable s
  | .mgmtSwitchover => Sys2Proof.Machine.execMgmtSwitchover s
  | .noManagementDie => Sys2Proof.Machine.execNoManagementDie s
  | .rootLossOfLock => Sys2Proof.Machine.execRootLossOfLock s
  | .pwrfailN src => Sys2Proof.Machine.execPwrfailN src s
  | .inputLow mv => Sys2Proof.Machine.execInputLow mv s
  | .inputHighBand mv => Sys2Proof.Machine.execInputHighBand mv s
  | .overvoltageShutdown mv => Sys2Proof.Machine.execOvervoltageShutdown mv s
  | .stageFailure stage => Sys2Proof.Machine.execStageFailure stage s
  | .pacingEngage cause => Sys2Proof.Machine.execPacingEngage cause s
  | .pacingAdjust cleared => Sys2Proof.Machine.execPacingAdjust cleared s
  | .thermalShutdown die deci => Sys2Proof.Machine.execThermalShutdown die deci s
  | .holdupLow mj => Sys2Proof.Machine.execHoldupLow mj s
  | .coldStart env => Sys2Proof.Machine.execColdStart env s
  | .mrstN lowMs => Sys2Proof.Machine.execMrstN lowMs s
  | .warmStart env => Sys2Proof.Machine.execWarmStart env s
  | .coolantExcursion e => Sys2Proof.Machine.execCoolantExcursion e s
  | .airExcursion e => Sys2Proof.Machine.execAirExcursion e s
  | .lossOfInput => Sys2Proof.Machine.execLossOfInput s
  | .standbyRootLock locked => Sys2Proof.Machine.execStandbyRootLock locked s
  | .hartStart hart addr opaque_ => Sys2Proof.Machine.execHartStart hart addr opaque_ s
  | .configurationRequest r => Sys2Proof.Machine.execConfigurationRequest r s
  | .cxlCacheResponse line hostData => Sys2Proof.Machine.execCxlCacheResponse line hostData s
  | .peerReadCompletion q seq r => Sys2Proof.Machine.execPeerReadCompletion q seq r s
  | .unknownMtype mtype m => Sys2Proof.Machine.execUnknownMtype mtype m s
  | .badCommand b code => Sys2Proof.Machine.execBadCommand b code s

end Sys2Proof.Machine
end

