-- ==== Sys2Proof/Machine/Tick.lean ====
section
/-!
DEFINITION. What an A-clock cycle does by itself, taken when no command waits (log 2): the count of
R427, the phases of the looms and vector engines with their cycle counters (R59 to R68, R105), the
treadle's bubbles (R134), the cycles lost to pacing (R419) and the restoring of the ledger (R243).
-/

namespace Sys2Proof.Machine

open Sys2Proof

/-! ### One vector engine (R82, R84, R105) -/

/-- The engine reads the inputs of the first instruction that it has not read to the end. -/
def vecReads (_ : List VecJob) (j : VecJob) : Bool := j.busyLeft != 0

/-- One cycle of vector engine `e` of `die`. It waits for die store when a creel slot is not there yet or,
where the die store is contended, when its access is not granted; an instruction that is held for the output of
an earlier one leaves it idle (R83, R84). -/
def State.tickVec (s : State) (die e : Nat) (busy : Bool) : State :=
  let n := 0x7851 + die
  let l := s.vec die e
  match l.find? (vecReads []) with
  | none => s.count n (8 * e + 2) 1
  | some j =>
    let earlier := l.takeWhile (fun x => !vecReads [] x)
    if !j.started && s.vecHeld earlier j then s.count n (8 * e + 2) 1
    else
      let g := s.storeGrant busy
      if !g.1 || !s.vecSupplied die j then g.2.count n (8 * e + 1) 1
      else (g.2.setVec die e (changeFirst vecReads
        (fun j => { j with busyLeft := j.busyLeft - 1, started := true }) [] l)).count n (8 * e) 1

/-! ### One shuttle (R210, R211, R215, R221, R223) -/

/-- The transfers of shuttle `k` that are next in their queues and are not accepted. -/
def State.nextXfers (s : State) (die k : Nat) : List Xfer :=
  s.xfers.filter (fun x => x.die == die && x.shuttle == k && !x.accepted && (s.earlierXfers x).all Xfer.accepted)

/-- The queue of the transfer has as many in flight as its limit (R210). -/
def State.limitFull (s : State) (x : Xfer) : Bool :=
  decide ((s.queue x.queue).limit ≤ (s.earlierXfers x).length)

/-- The transfer is a producer, and the slot at TAIL is not EMPTY (R215). -/
def State.ringFull (s : State) (x : Xfer) : Bool :=
  let c := copyShape x.opcode x.body
  let g := s.ring x.die c.ring
  isCopy x.opcode && c.toRing && g.configured && slotAt g g.tail != .empty

/-- One A-clock cycle of shuttle `k` of `die`, which is two F-clock cycles (Table STR-7). A shuttle is busy while
it has a transfer in flight (log 78); it waits for die store where that is contended (log 68). -/
def State.tickShuttle (s : State) (die k : Nat) (busy : Bool) : State :=
  let next := s.nextXfers die k
  let flying := s.xfers.filter (fun x => x.die == die && x.shuttle == k && x.accepted)
  let capacity := decide (64 ≤ s.shuttleLoad die k)
  let alone := fun (x : Xfer) =>
    !s.limitFull x && !s.ringFull x && !(s.earlierXfers x).any (fun y => s.holdsBehind x y)
  let tally := fun (s : State) (code : Nat) (on : Bool) =>
    if on then s.count (0x78E1 + die) (16 * k + code) 2 else s
  let s := tally s 4 (!flying.isEmpty)
  let s := tally s 5 (next.any s.limitFull)
  let s := tally s 6 (capacity && next.any alone)
  let s := tally s 8 (next.any s.ringFull)
  let s := tally s 0xB (flying.any (fun x => (s.sendOf x).any (fun m => m.held.length == 4)))
  if flying.isEmpty then s
  else
    let g := s.storeGrant busy
    tally g.2 0xC (!g.1)

/-! ### Bubbles (R134) -/

/-- The code of Table BWD-7 for what holds the head `f` of queue `q`. -/
def bubbleCause (s : State) (q : BitVec 16) (f : Fetched) : Nat :=
  match f.opcode.toNat with
  | 0x76 => if waitFieldsOk s f.body && !waitMet s f.body then 4 else 7
  | 0x78 =>
    (match s.admitCase q f.body with
     | .ends _ => 7
     | .admits g _ _ => if s.admitFits g then 7 else 5)
  | 0x72 => if s.putWaits q f.seq then 6 else 7
  | _ => 7

/-- One cycle of the treadle of `die`, whose looms are all idle when `idle`. -/
def State.tickTreadle (s : State) (die : Nat) (idle : Bool) : State :=
  let s := s.noteReady die
  let heads := (s.boundQueues die).filterMap (fun q =>
    ((s.queue (BitVec.ofNat 16 q)).head).map (fun f => (q, f)))
  match heads with
  | [] => s
  | h :: _ =>
    if idle && (s.readyHeads die).isEmpty then
      s.count (0x78A1 + die) (bubbleCause s (BitVec.ofNat 16 h.1) h.2) 1
    else s

/-- One cycle of a tensor die: its heddles with their looms, its vector engines, its shuttles, and the treadle
of a die in work. A spare's looms and engines are idle (R81, R105). -/
def State.tickDie (s : State) (die : Nat) : State :=
  let idle := (List.range 8).all (fun l => loomCycle (s.loom die l) == .idle)
  let busy := s.contended die
  let s := (List.range 4).foldl (fun (s : State) h => s.tickHeddle die h busy) s
  let s := (List.range 16).foldl (fun (s : State) e => s.tickVec die e busy) s
  let s := (List.range 4).foldl (fun (s : State) k => s.tickShuttle die k busy) s
  if s.dieActive die then s.tickTreadle die idle else s

/-! ### Pacing (R419) -/

def paceCode (c : PaceCause) : Nat :=
  match c with
  | .power => 0
  | .current => 1
  | .peak => 2
  | .thermal => 3

/-- Some descriptor could be handed to its engine. -/
def State.anyReady (s : State) : Bool :=
  s.queues.any (fun e =>
    let c := e.2
    let q := BitVec.ofNat 16 e.1
    (c.state == .active || c.state == .orphaned) && c.fetched.any (fun f =>
      f.phase == .waiting && (!s.bound q || f.granted)
        && r98Clear q (c.before f.seq) (s.headEngine q f)
        && s.engineFree c.die (s.headEngine q f)))

/-- A cycle in which pacing holds a ready descriptor: n of every 16 cycles are permitted. -/
def State.tickPacing (s : State) : State :=
  match s.power.paceCause with
  | none => s
  | some c =>
    if s.power.paceSixteenths ≤ s.power.aCycles % 16 ∧ s.anyReady then s.count 0x7981 (paceCode c) 1 else s

/-! ### Links and hubs -/

/-- A flit waits on the lane for a credit alone (R307). -/
def Lane.wantsCredit (x : Lane) : Bool :=
  x.st == .up && x.queued.any (fun l => !l.isEmpty) && decide (x.replay.length < 512) && (nextVc x).isNone

/-- CREDIT_WAIT (Table PRU-12): two F-clock cycles for every lane that waits (log 83). -/
def State.tickLanes (s : State) : State :=
  (s.peruo.lanes.filter (fun e => e.2.wantsCredit)).foldl (fun (s : State) e =>
    s.count (linkCounter e.1) 9 2) s

/-- QUEUE_WAIT_CYCLES (Table COH-14): two F-clock cycles for every request in a home's queue (log 83). -/
def State.tickHubs (s : State) : State :=
  s.coh.waitq.foldl (fun (s : State) q => s.cohCount q.1 0xA (2 * q.2.length)) s

/-! ### The cycle -/

/-- Every update that waits for the outcome of its step counts a cycle (Table UPD-7). -/
def State.tickUpdates (s : State) : State :=
  s.count 0x78C1 0xB (s.outcomeWaits.filter (fun w => w.opcode != 0x94)).length

/-- One A-clock cycle. The count runs while the stages are up (R427); engines run once the module is
ready (R428). -/
def State.tick (s : State) : State :=
  if !s.stagesUp then s
  else
    let s := if s.ready then
        let t := s.poweredDies.foldl (fun (s : State) d => s.tickDie d) s.restoreLedger.pumpColls
        t.tickUpdates.tickLanes.tickHubs.tickPacing
      else s
    s.setPower { s.power with aCycles := s.power.aCycles + 1 }

end Sys2Proof.Machine
end

