-- ==== Sys2Proof/Safety.lean ====
section
/-!
DEFINITION. What a safe run is: it never stops, and the memory it leaves is in canonical form; and what it is
for a request of an open session to be sound (R347 to R350, R449).
-/

namespace Sys2Proof.Safety

open Sys2Proof Sys2Proof.Machine

/-- The first `n` steps from `s` all answer a next state whose memory is canonical. -/
def safeRun (n : Nat) (s : State) : Bool :=
  match n with
  | 0 => s.mem.wf
  | k + 1 =>
    match step s with
    | .next t => t.mem.wf && safeRun k t
    | .fault _ => false
    | .refused _ => false

/-- Message `m` of type `k` arrives over 10BASE-T1S as a new request of open session `x`: its size, its session,
its TAG and a nonce above the last hold, and no answer to its REQ_ID is kept. -/
def requestNew (s : State) (m : DapMsg) (k : Byte) (x : Session) : Bool :=
  let b := dapRequest m k
  m.transport == .t1s && m.hopLimit == 255 && !m.multicast && s.power.draftUp
    && decide (52 ≤ b.length ∧ b.length ≤ 1232) && s.draft.session (BitVec.ofNat 32 (at_ b 4 4)) == some x
    && x.transport == .t1s && tagOk x.key b && decide (x.rxNonce < at_ b 8 8)
    && (x.kept.find? (fun r => r.reqId == BitVec.ofNat 16 (at_ b 2 2))).isNone

/-- Such a request whose header and body have their form (Table DFT-7). -/
def requestSound (s : State) (m : DapMsg) (k : Byte) (x : Session) : Bool :=
  let b := dapRequest m k
  requestNew s m k x && headerOk b (b.length - 52) && bodyOk k.toNat (bodyOfMsg b)

/-- The state in which the request of session `x` runs: it is counted, and its nonce is the last. -/
def requestState (s : State) (m : DapMsg) (k : Byte) (x : Session) : State :=
  (s.count 0x7941 0 1).setSession { x with rxNonce := at_ (dapRequest m k) 8 8 }

/-- State `t` once the request has been answered with `r` and the body `body`. -/
def requestAnswer (t : State) (m : DapMsg) (k : Byte) (x : Session) (r : DapResult) (body : List Byte) : State :=
  let b := dapRequest m k
  let a := t.dapRespond { x with rxNonce := at_ b 8 8 }
    { reqId := BitVec.ofNat 16 (at_ b 2 2), mtype := k, result := r, body := body } true
  a.1.emit (.dap .t1s a.2)

end Sys2Proof.Safety
end

