-- ==== Sys2Proof/WellFormed.lean ====
section
/-!
DEFINITION. Well-formed commands: each operand lies in the range the manual gives its field. The queue,
sequence and body of a descriptor are whole bit fields, and every value of them is well formed.
-/

namespace Sys2Proof

/-- A byte address has 48 bits (R225). -/
def lineOk (line : Nat) : Bool := decide (line < 2 ^ 42)

/-- Agents 0 to 41 of Table COH-1. -/
def agentOk (agent : Nat) : Bool := decide (agent < 42)

def dieOk (die : Nat) : Bool := decide (die < 26)

def loomOk (die loom : Nat) : Bool := dieOk die && decide (loom < 8)

def coreOk (die core : Nat) : Bool := dieOk die && decide (core < 64)

def lineBytesOk (l : List Byte) : Bool := l.length == 64

/-- What cores have stored into a line: its 64 bytes, or nothing. -/
def storedOk (l : List Byte) : Bool := l.length == 0 || l.length == 64

def optLineOk (o : Option (List Byte)) : Bool :=
  match o with
  | some l => lineBytesOk l
  | none => true

/-- A doorbell or register write is 8, 16, 32 or 64 bits wide. -/
def widthOk (w : Nat) : Bool := w == 8 || w == 16 || w == 32 || w == 64

/-- A frame holds at most 16 flits (Table PRU-7), or as many bytes of far data (R333). -/
def frameOk (l : List Byte) : Bool := decide (l.length ≤ 8270)

/-- Pod identifiers are below 12,288 (R302). -/
def hdrOk (h : XHdr) : Bool := decide (h.src < 12288 ∧ h.dst < 12288)

/-- A DAP message is at most 1,232 bytes, 52 of them frame and tag (Table DFT-6). -/
def dapOk (m : DapMsg) : Bool := decide (m.body.length ≤ 1180) && m.tag.length == 32

def addressOk (l : List Byte) : Bool := l.length == 16

/-- The operands of a command are in their ranges. -/
def Instr.wf (i : Instr) : Bool :=
  match i with
  | .sqDb _ w _ | .cqDb _ w _ => widthOk w
  | .mcastDelivery _ _ die loom | .pickAccept die loom | .pickComplete die loom => loomOk die loom
  | .slotEmpty die ring => dieOk die && decide (ring < 256)
  | .vecInstructionComplete die engine => dieOk die && decide (engine < 16)
  | .ecall die core _ _ | .seqAccessFault die core _ | .tiSubmit die core _ _ _ | .tiWait die core _ _
  | .tiPoll die core _ _ | .tiStep die core _ | .tiFence die core | .controlCoreRetire die core =>
    coreOk die core
  | .stashRoomFreed lease => decide (lease < 1024)
  | .treadleGrant die => dieOk die
  | .moveEnds obj | .demotionRetry obj => decide (obj < 4096)
  | .t2LateThresholdExpiry hub _ _ | .hubRetire hub => decide (hub < 8)
  | .laneTrained lane | .nak lane _ | .laneFail lane => decide (lane < 128)
  | .laneMarker lane _ _ _ credits => decide (lane < 128) && credits.length == 4
  | .flitReceive lane b => decide (lane < 128) && b.flit.length == 512
  | .ethFrameReceive frame | .farDatagramReceive frame => frameOk frame
  | .put h _ | .get h _ | .atom h _ | .signal h _ | .rsp h _ | .coll h _ | .exp h _ | .barrier h _
  | .hello h _ | .peerDown h _ _ => hdrOk h
  | .xactTimeoutExpiry peer | .ethRtoExpiry peer => decide (peer < 12288)
  | .rdS agent x => agentOk agent && lineOk x.line && decide (x.offset < 64)
  | .rdX agent x | .upg agent x => agentOk agent && lineOk x.line && decide (x.offset < 64)
  | .wb agent x | .snpS agent x | .snpX agent x | .snpCur agent x =>
    agentOk agent && lineOk x.line && storedOk x.stored
  | .cln agent line | .snpInv agent line
  | .lrSnoopDelayExpiry agent line | .rspI agent line | .rspS agent line | .rspO agent line
  | .rspFwd agent line _ | .grant agent line | .ack agent line | .wbAck agent line
  | .snoopDeadlineMiss agent line => agentOk agent && lineOk line
  | .atomN agent line offset op =>
    (agentOk agent || agent == 64) && lineOk line && decide (offset + op.width ≤ 64 ∧ op.op < 12)
  | .rdNc line | .privSnoopTimeoutExpiry line | .snpdata line | .snpinv line | .snpcur line => lineOk line
  | .wrNc line _ bytes => lineOk line && lineBytesOk bytes
  | .data _ line => lineOk line
  | .agentSnoopLimitExpiry agent | .agentDead agent => agentOk agent
  | .birsp line d _ | .cxlCacheResponse line d => lineOk line && optLineOk d
  | .memwr _ _ bytes _ => lineBytesOk bytes
  | .registerWrite _ offset w _ => widthOk w && offset % (w / 8) == 0
  | .identify m => decide (m.body.length ≤ 1180)
  | .sessionOpen m | .sessionClose m | .read m | .write m | .describe m | .enumerate m
  | .arm m | .armAtStep m | .armCancel m | .discard m | .stagedList m | .eventRead m | .spdmTunnel m
  | .unknownMtype _ m => dapOk m
  | .neighborSolicitation target source _ | .echoRequest target source _ =>
    addressOk target && addressOk source
  | .ownerKey key | .operatorKey key => key.length == 32
  | .nandDieFail die | .wearLevelRelocation die => decide (die < 2)
  | .stageFailure stage => decide (stage < 7)
  | .hartStart hart _ _ => decide (hart < 256)
  | .badCommand _ code => code == 0 || decide (6 < code.toNat)
  | .qctlNop _ | .qctlStep _ | .qctlFlush _ | .descriptorFetch _ _ | .dbRetryExpiry _
  | .flushReadReturn _ | .shutCopy _ | .shutCopy2d _ | .transferAccept _ _ | .transferComplete _ _
  | .shutMcast _ | .mcastSet _ | .creelSet _ | .shutLimit _ | .loomPick _ | .loomChainDrop _
  | .loomSetMode _ | .vecEw2 _ | .vecEw1 _ | .vecFma _ | .vecReduce _ | .vecArgmax _ | .vecRequant _
  | .vecConvert _ | .vecCurve _ | .vecGather _ | .seqLoad _ | .seqStart _ | .seqStop _ | .reedConv _
  | .bwdPick _ | .bwdAttn _ | .stashPut _ | .stashFullWaitExpiry _ _ | .stashGet _ | .stashDrop _
  | .treadleBind _ | .treadleWait _ | .treadleSignal _ | .mbAdmit _ | .mbRetire _ | .updStat _
  | .updApply _ | .barrierOutcomeHeld _ _ | .templeOpen _ | .templeAttach _ | .templeTally _
  | .templeSeal _ | .templeDecide _ | .templeClose _ | .tierRegister _ | .tierFree _ | .tierPromote _
  | .tierEvict _ | .tierPack _ | .t2StallTimeoutExpiry _ | .leaseGrant _ | .leaseRelease _ | .pruPut _
  | .pruAtomic _ | .pruSignal _ | .pruGroup _ | .pruReduce _ | .pruGather _ | .pruBarrier _
  | .pruRegion _ | .memrd _ | .bar2Read _ _
  | .bar2Write _ _ _ | .peerTimeout _ _ | .hostEpochChange _ | .portReady _ _ | .create _ | .destroy _
  | .reattach _ | .attach _ | .regionRegister _ | .regionRelease _ | .queueAbort _
  | .sessionIdleTimeout _ | .mbxDoorbell _ | .mbxAck _ | .setEndpointId _ | .getEndpointId
  | .getMctpVersionSupport _ | .getMessageTypeSupport | .getVendorDefinedMessageSupport _
  | .getVersion _ | .getCapabilities _ | .negotiateAlgorithms _ | .getDigests _ | .getCertificate _
  | .challenge _ | .getMeasurements _ | .chunkSend _ | .chunkGet _ | .spdmUnsupportedRequest _ _
  | .fmtCountersClear _ | .loomCountersClear _ | .vecCountersClear _ | .reedCountersClear _
  | .bwdCountersClear _ | .updCountersClear _ | .templeCountersClear _ | .templeAlarmClear _
  | .strCountersClear _ | .tirCountersClear _ | .cohCountersClear _ | .dirProbeAddr _
  | .hstCountersClear _ | .pruCountersClear _ | .configDefaults _ | .dftCountersClear _
  | .stepCommit _ _ | .groupRestore _ _ _ | .outcomeAdopt _ _ _ _ | .commitRebase _ | .boltNote _ _ _
  | .fwImage _ _ _ | .fwInstall _ | .fwActivate _ _ | .recCountersClear _ | .ownerRelease _
  | .secCountersClear _ | .moduleReset _ | .rootSwitch _ | .pwrCountersClear _ | .modCountersClear _
  | .journalPageProgrammed | .checkpoint | .lifetime | .rowRepair _ _ _ _ _ _ | .mgmtSwitchover
  | .noManagementDie | .rootLossOfLock | .pwrfailN _ | .inputLow _ | .inputHighBand _
  | .overvoltageShutdown _ | .pacingEngage _ | .pacingAdjust _ | .thermalShutdown _ _ | .holdupLow _
  | .coldStart _ | .mrstN _ | .warmStart _ | .coolantExcursion _ | .airExcursion _ | .lossOfInput
  | .standbyRootLock _ | .configurationRequest _ | .peerReadCompletion _ _ _ => true

end Sys2Proof
end

