-- ==== Sys2Proof/Certificates/Slice0/Obligations.lean ====
section
/-!
DEFINITION. The statements for the provers. A statement about a command gives the state that it answers,
written as what it changes of the state before it, so that what is not named is unchanged.
-/

open Sys2Proof Sys2Proof.Machine

/-! ### The block -/

/-- The block takes the command at the front of its queue and runs it on the state with the rest. -/
def Obligations.StepRunsTheFrontCommand : Prop :=
  ∀ (c : Instr) (r : List Instr) (s : State), s.pending = c :: r →
    step s = exec c { s with pending := r }

/-- With no command waiting the block takes one A-clock cycle (log 2): the count of R427 runs while the
stages are up, and nothing changes while they are down. -/
def Obligations.IdleBlockCountsClockCycles : Prop :=
  ∀ s : State, s.pending = [] →
    step s = .next s.tick ∧
    (s.module.pwrGood = false → s.tick = s) ∧
    (s.module.pwrGood = true → s.ready = false →
      s.tick = { s with power := { s.power with aCycles := s.power.aCycles + 1 } })

/-- No command stops the block: every command answers a next state, whatever the state. -/
def Obligations.NoCommandStopsTheBlock : Prop :=
  ∀ (c : Instr) (s : State), ∃ t, exec c s = .next t

/-- Every step keeps memory in its canonical form. -/
def Obligations.StepKeepsMemoryCanonical : Prop :=
  ∀ s t : State, s.mem.wf = true → step s = .next t → t.mem.wf = true

/-- No counter ever passes 2^64 - 1: every step keeps each within its maximum (R53). -/
def Obligations.StepKeepsCountersWithinMaximum : Prop :=
  ∀ s t : State, (∀ e ∈ s.counters, e.2 ≤ 2 ^ 64 - 1) → step s = .next t →
    ∀ e ∈ t.counters, e.2 ≤ 2 ^ 64 - 1

/-- No step lowers an anti-rollback counter: the value in force never falls, on either die (R413). -/
def Obligations.StepNeverLowersFuseCounters : Prop :=
  ∀ s t : State, step s = .next t → ∀ i, s.sec.fuses0.getD i 0 ≤ t.sec.fuses0.getD i 0 ∧
    s.sec.fuses1.getD i 0 ≤ t.sec.fuses1.getD i 0

/-- What the manual fixes for reset: memory lists nothing and is canonical, every counter and token reads
0, every queue is FREE and every lease FREE, HOST_EPOCH and CONFIG_EPOCH are 1, the host is DETACHED. -/
def Obligations.ResetStateAsTheManualSays : Prop :=
  State.reset.mem.wf = true ∧ (∀ i j, State.reset.counter i j = 0) ∧
    (∀ d k, State.reset.token d k = 0) ∧ (∀ q, (State.reset.queue q).state = .free) ∧
    (∀ n, (State.reset.lease n).state = .free) ∧ State.reset.host.epoch = 1 ∧
    State.reset.draft.epoch = 1 ∧ State.reset.host.attach = .detached ∧ State.reset.pending = []

/-! ### Completion (R9, R294, R295) -/

/-- The completion of the only fetched descriptor of an active queue whose completion ring lies in device
memory, where the ring's bytes can be written and no line has an entry or a request at its home: the 16 bytes
of its record stand in slot SEQ mod DEPTH, CQ_WRITTEN and CQ_CONFIRMED are the next sequence, nothing is left
fetched, and every other byte of memory is as before. -/
def Obligations.CompletionWritesItsRecordAndNoOtherByte : Prop :=
  ∀ (s : State) (q : BitVec 16) (f : Fetched) (o : Outcm) (i x : Nat),
    let c := s.queue q
    let a := c.cqSlot f.seq
    let t := s.complete q f.seq o
    let rec_ := recordBytes q c.depth (f.record o.1 o.2.1 o.2.2) false false
    c.state = .active → c.fetched = [f] → f.phase = .waiting → c.abortTail = none → cqInHost c = false →
    inHostWindow a = false → s.objWrite a = .free → s.mayOmit a = false → s.mem.wf = true →
    s.coh.quiet = true → i < 16 → (x < a ∨ a + 16 ≤ x) →
    (t.queue q).fetched = [] ∧ (t.queue q).cqWritten = f.seq + 1 ∧ (t.queue q).cqConfirmed = f.seq + 1 ∧
      cellsGet t.mem.cells (a + i) = rec_.getD i 0 ∧
      cellsGet t.mem.cells x = cellsGet s.mem.cells x

/-- Completing a descriptor changes only its queue, memory with its line copies and frames, counters,
draws, pending vectors and what is sent: every other queue, engine, register, lease, object and table of the
device is as before. -/
def Obligations.CompletionLeavesTheRestOfTheDevice : Prop :=
  ∀ (s : State) (q n : BitVec 16) (o : Outcm),
    let t := s.complete q n o
    (∀ k, k ≠ q → t.queue k = s.queue k) ∧ t.pending = s.pending ∧ t.dies = s.dies ∧ t.power = s.power ∧
      t.module = s.module ∧
      t.draft = s.draft ∧ t.mailbox = s.mailbox ∧ t.host = s.host ∧ t.leases = s.leases ∧
      t.leaseReq = s.leaseReq ∧ t.leaseResult = s.leaseResult ∧ t.objects = s.objects ∧
      t.looms = s.looms ∧ t.heddles = s.heddles ∧ t.mcast = s.mcast ∧ t.mcastSends = s.mcastSends ∧
      t.vecs = s.vecs ∧
      t.cores = s.cores ∧ t.xfers = s.xfers ∧ t.rings = s.rings ∧ t.treadle = s.treadle ∧
      t.readyOrder = s.readyOrder ∧
      t.tokens = s.tokens ∧ t.stash = s.stash ∧ t.segs = s.segs ∧ t.outcomeWaits = s.outcomeWaits ∧
      t.seals = s.seals ∧ t.ctxs = s.ctxs ∧ t.attached = s.attached ∧ t.peruo = s.peruo ∧
      t.journal = s.journal ∧ t.commit = s.commit ∧ t.repairs = s.repairs ∧ t.fw = s.fw ∧
      t.sec = s.sec ∧ t.spdm = s.spdm ∧ t.hartsStopped = s.hartsStopped ∧
      t.coreSlots = s.coreSlots

/-- A counter rises by what is counted, up to 2^64 - 1, and no other counter moves (R53). -/
def Obligations.CountersSaturate : Prop :=
  ∀ (s : State) (i j n k m : Nat),
    (s.count i j n).counter k m = if n ≠ 0 ∧ objKey k m = objKey i j then min (2 ^ 64 - 1) (s.counter i j + n)
      else s.counter k m

/-! ### Queue control, doorbells and fetches (12) -/

/-- QCTL_NOP, QCTL_STEP and QCTL_FLUSH at their turn with their reserved bytes zero (R296): NOP completes
with DONE; STEP sets the step of its queue, after the armed switch that this step brings about; FLUSH is
handed to the dispatch core, which asks for its read. -/
def Obligations.QueueControlCommandsComplete : Prop :=
  (∀ (s : State) (d : Desc), s.canDispatch d 0x00 = true → fieldZero d.body 16 60 = true →
    exec (.qctlNop d) s = .next ((s.handOver d .dispatch).finish d doneOk)) ∧
  (∀ (s : State) (d : Desc), s.canDispatch d 0x01 = true → fieldZero d.body 24 60 = true →
    s.switchDue (fieldOf d.body 16 8) = none →
    exec (.qctlStep d) s =
      (let t := s.handOver d .dispatch
       let n := fieldOf d.body 16 8
       let u := t.setQueue d.queue { t.queue d.queue with step := n }
       .next (({ u with draft := { u.draft with deviceStep := max u.draft.deviceStep n } } : State).finish
         d doneOk))) ∧
  (∀ (s : State) (d : Desc) (p : PendingArm), s.canDispatch d 0x01 = true → fieldZero d.body 24 60 = true →
    s.switchDue (fieldOf d.body 16 8) = some p → s.journalUp = true →
    exec (.qctlStep d) s = .next (((s.handOver d .dispatch).setStep d.queue (fieldOf d.body 16 8)).finish d
      doneOk)) ∧
  (∀ (s : State) (d : Desc), s.canDispatch d 0x02 = true → fieldZero d.body 16 60 = true →
    exec (.qctlFlush d) s = .next ((s.handOver d .dispatch).pump d.queue))

/-- A doorbell whose epoch is HOST_EPOCH's low half, for an ACTIVE queue, with a value that R292 accepts, moves
SQ_TAIL or CQ_HEAD; SQ_DB of the accepted SQ_TAIL changes nothing; any other value is counted as DB_INVALID;
one with another epoch, or for a queue that is not ACTIVE, is counted as DB_STALE_EPOCH; all of these are
counted in DOORBELLS. A write of another width or to another offset of the slot is ignored (R292). -/
def Obligations.DoorbellsMoveTheirIndices : Prop :=
  (∀ (s : State) (q v : BitVec 16), s.ready = true → (s.queue q).state = .active →
    v ≠ (s.queue q).sqTail → seqAhead (s.queue q).sqTail v ≤ (s.queue q).depth →
    seqAhead (s.queue q).cqHead v ≤ (s.queue q).depth →
    exec (.sqDb q 32 (s.host.epoch.extractLsb' 0 16 ++ v)) s =
      .next ((s.count 0x7921 0 1).setQueue q { s.queue q with sqTail := v })) ∧
  (∀ (s : State) (q v : BitVec 16), s.ready = true → (s.queue q).state = .active →
    seqAhead (s.queue q).cqHead v ≤ seqAhead (s.queue q).cqHead (s.queue q).cqWritten →
    exec (.cqDb q 32 (s.host.epoch.extractLsb' 0 16 ++ v)) s =
      .next (((s.count 0x7921 0 1).setQueue q { s.queue q with cqHead := v }).pump q)) ∧
  (∀ (s : State) (q e v : BitVec 16), s.ready = true →
    (e ≠ s.host.epoch.extractLsb' 0 16 ∨ (s.queue q).state ≠ .active) →
    exec (.sqDb q 32 (e ++ v)) s = .next ((s.count 0x7921 0 1).count 0x7921 1 1) ∧
    exec (.cqDb q 32 (e ++ v)) s = .next ((s.count 0x7921 0 1).count 0x7921 1 1)) ∧
  (∀ (s : State) (q : BitVec 16), s.ready = true → (s.queue q).state = .active →
    exec (.sqDb q 32 (s.host.epoch.extractLsb' 0 16 ++ (s.queue q).sqTail)) s =
      .next (s.count 0x7921 0 1)) ∧
  (∀ (s : State) (q v : BitVec 16), s.ready = true → (s.queue q).state = .active →
    (v ≠ (s.queue q).sqTail →
      (s.queue q).depth < seqAhead (s.queue q).sqTail v ∨ (s.queue q).depth < seqAhead (s.queue q).cqHead v →
      exec (.sqDb q 32 (s.host.epoch.extractLsb' 0 16 ++ v)) s =
        .next ((s.count 0x7921 0 1).count 0x7921 2 1)) ∧
    (seqAhead (s.queue q).cqHead (s.queue q).cqWritten < seqAhead (s.queue q).cqHead v →
      exec (.cqDb q 32 (s.host.epoch.extractLsb' 0 16 ++ v)) s =
        .next ((s.count 0x7921 0 1).count 0x7921 2 1))) ∧
  (∀ (s : State) (q : BitVec 16) (w o : Nat) (v : BitVec 32),
    (w ≠ 32 → exec (.sqDb q w v) s = .next s ∧ exec (.cqDb q w v) s = .next s) ∧
    (o % 64 ≠ 0 → o % 64 ≠ 4 → s.doorbellWrite o w v = .next s))

/-- A fetch from a ring in device memory or in host memory, of unpoisoned bytes with the expected sequence and a CRC that
holds, adds the descriptor to the queue in its order and NEXT_SEQ advances; a delay that has run lets the
queue fetch again; a returned zero-length read confirms the records written before it (R293, R295). -/
def Obligations.FetchesAndFlushReadsAdvanceTheQueue : Prop :=
  (∀ (s : State) (q : BitVec 16) (f : FetchData),
    let c := s.queue q
    let a := c.sqBase + 64 * (c.nextSeq.toNat % c.depth)
    let b := s.bytesAt a 64
    s.mayFetch q = true → c.retryWait = false → sqInHost c = false → s.anyPoison a 64 = false →
    leNat (slice b 2 2) = c.nextSeq.toNat → (crc32c (slice b 0 60)).toNat = leNat (slice b 60 4) →
    headerOutcome q b = none → c.state = .active →
    exec (.descriptorFetch q f) s = .next (((s.noteRead a 64).accept q b .waiting).pump q)) ∧
  (∀ (s : State) (q : BitVec 16) (f : FetchData),
    let c := s.queue q
    let b := toLe 64 f.bytes.toNat
    s.mayFetch q = true → c.retryWait = false → sqInHost c = true → f.poison = false →
    s.linePoisoned ((c.sqBase + 64 * (c.nextSeq.toNat % c.depth)) / 64) = false →
    leNat (slice b 2 2) = c.nextSeq.toNat → (crc32c (slice b 0 60)).toNat = leNat (slice b 60 4) →
    headerOutcome q b = none → c.state = .active →
    exec (.descriptorFetch q f) s = .next ((s.accept q b .waiting).pump q)) ∧
  (∀ (s : State) (q : BitVec 16), s.mayFetch q = true → (s.queue q).retryWait = true →
    exec (.dbRetryExpiry q) s =
      .next ((s.setQueue q { s.queue q with retryWait := false }).count 0x7921 4 1)) ∧
  (∀ (s : State) (q v : BitVec 16) (r : List (BitVec 16)), (s.queue q).flushReads = v :: r →
    exec (.flushReadReturn q) s =
      (let c := s.queue q
       let n := c.unconfirmed.length - seqAhead v c.cqWritten
       .next (((s.setQueue q { c with
          cqConfirmed := v, flushReads := r, unconfirmed := c.unconfirmed.drop n }).count 0x7921 8 1).pump q)))

/-! ### Memory as engines write it (R257, R265) -/

/-- An engine's write, when no line has an entry or a request at its home: each byte of it reads back, and every
other address reads as before. In a skein object that lies in tier 2 a byte of an omitted line reads zero
instead (R229). A write to the host window while no host is attached is discarded (R297). -/
def Obligations.EngineWriteReadsBackAndLeavesOtherBytes : Prop :=
  ∀ (s : State) (a x : Nat) (bs : List Byte),
    let t := s.writeMem a bs
    let v := if a ≤ x ∧ x < a + bs.length then bs.getD (x - a) 0 else s.byteAt x
    (s.mem.wf = true → s.coh.quiet = true → inHostWindow a = false ∨ s.host.attach = .attached →
      (s.mayOmit a = false → t.byteAt x = v) ∧ (t.byteAt x = v ∨ t.byteAt x = 0)) ∧
    (inHostWindow a = true → s.host.attach ≠ .attached → t = s)

/-- When no line has an entry or a request at its home, a write that covers a whole 64-byte line clears its
poison, and poison stays in every line that is not written whole (R265). -/
def Obligations.OnlyWholeLineWritesClearPoison : Prop :=
  ∀ (s : State) (a l : Nat) (bs : List Byte), bs ≠ [] → s.coh.quiet = true →
    inHostWindow a = false ∨ s.host.attach = .attached →
    (l ∈ (s.writeMem a bs).mem.poison ↔
      l ∈ s.mem.poison ∧ ¬ (a ≤ 64 * l ∧ 64 * l + 64 ≤ a + bs.length))

/-! ### Shuttles, creels and multicast (09) -/

/-- A legal copy with bytes to move and its local bytes in the lease of its queue is handed to the shuttle it
names (R203, R204, R206); so is a multicast of COUNT blocks of BYTES bytes of the lease, to a group with
members (R219, R220). -/
def Obligations.CopiesAreHandedToTheirShuttle : Prop :=
  (∀ (s : State) (d : Desc), s.canDispatch d 0x10 = true →
    s.copyFieldsOk (s.queue d.queue).die 0x10 d.body = true → (copyShape 0x10 d.body).rows ≠ 0 →
    (copyShape 0x10 d.body).rowBytes ≠ 0 → s.copyLeased d.queue 0x10 d.body = true →
    exec (.shutCopy d) s = .next (s.handXfer d 0x10 (shuttleOf d.queue d.body))) ∧
  (∀ (s : State) (d : Desc), s.canDispatch d 0x11 = true →
    s.copyFieldsOk (s.queue d.queue).die 0x11 d.body = true → (copyShape 0x11 d.body).rows ≠ 0 →
    (copyShape 0x11 d.body).rowBytes ≠ 0 → s.copyLeased d.queue 0x11 d.body = true →
    exec (.shutCopy2d d) s = .next (s.handXfer d 0x11 (shuttleOf d.queue d.body))) ∧
  (∀ (s : State) (d : Desc) (a : Nat), s.canDispatch d 0x12 = true →
    decodeAddr s (fieldOf d.body 24 8) = .here a → fieldBits d.body 16 2 0 ≤ 4 →
    fieldBits d.body 16 7 3 = 0 → fieldOf d.body 20 4 ≠ 0 → fieldOf d.body 20 4 % 256 = 0 →
    fieldOf d.body 20 4 ≤ 65536 → fieldOf d.body 20 4 ≤ fieldOf d.body 40 8 →
    fieldOf d.body 32 4 ≤ 65536 → fieldZero d.body 36 40 = true → fieldZero d.body 48 60 = true →
    fieldOf d.body 32 4 ≠ 0 → (s.members (s.queue d.queue).die (fieldOf d.body 17 1)).isEmpty = false →
    (List.range (fieldOf d.body 32 4)).all
      (fun i => s.within d.queue (a + i * fieldOf d.body 40 8) (fieldOf d.body 20 4)) = true →
    exec (.shutMcast d) s = .next (s.handXfer d 0x12 (shuttleOf d.queue d.body)))

/-- A transfer that waits is accepted when its queue's limit, its shuttle and the transfers before it allow
(R207, R211), and it issues what it reads; one that is accepted, is its queue's oldest and waits for nothing
ends. A held multicast delivery goes to the loom of its group whose credit carries its tag (R74, R221). -/
def Obligations.TransfersAreAcceptedDeliverAndEnd : Prop :=
  (∀ (s : State) (q n : BitVec 16) (x : Xfer), s.ready = true → s.xfer q n = some x → x.accepted = false →
    (s.noteHold x).mayAccept x = true → (isCopy x.opcode && (copyShape x.opcode x.body).toRing) = false →
    x.opcode ≠ 0x12 → x.opcode ≠ 0xB1 →
    exec (.transferAccept q n) s = .next ((((s.noteHold x).updXfer q n
      (fun y => { y with accepted := true })).issueReads q n).drive q n)) ∧
  (∀ (s : State) (q n : BitVec 16) (x : Xfer),
    let c := copyShape x.opcode x.body
    let t := s.noteHold x
    let g := t.ring x.die c.ring
    let k := g.tail
    let u := ((t.setRing x.die c.ring { setSlot g k .filling with tail := (k + 1) % g.slots }).updXfer q n
      (fun y => { y with accepted := true })).updXfer q n (fun y => { y with slot := some k })
    s.ready = true → s.xfer q n = some x → x.accepted = false → t.mayAccept x = true →
    isCopy x.opcode = true → c.toRing = true → g.configured = true → slotAt g k = .empty →
    (∀ a, decodeAddr u c.src = .here a → overlaps a (spanOf c.rows c.rowBytes c.srcStr) (slotAddr g k)
      (spanOf c.rows c.rowBytes c.dstStr) = false) →
    exec (.transferAccept q n) s = .next ((u.issueReads q n).drive q n)) ∧
  (∀ (s : State) (q n : BitVec 16) (x : Xfer) (a : Nat),
    let t := s.noteHold x
    let m : McastSend := { queue := q, seq := n, die := x.die, group := fieldOf x.body 17 1,
                           tag := fieldOf x.body 18 2, bytes := fieldOf x.body 20 4, src := a,
                           count := fieldOf x.body 32 4, stride := fieldOf x.body 40 8, next := 0,
                           held := [], firstBad := none }
    s.ready = true → s.xfer q n = some x → x.accepted = false → t.mayAccept x = true → x.opcode = 0x12 →
    decodeAddr t (fieldOf x.body 24 8) = .here a →
    exec (.transferAccept q n) s =
      .next ((({ t with mcastSends := t.mcastSends ++ [m] } : State).updXfer q n
        (fun y => { y with accepted := true })).releaseHeld m x.shuttle)) ∧
  (∀ (s : State) (q n : BitVec 16) (x : Xfer), s.ready = true → s.xfer q n = some x → x.accepted = false →
    (s.noteHold x).mayAccept x = true → x.opcode = 0xB1 →
    exec (.transferAccept q n) s =
      .next (((s.noteHold x).updXfer q n (fun y => { y with accepted := true })).issueAtomic x)) ∧
  (∀ (s : State) (q n : BitVec 16) (x : Xfer), s.ready = true → s.xfer q n = some x → x.accepted = true →
    s.earlierXfers x = [] → s.xferReady x = true → s.heldByMove x = false →
    exec (.transferComplete q n) s = .next (s.endXfer x)) ∧
  (∀ (s : State) (q n : BitVec 16) (die l : Nat) (x : Xfer) (m : McastSend) (p : Pick) (y : Delivery),
    let f := pickFields p.bwd p.body
    let mine := fun (d : Delivery) => d.pending.contains (8 * die + l) && (m.tag + d.index) % 65536 == f.tag
    s.xfer q n = some x → s.sendOf x = some m → s.ready = true → l < 8 →
    (s.loom die l).creditPick = some p → f.group = m.group →
    Tab.find (s.loom die l).mcastHome f.group = some m.die → m.held.find? mine = some y →
    exec (.mcastDelivery q n die l) s =
      (let t := s.setLoom die l ((s.loom die l).takeDelivery p y.bytes y.poison)
       let k := { m with held := m.held.map (fun z =>
         if z.index = y.index then { z with pending := z.pending.filter (fun k => k ≠ 8 * die + l) } else z) }
       .next ((t.setSend k).releaseHeld k x.shuttle)))

/-- CREEL_SET configures an unconfigured ring with EMPTY slots and frees an idle one; SHUT_LIMIT sets the limit
of a queue of the same lease; MCAST_SET adds members to a group that has no send under way; the slot at
HEAD leaves DRAINING as EMPTY, HEAD advances and its claim counts one slot less (R211, R213, R217, R219). -/
def Obligations.RingsGroupsAndLimitsAreSet : Prop :=
  (∀ (s : State) (d : Desc),
    let die := (s.queue d.queue).die
    let n := fieldOf d.body 17 1
    let bytes := fieldOf d.body 20 4
    let base := fieldOf d.body 24 6
    s.canDispatch d 0x14 = true → fieldOf d.body 18 1 = 0 → fieldOf d.body 19 1 = 0 →
    fieldZero d.body 30 60 = true → 3 ≤ n → n ≤ 16 → 0 < bytes → bytes ≤ 4194304 → bytes % 64 = 0 →
    base % 64 = 0 → inDieStore die base (n * bytes) = true →
    (s.ring die (fieldOf d.body 16 1)).configured = false →
    exec (.creelSet d) s = .next (((s.handOver d .dispatch).setRing die (fieldOf d.body 16 1)
      { configured := true, slots := n, slotBytes := bytes, base := base, head := 0, tail := 0,
        slotTab := List.replicate n .empty, claims := [], gone := [] }).finish d doneOk)) ∧
  (∀ (s : State) (d : Desc),
    let die := (s.queue d.queue).die
    let g := s.ring die (fieldOf d.body 16 1)
    s.canDispatch d 0x14 = true → fieldOf d.body 18 1 = 1 → fieldOf d.body 19 1 = 0 →
    fieldZero d.body 30 60 = true → fieldOf d.body 17 1 = 0 → fieldOf d.body 20 4 = 0 →
    fieldOf d.body 24 6 = 0 → g.configured = true → g.slotTab.all (fun x => x == .empty) = true →
    g.claims.all Claim.released = true →
    exec (.creelSet d) s =
      .next (((s.handOver d .dispatch).setRing die (fieldOf d.body 16 1) Ring.init).finish d doneOk)) ∧
  (∀ (s : State) (d : Desc),
    let q := BitVec.ofNat 16 (fieldOf d.body 16 2)
    let n := fieldOf d.body 18 2
    let t := s.handOver d .dispatch
    s.canDispatch d 0x15 = true → fieldZero d.body 20 60 = true → n ≠ 0 → n ≤ 256 →
    (q = d.queue ∨ ((s.queue q).state ≠ .free ∧ (s.queue q).lease = (s.queue d.queue).lease)) →
    exec (.shutLimit d) s = .next ((t.setQueue q { t.queue q with limit := n }).finish d doneOk)) ∧
  (∀ (s : State) (d : Desc),
    let die := (s.queue d.queue).die
    let g := fieldOf d.body 16 1
    let ms := memberList d.body
    let old := s.members die g
    let adds := ms.filter (fun m => !old.contains m)
    let t := adds.foldl (fun (s : State) m => s.setLoom (m / 8) (m % 8) { s.loom (m / 8) (m % 8) with
      mcastHome := Tab.write (s.loom (m / 8) (m % 8)).mcastHome g die }) (s.handOver d .dispatch)
    s.canDispatch d 0x13 = true → fieldOf d.body 17 1 = 0 → fieldZero d.body 18 24 = true →
    fieldZero d.body 50 60 = true → ms ≠ [] → ms.all (fun m => s.dieActive (m / 8)) = true →
    adds.all (fun m => (Tab.find (s.loom (m / 8) (m % 8)).mcastHome g).isNone) = true →
    s.mcastSends = [] →
    exec (.mcastSet d) s = .next (({ t with
      mcast := Tab.write s.mcast (groupKey die g) (adds.foldl insertNat old) } : State).finish d doneOk)) ∧
  (∀ (s : State) (die r : Nat), s.ready = true → r < 256 →
    slotAt (s.ring die r) (s.ring die r).head = .draining →
    exec (.slotEmpty die r) s =
      .next ((s.setRing die r ((setSlot (s.ring die r) (s.ring die r).head .empty).advance
        (s.ring die r).slots)).settleRing die r)) ∧
  (∀ (g : Ring) (n : Nat), g.gone = [] →
    (g.advance n).head = (g.head + 1) % max 1 g.slots ∧ (g.advance n).claims = dropClaim g.claims ∧
      (g.advance n).slotTab = g.slotTab)

/-! ### Looms (03) -/

/-- A pick with ROWS = 0, of either opcode, completes with DONE_EMPTY after its descriptor checks. It reads no
operand record and changes no chain state, so it consumes no K_INDEX (R71). -/
def Obligations.PickWithoutRowsIsDoneEmpty : Prop :=
  ∀ (s : State) (d : Desc) (l : Nat) (bwd : Bool),
    let die := (s.queue d.queue).die
    let f := pickFields bwd d.body
    (if f.any then s.freeLoom die else some f.loom) = some l →
    s.canDispatchTo d (if bwd then 0x70 else 0x30) (.loom l) = true →
    pickFieldsOk f (s.numCfg d.queue) (s.loom die l).shapeMode = true → pickRefsOk die f = true → f.rows = 0 →
    exec (if bwd then .bwdPick d else .loomPick d) s = .next (s.finish d doneEmpty) ∧
      (s.finish d doneEmpty).looms = s.looms

/-- A pick with rows that names its loom, or ANY with a loom free, and passes its descriptor checks is handed
to that loom, whether it is a LOOM_PICK or a BWD_PICK; there it is accepted or waits (R70, R77, R78). -/
def Obligations.PicksAreHandedToTheirLoom : Prop :=
  (∀ (s : State) (d : Desc) (l : Nat),
    let die := (s.queue d.queue).die
    let f := pickFields false d.body
    let cfg := s.numCfg d.queue
    (if f.any then s.freeLoom die else some f.loom) = some l → s.canDispatchTo d 0x30 (.loom l) = true →
    pickFieldsOk f cfg (s.loom die l).shapeMode = true → pickRefsOk die f = true → f.rows ≠ 0 →
    exec (.loomPick d) s = .next ((s.handOver d (.loom l)).handPick die l
      (newPick d.queue d.seq false d.body cfg))) ∧
  (∀ (s : State) (d : Desc) (l : Nat),
    let die := (s.queue d.queue).die
    let f := pickFields true d.body
    let cfg := s.numCfg d.queue
    (if f.any then s.freeLoom die else some f.loom) = some l → s.canDispatchTo d 0x70 (.loom l) = true →
    pickFieldsOk f cfg (s.loom die l).shapeMode = true → pickRefsOk die f = true → f.rows ≠ 0 →
    exec (.bwdPick d) s = .next ((s.handOver d (.loom l)).handPick die l
      (newPick d.queue d.seq true d.body cfg)))

/-- A loom with a free entry takes a waiting pick that it can accept; its front pick, once supplied,
completes: PICKS_COMPLETED counts it, its entry is free, and a chain that it belongs to goes on with what the
pick merged, or ends; the END of a chain that has failed ends as its failed pass did (R72, R78). -/
def Obligations.LoomTakesAndCompletesPicks : Prop :=
  (∀ (s u : State) (die l : Nat) (p : Pick),
    let m := s.loom die l
    s.ready = true → l < 8 → (firstOfQueue m.waiting).head? = some p →
    (s.setLoom die l { m with waiting := m.waiting.filter (fun w =>
      !(w.queue == p.queue && w.seq == p.seq)) }).offerPick die l p = some u →
    exec (.pickAccept die l) s = .next u) ∧
  (∀ (s : State) (die l : Nat) (p : Pick) (r : List Pick),
    let f := pickFields p.bwd p.body
    let run := s.runPick die l p
    let t := (run.st.count (0x7830 + die) (16 * l + 8) 1).count (0x7830 + die)
      (16 * l + (if f.mc then 0xA else 9)) ((productPasses f.product).length - (if f.keep then 1 else 0))
    let t := t.count (0x78A1 + die) 0 ((tilePlan f).length - p.tiles)
    let m := t.loom die l
    let c := if f.chain = 0 then m.chain else if f.chain = 3 then none
      else m.chain.map (fun c => { c with merge := run.merge })
    s.ready = true → l < 8 → (s.loom die l).picks = p :: r → pickSupplied p = true →
    decidedOutcm (s.loom die l) p = none → run.out.1 = stDone →
    exec (.pickComplete die l) s = .next (((t.setLoom die l { m with
      picks := r, chain := c, warp := run.warp }).complete p.queue p.seq run.out).settleDie die)) ∧
  (∀ (s : State) (die l : Nat) (p : Pick) (r : List Pick) (o : Outcm),
    let m := s.loom die l
    let f := pickFields p.bwd p.body
    s.ready = true → l < 8 → m.picks = p :: r → f.chain = 3 → p.ends = none →
    m.chain.bind (fun c => c.failed) = some o → o.1 = stNarOut →
    exec (.pickComplete die l) s =
      .next ((((s.count (0x7830 + die) (16 * l + 8) 1).setLoom die l { m with picks := r, chain := none }).complete
        p.queue p.seq o).settleDie die))

/-- LOOM_CHAIN_DROP removes the open chain of its own queue, and LOOM_SET_MODE sets the mode of every masked
loom that is idle without a chain; both wait for the earlier descriptors of their queue (R72, R65). -/
def Obligations.ChainsAreDroppedAndModesAreSet : Prop :=
  (∀ (s : State) (d : Desc), s.canDispatch d 0x31 = true → fieldBits d.body 16 7 3 = 0 →
    fieldZero d.body 17 60 = true → s.earlierDone d = true →
    exec (.loomChainDrop d) s = .next (((s.handOver d .dispatch).dropChain (s.queue d.queue).die
      (fieldBits d.body 16 2 0) d.queue).finish d doneOk)) ∧
  (∀ (s : State) (d : Desc),
    let die := (s.queue d.queue).die
    let sel := bitList 8 (fieldOf d.body 16 1)
    let mode := fieldOf d.body 17 1
    s.canDispatch d 0x32 = true → mode < 2 → fieldZero d.body 18 60 = true → fieldOf d.body 16 1 ≠ 0 →
    s.earlierDone d = true → sel.all (fun l => (s.loom die l).chain.isNone) = true →
    sel.all (fun l => (s.loom die l).picks.isEmpty) = true →
    exec (.loomSetMode d) s = .next ((sel.foldl (fun (s : State) l =>
      s.setLoom die l { s.loom die l with shapeMode := mode == 1 }) (s.handOver d .dispatch)).finish d doneOk))

/-! ### Vector engines and control cores (04) -/

/-- A vector instruction that names an engine with a free entry, or ANY with one free, and passes its descriptor
and record checks becomes the engine's youngest instruction, for each of the nine commands, and claims the creel
slots of its first operand when that lies in a ring; one with ROWS = 0 or COLS = 0 completes with DONE_EMPTY
and no engine changes; the front instruction completes with its results written and INSTRUCTIONS_COMPLETED
counted (R82, R84, R94, R216). -/
def Obligations.VectorInstructionsEnterAndComplete : Prop :=
  (∀ (o : VecOp) (s : State) (d : Desc) (e : Nat),
    let c : Desc → Instr := match o with
      | .ew2 => .vecEw2 | .ew1 => .vecEw1 | .fma => .vecFma | .reduce => .vecReduce | .argmax => .vecArgmax
      | .requant => .vecRequant | .convert => .vecConvert | .curve => .vecCurve | .gather => .vecGather
    let f := vecFields d.body
    let die := (s.queue d.queue).die
    let cfg := s.numCfg d.queue
    let a := s.readRec f.aRef
    let n := if a.source = 1 then ceilDiv a.rows (rowsPerSlot (s.ring die a.ring) a) else 0
    (if f.any then s.freeVec die else some f.engine) = some e →
    s.canDispatchTo d o.opcode (.vec e) = true → vecFieldsOk o f cfg = true → vecRefsOk die o f = true →
    (f.rows ≠ 0 → f.cols ≠ 0 → s.vecRecords die e d.queue o f = none → (s.vec die e).length < 4 →
      exec (c d) s =
        (let t := s.handOver d (.vec e)
         let u := t.setVec die e (s.vec die e ++
           [{ queue := d.queue, seq := d.seq, opcode := o.opcode, body := d.body, cfg := cfg, need := n,
              drained := [], busyLeft := vecBusy o f cfg.tabby, started := false }])
         .next (if n = 0 then u else u.claimSlots die a.ring d.queue d.seq n))) ∧
    (f.rows = 0 ∨ f.cols = 0 →
      exec (c d) s = .next (s.finish d doneEmpty) ∧ (s.finish d doneEmpty).vecs = s.vecs)) ∧
  (∀ (s : State) (die e : Nat) (j : VecJob) (r : List VecJob), s.ready = true → e < 16 →
    s.vec die e = j :: r → j.need = 0 → (s.runVec die e j).2.1 = stDone →
    exec (.vecInstructionComplete die e) s =
      (let x := s.runVec die e j
       .next ((((x.1.setVec die e r).count (0x7851 + die) (8 * e + 3) 1).complete j.queue j.seq x.2).settleDie
         die)))

/-- SEQ_LOAD fills instruction memory from unpoisoned bytes of the lease, SEQ_START starts a loaded core with
its two arguments in x10 and x11 and its queue range, SEQ_STOP ends the program; a program also ends by
ECALL with a7 = 0 or by a fault, and its SEQ_START completes (R97, R99, R101). -/
def Obligations.SequenceProgramsLoadRunAndEnd : Prop :=
  (∀ (s : State) (d : Desc),
    let die := (s.queue d.queue).die
    let core := fieldOf d.body 17 1
    let len := fieldOf d.body 20 4
    let src := fieldOf d.body 24 6
    let t := (s.handOver d .seqCores).noteRead src len
    let c := t.core die core
    s.canDispatch d 0x58 = true → fieldOf d.body 16 1 = 0 → fieldZero d.body 18 20 = true →
    fieldZero d.body 30 60 = true → s.seqCoreOk die core = true → (s.core die core).running = false →
    len ≤ 65536 → len % 4 = 0 → s.seqEnabled = true → len ≠ 0 → s.within d.queue src len = true →
    (s.handOver d .seqCores).anyPoison src len = false →
    exec (.seqLoad d) s =
      .next ((t.setCore die core { c with imem := overlay c.imem 0 (t.bytesAt src len) }).finish d doneOk)) ∧
  (∀ (s : State) (d : Desc),
    let die := (s.queue d.queue).die
    let core := fieldOf d.body 17 1
    let base := fieldOf d.body 18 2
    let count := fieldOf d.body 20 2
    let t := s.handOver d .seqCores
    let c : CtrlCore := { t.core die core with
      running := true, pc := 0, startQ := d.queue, startSeq := d.seq, queueBase := base, queueCnt := count }
    s.canDispatch d 0x59 = true → fieldOf d.body 16 1 = 0 → fieldZero d.body 22 32 = true →
    fieldZero d.body 48 60 = true → s.seqCoreOk die core = true → (s.core die core).running = false →
    count ≠ 0 → count ≤ 256 → s.seqEnabled = true →
    (List.range count).all (fun i => decide (base + i < 65536) &&
      ((s.queue (BitVec.ofNat 16 (base + i))).state != .free &&
        (s.queue (BitVec.ofNat 16 (base + i))).die == die)) = true →
    exec (.seqStart d) s =
      .next (t.setCore die core ((c.setReg 10 (BitVec.ofNat 64 (fieldOf d.body 32 8))).setReg 11
        (BitVec.ofNat 64 (fieldOf d.body 40 8))))) ∧
  (∀ (s : State) (d : Desc),
    let die := (s.queue d.queue).die
    let core := fieldOf d.body 17 1
    s.canDispatch d 0x5A = true → fieldOf d.body 16 1 = 0 → fieldZero d.body 18 60 = true →
    s.seqCoreOk die core = true →
    exec (.seqStop d) s =
      .next (((s.handOver d .seqCores).endProgram die core (outcm stAborted 0 0)).finish d doneOk)) ∧
  (∀ (s : State) (die core : Nat) (a0 : BitVec 64), s.seqRuns die core = true →
    exec (.ecall die core 0 a0) s =
      (let c := s.core die core
       .next ((s.setCore die core { c with running := false }).complete c.startQ c.startSeq
         (outcm stDone (a0.toNat % 2 ^ 32) 0)))) ∧
  (∀ (s : State) (die core : Nat) (f : SeqFault), s.seqRuns die core = true →
    exec (.seqAccessFault die core f) s =
      (let c := s.core die core
       .next ((s.setCore die core { c with running := false }).complete c.startQ c.startSeq
         (match f with
          | .outsideLease a => outcm stNoLease (a.toNat % 2 ^ 32) 0
          | .illegal pc => outcm stBadOpcode (pc.toNat % 2 ^ 32) 0
          | .poisonedLoad => outcm stPoisonSrc 0 0))))

/-- The tensor-issue instructions of a running program (Table VEC-6). TI.SUBMIT of an aligned descriptor in die
store, to an ACTIVE queue of the range with room, writes it to the submission ring, rings the doorbell and
returns its ticket; TI.WAIT and TI.POLL of a written record return its status and detail; TI.STEP returns
the queue's step; TI.FENCE with every record written forgets the tickets. Each writes only RD of its core;
x0 reads zero, a write to it is discarded, and any other register reads what was written last. -/
def Obligations.TensorIssueInstructions : Prop :=
  (∀ (s : State) (die core : Nat) (rd : BitVec 5) (a : BitVec 64) (q : BitVec 16),
    let c := s.core die core
    let x := s.queue q
    let n := x.sqTail
    s.seqRuns die core = true → a.toNat % 64 = 0 → c.inRange q.toNat = true → x.state = .active →
    sqInHost x = false → seqAhead x.cqHead x.sqTail < x.depth →
    s.objWrite (x.sqBase + 64 * (n.toNat % x.depth)) = .free →
    s.leaseCovers (s.coreLease die core) a.toNat 64 = true → inDieStore die a.toNat 64 = true →
    s.anyPoison a.toNat 64 = false →
    exec (.tiSubmit die core rd a (q.setWidth 64)) s =
      (let t := s.writeMem (x.sqBase + 64 * (n.toNat % x.depth)) (stampDescriptor (s.bytesAt a.toNat 64) n)
       let t := (t.sqDoorbell q (s.host.epoch.extractLsb' 0 16 ++ (n + 1))).count 0x7871 die 1
       .next (t.setCore die core { c.setReg rd.toNat (BitVec.ofNat 64 (q.toNat * 2 ^ 48 + n.toNat)) with
         tickets := c.tickets.filter (fun k => !s.recordWritten k.1 k.2) ++ [(q, n)] }))) ∧
  (∀ (s : State) (die core : Nat) (rd : BitVec 5) (t : BitVec 64), s.seqRuns die core = true →
    s.recordWritten (ticketQueue t) (ticketSeq t) = true →
    exec (.tiWait die core rd t) s = .next (s.setCore die core ((s.core die core).setReg rd.toNat
      (s.ticketValue (ticketQueue t) (ticketSeq t)))) ∧
    exec (.tiPoll die core rd t) s = .next (s.setCore die core ((s.core die core).setReg rd.toNat
      (s.ticketValue (ticketQueue t) (ticketSeq t))))) ∧
  (∀ (s : State) (die core : Nat) (rd : BitVec 5) (t : BitVec 64), s.seqRuns die core = true →
    s.recordWritten (ticketQueue t) (ticketSeq t) = false →
    exec (.tiPoll die core rd t) s = .next (s.setCore die core ((s.core die core).setReg rd.toNat
      (BitVec.allOnes 64)))) ∧
  (∀ (s : State) (die core : Nat) (rd : BitVec 5), s.seqRuns die core = true →
    exec (.tiStep die core rd) s = .next (s.setCore die core ((s.core die core).setReg rd.toNat
      (BitVec.ofNat 64 (s.queue (s.core die core).startQ).step)))) ∧
  (∀ (s : State) (die core : Nat), s.seqRuns die core = true →
    (s.core die core).tickets.all (fun t => s.recordWritten t.1 t.2) = true →
    exec (.tiFence die core) s = .next (s.setCore die core { s.core die core with tickets := [] })) ∧
  (∀ (c : CtrlCore) (i j : Nat) (v : BitVec 64), (c.setReg 0 v) = c ∧ c.reg 0 = 0 ∧
    (i ≠ 0 → (c.setReg i v).reg i = v) ∧ (j ≠ i → (c.setReg i v).reg j = c.reg j))

/-! ### Reed and backward engines (05, 06) -/

/-- A convolution whose descriptor, geometry and bias record pass every check of theirs, with nothing that they
say poisoned: with an empty tensor it completes with DONE_EMPTY and EMPTY_TENSORS counts it; otherwise it runs
on its reed, with its bias row when it has one (R108, R118, R119, R121). -/
def Obligations.ConvolutionsRunOnTheReed : Prop :=
  ∀ (s : State) (d : Desc) (ox ow oy : Opf),
    let die := (s.queue d.queue).die
    let cfg := s.numCfg d.queue
    let f := reedF d.body
    let g := s.readGeom f.geom
    s.canDispatch d 0x60 = true → firstFail (reedFieldChecks die f cfg) = none →
    decodeOpf f.opfX = some ox → decodeOpf f.opfW = some ow → decodeOpf f.opfY = some oy →
    s.anyPoison f.geom 96 = false →
    firstFail (s.reedRefChecks die f g ++ geomChecks die f g ox ow oy) = none →
    (g.empty = true →
      exec (.reedConv d) s = .next ((s.count (0x7880 + die) 1 1).finish d doneEmpty)) ∧
    (g.empty = false → s.within d.queue f.geom 96 = true →
      (f.bias = true → s.within d.queue f.biasRef 48 = true ∧ s.anyPoison f.biasRef 48 = false) →
      exec (.reedConv d) s = .next (s.runNow d 0x60 (fun t => t.runReed d die (t.reedEnv f cfg ox ow oy) cfg)))

/-- A BWD_ATTN of legal fields and records of matching shapes: with no query or no key rows it completes with
DONE_EMPTY; otherwise, with its records unpoisoned and its images in its lease, it runs on the looms of its die
with the three images it writes (R141, R143). -/
def Obligations.AttentionBackwardRunsOnItsDie : Prop :=
  ∀ (s : State) (d : Desc) (oi os oo : Opf),
    let die := (s.queue d.queue).die
    let f := attnF d.body
    let r := s.readAttn f.ref
    let q := s.readRec r.q
    let k := s.readRec r.k
    s.canDispatch d 0x71 = true → decodeOpf f.opfIn = some oi → decodeOpf f.opfStat = some os →
    decodeOpf f.opfOut = some oo → attnFieldsOk f (s.numCfg d.queue) = true → f.ref % 16 = 0 →
    inDieStore die f.ref 96 = true → s.anyPoison f.ref 96 = false → r.rsvd = true →
    r.refs.all (recAddrOk die) = true → r.curve % 16 = 0 → inDieStore die r.curve 16 = true →
    s.attnShapes die r oi os oo = true → s.anyPoison r.q 48 = false → s.anyPoison r.k 48 = false →
    (q.rows = 0 ∨ k.rows = 0 → exec (.bwdAttn d) s = .next (s.finish d doneEmpty)) ∧
    (q.rows ≠ 0 → k.rows ≠ 0 → r.refs.any (fun a => s.anyPoison a 48) = false →
      s.anyPoison r.curve 16 = false → s.within d.queue f.ref 96 = true →
      [r.dq, r.dk, r.dv].all (fun a => s.imageLeased d.queue a oo) = true →
      exec (.bwdAttn d) s = .next (s.runNow d 0x71 (fun t => t.runAttn d die f (t.readAttn f.ref) oi os oo)))

/-! ### Stash, tokens and micro-batches (06) -/

/-- A put whose entry fits (R136) is charged and copied; a get of a live entry of its LENGTH runs, and one
of no entry completes with bit 31 of its detail set; a drop frees what it matches; room that is freed
places waiting puts; a put that waited too long completes with STASH_FULL. -/
def Obligations.StashPutsGetsAndDrops : Prop :=
  (∀ (s : State) (d : Desc) (t : Bool),
    let l := (s.queue d.queue).lease
    let n := fieldOf d.body 32 8
    s.canDispatch d 0x72 = true → fieldBits d.body 21 7 1 = 0 → fieldZero d.body 22 24 = true →
    fieldZero d.body 30 32 = true → fieldZero d.body 40 60 = true → s.putWaits d.queue d.seq = false →
    s.keyBusy d.queue d.body = false → (s.stashOf l).at (keyOf d.body) = none → n ≠ 0 →
    s.within d.queue (fieldOf d.body 24 6) n = true → s.restoring = false → (s.stashOf l).latch = none →
    stashPlace (s.lease l) (s.stashOf l).entries n = some t →
    exec (.stashPut d) s = .next ((s.chargePut l d.queue d.seq d.body (s.queue d.queue).step n t).handXfer d
      0x72 (d.queue.toNat % 4))) ∧
  (∀ (s : State) (d : Desc),
    let l := (s.queue d.queue).lease
    let n := fieldOf d.body 32 8
    let e := ((s.stashOf l).at (keyOf d.body)).filter (fun e => e.live && !e.dying)
    s.canDispatch d 0x73 = true → fieldBits d.body 21 7 1 = 0 → fieldZero d.body 22 24 = true →
    fieldZero d.body 30 32 = true → fieldZero d.body 40 60 = true → s.keyBusy d.queue d.body = false →
    n ≠ 0 → s.within d.queue (fieldOf d.body 24 6) n = true →
    (e = none → exec (.stashGet d) s =
      .next (((s.handOver d (engineOf d.queue 0x73 d.body)).count 0x78BB 6 1).finish d
        (outcm stDone bit31 0))) ∧
    (∀ x, e = some x → x.length = n → exec (.stashGet d) s =
      .next ((s.getCount l (keyOf d.body) true false).handXfer d 0x73 (d.queue.toNat % 4)))) ∧
  (∀ (s : State) (d : Desc),
    let l := (s.queue d.queue).lease
    let x := s.stashOf l
    let t := s.setStash l (Stash.sweep { x with entries := x.entries.map (fun e =>
      if dropMatches d.body e then { e with dying := true } else e) })
    s.canDispatch d 0x74 = true → fieldZero d.body 21 60 = true →
    (t.stashOf l).entries.any (fun e => dropMatches d.body e) = false →
    exec (.stashDrop d) s = .next ((t.handOver d (engineOf d.queue 0x74 d.body)).finish d doneOk)) ∧
  (∀ (s : State) (l : Nat), s.ready = true →
    exec (.stashRoomFreed l) s = .next (s.retryPuts l (s.stashOf l).waits)) ∧
  (∀ (s : State) (q n : BitVec 16),
    let l := (s.queue q).lease
    s.ready = true → s.putWaits q n = true →
    exec (.stashFullWaitExpiry q n) s =
      .next (((s.setStash l { s.stashOf l with waits := (s.stashOf l).waits.filter (fun w =>
        !(w.queue == q && w.seq == n)) }).count 0x78BB 5 1).complete q n (outcm stStashFull 0 0)))

/-- TREADLE_BIND binds or unbinds a queue of its die; a turn of the treadle grants the ready heads; a WAIT whose
token is at or past its target completes and one below it stays. A token meets a target when it lies less
than 2^31 past it, across the wrap too (R129 to R133). -/
def Obligations.TreadleBindsGrantsAndWaits : Prop :=
  (∀ (s : State) (d : Desc),
    let q := fieldOf d.body 16 2
    let ctl := fieldOf d.body 18 1
    let c := s.queue (BitVec.ofNat 16 q)
    let t := s.handOver d (engineOf d.queue 0x75 d.body)
    s.canDispatch d 0x75 = true → bitsOf ctl 6 1 = 0 → fieldZero d.body 19 60 = true → c.state ≠ .free →
    c.die = (s.queue d.queue).die →
    (bitOf ctl 7 = true → exec (.treadleBind d) s =
      .next (({ t with treadle := Tab.remove t.treadle q
                       readyOrder := t.readyOrder.filter (fun x => x ≠ q) } : State).finish d doneOk)) ∧
    (bitOf ctl 7 = false →
      (Tab.find s.treadle q).isSome = true ∨ (s.boundQueues (s.queue d.queue).die).length < 16 →
      exec (.treadleBind d) s =
        .next (({ t with treadle := Tab.write t.treadle q (bitOf ctl 0) } : State).finish d doneOk))) ∧
  (∀ (s : State) (die : Nat), s.ready = true → s.tensorDie die = true →
    exec (.treadleGrant die) s = .next (s.grantTurn die)) ∧
  (∀ (s : State) (d : Desc), s.canDispatch d 0x76 = true → waitFieldsOk s d.body = true →
    (waitMet s d.body = true → exec (.treadleWait d) s =
      .next ((s.handOver d (engineOf d.queue 0x76 d.body)).finish d doneOk)) ∧
    (waitMet s d.body = false → exec (.treadleWait d) s = .next s)) ∧
  (∀ (target : BitVec 32) (n : Nat), n < 2 ^ 32 →
    (tokenMet (target + BitVec.ofNat 32 n) target = true ↔ n < 2 ^ 31))

/-- Each tensor die holds 4,096 tokens that read 0 at power-on. A TREADLE_SIGNAL takes effect once every earlier
descriptor of its queue has completed, and stays until then: in mode 0 it adds INCREMENT to the token modulo
2^32, in mode 1 it sets it; no other token changes, and it completes with DONE (R132). -/
def Obligations.SignalsMoveTheirToken : Prop :=
  (∀ die k, State.reset.token die k = 0) ∧
  (∀ (s : State) (d : Desc),
    let die := fieldOf d.body 16 1
    let k := fieldOf d.body 18 2
    let v := BitVec.ofNat 32 (fieldOf d.body 20 4)
    let t := s.handOver d (engineOf d.queue 0x77 d.body)
    let w := if fieldOf d.body 17 1 = 0 then s.token die k + v else v
    let u := ({ t with tokens := Tab.write t.tokens (4096 * die + k) w } : State).finish d doneOk
    s.canDispatch d 0x77 = true → signalFieldsOk s d.body = true →
    (s.earlierDone d = true → exec (.treadleSignal d) s = .next u ∧ u.token die k = w ∧
      ∀ i j, j < 4096 → (i, j) ≠ (die, k) → u.token i j = s.token i j) ∧
    (s.earlierDone d = false → exec (.treadleSignal d) s = .next s))

/-- An admission that fits its budget adds its segment; a retirement removes an admission of its
micro-batch and segment; each completes with DONE (R144, R145). -/
def Obligations.MicrobatchesAreAdmittedAndRetired : Prop :=
  (∀ (s : State) (d : Desc) (g : Seg) (n k : Nat), s.canDispatch d 0x78 = true →
    s.admitCase d.queue d.body = .admits g n k → s.admitFits g = true →
    exec (.mbAdmit d) s =
      (let t := s.handOver d (engineOf d.queue 0x78 d.body)
       let u : State := { t with segs := t.segs ++ [g] }
       .next ((if g.segment = 0 ∧ 1 < n then u.count (0x78A1 + g.die) 0xA 1 else u).finish d
         (outcm stDone k 0)))) ∧
  (∀ (s : State) (d : Desc),
    let hit := fun (g : Seg) => g.die == (s.queue d.queue).die && g.mb == fieldOf d.body 16 4
      && g.segment == fieldOf d.body 28 2
    let t := s.handOver d (engineOf d.queue 0x79 d.body)
    s.canDispatch d 0x79 = true → fieldZero d.body 20 28 = true → fieldZero d.body 30 60 = true →
    s.segs.any hit = true →
    exec (.mbRetire d) s = .next (({ t with segs := t.segs.eraseP hit } : State).finish d doneOk))

/-! ### Updates and the temple (07, 08) -/

/-- An update that passes its checks and finds room at its engine runs whole when its step's outcome is held; else
it waits there until BARRIER_OUTCOME_HELD, and then runs under the configuration that it was dispatched in
(R156, R172, R357). -/
def Obligations.UpdatesRunOnceTheirOutcomeIsHeld : Prop :=
  (∀ (s : State) (d : Desc) (o : Outcome), s.canDispatch d 0x80 = true →
    s.updChecks d.queue false d.body = none → s.updLoad (s.queue d.queue).die < 2 →
    s.outcomeOf (updF d.body).step = some o →
    exec (.updStat d) s = .next (s.runNow d 0x80 (fun t =>
      t.updSettle d.queue false (updF d.body) o none))) ∧
  (∀ (s : State) (d : Desc) (o : Outcome), s.canDispatch d 0x81 = true →
    s.updChecks d.queue true d.body = none → s.updLoad (s.queue d.queue).die < 2 →
    s.outcomeOf (updF d.body).step = some o →
    exec (.updApply d) s = .next (s.runNow d 0x81 (fun t =>
      t.updSettle d.queue true (updF d.body) o none))) ∧
  (∀ (s : State) (d : Desc), s.canDispatch d 0x81 = true →
    s.updChecks d.queue true d.body = none → s.outcomeOf (updF d.body).step = none →
    s.outcomeGone (updF d.body).step = false → s.updLoad (s.queue d.queue).die < 2 →
    exec (.updApply d) s =
      (let t := s.handOver d .update
       .next { t with outcomeWaits := t.outcomeWaits ++
         [{ queue := d.queue, seq := d.seq, opcode := 0x81, body := d.body, conf := s.conf }] })) ∧
  (∀ (s : State) (q n : BitVec 16) (w : OutcomeWait) (o : Outcome),
    let t : State := { s with outcomeWaits := s.outcomeWaits.filter (fun y =>
      !(y.queue == w.queue && y.seq == w.seq)) }
    let r := t.underConf w.conf (fun u => u.updSettle w.queue (w.opcode == 0x81) (updF w.body) o none)
    s.ready = true → s.outcomeWaits.find? (fun w => w.queue == q && w.seq == n) = some w →
    w.opcode ≠ 0x94 → s.outcomeOf (updF w.body).step = some o →
    exec (.barrierOutcomeHeld q n) s = .next (r.1.complete w.queue w.seq r.2))

/-- Opening, attaching to and closing a context, and clearing its alarm (R175, R176, R188, R190). -/
def Obligations.TempleContextsOpenAttachAndClose : Prop :=
  (∀ (s : State) (d : Desc),
    let k := fieldOf d.body 16 1
    let n := fieldOf d.body 20 4
    let t := s.handOver d (engineOf d.queue 0x90 d.body)
    s.canDispatch d 0x90 = true → fieldOf d.body 18 2 = 0 → fieldZero d.body 44 60 = true → k ≤ 63 →
    (s.ctx k).state = .closed →
    (fieldOf d.body 17 1 = 1 → n = 0 → fieldOf d.body 24 8 = 0 → fieldOf d.body 32 6 = 0 →
      fieldOf d.body 38 6 = 0 →
      exec (.templeOpen d) s = .next ((t.setCtx k
        { Ctx.init with state := .opened, perch := true, alarm := (t.ctx k).alarm }).finish d doneOk)) ∧
    (fieldOf d.body 17 1 = 0 → n ≠ 0 → n ≤ 65536 → fieldOf d.body 38 6 % 16 = 0 →
      s.within d.queue (fieldOf d.body 32 6) (256 * n) = true →
      fieldOf d.body 38 6 = 0 ∨ s.within d.queue (fieldOf d.body 38 6) (histBytes n) = true →
      exec (.templeOpen d) s =
        (let r := t.openTrain d.queue k n (fieldOf d.body 24 8) (fieldOf d.body 32 6) (fieldOf d.body 38 6)
         .next (r.1.finish d (outcm stDone r.2 0))))) ∧
  (∀ (s : State) (d : Desc),
    let k := fieldOf d.body 16 1
    let ctl := fieldOf d.body 17 1
    let q := fieldOf d.body 18 2
    let t := s.handOver d (engineOf d.queue 0x91 d.body)
    s.canDispatch d 0x91 = true → k ≤ 63 → bitsOf ctl 6 0 = 0 → fieldZero d.body 20 60 = true →
    (s.ctx k).state ≠ .closed →
    (bitOf ctl 7 = false → Tab.find s.attached q = none ∨ Tab.find s.attached q = some k →
      exec (.templeAttach d) s =
        .next (({ t with attached := Tab.write t.attached q k } : State).finish d doneOk)) ∧
    (bitOf ctl 7 = true → Tab.find s.attached q = some k →
      exec (.templeAttach d) s =
        .next (({ t with attached := Tab.remove t.attached q } : State).finish d doneOk))) ∧
  (∀ (s : State) (d : Desc),
    let k := fieldOf d.body 16 1
    let t := s.handOver d (engineOf d.queue 0x95 d.body)
    s.canDispatch d 0x95 = true → k ≤ 63 → fieldZero d.body 17 60 = true → (s.ctx k).state ≠ .closed →
    s.outcomeWaits.any (fun w => w.decides k) = false →
    exec (.templeClose d) s =
      .next (({ t.setCtx k { Ctx.init with alarm := (t.ctx k).alarm } with
        attached := t.attached.filter (fun e => e.2 ≠ k) } : State).finish d doneOk)) ∧
  (∀ (s : State) (v : Byte), s.power.draftUp = true → v.toNat ≤ 63 →
    exec (.templeAlarmClear v) s =
      (let t := s.clearAlarm v.toNat
       .next { t with draft := { t.draft with lastResult := .ok } }))

/-- A tally adds its plane's bins to its layer's table; a seal with no watched descriptor running closes
the step; a decision whose outcome is held, or becomes held, settles (R178 to R190). -/
def Obligations.TempleStepsAreTalliedSealedAndDecided : Prop :=
  (∀ (s : State) (d : Desc) (o : Opf),
    let k := fieldOf d.body 16 1
    let l := fieldOf d.body 20 4
    let a := fieldOf d.body 32 6
    let c := s.ctx k
    let r := s.readRec a
    let u := s.handOver d (engineOf d.queue 0x92 d.body)
    let t := u.tallyBins r o (u.readBins c.tallyBase l)
    s.canDispatch d 0x92 = true → decodeOpf (fieldOf d.body 17 1) = some o → k ≤ 63 →
    fieldZero d.body 18 20 = true → fieldZero d.body 38 60 = true → c.perch = false → c.state = .opened →
    o.fmt = .acc64 → l < c.formats.length → fieldOf d.body 24 8 = c.step → a % 16 = 0 →
    s.anyPoison a 48 = false → r.rsvd = true → r.source = 0 → r.rows ≠ 0 → r.cols ≠ 0 →
    s.objWrite c.tallyBase = .free → s.updLoad (s.queue d.queue).die < 2 → s.within d.queue a 48 = true →
    s.within d.queue c.tallyBase (256 * c.formats.length) = true →
    s.within d.queue r.mant (r.mantExtent o.fmt) = true →
    s.within d.queue r.scale (r.scaleExtent o) = true →
    exec (.templeTally d) s = .next (((u.noteRead r.mant (r.mantExtent o.fmt)).writeMem
      (c.tallyBase + 256 * l) ((t.1.map (fun b => toLe 8 b)).flatten)).finish d
        (if t.2 then outcm stPoisonSrc 0 0 else doneOk))) ∧
  (∀ (s : State) (d : Desc),
    let k := fieldOf d.body 16 1
    let c := s.ctx k
    let t := s.handOver d .dispatch
    s.canDispatch d 0x93 = true → s.seals.find? (fun w => w.queue == d.queue && w.seq == d.seq) = none →
    k ≤ 63 → fieldZero d.body 17 24 = true → fieldZero d.body 32 60 = true → c.perch = false →
    c.state = .opened → fieldOf d.body 24 8 = c.step → s.watchedOpen k c.step = [] → s.seals = [] →
    exec (.templeSeal d) s = .next (({ (t.setCtx k { c with state := .sealed }) with
      seals := [] } : State).complete d.queue d.seq (outcm stDone (if c.flag then 1 else 0) 0))) ∧
  (∀ (s : State) (d : Desc) (o : Outcome),
    let k := fieldOf d.body 16 1
    let c := s.ctx k
    let n := c.formats.length
    let tally := fieldOf d.body 32 6
    s.canDispatch d 0x94 = true → k ≤ 63 → fieldZero d.body 17 24 = true → fieldZero d.body 44 60 = true →
    c.perch = false → c.state = .sealed → fieldOf d.body 24 8 = c.step → fieldOf d.body 38 6 % 16 = 0 →
    tally = 0 ∨ s.within d.queue tally (256 * n) = true →
    s.within d.queue (fieldOf d.body 38 6) (histBytes n) = true →
    s.within d.queue c.tallyBase (256 * n) = true → s.decideHeld d.body = false →
    s.outcomeOf (fieldOf d.body 24 8) = some o →
    exec (.templeDecide d) s = .next (s.runNow d 0x94 (fun t => t.settleDecide d.body o))) ∧
  (∀ (s : State) (q n : BitVec 16) (w : OutcomeWait) (o : Outcome),
    let t : State := { s with outcomeWaits := s.outcomeWaits.filter (fun y =>
      !(y.queue == w.queue && y.seq == w.seq)) }
    let r := t.underConf w.conf (fun u => u.settleDecide w.body o)
    s.ready = true → s.outcomeWaits.find? (fun w => w.queue == q && w.seq == n) = some w → w.opcode = 0x94 →
    s.outcomeOf (fieldOf w.body 24 8) = some o → s.decideHeld w.body = false →
    exec (.barrierOutcomeHeld q n) s = .next (r.1.complete w.queue w.seq r.2))

/-! ### Tiers and leases (10) -/

/-- Registering, freeing, promoting, evicting and packing an object: an unpinned object in tier 2 that is promoted
begins to move with its pin, eviction of the last pin begins the move back, the end of a promotion leaves
the object in tier 1 and that of a demotion leaves it in tier 2, a stalled move fails back, and late and stalled
tier 2 accesses are counted (R239 to R248). -/
def Obligations.TierObjectsAndTheirMoves : Prop :=
  (∀ (s : State) (d : Desc) (n : Nat),
    let j := fieldOf d.body 16 2
    let kind := fieldOf d.body 18 1
    let x := (s.queue d.queue).lease
    let o : TierObj :=
      { state := .residentT2, packed := kind == 1, owner := x, opf := BitVec.ofNat 8 (fieldOf d.body 19 1),
        rows := fieldOf d.body 20 4, cols := fieldOf d.body 24 4, size := n, sectors := 0, logical := 0,
        pins := [], movePins := [], backing := emptyMem, waiters := [], byDevice := false, doomed := false }
    let t := s.handOver d (engineOf d.queue 0xA0 d.body)
    s.canDispatch d 0xA0 = true →
    registerSize (fieldOf d.body 19 1) (fieldOf d.body 20 4) (fieldOf d.body 24 4) (fieldOf d.body 32 8)
      = some n → j ≤ 4095 → kind ≤ 1 → fieldZero d.body 28 32 = true → fieldZero d.body 40 60 = true →
    Tab.find s.objects j = none → n ≠ 0 → s.restoring = false →
    (kind = 1 ∨ n / 65536 * frameCharge ≤ s.freeT2 x) →
    exec (.tierRegister d) s =
      .next ((((t.setObj j o).clearRange (objAddr j) n).freshRange (objAddr j) n).finish d doneOk)) ∧
  (∀ (s : State) (d : Desc) (o : TierObj),
    let j := fieldOf d.body 16 2
    let t := s.handOver d (engineOf d.queue 0xA1 d.body)
    s.canDispatch d 0xA1 = true → Tab.find s.objects j = some o → fieldZero d.body 18 60 = true →
    o.state = .residentT2 → o.pins = [] → o.owner = (s.queue d.queue).lease →
    exec (.tierFree d) s = .next ((t.freeObj j o.size).finish d doneOk)) ∧
  (∀ (s : State) (d : Desc) (o : TierObj),
    let j := fieldOf d.body 16 2
    let t := s.handOver d .tier
    let x := (t.queue d.queue).lease
    s.canDispatch d 0xA2 = true → fieldZero d.body 18 60 = true → j ≤ 4095 →
    Tab.find s.objects j = some o → s.restoring = false →
    (o.state = .residentT2 → t.pinRoom x o.size = true →
      exec (.tierPromote d) s = .next (t.beginPromote j { o with
        waiters := o.waiters ++ [(d.queue, d.seq, 0xA2)], pins := [x], movePins := [x] })) ∧
    (o.state = .residentT1 → o.pins.contains x = true →
      exec (.tierPromote d) s = .next (t.complete d.queue d.seq (outcm stDone bit31 0)))) ∧
  (∀ (s : State) (d : Desc) (o : TierObj),
    let j := fieldOf d.body 16 2
    let t := s.handOver d .tier
    let x := (t.queue d.queue).lease
    s.canDispatch d 0xA3 = true → fieldZero d.body 18 60 = true → j ≤ 4095 →
    Tab.find s.objects j = some o → o.state = .residentT1 → o.pins.contains x = true →
    (o.pins.filter (fun p => p ≠ x) = [] →
      exec (.tierEvict d) s = .next (t.beginDemote j { o with
        waiters := o.waiters ++ [(d.queue, d.seq, 0xA3)] } false)) ∧
    (∀ p r, o.pins.filter (fun p => p ≠ x) = p :: r →
      exec (.tierEvict d) s = .next (((t.setObj j { o with pins := p :: r }).count 0x7909 2 1).complete d.queue
        d.seq (pinnedDetail (r.length + 1))))) ∧
  (∀ (s : State) (d : Desc) (o : TierObj) (a : Nat),
    let j := fieldOf d.body 16 2
    let u := s.handOver d (engineOf d.queue 0xA4 d.body)
    let t := (u.noteRead a o.size).packFrom j a o.size
    let n := t.objSectors j o.size o.opf o.rows o.cols
    s.canDispatch d 0xA4 = true → Tab.find s.objects j = some o →
    decodeAddr s (fieldOf d.body 24 8) = .here a → fieldZero d.body 18 24 = true →
    fieldZero d.body 32 60 = true → o.state = .residentT2 → s.restoring = false →
    s.within d.queue a o.size = true → o.owner = (s.queue d.queue).lease → o.packed = false →
    exec (.tierPack d) s = .next (((t.countEncode j o.size o.opf o.rows o.cols).setObj j
      { o with sectors := n, logical := o.frames }).finish d
        (if u.anyPoison a o.size then outcm stPoisonSrc 0 0 else outcm stDone n 0))) ∧
  (∀ (s : State) (j : Nat) (o : TierObj), s.ready = true → Tab.find s.objects j = some o → o.doomed = false →
    (o.state = .promoting →
      exec (.moveEnds j) s =
        (let t := s.gatherObj j o.size
         let t := (t.countDecode j o (t.writtenFrames j o)).countGranules o.size true
         let t := (t.setObj j { o with state := .residentT1, waiters := [], movePins := [] }).count 0x7909 0 1
         .next (((t.freshRange (objAddr j) o.size).settleWaiters j o.waiters 0xA2 doneOk).unpinned j).moveOver)) ∧
    (o.state = .demoting → o.packed = false → o.waiters = [] → (s.lease o.owner).state = .active →
      ∃ t u, exec (.moveEnds j) s = .next t ∧ Tab.find t.objects j = some u ∧ u.state = .residentT2 ∧ u.pins = [] ∧
        ∀ k, k ≠ j → Tab.find t.objects k = Tab.find s.objects k)) ∧
  (∀ (s : State) (j : Nat) (o : TierObj), s.ready = true → Tab.find s.objects j = some o →
    o.state = .residentT1 → o.byDevice = true → o.pins = [] →
    exec (.demotionRetry j) s =
      .next ((s.gatherObj j o.size).setObj j { o with state := .demoting, byDevice := true })) ∧
  (∀ (s : State) (hub n : Nat) (c : LateCause), s.ready = true → hub < 8 →
    exec (.t2LateThresholdExpiry hub c n) s = .next ((s.count (hubCounter hub) 0xB 1).count (hubCounter hub)
      (match c with
        | .retrain => 0xC | .eccRetry => 0xD | .codecBacklog => 0xE | .controllerFault => 0xF) n)) ∧
  (∀ (s : State) (j : Nat) (o : TierObj), s.ready = true → Tab.find s.objects j = some o →
    o.state = .demoting →
    exec (.t2StallTimeoutExpiry (.move j)) s =
      .next (((((s.setObj j { o with state := .residentT1, waiters := [], doomed := false }).count 0x7909 3
        1).settleWaiters j o.waiters 0xA3 (outcm stTierStall 0 0)).moveOver).count 0x7909 4 1)) ∧
  (∀ (s : State) (a l : Nat) (f : Fill), s.ready = true → s.coh.fill a l = some f →
    s.inTier2 (64 * l) = true → (Tab.read s.coh.waitq [] l).contains f.req = true →
    exec (.t2StallTimeoutExpiry (.coreLoad a l)) s =
      .next ((((s.cohCount l 9 1).setCoh (s.coh.dequeue f.req)).answerPoison a l).count 0x7909 4 1))

/-- A granted lease is cleared, written to the table and named by LEASE_RESULT; a lease that may be released
is freed; one that may not leaves everything but LEASE_RESULT (R235 to R237). -/
def Obligations.LeasesAreGrantedAndReleased : Prop :=
  (∀ (s : State) (v : Byte) (n : Nat) (l : Lease),
    let t := (s.clearRange l.t1Base l.t1Bytes).clearRange l.t2Base l.t2Bytes
    let t := (t.freshRange l.t1Base l.t1Bytes).freshRange l.t2Base l.t2Bytes
    let t := (bitList 26 l.dieMask.toNat).foldl (fun (s : State) d =>
      s.clearRange (dieStore d) dieStoreBytes) t
    let t := t.count 0x7909 5 1
    s.power.draftUp = true → s.grantCase = .ok (n, l) →
    exec (.leaseGrant v) s = .next { t with
      leases := Tab.write s.leases n l, grantSeq := l.grantSeq, leaseResult := leaseWord 0 n
      draft := { t.draft with lastResult := .ok } }) ∧
  (∀ (s : State) (n : BitVec 16),
    let t := if s.releaseReason n.toNat = 0 then s.freeLease n.toNat else s
    s.power.draftUp = true →
    exec (.leaseRelease n) s = .next { t with
      leaseResult := leaseWord (s.releaseReason n.toNat) n.toNat
      draft := { t.draft with lastResult := .ok } })

/-! ### Dies, hubs and cores that leave service (04, 10, 16) -/

/-- A hub, a control core, an agent that is declared dead or that leaves a snoop unanswered goes out of
service; a host snoop deadline is answered for its holder; a server core starts (R102, R103, R243,
R268, R270, R274). -/
def Obligations.PartsLeaveServiceAndCoresStart : Prop :=
  (∀ (s : State) (k : Nat), s.ready = true → k < 8 → s.dieActive (dieHub k) = true →
    exec (.hubRetire k) s = .next ((s.retireHub k).purgeHub s.activeHubs k)) ∧
  (∀ (s : State) (die core : Nat),
    let t := (s.roleRecord 1 (die * 64 + core) 1).retireCore die core
    let t := t.event 0x2010 die die (t.coresRetired die) 0
    s.ready = true → die < 26 → s.dieState die ≠ 2 → core < 64 → (s.core die core).retired = false →
    exec (.controlCoreRetire die core) s = .next (if t.hasDispatch die then t else t.agentDies die)) ∧
  (∀ (s : State) (a : Nat), s.ready = true → a < 26 → s.dieState a ≠ 2 →
    exec (.agentDead a) s = .next ((s.tensorDies a).buryAgent a)) ∧
  (∀ (s : State) (a : Nat), s.ready = true → privileged a = false → s.owesAnswer a = true →
    exec (.agentSnoopLimitExpiry a) s = .next (s.agentDies a)) ∧
  (∀ (s : State) (a line : Nat) (t : Txn), s.coh.txn (txnKey true line) = some t → s.ready = true →
    t.waitFor.contains a = true → privileged a = true →
    exec (.snoopDeadlineMiss a line) s = .next (s.answerForHolder line t)) ∧
  (∀ (s : State) (line : Nat), s.ready = true →
    exec (.privSnoopTimeoutExpiry line) s = .next (s.privTimeout line)) ∧
  (∀ (s : State) (h : Nat) (a o : BitVec 64), s.ready = true →
    exec (.hartStart h a o) s = .next { s with hartsStopped := s.hartsStopped.filter (fun k => k ≠ h) })

/-! ### Peruo descriptors (13) -/

/-- A put to a region, an atomic and a signal go to their engine; a signal to the own pod is made at once, and
one to another pod is sent; regions are registered and released (R318 to R320, R335). -/
def Obligations.PeruoDescriptorsPutSignalAndRegister : Prop :=
  (∀ (s : State) (d : Desc) (a : Nat),
    let f := putF d.body
    s.canDispatch d 0xB0 = true → f.rsvd = true → fieldBits d.body 16 2 0 ≤ 4 →
    s.scopeOk f.scope f.peer = true → decodeAddr s f.src = .here a → f.region ≤ 1023 →
    f.scope ≠ 1 ∨ f.peer ≠ s.ownPod →
    f.signal = false ∨ (f.scope ≠ 2 ∧ f.token ≤ 4095 ∧ f.sigDie ≤ 25 ∧
      (s.putPeer f.scope f.peer ≠ s.ownPod ∨ s.tensorDie f.sigDie = true)) →
    f.length ≠ 0 → s.within d.queue a f.length = true →
    exec (.pruPut d) s = .next (s.handXfer d 0xB0 (shuttleOf d.queue d.body))) ∧
  (∀ (s : State) (d : Desc) (t : Target),
    let op := fieldOf d.body 16 1
    let w := fieldOf d.body 17 1
    let ref := fieldOf d.body 32 6
    let out := fieldOf d.body 38 6
    s.canDispatch d 0xB1 = true → fieldZero d.body 18 24 = true → fieldZero d.body 44 60 = true →
    atomicWidthOk op w = true → decodeAddr s (fieldOf d.body 24 8) = t → t ≠ .bad →
    s.within d.queue ref (if op = 9 then 2 * w else w) = true → s.within d.queue out w = true →
    s.objWrite out = .free → (∀ a, t = .here a → s.within d.queue a w = true ∧ s.objWrite a = .free) →
    exec (.pruAtomic d) s = .next (s.handXfer d 0xB1 (d.queue.toNat % 4))) ∧
  (∀ (s : State) (d : Desc),
    let scope := fieldBits d.body 17 2 1
    let die := fieldOf d.body 22 1
    let mode := fieldOf d.body 23 1
    let token := fieldOf d.body 48 2
    let inc := BitVec.ofNat 32 (fieldOf d.body 52 4)
    let p := s.putPeer scope (fieldOf d.body 18 2)
    s.canDispatch d 0xB2 = true → fieldOf d.body 16 1 = 0 → fieldBits d.body 17 0 0 = 0 →
    fieldBits d.body 17 7 3 = 0 → fieldZero d.body 20 22 = true → fieldZero d.body 24 48 = true →
    fieldZero d.body 50 52 = true → fieldZero d.body 56 60 = true → scope ≤ 1 →
    s.scopeOk scope (fieldOf d.body 18 2) = true → mode ≤ 1 → token ≤ 4095 → die ≤ 25 →
    s.earlierDone d = true →
    (p = s.ownPod → s.tensorDie die = true →
      exec (.pruSignal d) s =
        .next (((s.handOver d .dispatch).signalToken die token mode inc).finish d doneOk)) ∧
    (p ≠ s.ownPod → s.refusal p (scope == 1) = none → s.tagRoom p = true →
      exec (.pruSignal d) s = .next ((s.handOver d .dispatch).sendXact p (scope == 1) d.queue d.seq 3 0 0
        (s.stepOf d.queue) (.signal mode die (s.stepOf d.queue) token inc)))) ∧
  (∀ (s : State) (d : Desc),
    let r := fieldOf d.body 16 2
    let a := fieldOf d.body 24 6
    let n := fieldOf d.body 32 8
    let t := s.handOver d .dispatch
    s.canDispatch d 0xB7 = true → fieldZero d.body 20 24 = true → fieldZero d.body 30 32 = true →
    fieldZero d.body 40 60 = true → fieldOf d.body 19 1 ≤ 7 → r ≤ 1023 →
    (fieldOf d.body 18 1 = 0 → (s.region r).registered = false → n ≠ 0 → s.within d.queue a n = true →
      exec (.pruRegion d) s = .next (({ t with peruo := { t.peruo with
        regions := Tab.write t.peruo.regions r
          { registered := true, enabled := true, perm := BitVec.ofNat 3 (fieldOf d.body 19 1),
            lease := (t.queue d.queue).lease, target := a, length := n } } } : State).finish d doneOk)) ∧
    (fieldOf d.body 18 1 = 1 → (s.region r).registered = true → fieldOf d.body 19 1 = 0 → a = 0 → n = 0 →
      exec (.pruRegion d) s = .next (({ t with peruo := { t.peruo with
        regions := Tab.remove t.peruo.regions r } } : State).finish d doneOk)))

/-- A group is formed of distinct members that include the own pod, of the domain or, with pod mode, of the
pods, and removed when no collective of it waits; a collective whose fields and memory hold, or which has a
zero extent, is started; an accepted one is looked at again (R321 to R325). -/
def Obligations.CollectivesAndTheirGroups : Prop :=
  (∀ (s : State) (d : Desc),
    let gi := fieldOf d.body 16 2
    let pod := fieldOf d.body 19 1
    let n := fieldOf d.body 20 2
    let a := fieldOf d.body 24 6
    let t := s.handOver d .dispatch
    s.canDispatch d 0xB3 = true → fieldZero d.body 22 24 = true → fieldZero d.body 30 60 = true →
    pod ≤ 1 → gi ≤ 4095 →
    (fieldOf d.body 18 1 = 0 → Tab.find s.peruo.groups gi = none → pod = 0 ∨ s.podMode ≠ 0 → 2 ≤ n →
      n ≤ 12288 → s.within d.queue a (2 * n) = true → s.anyPoison a (2 * n) = false →
      distinctNats (s.groupList a n) = true → (s.groupList a n).contains s.ownPod = true →
      (s.groupList a n).all (fun p => decide (p ≤ 12287) && (pod == 1 || sameDomain p s.ownPod)) = true →
      exec (.pruGroup d) s =
        (let u := t.noteRead a (2 * n)
         .next (({ u with peruo := { u.peruo with
           groups := Tab.write u.peruo.groups gi
             { podScope := pod == 1, members := s.groupList a n
               rank := (s.groupList a n).findIdx (fun p => p == s.ownPod), nextSeq := 0 } } } :
           State).finish d doneOk))) ∧
    (fieldOf d.body 18 1 = 1 → (Tab.find s.peruo.groups gi).isSome = true →
      s.peruo.collWaits.any (fun w => collGroup w.body == gi) = false →
      exec (.pruGroup d) s = .next (({ t with peruo := { t.peruo with
        groups := Tab.remove t.peruo.groups gi
        collMsgs := t.peruo.collMsgs.filter (fun m => m.group != gi) } } : State).finish d doneOk))) ∧
  (∀ (s : State) (d : Desc) (g : PGroup),
    s.peruo.collWaits.find? (fun w => w.queue == d.queue && w.seq == d.seq) = none →
    s.group (collGroup d.body) = some g → (collGroup d.body = groupAlone ∨ collSeqOf d.body = g.nextSeq) →
    (s.canDispatch d 0xB4 = true → (redF d.body).ok { s.numCfg d.queue with tabby := false }
        g.members.length = true →
      (redF d.body).rows = 0 ∨ (redF d.body).cols = 0 ∨
        s.redMem d.queue (redF d.body) g.members.length g.rank = none →
      exec (.pruReduce d) s = .next (s.startColl d 0xB4)) ∧
    (s.canDispatch d 0xB5 = true → (gatF d.body).ok g.members.length = true →
      (gatF d.body).len = 0 ∨ s.gatMem d.queue (gatF d.body) g.members.length g.rank = none →
      exec (.pruGather d) s = .next (s.startColl d 0xB5)) ∧
    (s.canDispatch d 0xB6 = true → s.barOk (barF d.body) = true →
      exec (.pruBarrier d) s = .next (s.startColl d 0xB6))) ∧
  (∀ (s : State) (d : Desc) (w : CollWait), s.ready = true →
    s.peruo.collWaits.find? (fun w => w.queue == d.queue && w.seq == d.seq) = some w →
    exec (.pruReduce d) s = .next (s.pumpColl w) ∧ exec (.pruGather d) s = .next (s.pumpColl w) ∧
    exec (.pruBarrier d) s = .next (s.pumpColl w))

/-! ### Lanes (13) -/

/-- A training lane comes up; a marker with the right identity sets the sender's credits and one with a
wrong identity marks the lane MISCABLED; a flit without error in its place is accepted and counted; an
uncorrectable block, and a flit whose header CRC or whose record CRC fails, is dropped and counted; a NAK
resends; a lane that fails is FAILED (R303 to R310). A flit reads from its 512 bytes as it was formed, with a
header CRC that holds (R304, R305). -/
def Obligations.LanesTrainAndTakeFlits : Prop :=
  (∀ (s : State) (n : Nat), s.ready = true → n < 128 → (s.lane n).st = .training →
    exec (.laneTrained n) s = .next (s.laneUp n)) ∧
  (∀ (s : State) (n pod ld ln : Nat) (cr : List Nat), s.ready = true → n < 128 →
    (s.lane n).st = .up ∨ (s.lane n).st = .training → cr.length = 4 →
    (s.wrongCable n pod ld ln = false → exec (.laneMarker n pod ld ln cr) s =
      .next ((s.setLane n { s.lane n with credits := cr }).drainLane n)) ∧
    (s.wrongCable n pod ld ln = true → exec (.laneMarker n pod ld ln cr) s =
      (let t := s.setLane n { s.lane n with st := .miscabled }
       .next (((t.event 0x5003 n (dieLink (n / 16)) (t.lane n).value 0).moveRecs n).loseUnreachable)))) ∧
  (∀ (s : State) (n : Nat) (b : Block),
    let t := s.count (linkCounter n) 2 b.corrected
    s.ready = true → n < 128 → (s.lane n).st = .up →
    (b.uncorrectable = true → exec (.flitReceive n b) s = .next (t.dropBlock n)) ∧
    (b.uncorrectable = false → flitHeaderOk b.flit = false →
      exec (.flitReceive n b) s = .next ((t.count (linkCounter n) 4 1).dropBlock n)) ∧
    (b.uncorrectable = false → flitHeaderOk b.flit = true → flitRecordsOk b.flit = false →
      exec (.flitReceive n b) s = .next ((t.count 0x7939 2 1).dropBlock n)) ∧
    (b.uncorrectable = false → flitHeaderOk b.flit = true → flitRecordsOk b.flit = true →
      exec (.flitReceive n b) s = .next ((t.takeFlit n (flitOf b.flit)).drainLane n))) ∧
  (∀ (s : State) (n : Nat) (a : BitVec 12), s.ready = true → n < 128 → (s.lane n).st = .up →
    exec (.nak n a) s = .next ((s.takeNak n a).drainLane n)) ∧
  (∀ (s : State) (n : Nat), s.ready = true → exec (.laneFail n) s = .next (s.failLane n)) ∧
  (∀ (f : Flit), f.vc < 4 → f.creditVc < 4 → f.credits < 256 → f.hdr.src < 2 ^ 14 → f.hdr.dst < 2 ^ 14 →
    f.payload.length = 480 → flitOf f.bytes = f ∧ flitHeaderOk f.bytes = true)

/-- Lane l of link die k carries domain lane 8k + l below 8, pod lane 7k + l - 8 below 15, and is the spare
at 15: 64 domain lanes, 56 pod lanes and 8 spares (R28). -/
def Obligations.LaneRolesAreFixed : Prop :=
  (∀ k l, k < 8 → l < 16 → laneRole (16 * k + l) =
    if l < 8 then .domain (8 * k + l) else if l < 15 then .pod (7 * k + l - 8) else .spare) ∧
  ((List.range 128).countP (fun n => match laneRole n with | .domain _ => true | _ => false) = 64) ∧
  ((List.range 128).countP (fun n => match laneRole n with | .pod _ => true | _ => false) = 56) ∧
  ((List.range 128).countP (fun n => laneRole n == .spare) = 8)

/-! ### Records of other devices (13) -/

/-- A put, a get, an atomic and a signal of a device that agrees act at the target and are answered with
DONE (R318 to R320); one whose pair or view differs is refused and counted (R315). -/
def Obligations.PeerRecordsActAtTheTarget : Prop :=
  (∀ (s : State) (h : XHdr) (r : PutRec) (a : Nat),
    let t := s.writeMem a (slice r.data.bytes 0 r.length)
    let bad := (r.data.poison.map (fun k => a / 64 + k)).filter (linesOf a r.length).contains
    s.ready = true → s.agree h r.step = .accept → s.putTarget h r = .ok a → s.objWrite a = .free →
    exec (.put h r) s = .next ((t.poisonResult bad).sendNow h.src r.pod h.xtag r.step
      (.rsp stDone 0 0 [] []))) ∧
  (∀ (s : State) (h : XHdr) (r : GetRec), s.ready = true → s.agree h r.step = .accept →
    r.region = noRegion → sameDomain h.src s.ownPod = true → s.leased r.addr r.length = true →
    exec (.get h r) s = .next ((s.noteRead r.addr r.length).sendNow h.src false h.xtag r.step
      (.rsp stDone 0 0 (s.bytesAt r.addr r.length)
        ((s.poisonIn r.addr r.length).map (fun l => l - r.addr / 64))))) ∧
  (∀ (s : State) (h : XHdr) (r : AtomRec),
    let x := s.atomicAt r.addr r.op r.width (leNat (slice r.operand 0 r.width)) 0
    s.ready = true → s.agree h r.step = .accept → s.cachedAtomic h.src h.xtag = none → r.op ≠ 9 →
    atomicWidthOk r.op r.width = true → sameDomain h.src s.ownPod = true → s.leased r.addr r.width = true →
    s.objWrite r.addr = .free → s.anyPoison r.addr r.width = false →
    exec (.atom h r) s = .next ((x.2.cacheAtomic h.src h.xtag (.rsp stDone x.1 0 [] [])).sendNow h.src false
      h.xtag r.step (.rsp stDone x.1 0 [] []))) ∧
  (∀ (s : State) (h : XHdr) (r : SignalRec), s.ready = true → s.agree h r.step = .accept → r.mode ≤ 1 →
    r.token ≤ 4095 → s.tensorDie r.die = true →
    exec (.signal h r) s = .next ((s.signalToken r.die r.token r.mode r.increment).sendNow h.src false h.xtag
      r.step (.rsp stDone 0 0 [] []))) ∧
  (∀ (s : State) (h : XHdr) (r : SignalRec) (st : Byte), s.ready = true → s.agree h r.step = .refuse st →
    exec (.signal h r) s =
      .next ((s.count 0x7939 (if st = stCfgMismatch then 0 else 1) 1).sendNow h.src false h.xtag r.step
        (.rsp st 0 (BitVec.ofNat 32 s.ownPod) [] [])))

/-- A response ends its transaction; the records of a collective are kept and it goes on; a HELLO is taken;
PEER_DOWN makes a member LOST; an unanswered transaction declares its peer lost; packets of the Ethernet
mode are acknowledged and resent, and one whose UDP checksum fails is counted; a far datagram is written to its
region (R313 to R317, R331 to R333). -/
def Obligations.AnswersTimeoutsAndPackets : Prop :=
  (∀ (s : State) (h : XHdr) (r : RspRec) (x : Xact), s.ready = true → h.dst = s.ownPod →
    statusListed r.status = true → viewHas (s.viewAt s.draft.deviceStep) h.src = true →
    s.peruo.xacts.find? (fun x => x.peer == h.src && x.xtag == h.xtag) = some x →
    exec (.rsp h r) s = .next (s.takeRsp x r)) ∧
  (∀ (s : State) (h : XHdr) (r : CollRec), s.ready = true → s.agree h r.step = .accept →
    s.collAwaited r.group r.collSeq = true →
    exec (.coll h r) s = .next ((s.putMsg { s.collMsg r.group h.src r.collSeq with
      coll := some r }).pumpGroup r.group)) ∧
  (∀ (s : State) (h : XHdr) (r : ExpRec), s.ready = true → s.agree h (s.expStep h.src r) = .accept →
    s.collAwaited r.group r.collSeq = true →
    exec (.exp h r) s = .next ((s.putMsg { s.collMsg r.group h.src r.collSeq with
      exp := some r }).pumpGroup r.group)) ∧
  (∀ (s : State) (h : XHdr) (r : BarrierRec), s.ready = true → s.agree h r.step = .accept →
    s.collAwaited r.group r.collSeq = true →
    exec (.barrier h r) s = .next ((s.putMsg { s.collMsg r.group h.src r.collSeq with
      barrier := some r }).pumpGroup r.group)) ∧
  (∀ (s : State) (h : XHdr) (r : HelloRec), s.ready = true → h.dst = s.ownPod →
    viewHas (s.viewAt s.draft.deviceStep) h.src = true → s.peerState h.src = .member →
    exec (.hello h r) s = .next (s.takeHello h.src r)) ∧
  (∀ (s : State) (h : XHdr) (p : Nat) (v : BitVec 32), s.ready = true → h.dst = s.ownPod →
    viewHas s.viewRecord h.src = true → v.toNat = viewNumber s.viewRecord →
    (p ≠ s.ownPod → s.peerState p = .member ∨ s.peerState p = .cfgMismatch →
      exec (.peerDown h p v) s = .next (((s.setPeer p .lost).count 0x7939 4 1).failPeer p stPeerLost)) ∧
    (p = s.ownPod → exec (.peerDown h p v) s = .next s.exclude)) ∧
  (∀ (s : State) (p : Nat), s.ready = true → s.awaitsPeer p = true →
    exec (.xactTimeoutExpiry p) s = .next (s.declareLost p)) ∧
  (∀ (s : State) (b : List Byte) (d : Datagram), s.ready = true → s.obj 0x5500 1 0 ≠ 0 →
    datagramOf b = some d → s.ownFrame d = true →
    (d.dport = s.ethPort → d.sumOk = false → exec (.ethFrameReceive b) s = .next (s.count 0x7939 0xA 1)) ∧
    (d.dport = s.obj 0x5500 8 51731 → d.sumOk = false →
      exec (.farDatagramReceive b) s = .next (s.count 0x7939 0xA 1)) ∧
    (d.dport = s.ethPort → d.sumOk = true → (packetOf d).version = 1 → (packetOf d).ecrcOk = true →
      viewHas s.viewRecord (packetOf d).src = true →
      exec (.ethFrameReceive b) s =
        .next ((s.ethAcked (packetOf d).src (packetOf d)).ethTake (packetOf d).src (packetOf d))) ∧
    (∀ (a : Nat), d.dport = s.obj 0x5500 8 51731 → d.sumOk = true →
      s.regionCheck (farOf d.data).region (farOf d.data).offset (farOf d.data).length 2 = .ok a →
      (farOf d.data).data.length = (farOf d.data).length → s.objWrite a = .free →
      exec (.farDatagramReceive b) s = .next (s.writeMem a (farOf d.data).data))) ∧
  (∀ (s : State) (p : Nat), s.ready = true → (s.eth p).unacked ≠ 0 →
    exec (.ethRtoExpiry p) s =
      (let x := s.eth p
       .next ((s.count 0x7939 8 x.unacked).sendPackets p ((List.range x.flown.length).map
         (fun i => (x.acked + 1 + BitVec.ofNat 32 i, x.flown.getD i []))))))

/-! ### Coherence (11) -/

/-- An agent that holds no copy asks for one, an S or O holder upgrades, an M or O line is written back, with
what was stored into it, and an E or S line dropped; an uncached access and a near atomic go to the home, and a
far one runs in the line that the agent holds: each request reaches the home once, and an access that no lease
covers traps instead (R226, R255 to R263). -/
def Obligations.AgentsAskTheirHome : Prop :=
  (∀ (s : State) (a l o : Nat) (f : Bool), s.mayAsk a l = true → s.coh.copy a l = none →
    let r := { plainReq .rdS a l with offset := o, fetch := f }
    let x := { plainReq .rdX a l with offset := o }
    (s.coreFaults a l = false → exec (.rdS a ⟨l, o, f⟩) s = .next (s.ask r) ∧ exec (.rdX a ⟨l, o⟩) s = .next (s.ask x)) ∧
    (s.coreFaults a l = true →
      exec (.rdS a ⟨l, o, f⟩) s = .next (s.trapReq r) ∧ exec (.rdX a ⟨l, o⟩) s = .next (s.trapReq x))) ∧
  (∀ (s : State) (a l o : Nat) (b : List Byte) (c : CacheLine), s.mayAsk a l = true →
    s.coh.copy a l = some c →
    (c.st = .s ∨ c.st = .o → s.coreFaults a l = false →
      exec (.upg a ⟨l, o⟩) s = .next (s.ask { plainReq .upg a l with offset := o })) ∧
    (c.st = .m ∨ c.st = .o → b.length ≠ 64 → exec (.wb a ⟨l, b⟩) s = .next (s.evict c .wb)) ∧
    (c.st = .m ∨ c.st = .e → a ≠ hostAgent → b.length = 64 → s.objWrite (64 * l) = .free →
      exec (.wb a ⟨l, b⟩) s = .next ((s.setCoh (s.coh.setBytes a l b)).evict { c with bytes := b, st := .m } .wb)) ∧
    (c.st = .e ∨ c.st = .s → exec (.cln a l) s = .next (s.evict c .cln))) ∧
  (∀ (s : State) (l : Nat), s.ready = true → homed l = true → s.hubCredit l = true →
    exec (.rdNc l) s = .next (s.arrive (plainReq .rdNc engineAgent l))) ∧
  (∀ (s : State) (l : Nat), s.controlReach l = true →
    exec (.rdNc l) s = .next (s.setCoh (s.coh.send (.data engineAgent l (s.controlLine l) false)))) ∧
  (∀ (s : State) (l : Nat) (m : BitVec 64) (b : List Byte), s.ready = true → homed l = true →
    s.hubCredit l = true →
    exec (.wrNc l m b) s =
      .next (s.arrive { plainReq .wrNc engineAgent l with mask := m, bytes := slice b 0 64 })) ∧
  (∀ (s : State) (a l k : Nat) (o : AtomicOp), s.ready = true → s.agentLive a = true → a ≠ hostAgent →
    a ≠ engineAgent → s.coh.asking a l = false → s.hubCredit l = true → homed l = true → cacheable l = true →
    atomicWidthOk o.op o.width = true → k % o.width = 0 → k + o.width ≤ 64 → s.coreFaults a l = false →
    (s.runsNear a l = true →
      exec (.atomN a l k o) s = .next (s.ask { plainReq .atomN a l with offset := k, op := some o })) ∧
    (s.runsNear a l = false → s.coh.copy a l = none →
      exec (.atomN a l k o) s = .next (s.farAsks .rdX a l k o)) ∧
    (∀ c, s.runsNear a l = false → s.coh.copy a l = some c → c.st = .m ∨ c.st = .e →
      s.objWrite (64 * l) = .free →
      exec (.atomN a l k o) s = .next ((s.setCoh (s.coh.predict a l false 1)).farRuns
        { agent := a, line := l, offset := k, op := o, taken := false } c)))

/-- Table COH-7 for an agent of the device that holds the line and is not held back by R260: SNP_INV and
SNP_X take its copy, SNP_X of a dirty one forwards it, with what its cores have stored; SNP_S of a clean shared
copy leaves it; agent 39 asks the host; a held snoop is answered when its delay has run. -/
def Obligations.AgentsAnswerSnoops : Prop :=
  (∀ (s : State) (a l : Nat) (b : List Byte) (x : Snoop),
    let u := s.storedIn a l b
    let t := u.setCoh (u.coh.take (.snoop x))
    x.agent = a → x.line = l → a ≠ hostAgent →
    (s.coh.inFlight .snpInv a l = some x → x.kind = .snpInv → b = [] → t.coh.delayed x = false →
      exec (.snpInv a l) s = .next (t.setCoh ((t.coh.setCopy a l none).send (.rspI a l x.host)))) ∧
    (∀ c, s.coh.inFlight .snpX a l = some x → x.kind = .snpX → t.coh.delayed x = false →
      t.coh.answering a l = some c → c.st = .m →
      exec (.snpX a ⟨l, b⟩) s = .next (t.setCoh (((t.coh.forward x c.bytes).setCopy a l none).send
        (.rspFwd a l true x.host)))) ∧
    (∀ c, s.coh.inFlight .snpS a l = some x → x.kind = .snpS → t.coh.delayed x = false →
      t.coh.answering a l = some c → c.st = .s →
      exec (.snpS a ⟨l, b⟩) s = .next (t.setCoh (t.coh.send (.rspS a l x.host)))) ∧
    (∀ c, s.coh.inFlight .snpS a l = some x → x.kind = .snpS → x.host = false → t.coh.delayed x = false →
      t.coh.answering a l = some c → c.st = .m ∨ c.st = .o →
      exec (.snpS a ⟨l, b⟩) s = .next (t.setCoh ((((t.coh.forward x c.bytes).send
        (.rspFwd a l true false)).setCopy a l (some .o)).send (.rspO a l false)))) ∧
    (s.coh.inFlight .snpCur a l = some x → x.kind = .snpCur → t.coh.delayed x = false →
      exec (.snpCur a ⟨l, b⟩) s = .next (t.setCoh (t.coh.answer x)))) ∧
  (∀ (s : State) (l : Nat) (x : Snoop), s.coh.inFlight .snpX hostAgent l = some x → x.agent = hostAgent →
    exec (.snpX hostAgent ⟨l, []⟩) s = .next ((s.setCoh (s.coh.take (.snoop x))).askHost x)) ∧
  (∀ (s : State) (a l : Nat) (x : Snoop),
    s.coh.lrHeld.find? (fun x => x.agent == a && x.line == l) = some x →
    exec (.lrSnoopDelayExpiry a l) s =
      .next (s.setCoh (({ s.coh with lrHeld := s.coh.lrHeld.erase x }).answer x)))

/-- An answer takes its agent out of what its transaction waits for; data and grant fill the requester's line
and its ACK ends the transaction; a host snoop of a line that no agent holds misses the filter, and one that
hits opens a transaction; the host's answers end what waited for them; the directory probe reads an entry (R256
to R259, R274, R275, R277). -/
def Obligations.HomesTakeAnswersAndHostSnoops : Prop :=
  (∀ (s : State) (a l : Nat) (h : Bool),
    (s.coh.has (.rspI a l h) = true → h = false ∨ s.coh.has (.rspI a l false) = false →
      exec (.rspI a l) s = (let c := s.coh.take (.rspI a l h)
        .next (((s.setCoh c).setCoh (c.dropHolder l a)).answered h a l))) ∧
    (s.coh.has (.rspS a l h) = true → h = false ∨ s.coh.has (.rspS a l false) = false →
      exec (.rspS a l) s = (let c := s.coh.take (.rspS a l h)
        .next (((s.setCoh c).setCoh ((c.noteDue h a l).ownerShares l a)).answered h a l))) ∧
    (s.coh.has (.rspO a l h) = true → h = false ∨ s.coh.has (.rspO a l false) = false →
      exec (.rspO a l) s = (let c := s.coh.take (.rspO a l h)
        .next (((s.setCoh c).setCoh ((c.noteDue h a l).ownerOwes l a)).answered h a l))) ∧
    (∀ k, s.coh.has (.rspFwd a l k h) = true → h = false ∨ s.coh.has (.rspFwd a l k false) = false →
      exec (.rspFwd a l k) s = .next ((s.setCoh (s.coh.take (.rspFwd a l k h))).homeFwd a l h))) ∧
  (∀ (s : State) (a l : Nat) (t : Txn), s.coh.has (.ack a l) = true →
    (s.coh.take (.ack a l)).txn l = some t → t.granted = true → t.req.agent = a →
    exec (.ack a l) s = (let c := s.coh.take (.ack a l)
      .next (((s.setCoh c).setCoh (c.endTxn l)).beginAll))) ∧
  (∀ (s : State) (a l : Nat) (g : Option Moesi × Bool × Bool × Bool) (f : Fill),
    s.coh.grantFor a l = some g → s.coh.fill a l = some f →
    exec (.grant a l) s = (let c := s.coh.take (.grant a l g.1 g.2.1 g.2.2.1 g.2.2.2)
      let y := { f with grant := some g }
      .next (((s.setCoh c).setCoh (c.setFill y)).settleFill y))) ∧
  (∀ (s : State) (a l : Nat) (d : List Byte × Bool), s.coh.dataFor a l = some d →
    let c := s.coh.take (.data a l d.1 d.2)
    (∀ f, s.coh.fill a l = some f →
      exec (.data a l) s = (let y := { f with data := some d }
        .next (((s.setCoh c).setCoh (c.setFill y)).settleFill y))) ∧
    (s.coh.fill a l = none → d.2 = false → exec (.data a l) s = .next (s.setCoh c)) ∧
    (s.coh.fill a l = none → d.2 = true →
      exec (.data a l) s = .next ((s.setCoh c).emit (.poisonResponse a l)))) ∧
  (∀ (s : State) (a l : Nat), s.coh.has (.wbAck a l) = true →
    exec (.wbAck a l) s = (let c := s.coh.take (.wbAck a l)
      .next (s.setCoh { c with wbBuf := c.wbBuf.filter (fun x => !(x.agent == a && x.line == l)) }))) ∧
  (∀ (s : State) (l : Nat), s.ready = true → s.host.cxlUp = true →
    let u := (s.drain l l false).count 0x7919 0 1
    ((u.coh.entry l).holders = [] ∨ hostLine l = false →
      let t := (u.count 0x7919 1 1).emit (.hostRsp l false none false)
      exec (.snpdata l) s = .next t ∧ exec (.snpinv l) s = .next t ∧ exec (.snpcur l) s = .next t) ∧
    ((u.coh.entry l).holders ≠ [] → hostLine l = true → u.coh.txn (txnKey true l) = none →
      let t := fun (k : ReqKind) => (u.openTxn (plainReq k hostSnoop l)).advance (txnKey true l)
      exec (.snpdata l) s = .next (t .rdS) ∧ exec (.snpinv l) s = .next (t .rdX) ∧
      exec (.snpcur l) s = .next (t .rdNc))) ∧
  (∀ (s : State) (l : Nat) (x : Snoop), s.coh.biWait.find? (fun x => x.line == l) = some x →
    exec (.birsp l none false) s = (let c := { s.coh with biWait := s.coh.biWait.erase x }
      .next ((s.setCoh c).setCoh ((c.setCopy hostAgent x.line none).send (.rspI hostAgent x.line x.host))))) ∧
  (∀ (s : State) (l : Nat) (t : Txn), s.coh.txn l = some t → t.needHost = true →
    exec (.cxlCacheResponse l none) s =
      .next ((s.setCoh (s.coh.setTxn l { t with needHost := false, refused := true })).advance l) ∧
    ∀ b, exec (.cxlCacheResponse l (some b)) s = (let u := s.putLine l (slice b 0 64) false
      .next ((u.setCoh (u.coh.setTxn l { t with needHost := false })).advance l))) ∧
  (∀ (s : State) (v : BitVec 64), s.power.draftUp = true →
    exec (.dirProbeAddr v) s = (let t := s.probeDir v.toNat
      .next { t with draft := { t.draft with lastResult := .ok } }))

/-! ### The host (12) -/

/-- A permitted read of BAR2 or HDM returns its bytes, one that no region permits aborts or returns poison;
writes store or are dropped and counted; a peer read ends or times out; a change of the epoch detaches the
host, and one by PERST_N or by the link takes the link down; configuration requests are answered once the port
is ready (R282 to R287, R297, R441). -/
def Obligations.HostAccessesMemoryAndThePort : Prop :=
  (∀ (s : State) (o n : Nat), s.portUp = true →
    ((s.barPieces o n false).any (fun p => p.2.2.isNone) = true →
      exec (.bar2Read o n) s = .next ((s.count 0x7921 0xC 1).emit .completerAbort)) ∧
    ((s.barPieces o n false).any (fun p => p.2.2.isNone) = false →
      exec (.bar2Read o n) s = (let r := s.readPieces (s.barPieces o n false)
        .next (r.1.emit (.bar2Data r.2.1 r.2.2))))) ∧
  (∀ (s : State) (o : Nat) (b : List Byte) (p : Bool),
    let ps := s.barPieces o b.length true
    s.portUp = true → s.barHeld ps = false →
    (ps.any (fun p => p.2.2.isNone) = false → exec (.bar2Write o b p) s = .next (s.barStore ps b p)) ∧
    (ps.any (fun p => p.2.2.isNone) = true →
      exec (.bar2Write o b p) s = .next ((s.count 0x7921 0xC 1).barStore ps b p))) ∧
  (∀ (s : State) (o : Nat),
    let ps := s.barPieces (o / 64 * 64) 64 false
    s.portUp = true → s.host.cxlUp = true →
    (ps.any (fun p => p.2.2.isNone) = true → exec (.memrd o) s =
      .next ((s.count 0x7921 0xD 1).emit (.memData (List.replicate 64 0) true))) ∧
    (ps.any (fun p => p.2.2.isNone) = false → exec (.memrd o) s =
      (let r := s.readPieces ps
       .next (r.1.emit (.memData r.2.1 r.2.2))))) ∧
  (∀ (s : State) (o : Nat) (m : BitVec 64) (b : List Byte) (p : Bool), s.portUp = true → s.host.cxlUp = true →
    (∀ a, s.barPieces (o / 64 * 64) 64 true = [(0, 64, some a)] → s.objWrite a ≠ .held →
      exec (.memwr o m b p) s = .next ((s.inboundWrite a ((List.range 64).map (fun i =>
        if m.getLsbD i then some (b.getD i 0) else none)) p).emit .memDone)) ∧
    (s.barPieces (o / 64 * 64) 64 true = [(0, 64, none)] →
      exec (.memwr o m b p) s = .next ((s.count 0x7921 0xD 1).emit .memDone))) ∧
  (∀ (s : State) (q n : BitVec 16) (r : RemoteData), s.ready = true →
    exec (.peerReadCompletion q n r) s = .next (s.peerReadEnds q n r)) ∧
  (∀ (s : State) (q n : BitVec 16) (x : Xfer), s.xfer q n = some x → s.ready = true →
    (x.reads ≠ [] → exec (.peerTimeout q n) s =
      .next ((s.count 0x7921 0xE 1).peerReadEnds q n { bytes := [], poison := [0] })) ∧
    (x.reads = [] → x.zeroRead = true → exec (.peerTimeout q n) s =
      .next (((s.count 0x7921 0xE 1).updXfer q n (fun y => { y with zeroRead := false })).failXfer q n
        stPoisonSrc 0))) ∧
  (∀ (s : State),
    let down := fun (t : State) => { t with host := { t.host with
      portReady := false, linkUp := false, cxlUp := false, gts := 0, width := 0 } }
    s.ready = true → s.host.attach ≠ .lost →
    (s.portUp = true → exec (.hostEpochChange .flr) s = .next (s.hostLeaves .detached)) ∧
    (s.host.linkUp = true →
      exec (.hostEpochChange .hotReset) s = .next (down (s.hostLeaves .detached)) ∧
      exec (.hostEpochChange .linkDown) s = .next (down (s.hostLeaves .detached))) ∧
    (∀ n, 600 ≤ n → exec (.hostEpochChange (.perst n)) s =
      (let t := down ((s.count 0x7981 7 1).hostLeaves .detached)
       .next { t with host := { t.host with eventVector := 0, adminHost := Admin.init, regBytes := [] } })) ∧
    (∀ n, n < 400 → exec (.hostEpochChange (.perst n)) s = .next s)) ∧
  (∀ (s : State) (g w : Nat), s.ready = true → s.host.attach ≠ .lost → s.module.perstN = true → 0 < g →
    g ≤ 64 → 0 < w → w ≤ 16 →
    exec (.portReady g w) s = .next { s with host := { s.host with
      portReady := true, linkUp := true, gts := g, width := w, cxlUp := decide (32 ≤ g ∧ 8 ≤ w) } }) ∧
  (∀ (s : State) (n : Nat), s.host.portReady = true → 34 ≤ n → n ≤ 43 →
    exec (.configurationRequest (.resizeBar2 n)) s =
      .next (({ s with host := { s.host with bar2Size := 2 ^ n } } : State).emit .cfgDone) ∧
    exec (.configurationRequest .read) s = .next (s.emit .cfgDone)) ∧
  (∀ (s : State) (r : CfgRequest), s.host.portReady = false → s.power.mode ≠ .off →
    exec (.configurationRequest r) s = .next (s.emit .retryStatus))

/-- An admin command that its checks accept has its effect, and its block shows RESULT 0 and its value; one
they refuse shows the reason and changes nothing else (R288 to R291). DESTROY frees an idle queue, REATTACH
replays the held records of an orphaned one, ATTACH enables the regions that are left, and a region is
registered at the first apertures that are free, and released (R282, R289, R290, R299). -/
def Obligations.AdminCommandsShowTheirResult : Prop :=
  (∀ (s t : State) (b : AdminBlock) (v : Nat), s.adminReach b = true →
    (s.createQueue b (s.admin b) = .ok (t, v) → exec (.create b) s = .next (t.adminEnd b 0 v)) ∧
    (s.destroyQueue b (s.admin b) = .ok (t, v) → exec (.destroy b) s = .next (t.adminEnd b 0 v)) ∧
    (s.reattachQueue b (s.admin b) = .ok (t, v) → exec (.reattach b) s = .next (t.adminEnd b 0 v)) ∧
    (s.attachHost (s.admin b) = .ok (t, v) → exec (.attach b) s = .next (t.adminEnd b 0 v)) ∧
    (s.registerRegion b (s.admin b) = .ok (t, v) →
      exec (.regionRegister b) s = .next (t.adminEnd b 0 v)) ∧
    (s.releaseRegion b (s.admin b) = .ok (t, v) →
      exec (.regionRelease b) s = .next (t.adminEnd b 0 v))) ∧
  (∀ (s : State) (b : AdminBlock) (r : Nat), s.adminReach b = true →
    s.createQueue b (s.admin b) = .error r → exec (.create b) s = .next (s.adminEnd b r 0)) ∧
  (∀ (s : State) (b : AdminBlock) (c : Byte), s.adminReach b = true → 6 < c.toNat ∨ c = 0 →
    exec (.badCommand b c) s = .next (s.adminEnd b 1 0)) ∧
  (∀ (s : State) (b : AdminBlock),
    let q := (s.admin b).queue
    let c := s.queue q
    let u := (List.range 8).foldl (fun (t : State) l => t.dropChain c.die l q) s
    s.adminReach b = true → s.adminShut b = false →
    (c.state = .free → exec (.destroy b) s = .next (s.adminEnd b 0 q.toNat)) ∧
    (c.state ≠ .free → s.queueBusy q = false → (u.lease c.lease).state ≠ .revoked →
      exec (.destroy b) s =
        .next (({ u with queues := Tab.remove u.queues q.toNat } : State).adminEnd b 0 q.toNat))) ∧
  (∀ (s : State) (b : AdminBlock),
    let a := s.admin b
    let q := a.queue
    let c := s.queue q
    let sq := if a.sqBase = 0 then c.sqBase else a.sqBase.toNat
    let cq := if a.cqBase = 0 then c.cqBase else a.cqBase.toNat
    let n := match c.uncertain with
      | some u => seqAhead u.1 u.2 + 1
      | none => 0
    let t := (s.setQueue q { c with
      state := .active, sqBase := sq, cqBase := cq, cqHead := a.cqHead, sqTail := c.nextSeq,
      cqWritten := c.replayFrom, cqConfirmed := c.replayFrom, unconfirmed := [], flushReads := [],
      sinceFlush := 0, uncertain := none, held := [] }).replay q c.held n
    let d := t.queue q
    s.adminReach b = true → s.adminShut b = false → s.host.attach ≠ .lost → c.state = .orphaned →
    sq % 64 = 0 → cq % 64 = 0 → a.cqHead = c.replayFrom → s.ringsBad c.lease c.depth sq cq = none →
    exec (.reattach b) s =
      .next (((if c.held ≠ [] ∧ cqInHost d = true ∧ d.flushReads.getLast? ≠ some d.cqWritten
        then t.issueFlush q else t).pump q).adminEnd b 0 c.held.length)) ∧
  (∀ (s : State) (b : AdminBlock), s.adminReach b = true → s.host.attach ≠ .lost →
    (s.admin b).epoch = s.host.epoch →
    exec (.attach b) s = .next (({ s with host := { s.host with
      attach := .attached
      regions := s.host.regions.map (fun e => (e.1, { e.2 with enabled := !e.2.lost })) } } : State).adminEnd
        b 0 (s.host.epoch.toNat % 65536))) ∧
  (∀ (s : State) (b : AdminBlock) (f : Nat),
    let a := s.admin b
    let l := a.lease.toNat
    let r := a.region.toNat
    let t := a.target.toNat
    let n := a.length.toNat
    let k := if s.aperture = 0 then 0 else ceilDiv n s.aperture
    s.adminReach b = true → s.adminShut b = false → l ≠ 0 → l ≤ 1023 → (s.lease l).state = .active →
    r < 4096 → n ≠ 0 → n % 65536 = 0 → t % 65536 = 0 → Tab.find s.host.regions r = none →
    touchesHost t n = false → spaceOf t ≠ .control → s.leaseCovers l t n = true → s.apertureRun k = some f →
    exec (.regionRegister b) s = .next (({ s with host := { s.host with
      regions := Tab.write s.host.regions r
        { enabled := s.host.attach == .attached, lost := false, rd := a.aflags.getLsbD 2,
          wr := a.aflags.getLsbD 3, lease := l, first := f, apertures := k, target := t, length := n } } } :
        State).adminEnd b 0 f)) ∧
  (∀ (s : State) (b : AdminBlock),
    let r := (s.admin b).region.toNat
    s.adminReach b = true → s.adminShut b = false → r < 4096 → (Tab.find s.host.regions r).isSome = true →
    exec (.regionRelease b) s = .next (({ s with host := { s.host with
      regions := Tab.remove s.host.regions r } } : State).adminEnd b 0 r))

/-- CREATE with legal fields, a lease and die that serve, a free queue and rings in the lease makes that queue
ACTIVE with the rings, depth and vector it names and every index 0, and its block shows RESULT 0 and the queue's
number (R288 to R290). -/
def Obligations.CreateMakesAnActiveQueue : Prop :=
  ∀ (s : State) (b : AdminBlock) (q : Nat),
    let a := s.admin b
    let l := a.lease.toNat
    s.adminReach b = true →
    s.adminShut b = false → l ≠ 0 → l ≤ 1023 → (s.lease l).state = .active →
    depthOk a.depth.toNat = true → a.sqBase.toNat % 64 = 0 → a.cqBase.toNat % 64 = 0 →
    a.vector = 0xFFFF ∨ a.vector.toNat < 2048 → a.die.toNat < 26 →
    bitOf (s.lease l).dieMask.toNat a.die.toNat = true → s.newQueue a = some q → q < 65536 →
    s.leaseQueues l < (s.lease l).queues → s.ringsBad l a.depth.toNat a.sqBase.toNat a.cqBase.toNat = none →
    ∃ t, s.createQueue b a = .ok (t, q) ∧ exec (.create b) s = .next (t.adminEnd b 0 q) ∧
      (let c := t.queue (BitVec.ofNat 16 q)
       c.state = .active ∧ c.lease = l ∧ c.die = a.die.toNat ∧ c.depth = a.depth.toNat ∧
         c.sqBase = a.sqBase.toNat ∧ c.cqBase = a.cqBase.toNat ∧ c.vector = a.vector ∧ c.sqTail = 0 ∧
         c.nextSeq = 0 ∧ c.cqHead = 0 ∧ c.cqWritten = 0 ∧ c.fetched = [] ∧ c.step = 0) ∧
      (∀ k : BitVec 16, k.toNat ≠ q → t.queue k = s.queue k) ∧ t.mem = s.mem ∧ t.leases = s.leases

/-- A write to a register that an accessor may reach does what its place says: a doorbell, EVENT_VECTOR, the
mailbox's request buffer, and nothing in reserved space; an aborted queue is cut, and the port answers a
solicitation and an echo request (R281, R292, R300, R344). -/
def Obligations.RegisterWritesAbortsAndIpv6 : Prop :=
  (∀ (s : State) (o w : Nat) (v : BitVec 64), s.portUp = true → w = 8 ∨ w = 16 ∨ w = 32 ∨ w = 64 →
    o % (w / 8) = 0 → exec (.registerWrite .bar0 o w v) s = s.mapWrite .bar0 o w v) ∧
  (∀ (s : State) (o w : Nat) (v : BitVec 64), s.ready = true → w = 8 ∨ w = 16 ∨ w = 32 ∨ w = 64 →
    o % (w / 8) = 0 → exec (.registerWrite .control o w v) s = s.mapWrite .control o w v) ∧
  (∀ (s : State) (q : BitVec 16) (v : BitVec 64), s.portUp = true →
    exec (.registerWrite .bar0 (64 * q.toNat) 32 v) s = .next (s.sqDoorbell q (v.setWidth 32)) ∧
    exec (.registerWrite .bar0 (64 * q.toNat + 4) 32 v) s = .next (s.cqDoorbell q (v.setWidth 32)) ∧
    exec (.registerWrite .bar0 0x800010 16 v) s =
      .next { s with host := { s.host with eventVector := v.setWidth 16 } } ∧
    (∀ o, 0x400000 ≤ o → o < 0x800000 → exec (.registerWrite .bar0 o 8 v) s = .next s)) ∧
  (∀ (s : State) (i : Nat) (v : BitVec 64), s.power.draftUp = true → i < 1232 →
    exec (.registerWrite .control (0x1001000 + i) 8 v) s = .next (s.fillRequest i [v.setWidth 8])) ∧
  (∀ (s : State) (q : BitVec 16), s.power.draftUp = true →
    exec (.queueAbort q) s = (let t := s.abortQueue q
      .next { t with draft := { t.draft with lastResult := .ok } })) ∧
  (∀ (s : State) (x : List Byte), s.power.draftUp = true →
    exec (.neighborSolicitation linkLocal x 255) s = .next (s.emit (.neighborAdvert linkLocal))) ∧
  (∀ (s : State) (x p : List Byte), s.power.draftUp = true →
    exec (.echoRequest linkLocal x p) s = .next (s.emit (.echoReply p)))

/-! ### The Draft, MCTP and SPDM (14, 17) -/

/-- IDENTIFY over 10BASE-T1S is answered with the device's identity; a SESSION_OPEN whose tag holds opens its
session, with a key derived from both nonces, where one of the 16 is free; an idle session ends and is counted; the mailbox handles a request and shows its response until
MBX_ACK (R344 to R352). -/
def Obligations.DraftPortsIdentifyOpenAndAnswer : Prop :=
  (∀ (s : State) (m : DapMsg),
    let b := dapRequest m 0x01
    let t := (s.count 0x7941 0 1).count 0x7941 7 1
    m.transport = .t1s → m.hopLimit = 255 → s.power.draftUp = true → b.length = 20 →
    headerOk b 0 = true → at_ b 4 12 = 0 → at_ b 1 1 = 1 →
    exec (.identify m) s =
      .next (t.emit (.dap .t1s (dapBytes 0x81 (at_ b 2 2) 0 0 0 (s.count 0x7941 0 1).identity)))) ∧
  (∀ (s : State) (m : DapMsg) (r : Role),
    let b := dapRequest m 0x02
    let body := bodyOfMsg b
    let t := s.count 0x7941 0 1
    let x := t.openSession .t1s (at_ body 1 1 == 1) r b
    m.transport = .t1s → m.hopLimit = 255 → m.multicast = false → s.power.draftUp = true →
    52 ≤ b.length → b.length ≤ 1232 → at_ b 1 1 = 2 → s.sec.owned = true →
    roleOf (at_ body 1 1) (at_ body 0 1) = some r → at_ body 1 1 ≤ 1 →
    tagOk (s.sec.key (at_ body 1 1 == 1)) b = true →
    exec (.sessionOpen m) s = .next (x.1.emit (.dap .t1s x.2)) ∧
    (headerOk b (b.length - 52) = true → at_ b 4 4 = 0 → body.length = 20 → at_ body 2 2 = 0 →
      s.draft.sessions.length < 16 → s.draft.nextSession ≠ 0 →
      x = (let o := at_ body 1 1 == 1
        let num := s.draft.nextSession
        let dn := (List.range 16).map (Config.randomByte s.fresh)
        let y : Session :=
          { num := num, role := r, ownerKey := o, transport := .t1s, rxNonce := 0, txNonce := 1, kept := []
            key := hmac256 (s.sec.key o) (sessionLabel ++ slice body 4 16 ++ dn ++ toLe 4 num.toNat) }
        (({ t with fresh := t.fresh + 1
                   draft := { t.draft with sessions := t.draft.sessions ++ [y], nextSession := num + 1 } } :
          State).count 0x7941 9 1,
         withTag (s.sec.key o)
          (dapBytes 0x82 (at_ b 2 2) num.toNat 1 0 ([BitVec.ofNat 8 r.rank, 0, 0, 0] ++ dn)))))) ∧
  (∀ (s : State) (n : BitVec 32), s.power.draftUp = true → (s.draft.session n).isSome = true →
    exec (.sessionIdleTimeout n) s = .next ((s.endSessions (fun x => x.num == n)).count 0x7941 0xA 1)) ∧
  (∀ (s : State) (v : BitVec 32),
    let n := v.toNat % 65536
    let r := ({ s with mailbox := { s.mailbox with busy := true } } : State).dapHandle .mailbox false
      ((List.range n).map (Tab.read s.mailbox.reqBuf 0))
    s.power.draftUp = true → s.obj 0x1100 4 1 ≠ 0 → s.mailbox.busy = false → s.mailbox.respReady = false →
    20 ≤ n → n ≤ 1232 →
    exec (.mbxDoorbell v) s = .next { r.1 with mailbox := match r.2 with
      | none => { r.1.mailbox with busy := false }
      | some p => { r.1.mailbox with busy := false, respReady := true, respLen := p.length, rspBuf := p } }) ∧
  (∀ (s : State) (v : BitVec 32), s.power.draftUp = true → v.getLsbD 0 = true →
    exec (.mbxAck v) s = .next { s with mailbox := { s.mailbox with respReady := false } })

/-- A new request of an open session, with its tag, a nonce above the last and a body of its form, runs with
the session's role and is answered on its transport; a message type that Table DFT-7 does not list is
answered MALFORMED (R347 to R350, R449). Each request that nothing stands against has its effect and answers OK:
a session closes, a value is read, staged, described or listed, a staged set comes into force or pends for its
step, a pending one is cancelled, a set is emptied, events are read, and the SPDM responder answers (R340, R348,
R351, R355 to R360, R363). -/
def Obligations.SessionRequestsRunAndAreAnswered : Prop :=
  (∀ (s : State) (m : DapMsg) (c : (DapMsg → Instr) × Byte) (x : Session),
    let e := (Safety.requestState s m c.2 x).dapRun x c.2.toNat (bodyOfMsg (dapRequest m c.2))
    c ∈ [(Instr.sessionClose, 0x03), (.read, 0x10), (.write, 0x11), (.describe, 0x12), (.enumerate, 0x13),
         (.arm, 0x20), (.armAtStep, 0x20), (.armCancel, 0x20), (.discard, 0x21), (.stagedList, 0x22),
         (.eventRead, 0x30), (.spdmTunnel, 0x40)] →
    Safety.requestSound s m c.2 x = true →
    exec (c.1 m) s = .next (Safety.requestAnswer e.2.2 m c.2 x e.1 e.2.1)) ∧
  (∀ (s : State) (m : DapMsg) (k : Byte) (x : Session),
    [0x01, 0x02, 0x03, 0x10, 0x11, 0x12, 0x13, 0x20, 0x21, 0x22, 0x30, 0x40].contains k.toNat = false →
    Safety.requestNew s m k x = true →
    exec (.unknownMtype k m) s =
      .next (Safety.requestAnswer ((Safety.requestState s m k x).count 0x7941 6 1) m k x .malformed [])) ∧
  (∀ (s : State) (m : DapMsg) (x : Session), Safety.requestSound s m 0x03 x = true →
    exec (.sessionClose m) s = .next (Safety.requestAnswer
      ((Safety.requestState s m 0x03 x).endSessions (fun y => y.num == x.num)) m 0x03 x .ok [])) ∧
  (∀ (s : State) (m : DapMsg) (x : Session) (r : ObjRow),
    let b := bodyOfMsg (dapRequest m 0x10)
    let u := Safety.requestState s m 0x10 x
    let o := objOf b
    let off := at_ b 4 4
    let v := (if at_ b 3 1 = 1 then u.draft.stagedCopy o.key else none).getD (u.value o r)
    let n := min (at_ b 8 2) (min (v.length - off) segmentMax)
    Safety.requestSound s m 0x10 x = true → rowFor x.role o = .ok r → r.acc ≠ accWO → r.acc ≠ accCmd →
    off ≤ v.length → r.ty = tyDomain ∨ off = 0 →
    exec (.read m) s = .next (Safety.requestAnswer u m 0x10 x .ok
      (toLe 4 (u.meta o r) ++ toLe 4 v.length ++ toLe 2 n ++ slice v off n))) ∧
  (∀ (s : State) (m : DapMsg) (x : Session) (r : ObjRow),
    let b := bodyOfMsg (dapRequest m 0x11)
    let u := Safety.requestState s m 0x11 x
    let o := objOf b
    let v := b.drop 10
    Safety.requestSound s m 0x11 x = true → rowFor x.role o = .ok r → r.acc = accRWS → r.ty ≠ tyDomain →
    v.length = r.len → at_ b 4 4 = 0 → u.draft.mayStage x.num = true → r.ty ≠ tyBool ∨ leNat v ≤ 1 →
    exec (.write m) s = .next (Safety.requestAnswer
      { u with draft := u.draft.stage x.num o.key (keptValue o v) } m 0x11 x .ok [])) ∧
  (∀ (s : State) (m : DapMsg) (x : Session) (r : ObjRow),
    let u := Safety.requestState s m 0x12 x
    let o := objOf (bodyOfMsg (dapRequest m 0x12))
    Safety.requestSound s m 0x12 x = true → rowFor x.role o = .ok r →
    exec (.describe m) s = .next (Safety.requestAnswer u m 0x12 x .ok
      (toLe 4 (u.meta o r) ++ toLe 4 r.len ++ toLe 8 (defaultOf o r)))) ∧
  (∀ (s : State) (m : DapMsg) (x : Session),
    let b := bodyOfMsg (dapRequest m 0x13)
    let u := Safety.requestState s m 0x13 x
    Safety.requestSound s m 0x13 x = true → 1 ≤ at_ b 3 1 → at_ b 3 1 ≤ 64 →
    exec (.enumerate m) s =
      .next (Safety.requestAnswer u m 0x13 x .ok (u.listBody (listObjects (objOf b) (at_ b 3 1))))) ∧
  (∀ (s : State) (m : DapMsg) (x : Session),
    let b := bodyOfMsg (dapRequest m 0x20)
    let u := Safety.requestState s m 0x20 x
    let t := u.count 0x7941 0xB 1
    let f := at_ b 0 1
    let p := nextEpoch u.draft.epoch (at_ b 4 4)
    Safety.requestSound s m 0x20 x = true →
    (bitOf f 1 = false → u.draft.stagingSess = x.num ∨ (u.draft.stagingSess = 0 ∧ x.role = .own) →
      u.draft.epoch ≠ 0xFFFFFFFF → u.draft.pending = none → u.journalUp = true →
      (bitOf f 0 = false → u.firstFault false = none →
        exec (.arm m) s =
          (let a := t.armRecord 0 p (2 ^ 64 - 1) u.draft.staged
           let d := { a.draft with active := a.draft.merged u.draft.staged, epoch := p }
           let w := ({ a with draft := d.emptySet } : State).reconfigured t
           .next (Safety.requestAnswer w m 0x20 x .ok (w.armNow none)))) ∧
      (bitOf f 0 = true → u.draft.deviceStep < at_ b 8 8 → u.stepsBehind = false → u.firstFault true = none →
        exec (.armAtStep m) s =
          (let a := t.armRecord 1 p (at_ b 8 8) u.draft.staged
           let d := { a.draft with pending := some { byWhom := x.num, step := at_ b 8 8, epoch := p,
                                                     values := u.draft.staged } }
           .next (Safety.requestAnswer { a with draft := d.emptySet } m 0x20 x .ok
             (armBody p (configDigest (d.merged u.draft.staged)) none))))) ∧
    (∀ k, bitOf f 1 = true → u.draft.pending = some k → x.role = .own ∨ k.byWhom = x.num →
      u.journalUp = true →
      exec (.armCancel m) s =
        (let a := u.armRecord 2 u.draft.epoch k.step []
         let w := { a with draft := { a.draft with pending := none } }
         .next (Safety.requestAnswer w m 0x20 x .ok (w.armNow none))))) ∧
  (∀ (s : State) (m : DapMsg) (x : Session),
    let u := Safety.requestState s m 0x21 x
    Safety.requestSound s m 0x21 x = true → u.draft.stagingSess = x.num ∨ x.role = .own →
    exec (.discard m) s =
      .next (Safety.requestAnswer { u with draft := u.draft.emptySet } m 0x21 x .ok [])) ∧
  (∀ (s : State) (m : DapMsg) (x : Session),
    let b := bodyOfMsg (dapRequest m 0x22)
    let u := Safety.requestState s m 0x22 x
    let l := u.draft.stagedObjects.filter (fun y => decide ((objOf b).key ≤ y.1.key))
    Safety.requestSound s m 0x22 x = true → 1 ≤ at_ b 3 1 → at_ b 3 1 ≤ 64 →
    exec (.stagedList m) s =
      .next (Safety.requestAnswer u m 0x22 x .ok (u.listBody (l.take (at_ b 3 1))))) ∧
  (∀ (s : State) (m : DapMsg) (x : Session),
    let b := bodyOfMsg (dapRequest m 0x30)
    let u := Safety.requestState s m 0x30 x
    let old := u.draft.eventNext - 256
    let i := max (at_ b 0 4) old
    let n := min (at_ b 4 1) (u.draft.eventNext - i)
    Safety.requestSound s m 0x30 x = true → 1 ≤ at_ b 4 1 → at_ b 4 1 ≤ 32 →
    exec (.eventRead m) s = .next (Safety.requestAnswer u m 0x30 x .ok
      (toLe 4 (min i u.draft.eventNext + n) ++ toLe 1 n ++ [if at_ b 0 4 < old then 1 else 0, 0, 0]
        ++ (rangeFrom i n).flatMap u.draft.eventBytes))) ∧
  (∀ (s : State) (m : DapMsg) (x : Session),
    let b := bodyOfMsg (dapRequest m 0x40)
    let r := (Safety.requestState s m 0x40 x).spdmRequest 0 (b.getD 0 0) (b.getD 1 0) (b.getD 2 0) (b.getD 3 0)
      (b.drop 4)
    Safety.requestSound s m 0x40 x = true →
    exec (.spdmTunnel m) s = .next (Safety.requestAnswer r.1 m 0x40 x .ok r.2))

/-- The MCTP control commands are answered: an EID is set and read, the message types 0x05 and 0x7E and their
versions are named, and the vendor set is Karpelevich's (R345). Every SPDM request over MCTP is answered on
MCTP with what the SPDM responder gives (R407). -/
def Obligations.ManagementMessagesAreAnswered : Prop :=
  (∀ (s : State), s.mctpUp = true →
    (∀ e : Byte, e ≠ 0 → e ≠ 0xFF → exec (.setEndpointId e) s =
      .next (({ s with draft := { s.draft with mctpEid := e } } : State).emit (.mctp [1, 0, 0, e, 0]))) ∧
    exec .getEndpointId s = .next (s.emit (.mctp [2, 0, s.draft.mctpEid, 0, 0])) ∧
    (∀ t : Byte, mctpTypes.contains t = true → exec (.getMctpVersionSupport t) s =
      .next (s.emit (.mctp ([4, 0, 1] ++ (List.range 4).map (Config.mctpVersion t))))) ∧
    exec .getMessageTypeSupport s = .next (s.emit (.mctp [5, 0, 2, 0x05, 0x7E])) ∧
    exec (.getVendorDefinedMessageSupport 0) s =
      .next (s.emit (.mctp ([6, 0, 0xFF, 0x00] ++ toBe 2 Config.vendorId.toNat ++ [0x00, 0x01])))) ∧
  (∀ (s : State) (m : SpdmMsg) (c : (SpdmMsg → Instr) × Byte),
    let r := s.spdmRequest 1 m.version c.2 m.param1 m.param2 m.rest
    c ∈ [(Instr.getVersion, 0x84), (.getCapabilities, 0xE1), (.negotiateAlgorithms, 0xE3),
         (.getDigests, 0x81), (.getCertificate, 0x82), (.challenge, 0x83), (.getMeasurements, 0xE0),
         (.chunkSend, 0x85), (.chunkGet, 0x86)] →
    m.transport = .mctp → s.mctpUp = true →
    exec (c.1 m) s = .next (r.1.emit (.spdm .mctp (r.2.getD 1 0) r.2))) ∧
  (∀ (s : State) (m : SpdmMsg) (k : Byte),
    let r := s.spdmRequest 1 m.version k m.param1 m.param2 m.rest
    m.transport = .mctp → s.mctpUp = true →
    exec (.spdmUnsupportedRequest k m) s = .next (r.1.emit (.spdm .mctp (r.2.getD 1 0) r.2)))

/-! ### Counters, commits, firmware and keys (02, 14, 16, 17) -/

/-- Each counter-clear command sets every counter of its indices to zero and touches no other (R53). -/
def Obligations.CounterClearsZeroTheirIndices : Prop :=
  (∀ (s : State) (v : Byte) (c : (Byte → Instr) × Nat × Nat),
    c ∈ [(Instr.fmtCountersClear, 0x7820, 0x7820), (.loomCountersClear, 0x7830, 0x7849),
         (.vecCountersClear, 0x7851, 0x7871), (.reedCountersClear, 0x7880, 0x7899),
         (.bwdCountersClear, 0x78A1, 0x78BB), (.updCountersClear, 0x78C1, 0x78C1),
         (.strCountersClear, 0x78E1, 0x78FA), (.pruCountersClear, 0x7931, 0x7939),
         (.dftCountersClear, 0x7941, 0x7941), (.recCountersClear, 0x7951, 0x7951),
         (.secCountersClear, 0x7971, 0x7971), (.pwrCountersClear, 0x7981, 0x7981),
         (.modCountersClear, 0x7991, 0x7991)] →
    s.power.draftUp = true →
    exec (c.1 v) s = (let t := s.clearCounters (256 * c.2.1) (256 * c.2.2 + 255)
      .next { t with draft := { t.draft with lastResult := .ok } })) ∧
  (∀ (s : State) (v : Byte) (c : (Byte → Instr) × Nat × Nat),
    c ∈ [(Instr.cohCountersClear, 0x7911, 0x7919), (.templeCountersClear, 0x78D1, 0x78D1),
         (.hstCountersClear, 0x7921, 0x7921), (.tirCountersClear, 0x7901, 0x7909)] →
    s.power.draftUp = true →
    exec (c.1 v) s = (let t := s.clearCounters (256 * c.2.1) (256 * c.2.2 + 15)
      .next { t with draft := { t.draft with lastResult := .ok } })) ∧
  (∀ (s : State) (lo hi i j : Nat), j < 256 →
    (s.clearCounters lo hi).counter i j =
      if lo ≤ 256 * i + j ∧ 256 * i + j ≤ hi then 0 else s.counter i j)

/-- STEP_COMMIT, GROUP_RESTORE, OUTCOME_ADOPT, COMMIT_REBASE and BOLT_NOTE, where nothing stands against
them, have their effect, and LAST_RESULT is OK (R371, R376 to R379, R394): a commit journals the body with its
STAMP_DIGEST and is in force; a restore writes every group's steps and journals them. -/
def Obligations.CommitCommandsTakeEffect : Prop :=
  (∀ (s : State) (a p : BitVec 64),
    let b := s.commitBody a.toNat
    let n := 64 + 32 * b.runs
    let list := s.bytesAt p.toNat (8 * (runGroups (s.commitRuns a.toNat b.runs)).length)
    let dig := if b.skipped then s.commit.stampDigest else digest64 (sha256 list)
    let raw := s.bytesAt a.toNat (n + s.histsBytes (a.toNat + n) (min b.hists 64))
    let body := overlay (overlay raw 24 [raw.getD 24 0 &&& 0xFD]) 32 (toLe 8 dig.toNat)
    let t := s.record 0x01 0 body
    let u := ({ t with journal := t.journal.live 3 1
                       commit := { t.commit with last := b.step, stampDigest := dig, lastBody := body } } :
      State).count 0x7951 0 1
    s.power.draftUp = true → s.commitReason a.toNat p.toNat = (0, 0) → s.journal.accepting = true →
    exec (.stepCommit a p) s = .next { u with draft := { u.draft with lastResult := .ok } }) ∧
  (∀ (s : State) (i n : BitVec 32) (a : BitVec 64),
    let es := (List.range n.toNat).map (fun k => (i.toNat + k, s.restoreEntry a.toNat k))
    let t := es.foldl (fun (t : State) e => t.putGroup (t.groupAddr e.1) e.2.1 e.2.2.1 false) s
    let body := toLe 4 i.toNat ++ toLe 4 n.toNat
      ++ (es.map (fun e => toLe 8 e.2.1 ++ toLe 8 e.2.2.1 ++ toLe 4 e.2.2.2 ++ toLe 4 0)).flatten
    let u := (t.record 0x0C 0 body).count 0x7951 2 1
    s.power.draftUp = true → s.journalUp = true →
    (∀ k, k < n.toNat → s.readable (a.toNat + 24 * k) 24 = true ∧
      s.restoreReason (i.toNat + k) (s.restoreEntry a.toNat k).2.2 = 0) →
    exec (.groupRestore i n a) s = .next { u with draft := { u.draft with lastResult := .ok } }) ∧
  (∀ (s : State) (n : BitVec 64) (f : Byte) (m : BitVec 32) (x : BitVec 64), s.power.draftUp = true →
    s.outcomeOf n.toNat = none →
    exec (.outcomeAdopt n f m x) s =
      (let o : Outcome := { step := n.toNat, flag := f.getLsbD 0, members := m.toNat, sum := x }
       let l := Tab.write s.peruo.outcomes (n.toNat % 256) o
       let t := ({ s with peruo := { s.peruo with outcomes := l } } : State).count 0x7951 4 1
       .next { t with draft := { t.draft with lastResult := .ok } })) ∧
  (∀ (s : State) (n : BitVec 64), s.power.draftUp = true → s.journalUp = true → n.toNat ≠ noStep →
    exec (.commitRebase n) s =
      (let t := s.record 0x01 0 (s.rebaseBody n.toNat)
       .next { t with commit := { t.commit with last := n.toNat, lastBody := s.rebaseBody n.toNat }
                      draft := { t.draft with lastResult := .ok } })) ∧
  (∀ (s : State) (n d l : BitVec 64), s.power.draftUp = true → s.journalUp = true →
    s.commit.last ≠ noStep → n.toNat ≤ s.commit.last →
    exec (.boltNote n d l) s =
      (let b := toLe 8 n.toNat ++ toLe 8 d.toNat ++ toLe 8 l.toNat
       let t := s.record 0x0B 0 b
       .next { t with commit := { t.commit with lastBolt := b }
                      draft := { t.draft with lastResult := .ok } }))

/-- A firmware image is taken in order, a valid one installed into the inactive slot and journaled, and
activated die by die without a failure; keys are written; ownership is released with nothing leased, its fuse
blown and its keys zero; defaults are staged: where each is accepted, its effect stands and LAST_RESULT is OK
(R395, R396, R404, R409 to R412, R414). -/
def Obligations.FirmwareKeysAndDefaultsTakeEffect : Prop :=
  (∀ (s : State) (k : Nat) (l : Bool) (b : List Byte), s.power.draftUp = true → b.length ≤ segmentMax →
    k + b.length ≤ imageMax →
    (k = 0 → exec (.fwImage k l b) s = .next { s with fw := { s.fw with image := b, imageDone := l }
                                                      draft := { s.draft with lastResult := .ok } }) ∧
    (k ≠ 0 → s.fw.imageDone = false → k = s.fw.image.length →
      exec (.fwImage k l b) s = .next { s with fw := { s.fw with image := s.fw.image ++ b, imageDone := l }
                                               draft := { s.draft with lastResult := .ok } })) ∧
  (∀ (s : State) (v : Byte),
    let k := 1 - s.fwActive
    let img := some s.fw.image
    let f := if k = 0 then { s.fw with slotA := img } else { s.fw with slotB := img }
    let t := (({ s with fw := f } : State).setCheck 0).fwRecord 0 k (imgVersion s.fw.image)
    s.power.draftUp = true → imageCheck s.fw.image s.fw.imageDone (s.arCounter 0) = 0 → s.journalUp = true →
    exec (.fwInstall v) s = .next { t with draft := { t.draft with lastResult := .ok } }) ∧
  (∀ (s : State) (v : Byte) (img : List Byte),
    let k := 1 - s.fwActive
    let order := s.mgmtOrder ++ s.rollOrder
    let u := s.moveDies k order
    let w := if s.mgmtOrder.length = 2 then u.switchover else u
    let x := if order.any (fun d => decide (96 ≤ d)) then w.remeasure k else w
    let t := ({ x with journal := x.journal.live 6 1 } : State).burnSvn (imgSvn img)
    s.power.draftUp = true → s.fw.slot k = some img → s.arCounter 0 ≤ imgSvn img → s.journalUp = true →
    exec (.fwActivate v none) s = .next { t with draft := { t.draft with lastResult := .ok } }) ∧
  (∀ (s : State) (k : List Byte), s.power.draftUp = true → s.keyResult k = .ok →
    exec (.ownerKey k) s = (let t := (s.setKey true k).endKeySessions true
      .next { t with draft := { t.draft with lastResult := .ok } }) ∧
    exec (.operatorKey k) s = (let t := (s.setKey false k).endKeySessions false
      .next { t with draft := { t.draft with lastResult := .ok } })) ∧
  (∀ (s : State),
    let t := s.blowTo 1 (s.arCounter 1 + 1)
    let w := wrapKey (wrapPad (t.arCounter 1)) zeroKey
    let u := ((t.keepValue 0x6810 1 w).keepValue 0x6810 2 w).keepValue 0x6800 1 [0]
    let x := ({ u with sec := { u.sec with ownerKey := zeroKey, operatorKey := zeroKey, owned := false } } :
      State).endSessions (fun _ => true)
    s.power.draftUp = true → s.leases.any (fun e => e.2.state != .free) = false → s.arCounter 1 < 64 →
    s.journalUp = true →
    exec (.ownerRelease 0xA5) s = .next { x with draft := { x.draft with lastResult := .ok } }) ∧
  (∀ (s : State) (n : BitVec 32),
    let t := { s with draft := defaultSet.foldl (fun (d : Draft) (e : Nat × List Byte) => d.stage n e.1 e.2) s.draft }
    s.power.draftUp = true → s.draft.sessions.any (fun x => x.num == n) = true → s.draft.mayStage n = true →
    exec (.configDefaults n) s = .next { t with draft := { t.draft with lastResult := .ok } })

/-! ### Power, clocks, resets and storage (16, 18, 19) -/

/-- Starts and resets: a cold start runs from OFF, a module reset pends until the warm start, MRST_N low for a
second holds the chiplets, and each way in which power ends writes its cause and goes down (R416 to R432). -/
def Obligations.StartsResetsAndPowerLoss : Prop :=
  (∀ (s : State) (e : StartEnv), s.power.mode = .off → exec (.coldStart e) s = .next (s.coldStart e)) ∧
  (∀ (s : State), s.power.draftUp = true → exec (.moduleReset 0xA5) s =
    .next { s with power := { s.power with resetPending := true }
                   draft := { s.draft with lastResult := .ok } }) ∧
  (∀ (s : State) (e : StartEnv), s.power.mode = .resetHeld → exec (.warmStart e) s = .next (s.warmStart e)) ∧
  (∀ (s : State) (e : StartEnv), s.power.mode ≠ .resetHeld → s.power.resetPending = true →
    exec (.warmStart e) s = .next ((s.holdReset 6).warmStart e)) ∧
  (∀ (s : State) (n : Nat), s.power.mode = .running → 1000 ≤ n → exec (.mrstN n) s =
    (let t := (s.count 0x7991 4 1).holdReset 5
     .next { t with module := { t.module with mrstN := false } })) ∧
  (∀ (s : State) (n : Nat), s.power.mode = .running → n < 900 → exec (.mrstN n) s = .next s) ∧
  (∀ (s : State) (v : Nat), s.stagesUp = true →
    (v < 62000 → exec (.pwrfailN (.fastFall v)) s = .next (s.powerFail 1 .off)) ∧
    (v < 59000 → exec (.pwrfailN (.below59 v)) s = .next (s.powerFail 1 .off)) ∧
    (5000 ≤ v → exec (.pwrfailN (.driven v)) s = .next ((s.count 0x7991 5 1).powerFail 1 .off)) ∧
    (82000 < v → exec (.overvoltageShutdown v) s = .next (s.powerFail 2 .off))) ∧
  (∀ (s : State) (d : Nat) (t : Int), s.stagesUp = true → 1150 < t →
    exec (.thermalShutdown d t) s = .next (s.powerFail 4 .thermalOff)) ∧
  (∀ (s : State), s.power.mode = .halted ∨ s.power.mode = .thermalOff →
    exec .lossOfInput s = .next (s.powerFail 1 .off)) ∧
  (∀ (s : State) (k : Nat), s.stagesUp = true → k < 7 → s.power.stageFailed.contains k = false →
    exec (.stageFailure k) s = .next (s.stageFails k))

/-- Clock roots, management dies, the bands of the input, pacing, the stored energy and the coolant and air
limits: each changes its own state, raises its alert and is counted (R418 to R427, R433 to R436). -/
def Obligations.ClocksAndSensorsChangeTheirState : Prop :=
  (∀ (s : State) (v : Byte), s.power.draftUp = true → s.rootLocked (1 - s.power.clockRoot) = true →
    exec (.rootSwitch v) s = (let t := s.switchRoot
      .next { t with draft := { t.draft with lastResult := .ok } })) ∧
  (∀ (s : State), s.power.draftUp = true → s.rootLocked s.power.clockRoot = true →
    exec .rootLossOfLock s = .next (s.loseRoot s.power.clockRoot)) ∧
  (∀ (s : State), s.power.draftUp = true →
    exec (.standbyRootLock false) s = .next (s.setRoots (rootBits
      (if 1 - s.power.clockRoot = 0 then false else s.rootLocked 0)
      (if 1 - s.power.clockRoot = 1 then false else s.rootLocked 1)))) ∧
  (∀ (s : State) (a b : Nat), s.power.draftUp = true → s.mgmtIn 0 = some a → s.mgmtIn 3 = some b →
    exec .mgmtSwitchover s = .next (((s.setDieState b 0).setDieState a 2).loseRoot (a - 96))) ∧
  (∀ (s : State), s.stagesUp = true → exec .noManagementDie s =
    .next ({ s with dies := Tab.write (Tab.write s.dies 96 2) 97 2 } : State).noClock) ∧
  (∀ (s : State) (v : Nat),
    let t : State := { s with power := { s.power with inputMv := v } }
    s.stagesUp = true → s.power.draftUp = true →
    (60000 ≤ v → v < 62000 →
      exec (.inputLow v) s = .next ((t.count 0x7981 4 1).event 0x7000 1 srcDevice v 0)) ∧
    (80000 < v → v ≤ 82000 → exec (.inputHighBand v) s = .next (t.event 0x7000 1 srcDevice v 0))) ∧
  (∀ (s : State) (c : PaceCause), s.ready = true →
    exec (.pacingEngage c) s = .next { s with power := { s.power with
      pacing := some c, paceCause := some c } } ∧
    exec (.pacingAdjust true) s = .next { s with power := { s.power with
      pacing := none, paceSixteenths := min 16 (s.power.paceSixteenths + 1)
      paceCause := if 15 ≤ s.power.paceSixteenths then none else s.power.paceCause } } ∧
    (s.power.pacing = some c → exec (.pacingAdjust false) s = .next { s with power := { s.power with
      paceSixteenths := max 1 (s.power.paceSixteenths - 1) } })) ∧
  (∀ (s : State) (mj : Nat), s.power.draftUp = true → mj < holdupFloor →
    exec (.holdupLow mj) s =
      .next (((({ s with power := { s.power with holdupMj := mj } } : State).count 0x7981 8 1).event 0x7000 4
        srcDevice mj 0).setAlert alHoldup true)) ∧
  (∀ (s : State) (f : Nat), s.power.draftUp = true → f < 800 →
    exec (.coolantExcursion (.flowOut f)) s =
      .next ((({ s with module := { s.module with flow := f } } : State).raiseExcursion alCoolant 1
        (decide (800 ≤ s.module.flow))).count 0x7991 3 10)) ∧
  (∀ (s : State) (t : Int), s.power.draftUp = true → 350 < t →
    exec (.airExcursion (.out t)) s =
      .next (({ s with module := { s.module with ambient := t } } : State).raiseExcursion alAir 2 false))

/-- The journal's pages, checkpoints and hours, a NAND die that fails, a wear-levelling move and a repaired row
(R380 to R393). -/
def Obligations.JournalAndRepairEventsAreKept : Prop :=
  (∀ (s : State),
    let j := s.journal.programPage
    let t := s.count 0x7951 0xB (j.retiredBlocks - s.journal.retiredBlocks)
    exec .journalPageProgrammed s =
      .next (({ t with journal := j } : State).watchForecasts State.checkNands)) ∧
  (∀ (s : State), s.journalUp = true → s.ckptInterval ≤ s.journal.sinceCkpt →
    exec .checkpoint s =
      (let t := s.record 0x0D 0 s.ckptBody
       .next { t with journal := { t.journal with
         sinceCkpt := 0, ckpt := some (t.journal.tailBytes, jrecLength s.ckptBody) } })) ∧
  (∀ (s : State), s.power.draftUp = true → exec .lifetime s =
    .next (s.watchForecasts (fun t =>
      ({ t with journal := t.journal.live 1 1 } : State).lifetimeRecord))) ∧
  (∀ (s : State) (k : Nat), s.power.draftUp = true → k < 2 →
    exec (.nandDieFail k) s = .next (s.failNand k)) ∧
  (∀ (s : State) (k a b : Nat),
    let c := (s.journal.nand k).eraseOf b + 1
    let t := s.record 0x07 0 (toLe 2 k ++ toLe 2 b ++ toLe 4 c)
    let n := t.journal.nand k
    s.journalUp = true → k < 2 → (s.journal.nand k).failed = false →
    (s.journal.nand k).relocation = some (a, b) →
    exec (.wearLevelRelocation k) s = .next (({ t with journal := t.journal.setNand k { n with
      erases := Tab.write n.erases b c
      live := n.live.map (fun x => if x = a then b else x) } } : State).count 0x7951 0xE 1)) ∧
  (∀ (s : State) (d c b r : Nat) (l u : List Nat), s.power.draftUp = true → memoryDies.contains d = true →
    exec (.rowRepair d c b r l u) s = .next (s.rowRepair d c b r (l.filter u.contains)))

/-! ### Number formats (02) -/

/-- Packed elements lie in ascending order from bit 0 of the lowest byte: element 2j of SK4 in bits 3:0 of byte
j and 2j+1 in bits 7:4, element 4j+k of SK2 in bits 2k+1:2k of byte j, and SK16 little-endian (R33). -/
def Obligations.PackedElementsAscendFromBitZero : Prop :=
  ∀ (byte : Nat → Byte) (j k : Nat),
    elemOf .sk4 byte (2 * j) = Fmt.sk4.decode ((byte j).toNat % 16) ∧
    elemOf .sk4 byte (2 * j + 1) = Fmt.sk4.decode ((byte j).toNat / 16) ∧
    (k < 4 → elemOf .sk2 byte (4 * j + k) = Fmt.sk2.decode ((byte j).toNat / 2 ^ (2 * k) % 4)) ∧
    elemOf .sk8 byte j = Fmt.sk8.decode (byte j).toNat ∧
    elemOf .sk16 byte j = Fmt.sk16.decode ((byte (2 * j)).toNat + 256 * (byte (2 * j + 1)).toNat)
end

