-- ==== Sys2Proof/Laws/State.lean ====
section
/-!
SUPPORT. What each plain update of the state writes and what it keeps, field by field, so that no proof
unfolds a record update.
-/

namespace Sys2Proof.Machine

open Sys2Proof

@[simp] theorem State.setQueue_queues (s : State) (q : BitVec 16) (c : QCtx) : (s.setQueue q c).queues = Tab.write s.queues q.toNat c := rfl

@[simp] theorem State.setQueue_keeps (s : State) (q : BitVec 16) (c : QCtx) :
    (s.setQueue q c).pending = s.pending ∧ (s.setQueue q c).mem = s.mem ∧
    (s.setQueue q c).dies = s.dies ∧ (s.setQueue q c).power = s.power ∧
    (s.setQueue q c).module = s.module ∧ (s.setQueue q c).draft = s.draft ∧
    (s.setQueue q c).mailbox = s.mailbox ∧ (s.setQueue q c).counters = s.counters ∧
    (s.setQueue q c).host = s.host ∧ (s.setQueue q c).msixPending = s.msixPending ∧
    (s.setQueue q c).leases = s.leases ∧ (s.setQueue q c).leaseReq = s.leaseReq ∧
    (s.setQueue q c).leaseResult = s.leaseResult ∧ (s.setQueue q c).grantSeq = s.grantSeq ∧
    (s.setQueue q c).restoring = s.restoring ∧ (s.setQueue q c).objects = s.objects ∧
    (s.setQueue q c).frames = s.frames ∧ (s.setQueue q c).looms = s.looms ∧
    (s.setQueue q c).heddles = s.heddles ∧ (s.setQueue q c).mcast = s.mcast ∧
    (s.setQueue q c).mcastSends = s.mcastSends ∧ (s.setQueue q c).vecs = s.vecs ∧
    (s.setQueue q c).cores = s.cores ∧ (s.setQueue q c).xfers = s.xfers ∧
    (s.setQueue q c).rings = s.rings ∧ (s.setQueue q c).treadle = s.treadle ∧
    (s.setQueue q c).readyOrder = s.readyOrder ∧ (s.setQueue q c).tokens = s.tokens ∧
    (s.setQueue q c).stash = s.stash ∧ (s.setQueue q c).segs = s.segs ∧
    (s.setQueue q c).outcomeWaits = s.outcomeWaits ∧ (s.setQueue q c).seals = s.seals ∧
    (s.setQueue q c).ctxs = s.ctxs ∧ (s.setQueue q c).attached = s.attached ∧
    (s.setQueue q c).coh = s.coh ∧ (s.setQueue q c).peruo = s.peruo ∧
    (s.setQueue q c).journal = s.journal ∧ (s.setQueue q c).commit = s.commit ∧
    (s.setQueue q c).repairs = s.repairs ∧ (s.setQueue q c).fw = s.fw ∧
    (s.setQueue q c).sec = s.sec ∧ (s.setQueue q c).spdm = s.spdm ∧
    (s.setQueue q c).hartsStopped = s.hartsStopped ∧ (s.setQueue q c).coreSlots = s.coreSlots ∧
    (s.setQueue q c).sent = s.sent ∧ (s.setQueue q c).fresh = s.fresh := by
  repeat' constructor

@[simp] theorem State.setCoh_coh (s : State) (c : Coh) : (s.setCoh c).coh = c := rfl

@[simp] theorem State.setCoh_keeps (s : State) (c : Coh) :
    (s.setCoh c).pending = s.pending ∧ (s.setCoh c).mem = s.mem ∧ (s.setCoh c).dies = s.dies ∧
    (s.setCoh c).power = s.power ∧ (s.setCoh c).module = s.module ∧ (s.setCoh c).draft = s.draft ∧
    (s.setCoh c).mailbox = s.mailbox ∧ (s.setCoh c).counters = s.counters ∧
    (s.setCoh c).host = s.host ∧ (s.setCoh c).msixPending = s.msixPending ∧
    (s.setCoh c).queues = s.queues ∧ (s.setCoh c).leases = s.leases ∧
    (s.setCoh c).leaseReq = s.leaseReq ∧ (s.setCoh c).leaseResult = s.leaseResult ∧
    (s.setCoh c).grantSeq = s.grantSeq ∧ (s.setCoh c).restoring = s.restoring ∧
    (s.setCoh c).objects = s.objects ∧ (s.setCoh c).frames = s.frames ∧
    (s.setCoh c).looms = s.looms ∧ (s.setCoh c).heddles = s.heddles ∧
    (s.setCoh c).mcast = s.mcast ∧ (s.setCoh c).mcastSends = s.mcastSends ∧
    (s.setCoh c).vecs = s.vecs ∧ (s.setCoh c).cores = s.cores ∧ (s.setCoh c).xfers = s.xfers ∧
    (s.setCoh c).rings = s.rings ∧ (s.setCoh c).treadle = s.treadle ∧
    (s.setCoh c).readyOrder = s.readyOrder ∧ (s.setCoh c).tokens = s.tokens ∧
    (s.setCoh c).stash = s.stash ∧ (s.setCoh c).segs = s.segs ∧
    (s.setCoh c).outcomeWaits = s.outcomeWaits ∧ (s.setCoh c).seals = s.seals ∧
    (s.setCoh c).ctxs = s.ctxs ∧ (s.setCoh c).attached = s.attached ∧
    (s.setCoh c).peruo = s.peruo ∧ (s.setCoh c).journal = s.journal ∧
    (s.setCoh c).commit = s.commit ∧ (s.setCoh c).repairs = s.repairs ∧ (s.setCoh c).fw = s.fw ∧
    (s.setCoh c).sec = s.sec ∧ (s.setCoh c).spdm = s.spdm ∧
    (s.setCoh c).hartsStopped = s.hartsStopped ∧ (s.setCoh c).coreSlots = s.coreSlots ∧
    (s.setCoh c).sent = s.sent ∧ (s.setCoh c).fresh = s.fresh := by
  repeat' constructor

@[simp] theorem State.setCore_cores (s : State) (die core : Nat) (c : CtrlCore) : (s.setCore die core c).cores = Tab.write s.cores (coreKey die core) c := rfl

@[simp] theorem State.setCore_keeps (s : State) (die core : Nat) (c : CtrlCore) :
    (s.setCore die core c).pending = s.pending ∧ (s.setCore die core c).mem = s.mem ∧
    (s.setCore die core c).dies = s.dies ∧ (s.setCore die core c).power = s.power ∧
    (s.setCore die core c).module = s.module ∧ (s.setCore die core c).draft = s.draft ∧
    (s.setCore die core c).mailbox = s.mailbox ∧ (s.setCore die core c).counters = s.counters ∧
    (s.setCore die core c).host = s.host ∧ (s.setCore die core c).msixPending = s.msixPending ∧
    (s.setCore die core c).queues = s.queues ∧ (s.setCore die core c).leases = s.leases ∧
    (s.setCore die core c).leaseReq = s.leaseReq ∧
    (s.setCore die core c).leaseResult = s.leaseResult ∧
    (s.setCore die core c).grantSeq = s.grantSeq ∧ (s.setCore die core c).restoring = s.restoring ∧
    (s.setCore die core c).objects = s.objects ∧ (s.setCore die core c).frames = s.frames ∧
    (s.setCore die core c).looms = s.looms ∧ (s.setCore die core c).heddles = s.heddles ∧
    (s.setCore die core c).mcast = s.mcast ∧ (s.setCore die core c).mcastSends = s.mcastSends ∧
    (s.setCore die core c).vecs = s.vecs ∧ (s.setCore die core c).xfers = s.xfers ∧
    (s.setCore die core c).rings = s.rings ∧ (s.setCore die core c).treadle = s.treadle ∧
    (s.setCore die core c).readyOrder = s.readyOrder ∧ (s.setCore die core c).tokens = s.tokens ∧
    (s.setCore die core c).stash = s.stash ∧ (s.setCore die core c).segs = s.segs ∧
    (s.setCore die core c).outcomeWaits = s.outcomeWaits ∧ (s.setCore die core c).seals = s.seals ∧
    (s.setCore die core c).ctxs = s.ctxs ∧ (s.setCore die core c).attached = s.attached ∧
    (s.setCore die core c).coh = s.coh ∧ (s.setCore die core c).peruo = s.peruo ∧
    (s.setCore die core c).journal = s.journal ∧ (s.setCore die core c).commit = s.commit ∧
    (s.setCore die core c).repairs = s.repairs ∧ (s.setCore die core c).fw = s.fw ∧
    (s.setCore die core c).sec = s.sec ∧ (s.setCore die core c).spdm = s.spdm ∧
    (s.setCore die core c).hartsStopped = s.hartsStopped ∧
    (s.setCore die core c).coreSlots = s.coreSlots ∧ (s.setCore die core c).sent = s.sent ∧
    (s.setCore die core c).fresh = s.fresh := by
  repeat' constructor

@[simp] theorem State.setRing_rings (s : State) (die r : Nat) (x : Ring) : (s.setRing die r x).rings = Tab.write s.rings (ringKey die r) x := rfl

@[simp] theorem State.setRing_keeps (s : State) (die r : Nat) (x : Ring) :
    (s.setRing die r x).pending = s.pending ∧ (s.setRing die r x).mem = s.mem ∧
    (s.setRing die r x).dies = s.dies ∧ (s.setRing die r x).power = s.power ∧
    (s.setRing die r x).module = s.module ∧ (s.setRing die r x).draft = s.draft ∧
    (s.setRing die r x).mailbox = s.mailbox ∧ (s.setRing die r x).counters = s.counters ∧
    (s.setRing die r x).host = s.host ∧ (s.setRing die r x).msixPending = s.msixPending ∧
    (s.setRing die r x).queues = s.queues ∧ (s.setRing die r x).leases = s.leases ∧
    (s.setRing die r x).leaseReq = s.leaseReq ∧ (s.setRing die r x).leaseResult = s.leaseResult ∧
    (s.setRing die r x).grantSeq = s.grantSeq ∧ (s.setRing die r x).restoring = s.restoring ∧
    (s.setRing die r x).objects = s.objects ∧ (s.setRing die r x).frames = s.frames ∧
    (s.setRing die r x).looms = s.looms ∧ (s.setRing die r x).heddles = s.heddles ∧
    (s.setRing die r x).mcast = s.mcast ∧ (s.setRing die r x).mcastSends = s.mcastSends ∧
    (s.setRing die r x).vecs = s.vecs ∧ (s.setRing die r x).cores = s.cores ∧
    (s.setRing die r x).xfers = s.xfers ∧ (s.setRing die r x).treadle = s.treadle ∧
    (s.setRing die r x).readyOrder = s.readyOrder ∧ (s.setRing die r x).tokens = s.tokens ∧
    (s.setRing die r x).stash = s.stash ∧ (s.setRing die r x).segs = s.segs ∧
    (s.setRing die r x).outcomeWaits = s.outcomeWaits ∧ (s.setRing die r x).seals = s.seals ∧
    (s.setRing die r x).ctxs = s.ctxs ∧ (s.setRing die r x).attached = s.attached ∧
    (s.setRing die r x).coh = s.coh ∧ (s.setRing die r x).peruo = s.peruo ∧
    (s.setRing die r x).journal = s.journal ∧ (s.setRing die r x).commit = s.commit ∧
    (s.setRing die r x).repairs = s.repairs ∧ (s.setRing die r x).fw = s.fw ∧
    (s.setRing die r x).sec = s.sec ∧ (s.setRing die r x).spdm = s.spdm ∧
    (s.setRing die r x).hartsStopped = s.hartsStopped ∧
    (s.setRing die r x).coreSlots = s.coreSlots ∧ (s.setRing die r x).sent = s.sent ∧
    (s.setRing die r x).fresh = s.fresh := by
  repeat' constructor

@[simp] theorem State.setLoom_looms (s : State) (die l : Nat) (x : Loom) : (s.setLoom die l x).looms = Tab.write s.looms (loomKey die l) x := rfl

@[simp] theorem State.setLoom_keeps (s : State) (die l : Nat) (x : Loom) :
    (s.setLoom die l x).pending = s.pending ∧ (s.setLoom die l x).mem = s.mem ∧
    (s.setLoom die l x).dies = s.dies ∧ (s.setLoom die l x).power = s.power ∧
    (s.setLoom die l x).module = s.module ∧ (s.setLoom die l x).draft = s.draft ∧
    (s.setLoom die l x).mailbox = s.mailbox ∧ (s.setLoom die l x).counters = s.counters ∧
    (s.setLoom die l x).host = s.host ∧ (s.setLoom die l x).msixPending = s.msixPending ∧
    (s.setLoom die l x).queues = s.queues ∧ (s.setLoom die l x).leases = s.leases ∧
    (s.setLoom die l x).leaseReq = s.leaseReq ∧ (s.setLoom die l x).leaseResult = s.leaseResult ∧
    (s.setLoom die l x).grantSeq = s.grantSeq ∧ (s.setLoom die l x).restoring = s.restoring ∧
    (s.setLoom die l x).objects = s.objects ∧ (s.setLoom die l x).frames = s.frames ∧
    (s.setLoom die l x).heddles = s.heddles ∧ (s.setLoom die l x).mcast = s.mcast ∧
    (s.setLoom die l x).mcastSends = s.mcastSends ∧ (s.setLoom die l x).vecs = s.vecs ∧
    (s.setLoom die l x).cores = s.cores ∧ (s.setLoom die l x).xfers = s.xfers ∧
    (s.setLoom die l x).rings = s.rings ∧ (s.setLoom die l x).treadle = s.treadle ∧
    (s.setLoom die l x).readyOrder = s.readyOrder ∧ (s.setLoom die l x).tokens = s.tokens ∧
    (s.setLoom die l x).stash = s.stash ∧ (s.setLoom die l x).segs = s.segs ∧
    (s.setLoom die l x).outcomeWaits = s.outcomeWaits ∧ (s.setLoom die l x).seals = s.seals ∧
    (s.setLoom die l x).ctxs = s.ctxs ∧ (s.setLoom die l x).attached = s.attached ∧
    (s.setLoom die l x).coh = s.coh ∧ (s.setLoom die l x).peruo = s.peruo ∧
    (s.setLoom die l x).journal = s.journal ∧ (s.setLoom die l x).commit = s.commit ∧
    (s.setLoom die l x).repairs = s.repairs ∧ (s.setLoom die l x).fw = s.fw ∧
    (s.setLoom die l x).sec = s.sec ∧ (s.setLoom die l x).spdm = s.spdm ∧
    (s.setLoom die l x).hartsStopped = s.hartsStopped ∧
    (s.setLoom die l x).coreSlots = s.coreSlots ∧ (s.setLoom die l x).sent = s.sent ∧
    (s.setLoom die l x).fresh = s.fresh := by
  repeat' constructor

@[simp] theorem State.setVec_vecs (s : State) (die e : Nat) (x : List VecJob) : (s.setVec die e x).vecs = Tab.write s.vecs (vecKey die e) x := rfl

@[simp] theorem State.setVec_keeps (s : State) (die e : Nat) (x : List VecJob) :
    (s.setVec die e x).pending = s.pending ∧ (s.setVec die e x).mem = s.mem ∧
    (s.setVec die e x).dies = s.dies ∧ (s.setVec die e x).power = s.power ∧
    (s.setVec die e x).module = s.module ∧ (s.setVec die e x).draft = s.draft ∧
    (s.setVec die e x).mailbox = s.mailbox ∧ (s.setVec die e x).counters = s.counters ∧
    (s.setVec die e x).host = s.host ∧ (s.setVec die e x).msixPending = s.msixPending ∧
    (s.setVec die e x).queues = s.queues ∧ (s.setVec die e x).leases = s.leases ∧
    (s.setVec die e x).leaseReq = s.leaseReq ∧ (s.setVec die e x).leaseResult = s.leaseResult ∧
    (s.setVec die e x).grantSeq = s.grantSeq ∧ (s.setVec die e x).restoring = s.restoring ∧
    (s.setVec die e x).objects = s.objects ∧ (s.setVec die e x).frames = s.frames ∧
    (s.setVec die e x).looms = s.looms ∧ (s.setVec die e x).heddles = s.heddles ∧
    (s.setVec die e x).mcast = s.mcast ∧ (s.setVec die e x).mcastSends = s.mcastSends ∧
    (s.setVec die e x).cores = s.cores ∧ (s.setVec die e x).xfers = s.xfers ∧
    (s.setVec die e x).rings = s.rings ∧ (s.setVec die e x).treadle = s.treadle ∧
    (s.setVec die e x).readyOrder = s.readyOrder ∧ (s.setVec die e x).tokens = s.tokens ∧
    (s.setVec die e x).stash = s.stash ∧ (s.setVec die e x).segs = s.segs ∧
    (s.setVec die e x).outcomeWaits = s.outcomeWaits ∧ (s.setVec die e x).seals = s.seals ∧
    (s.setVec die e x).ctxs = s.ctxs ∧ (s.setVec die e x).attached = s.attached ∧
    (s.setVec die e x).coh = s.coh ∧ (s.setVec die e x).peruo = s.peruo ∧
    (s.setVec die e x).journal = s.journal ∧ (s.setVec die e x).commit = s.commit ∧
    (s.setVec die e x).repairs = s.repairs ∧ (s.setVec die e x).fw = s.fw ∧
    (s.setVec die e x).sec = s.sec ∧ (s.setVec die e x).spdm = s.spdm ∧
    (s.setVec die e x).hartsStopped = s.hartsStopped ∧ (s.setVec die e x).coreSlots = s.coreSlots ∧
    (s.setVec die e x).sent = s.sent ∧ (s.setVec die e x).fresh = s.fresh := by
  repeat' constructor

@[simp] theorem State.setHeddle_heddles (s : State) (die h : Nat) (x : List HeddleTile) : (s.setHeddle die h x).heddles = if x = [] then Tab.remove s.heddles (heddleKey die h) else Tab.write s.heddles (heddleKey die h) x := rfl

@[simp] theorem State.setHeddle_keeps (s : State) (die h : Nat) (x : List HeddleTile) :
    (s.setHeddle die h x).pending = s.pending ∧ (s.setHeddle die h x).mem = s.mem ∧
    (s.setHeddle die h x).dies = s.dies ∧ (s.setHeddle die h x).power = s.power ∧
    (s.setHeddle die h x).module = s.module ∧ (s.setHeddle die h x).draft = s.draft ∧
    (s.setHeddle die h x).mailbox = s.mailbox ∧ (s.setHeddle die h x).counters = s.counters ∧
    (s.setHeddle die h x).host = s.host ∧ (s.setHeddle die h x).msixPending = s.msixPending ∧
    (s.setHeddle die h x).queues = s.queues ∧ (s.setHeddle die h x).leases = s.leases ∧
    (s.setHeddle die h x).leaseReq = s.leaseReq ∧
    (s.setHeddle die h x).leaseResult = s.leaseResult ∧
    (s.setHeddle die h x).grantSeq = s.grantSeq ∧ (s.setHeddle die h x).restoring = s.restoring ∧
    (s.setHeddle die h x).objects = s.objects ∧ (s.setHeddle die h x).frames = s.frames ∧
    (s.setHeddle die h x).looms = s.looms ∧ (s.setHeddle die h x).mcast = s.mcast ∧
    (s.setHeddle die h x).mcastSends = s.mcastSends ∧ (s.setHeddle die h x).vecs = s.vecs ∧
    (s.setHeddle die h x).cores = s.cores ∧ (s.setHeddle die h x).xfers = s.xfers ∧
    (s.setHeddle die h x).rings = s.rings ∧ (s.setHeddle die h x).treadle = s.treadle ∧
    (s.setHeddle die h x).readyOrder = s.readyOrder ∧ (s.setHeddle die h x).tokens = s.tokens ∧
    (s.setHeddle die h x).stash = s.stash ∧ (s.setHeddle die h x).segs = s.segs ∧
    (s.setHeddle die h x).outcomeWaits = s.outcomeWaits ∧ (s.setHeddle die h x).seals = s.seals ∧
    (s.setHeddle die h x).ctxs = s.ctxs ∧ (s.setHeddle die h x).attached = s.attached ∧
    (s.setHeddle die h x).coh = s.coh ∧ (s.setHeddle die h x).peruo = s.peruo ∧
    (s.setHeddle die h x).journal = s.journal ∧ (s.setHeddle die h x).commit = s.commit ∧
    (s.setHeddle die h x).repairs = s.repairs ∧ (s.setHeddle die h x).fw = s.fw ∧
    (s.setHeddle die h x).sec = s.sec ∧ (s.setHeddle die h x).spdm = s.spdm ∧
    (s.setHeddle die h x).hartsStopped = s.hartsStopped ∧
    (s.setHeddle die h x).coreSlots = s.coreSlots ∧ (s.setHeddle die h x).sent = s.sent ∧
    (s.setHeddle die h x).fresh = s.fresh := by
  repeat' constructor

@[simp] theorem State.setMailbox_mailbox (s : State) (m : Mailbox) : (s.setMailbox m).mailbox = m := rfl

@[simp] theorem State.setMailbox_keeps (s : State) (m : Mailbox) :
    (s.setMailbox m).pending = s.pending ∧ (s.setMailbox m).mem = s.mem ∧
    (s.setMailbox m).dies = s.dies ∧ (s.setMailbox m).power = s.power ∧
    (s.setMailbox m).module = s.module ∧ (s.setMailbox m).draft = s.draft ∧
    (s.setMailbox m).counters = s.counters ∧ (s.setMailbox m).host = s.host ∧
    (s.setMailbox m).msixPending = s.msixPending ∧ (s.setMailbox m).queues = s.queues ∧
    (s.setMailbox m).leases = s.leases ∧ (s.setMailbox m).leaseReq = s.leaseReq ∧
    (s.setMailbox m).leaseResult = s.leaseResult ∧ (s.setMailbox m).grantSeq = s.grantSeq ∧
    (s.setMailbox m).restoring = s.restoring ∧ (s.setMailbox m).objects = s.objects ∧
    (s.setMailbox m).frames = s.frames ∧ (s.setMailbox m).looms = s.looms ∧
    (s.setMailbox m).heddles = s.heddles ∧ (s.setMailbox m).mcast = s.mcast ∧
    (s.setMailbox m).mcastSends = s.mcastSends ∧ (s.setMailbox m).vecs = s.vecs ∧
    (s.setMailbox m).cores = s.cores ∧ (s.setMailbox m).xfers = s.xfers ∧
    (s.setMailbox m).rings = s.rings ∧ (s.setMailbox m).treadle = s.treadle ∧
    (s.setMailbox m).readyOrder = s.readyOrder ∧ (s.setMailbox m).tokens = s.tokens ∧
    (s.setMailbox m).stash = s.stash ∧ (s.setMailbox m).segs = s.segs ∧
    (s.setMailbox m).outcomeWaits = s.outcomeWaits ∧ (s.setMailbox m).seals = s.seals ∧
    (s.setMailbox m).ctxs = s.ctxs ∧ (s.setMailbox m).attached = s.attached ∧
    (s.setMailbox m).coh = s.coh ∧ (s.setMailbox m).peruo = s.peruo ∧
    (s.setMailbox m).journal = s.journal ∧ (s.setMailbox m).commit = s.commit ∧
    (s.setMailbox m).repairs = s.repairs ∧ (s.setMailbox m).fw = s.fw ∧
    (s.setMailbox m).sec = s.sec ∧ (s.setMailbox m).spdm = s.spdm ∧
    (s.setMailbox m).hartsStopped = s.hartsStopped ∧ (s.setMailbox m).coreSlots = s.coreSlots ∧
    (s.setMailbox m).sent = s.sent ∧ (s.setMailbox m).fresh = s.fresh := by
  repeat' constructor

@[simp] theorem State.setHost_host (s : State) (h : HostIf) : (s.setHost h).host = h := rfl

@[simp] theorem State.setHost_keeps (s : State) (h : HostIf) :
    (s.setHost h).pending = s.pending ∧ (s.setHost h).mem = s.mem ∧ (s.setHost h).dies = s.dies ∧
    (s.setHost h).power = s.power ∧ (s.setHost h).module = s.module ∧
    (s.setHost h).draft = s.draft ∧ (s.setHost h).mailbox = s.mailbox ∧
    (s.setHost h).counters = s.counters ∧ (s.setHost h).msixPending = s.msixPending ∧
    (s.setHost h).queues = s.queues ∧ (s.setHost h).leases = s.leases ∧
    (s.setHost h).leaseReq = s.leaseReq ∧ (s.setHost h).leaseResult = s.leaseResult ∧
    (s.setHost h).grantSeq = s.grantSeq ∧ (s.setHost h).restoring = s.restoring ∧
    (s.setHost h).objects = s.objects ∧ (s.setHost h).frames = s.frames ∧
    (s.setHost h).looms = s.looms ∧ (s.setHost h).heddles = s.heddles ∧
    (s.setHost h).mcast = s.mcast ∧ (s.setHost h).mcastSends = s.mcastSends ∧
    (s.setHost h).vecs = s.vecs ∧ (s.setHost h).cores = s.cores ∧ (s.setHost h).xfers = s.xfers ∧
    (s.setHost h).rings = s.rings ∧ (s.setHost h).treadle = s.treadle ∧
    (s.setHost h).readyOrder = s.readyOrder ∧ (s.setHost h).tokens = s.tokens ∧
    (s.setHost h).stash = s.stash ∧ (s.setHost h).segs = s.segs ∧
    (s.setHost h).outcomeWaits = s.outcomeWaits ∧ (s.setHost h).seals = s.seals ∧
    (s.setHost h).ctxs = s.ctxs ∧ (s.setHost h).attached = s.attached ∧ (s.setHost h).coh = s.coh ∧
    (s.setHost h).peruo = s.peruo ∧ (s.setHost h).journal = s.journal ∧
    (s.setHost h).commit = s.commit ∧ (s.setHost h).repairs = s.repairs ∧ (s.setHost h).fw = s.fw ∧
    (s.setHost h).sec = s.sec ∧ (s.setHost h).spdm = s.spdm ∧
    (s.setHost h).hartsStopped = s.hartsStopped ∧ (s.setHost h).coreSlots = s.coreSlots ∧
    (s.setHost h).sent = s.sent ∧ (s.setHost h).fresh = s.fresh := by
  repeat' constructor

@[simp] theorem State.setPower_power (s : State) (p : Power) : (s.setPower p).power = p := rfl

@[simp] theorem State.setPower_keeps (s : State) (p : Power) :
    (s.setPower p).pending = s.pending ∧ (s.setPower p).mem = s.mem ∧
    (s.setPower p).dies = s.dies ∧ (s.setPower p).module = s.module ∧
    (s.setPower p).draft = s.draft ∧ (s.setPower p).mailbox = s.mailbox ∧
    (s.setPower p).counters = s.counters ∧ (s.setPower p).host = s.host ∧
    (s.setPower p).msixPending = s.msixPending ∧ (s.setPower p).queues = s.queues ∧
    (s.setPower p).leases = s.leases ∧ (s.setPower p).leaseReq = s.leaseReq ∧
    (s.setPower p).leaseResult = s.leaseResult ∧ (s.setPower p).grantSeq = s.grantSeq ∧
    (s.setPower p).restoring = s.restoring ∧ (s.setPower p).objects = s.objects ∧
    (s.setPower p).frames = s.frames ∧ (s.setPower p).looms = s.looms ∧
    (s.setPower p).heddles = s.heddles ∧ (s.setPower p).mcast = s.mcast ∧
    (s.setPower p).mcastSends = s.mcastSends ∧ (s.setPower p).vecs = s.vecs ∧
    (s.setPower p).cores = s.cores ∧ (s.setPower p).xfers = s.xfers ∧
    (s.setPower p).rings = s.rings ∧ (s.setPower p).treadle = s.treadle ∧
    (s.setPower p).readyOrder = s.readyOrder ∧ (s.setPower p).tokens = s.tokens ∧
    (s.setPower p).stash = s.stash ∧ (s.setPower p).segs = s.segs ∧
    (s.setPower p).outcomeWaits = s.outcomeWaits ∧ (s.setPower p).seals = s.seals ∧
    (s.setPower p).ctxs = s.ctxs ∧ (s.setPower p).attached = s.attached ∧
    (s.setPower p).coh = s.coh ∧ (s.setPower p).peruo = s.peruo ∧
    (s.setPower p).journal = s.journal ∧ (s.setPower p).commit = s.commit ∧
    (s.setPower p).repairs = s.repairs ∧ (s.setPower p).fw = s.fw ∧ (s.setPower p).sec = s.sec ∧
    (s.setPower p).spdm = s.spdm ∧ (s.setPower p).hartsStopped = s.hartsStopped ∧
    (s.setPower p).coreSlots = s.coreSlots ∧ (s.setPower p).sent = s.sent ∧
    (s.setPower p).fresh = s.fresh := by
  repeat' constructor

@[simp] theorem State.setInput_power (s : State) (mv : Nat) : (s.setInput mv).power = { s.power with inputMv := mv } := rfl

@[simp] theorem State.setInput_keeps (s : State) (mv : Nat) :
    (s.setInput mv).pending = s.pending ∧ (s.setInput mv).mem = s.mem ∧
    (s.setInput mv).dies = s.dies ∧ (s.setInput mv).module = s.module ∧
    (s.setInput mv).draft = s.draft ∧ (s.setInput mv).mailbox = s.mailbox ∧
    (s.setInput mv).counters = s.counters ∧ (s.setInput mv).host = s.host ∧
    (s.setInput mv).msixPending = s.msixPending ∧ (s.setInput mv).queues = s.queues ∧
    (s.setInput mv).leases = s.leases ∧ (s.setInput mv).leaseReq = s.leaseReq ∧
    (s.setInput mv).leaseResult = s.leaseResult ∧ (s.setInput mv).grantSeq = s.grantSeq ∧
    (s.setInput mv).restoring = s.restoring ∧ (s.setInput mv).objects = s.objects ∧
    (s.setInput mv).frames = s.frames ∧ (s.setInput mv).looms = s.looms ∧
    (s.setInput mv).heddles = s.heddles ∧ (s.setInput mv).mcast = s.mcast ∧
    (s.setInput mv).mcastSends = s.mcastSends ∧ (s.setInput mv).vecs = s.vecs ∧
    (s.setInput mv).cores = s.cores ∧ (s.setInput mv).xfers = s.xfers ∧
    (s.setInput mv).rings = s.rings ∧ (s.setInput mv).treadle = s.treadle ∧
    (s.setInput mv).readyOrder = s.readyOrder ∧ (s.setInput mv).tokens = s.tokens ∧
    (s.setInput mv).stash = s.stash ∧ (s.setInput mv).segs = s.segs ∧
    (s.setInput mv).outcomeWaits = s.outcomeWaits ∧ (s.setInput mv).seals = s.seals ∧
    (s.setInput mv).ctxs = s.ctxs ∧ (s.setInput mv).attached = s.attached ∧
    (s.setInput mv).coh = s.coh ∧ (s.setInput mv).peruo = s.peruo ∧
    (s.setInput mv).journal = s.journal ∧ (s.setInput mv).commit = s.commit ∧
    (s.setInput mv).repairs = s.repairs ∧ (s.setInput mv).fw = s.fw ∧ (s.setInput mv).sec = s.sec ∧
    (s.setInput mv).spdm = s.spdm ∧ (s.setInput mv).hartsStopped = s.hartsStopped ∧
    (s.setInput mv).coreSlots = s.coreSlots ∧ (s.setInput mv).sent = s.sent ∧
    (s.setInput mv).fresh = s.fresh := by
  repeat' constructor

@[simp] theorem State.setPeer_peruo (s : State) (p : Nat) (x : PeerSt) : (s.setPeer p x).peruo = { s.peruo with peers := Tab.write s.peruo.peers p x } := rfl

@[simp] theorem State.setPeer_keeps (s : State) (p : Nat) (x : PeerSt) :
    (s.setPeer p x).pending = s.pending ∧ (s.setPeer p x).mem = s.mem ∧
    (s.setPeer p x).dies = s.dies ∧ (s.setPeer p x).power = s.power ∧
    (s.setPeer p x).module = s.module ∧ (s.setPeer p x).draft = s.draft ∧
    (s.setPeer p x).mailbox = s.mailbox ∧ (s.setPeer p x).counters = s.counters ∧
    (s.setPeer p x).host = s.host ∧ (s.setPeer p x).msixPending = s.msixPending ∧
    (s.setPeer p x).queues = s.queues ∧ (s.setPeer p x).leases = s.leases ∧
    (s.setPeer p x).leaseReq = s.leaseReq ∧ (s.setPeer p x).leaseResult = s.leaseResult ∧
    (s.setPeer p x).grantSeq = s.grantSeq ∧ (s.setPeer p x).restoring = s.restoring ∧
    (s.setPeer p x).objects = s.objects ∧ (s.setPeer p x).frames = s.frames ∧
    (s.setPeer p x).looms = s.looms ∧ (s.setPeer p x).heddles = s.heddles ∧
    (s.setPeer p x).mcast = s.mcast ∧ (s.setPeer p x).mcastSends = s.mcastSends ∧
    (s.setPeer p x).vecs = s.vecs ∧ (s.setPeer p x).cores = s.cores ∧
    (s.setPeer p x).xfers = s.xfers ∧ (s.setPeer p x).rings = s.rings ∧
    (s.setPeer p x).treadle = s.treadle ∧ (s.setPeer p x).readyOrder = s.readyOrder ∧
    (s.setPeer p x).tokens = s.tokens ∧ (s.setPeer p x).stash = s.stash ∧
    (s.setPeer p x).segs = s.segs ∧ (s.setPeer p x).outcomeWaits = s.outcomeWaits ∧
    (s.setPeer p x).seals = s.seals ∧ (s.setPeer p x).ctxs = s.ctxs ∧
    (s.setPeer p x).attached = s.attached ∧ (s.setPeer p x).coh = s.coh ∧
    (s.setPeer p x).journal = s.journal ∧ (s.setPeer p x).commit = s.commit ∧
    (s.setPeer p x).repairs = s.repairs ∧ (s.setPeer p x).fw = s.fw ∧ (s.setPeer p x).sec = s.sec ∧
    (s.setPeer p x).spdm = s.spdm ∧ (s.setPeer p x).hartsStopped = s.hartsStopped ∧
    (s.setPeer p x).coreSlots = s.coreSlots ∧ (s.setPeer p x).sent = s.sent ∧
    (s.setPeer p x).fresh = s.fresh := by
  repeat' constructor

@[simp] theorem State.setLane_peruo (s : State) (n : Nat) (x : Lane) : (s.setLane n x).peruo = { s.peruo with lanes := Tab.write s.peruo.lanes n x } := rfl

@[simp] theorem State.setLane_keeps (s : State) (n : Nat) (x : Lane) :
    (s.setLane n x).pending = s.pending ∧ (s.setLane n x).mem = s.mem ∧
    (s.setLane n x).dies = s.dies ∧ (s.setLane n x).power = s.power ∧
    (s.setLane n x).module = s.module ∧ (s.setLane n x).draft = s.draft ∧
    (s.setLane n x).mailbox = s.mailbox ∧ (s.setLane n x).counters = s.counters ∧
    (s.setLane n x).host = s.host ∧ (s.setLane n x).msixPending = s.msixPending ∧
    (s.setLane n x).queues = s.queues ∧ (s.setLane n x).leases = s.leases ∧
    (s.setLane n x).leaseReq = s.leaseReq ∧ (s.setLane n x).leaseResult = s.leaseResult ∧
    (s.setLane n x).grantSeq = s.grantSeq ∧ (s.setLane n x).restoring = s.restoring ∧
    (s.setLane n x).objects = s.objects ∧ (s.setLane n x).frames = s.frames ∧
    (s.setLane n x).looms = s.looms ∧ (s.setLane n x).heddles = s.heddles ∧
    (s.setLane n x).mcast = s.mcast ∧ (s.setLane n x).mcastSends = s.mcastSends ∧
    (s.setLane n x).vecs = s.vecs ∧ (s.setLane n x).cores = s.cores ∧
    (s.setLane n x).xfers = s.xfers ∧ (s.setLane n x).rings = s.rings ∧
    (s.setLane n x).treadle = s.treadle ∧ (s.setLane n x).readyOrder = s.readyOrder ∧
    (s.setLane n x).tokens = s.tokens ∧ (s.setLane n x).stash = s.stash ∧
    (s.setLane n x).segs = s.segs ∧ (s.setLane n x).outcomeWaits = s.outcomeWaits ∧
    (s.setLane n x).seals = s.seals ∧ (s.setLane n x).ctxs = s.ctxs ∧
    (s.setLane n x).attached = s.attached ∧ (s.setLane n x).coh = s.coh ∧
    (s.setLane n x).journal = s.journal ∧ (s.setLane n x).commit = s.commit ∧
    (s.setLane n x).repairs = s.repairs ∧ (s.setLane n x).fw = s.fw ∧ (s.setLane n x).sec = s.sec ∧
    (s.setLane n x).spdm = s.spdm ∧ (s.setLane n x).hartsStopped = s.hartsStopped ∧
    (s.setLane n x).coreSlots = s.coreSlots ∧ (s.setLane n x).sent = s.sent ∧
    (s.setLane n x).fresh = s.fresh := by
  repeat' constructor

@[simp] theorem State.setEth_peruo (s : State) (p : Nat) (x : EthPeer) : (s.setEth p x).peruo = { s.peruo with eth := Tab.write s.peruo.eth p x } := rfl

@[simp] theorem State.setEth_keeps (s : State) (p : Nat) (x : EthPeer) :
    (s.setEth p x).pending = s.pending ∧ (s.setEth p x).mem = s.mem ∧
    (s.setEth p x).dies = s.dies ∧ (s.setEth p x).power = s.power ∧
    (s.setEth p x).module = s.module ∧ (s.setEth p x).draft = s.draft ∧
    (s.setEth p x).mailbox = s.mailbox ∧ (s.setEth p x).counters = s.counters ∧
    (s.setEth p x).host = s.host ∧ (s.setEth p x).msixPending = s.msixPending ∧
    (s.setEth p x).queues = s.queues ∧ (s.setEth p x).leases = s.leases ∧
    (s.setEth p x).leaseReq = s.leaseReq ∧ (s.setEth p x).leaseResult = s.leaseResult ∧
    (s.setEth p x).grantSeq = s.grantSeq ∧ (s.setEth p x).restoring = s.restoring ∧
    (s.setEth p x).objects = s.objects ∧ (s.setEth p x).frames = s.frames ∧
    (s.setEth p x).looms = s.looms ∧ (s.setEth p x).heddles = s.heddles ∧
    (s.setEth p x).mcast = s.mcast ∧ (s.setEth p x).mcastSends = s.mcastSends ∧
    (s.setEth p x).vecs = s.vecs ∧ (s.setEth p x).cores = s.cores ∧
    (s.setEth p x).xfers = s.xfers ∧ (s.setEth p x).rings = s.rings ∧
    (s.setEth p x).treadle = s.treadle ∧ (s.setEth p x).readyOrder = s.readyOrder ∧
    (s.setEth p x).tokens = s.tokens ∧ (s.setEth p x).stash = s.stash ∧
    (s.setEth p x).segs = s.segs ∧ (s.setEth p x).outcomeWaits = s.outcomeWaits ∧
    (s.setEth p x).seals = s.seals ∧ (s.setEth p x).ctxs = s.ctxs ∧
    (s.setEth p x).attached = s.attached ∧ (s.setEth p x).coh = s.coh ∧
    (s.setEth p x).journal = s.journal ∧ (s.setEth p x).commit = s.commit ∧
    (s.setEth p x).repairs = s.repairs ∧ (s.setEth p x).fw = s.fw ∧ (s.setEth p x).sec = s.sec ∧
    (s.setEth p x).spdm = s.spdm ∧ (s.setEth p x).hartsStopped = s.hartsStopped ∧
    (s.setEth p x).coreSlots = s.coreSlots ∧ (s.setEth p x).sent = s.sent ∧
    (s.setEth p x).fresh = s.fresh := by
  repeat' constructor

@[simp] theorem State.setStash_stash (s : State) (l : Nat) (x : Stash) : (s.setStash l x).stash = Tab.write s.stash l x := rfl

@[simp] theorem State.setStash_keeps (s : State) (l : Nat) (x : Stash) :
    (s.setStash l x).pending = s.pending ∧ (s.setStash l x).mem = s.mem ∧
    (s.setStash l x).dies = s.dies ∧ (s.setStash l x).power = s.power ∧
    (s.setStash l x).module = s.module ∧ (s.setStash l x).draft = s.draft ∧
    (s.setStash l x).mailbox = s.mailbox ∧ (s.setStash l x).counters = s.counters ∧
    (s.setStash l x).host = s.host ∧ (s.setStash l x).msixPending = s.msixPending ∧
    (s.setStash l x).queues = s.queues ∧ (s.setStash l x).leases = s.leases ∧
    (s.setStash l x).leaseReq = s.leaseReq ∧ (s.setStash l x).leaseResult = s.leaseResult ∧
    (s.setStash l x).grantSeq = s.grantSeq ∧ (s.setStash l x).restoring = s.restoring ∧
    (s.setStash l x).objects = s.objects ∧ (s.setStash l x).frames = s.frames ∧
    (s.setStash l x).looms = s.looms ∧ (s.setStash l x).heddles = s.heddles ∧
    (s.setStash l x).mcast = s.mcast ∧ (s.setStash l x).mcastSends = s.mcastSends ∧
    (s.setStash l x).vecs = s.vecs ∧ (s.setStash l x).cores = s.cores ∧
    (s.setStash l x).xfers = s.xfers ∧ (s.setStash l x).rings = s.rings ∧
    (s.setStash l x).treadle = s.treadle ∧ (s.setStash l x).readyOrder = s.readyOrder ∧
    (s.setStash l x).tokens = s.tokens ∧ (s.setStash l x).segs = s.segs ∧
    (s.setStash l x).outcomeWaits = s.outcomeWaits ∧ (s.setStash l x).seals = s.seals ∧
    (s.setStash l x).ctxs = s.ctxs ∧ (s.setStash l x).attached = s.attached ∧
    (s.setStash l x).coh = s.coh ∧ (s.setStash l x).peruo = s.peruo ∧
    (s.setStash l x).journal = s.journal ∧ (s.setStash l x).commit = s.commit ∧
    (s.setStash l x).repairs = s.repairs ∧ (s.setStash l x).fw = s.fw ∧
    (s.setStash l x).sec = s.sec ∧ (s.setStash l x).spdm = s.spdm ∧
    (s.setStash l x).hartsStopped = s.hartsStopped ∧ (s.setStash l x).coreSlots = s.coreSlots ∧
    (s.setStash l x).sent = s.sent ∧ (s.setStash l x).fresh = s.fresh := by
  repeat' constructor

@[simp] theorem State.setCtx_ctxs (s : State) (k : Nat) (x : Ctx) : (s.setCtx k x).ctxs = Tab.write s.ctxs k x := rfl

@[simp] theorem State.setCtx_keeps (s : State) (k : Nat) (x : Ctx) :
    (s.setCtx k x).pending = s.pending ∧ (s.setCtx k x).mem = s.mem ∧
    (s.setCtx k x).dies = s.dies ∧ (s.setCtx k x).power = s.power ∧
    (s.setCtx k x).module = s.module ∧ (s.setCtx k x).draft = s.draft ∧
    (s.setCtx k x).mailbox = s.mailbox ∧ (s.setCtx k x).counters = s.counters ∧
    (s.setCtx k x).host = s.host ∧ (s.setCtx k x).msixPending = s.msixPending ∧
    (s.setCtx k x).queues = s.queues ∧ (s.setCtx k x).leases = s.leases ∧
    (s.setCtx k x).leaseReq = s.leaseReq ∧ (s.setCtx k x).leaseResult = s.leaseResult ∧
    (s.setCtx k x).grantSeq = s.grantSeq ∧ (s.setCtx k x).restoring = s.restoring ∧
    (s.setCtx k x).objects = s.objects ∧ (s.setCtx k x).frames = s.frames ∧
    (s.setCtx k x).looms = s.looms ∧ (s.setCtx k x).heddles = s.heddles ∧
    (s.setCtx k x).mcast = s.mcast ∧ (s.setCtx k x).mcastSends = s.mcastSends ∧
    (s.setCtx k x).vecs = s.vecs ∧ (s.setCtx k x).cores = s.cores ∧
    (s.setCtx k x).xfers = s.xfers ∧ (s.setCtx k x).rings = s.rings ∧
    (s.setCtx k x).treadle = s.treadle ∧ (s.setCtx k x).readyOrder = s.readyOrder ∧
    (s.setCtx k x).tokens = s.tokens ∧ (s.setCtx k x).stash = s.stash ∧
    (s.setCtx k x).segs = s.segs ∧ (s.setCtx k x).outcomeWaits = s.outcomeWaits ∧
    (s.setCtx k x).seals = s.seals ∧ (s.setCtx k x).attached = s.attached ∧
    (s.setCtx k x).coh = s.coh ∧ (s.setCtx k x).peruo = s.peruo ∧
    (s.setCtx k x).journal = s.journal ∧ (s.setCtx k x).commit = s.commit ∧
    (s.setCtx k x).repairs = s.repairs ∧ (s.setCtx k x).fw = s.fw ∧ (s.setCtx k x).sec = s.sec ∧
    (s.setCtx k x).spdm = s.spdm ∧ (s.setCtx k x).hartsStopped = s.hartsStopped ∧
    (s.setCtx k x).coreSlots = s.coreSlots ∧ (s.setCtx k x).sent = s.sent ∧
    (s.setCtx k x).fresh = s.fresh := by
  repeat' constructor

@[simp] theorem State.setObj_objects (s : State) (j : Nat) (o : TierObj) : (s.setObj j o).objects = Tab.write s.objects j o := rfl

@[simp] theorem State.setObj_keeps (s : State) (j : Nat) (o : TierObj) :
    (s.setObj j o).pending = s.pending ∧ (s.setObj j o).mem = s.mem ∧
    (s.setObj j o).dies = s.dies ∧ (s.setObj j o).power = s.power ∧
    (s.setObj j o).module = s.module ∧ (s.setObj j o).draft = s.draft ∧
    (s.setObj j o).mailbox = s.mailbox ∧ (s.setObj j o).counters = s.counters ∧
    (s.setObj j o).host = s.host ∧ (s.setObj j o).msixPending = s.msixPending ∧
    (s.setObj j o).queues = s.queues ∧ (s.setObj j o).leases = s.leases ∧
    (s.setObj j o).leaseReq = s.leaseReq ∧ (s.setObj j o).leaseResult = s.leaseResult ∧
    (s.setObj j o).grantSeq = s.grantSeq ∧ (s.setObj j o).restoring = s.restoring ∧
    (s.setObj j o).frames = s.frames ∧ (s.setObj j o).looms = s.looms ∧
    (s.setObj j o).heddles = s.heddles ∧ (s.setObj j o).mcast = s.mcast ∧
    (s.setObj j o).mcastSends = s.mcastSends ∧ (s.setObj j o).vecs = s.vecs ∧
    (s.setObj j o).cores = s.cores ∧ (s.setObj j o).xfers = s.xfers ∧
    (s.setObj j o).rings = s.rings ∧ (s.setObj j o).treadle = s.treadle ∧
    (s.setObj j o).readyOrder = s.readyOrder ∧ (s.setObj j o).tokens = s.tokens ∧
    (s.setObj j o).stash = s.stash ∧ (s.setObj j o).segs = s.segs ∧
    (s.setObj j o).outcomeWaits = s.outcomeWaits ∧ (s.setObj j o).seals = s.seals ∧
    (s.setObj j o).ctxs = s.ctxs ∧ (s.setObj j o).attached = s.attached ∧
    (s.setObj j o).coh = s.coh ∧ (s.setObj j o).peruo = s.peruo ∧
    (s.setObj j o).journal = s.journal ∧ (s.setObj j o).commit = s.commit ∧
    (s.setObj j o).repairs = s.repairs ∧ (s.setObj j o).fw = s.fw ∧ (s.setObj j o).sec = s.sec ∧
    (s.setObj j o).spdm = s.spdm ∧ (s.setObj j o).hartsStopped = s.hartsStopped ∧
    (s.setObj j o).coreSlots = s.coreSlots ∧ (s.setObj j o).sent = s.sent ∧
    (s.setObj j o).fresh = s.fresh := by
  repeat' constructor

@[simp] theorem State.setCheck_sec (s : State) (c : Nat) : (s.setCheck c).sec = { s.sec with checkResult := c } := rfl

@[simp] theorem State.setCheck_keeps (s : State) (c : Nat) :
    (s.setCheck c).pending = s.pending ∧ (s.setCheck c).mem = s.mem ∧
    (s.setCheck c).dies = s.dies ∧ (s.setCheck c).power = s.power ∧
    (s.setCheck c).module = s.module ∧ (s.setCheck c).draft = s.draft ∧
    (s.setCheck c).mailbox = s.mailbox ∧ (s.setCheck c).counters = s.counters ∧
    (s.setCheck c).host = s.host ∧ (s.setCheck c).msixPending = s.msixPending ∧
    (s.setCheck c).queues = s.queues ∧ (s.setCheck c).leases = s.leases ∧
    (s.setCheck c).leaseReq = s.leaseReq ∧ (s.setCheck c).leaseResult = s.leaseResult ∧
    (s.setCheck c).grantSeq = s.grantSeq ∧ (s.setCheck c).restoring = s.restoring ∧
    (s.setCheck c).objects = s.objects ∧ (s.setCheck c).frames = s.frames ∧
    (s.setCheck c).looms = s.looms ∧ (s.setCheck c).heddles = s.heddles ∧
    (s.setCheck c).mcast = s.mcast ∧ (s.setCheck c).mcastSends = s.mcastSends ∧
    (s.setCheck c).vecs = s.vecs ∧ (s.setCheck c).cores = s.cores ∧
    (s.setCheck c).xfers = s.xfers ∧ (s.setCheck c).rings = s.rings ∧
    (s.setCheck c).treadle = s.treadle ∧ (s.setCheck c).readyOrder = s.readyOrder ∧
    (s.setCheck c).tokens = s.tokens ∧ (s.setCheck c).stash = s.stash ∧
    (s.setCheck c).segs = s.segs ∧ (s.setCheck c).outcomeWaits = s.outcomeWaits ∧
    (s.setCheck c).seals = s.seals ∧ (s.setCheck c).ctxs = s.ctxs ∧
    (s.setCheck c).attached = s.attached ∧ (s.setCheck c).coh = s.coh ∧
    (s.setCheck c).peruo = s.peruo ∧ (s.setCheck c).journal = s.journal ∧
    (s.setCheck c).commit = s.commit ∧ (s.setCheck c).repairs = s.repairs ∧
    (s.setCheck c).fw = s.fw ∧ (s.setCheck c).spdm = s.spdm ∧
    (s.setCheck c).hartsStopped = s.hartsStopped ∧ (s.setCheck c).coreSlots = s.coreSlots ∧
    (s.setCheck c).sent = s.sent ∧ (s.setCheck c).fresh = s.fresh := by
  repeat' constructor

@[simp] theorem State.setSession_draft (s : State) (x : Session) : (s.setSession x).draft = s.draft.setSession x := rfl

@[simp] theorem State.setSession_keeps (s : State) (x : Session) :
    (s.setSession x).pending = s.pending ∧ (s.setSession x).mem = s.mem ∧
    (s.setSession x).dies = s.dies ∧ (s.setSession x).power = s.power ∧
    (s.setSession x).module = s.module ∧ (s.setSession x).mailbox = s.mailbox ∧
    (s.setSession x).counters = s.counters ∧ (s.setSession x).host = s.host ∧
    (s.setSession x).msixPending = s.msixPending ∧ (s.setSession x).queues = s.queues ∧
    (s.setSession x).leases = s.leases ∧ (s.setSession x).leaseReq = s.leaseReq ∧
    (s.setSession x).leaseResult = s.leaseResult ∧ (s.setSession x).grantSeq = s.grantSeq ∧
    (s.setSession x).restoring = s.restoring ∧ (s.setSession x).objects = s.objects ∧
    (s.setSession x).frames = s.frames ∧ (s.setSession x).looms = s.looms ∧
    (s.setSession x).heddles = s.heddles ∧ (s.setSession x).mcast = s.mcast ∧
    (s.setSession x).mcastSends = s.mcastSends ∧ (s.setSession x).vecs = s.vecs ∧
    (s.setSession x).cores = s.cores ∧ (s.setSession x).xfers = s.xfers ∧
    (s.setSession x).rings = s.rings ∧ (s.setSession x).treadle = s.treadle ∧
    (s.setSession x).readyOrder = s.readyOrder ∧ (s.setSession x).tokens = s.tokens ∧
    (s.setSession x).stash = s.stash ∧ (s.setSession x).segs = s.segs ∧
    (s.setSession x).outcomeWaits = s.outcomeWaits ∧ (s.setSession x).seals = s.seals ∧
    (s.setSession x).ctxs = s.ctxs ∧ (s.setSession x).attached = s.attached ∧
    (s.setSession x).coh = s.coh ∧ (s.setSession x).peruo = s.peruo ∧
    (s.setSession x).journal = s.journal ∧ (s.setSession x).commit = s.commit ∧
    (s.setSession x).repairs = s.repairs ∧ (s.setSession x).fw = s.fw ∧
    (s.setSession x).sec = s.sec ∧ (s.setSession x).spdm = s.spdm ∧
    (s.setSession x).hartsStopped = s.hartsStopped ∧ (s.setSession x).coreSlots = s.coreSlots ∧
    (s.setSession x).sent = s.sent ∧ (s.setSession x).fresh = s.fresh := by
  repeat' constructor

@[simp] theorem State.emit_sent (s : State) (e : Emit) : (s.emit e).sent = s.sent ++ [e] := rfl

@[simp] theorem State.emit_keeps (s : State) (e : Emit) :
    (s.emit e).pending = s.pending ∧ (s.emit e).mem = s.mem ∧ (s.emit e).dies = s.dies ∧
    (s.emit e).power = s.power ∧ (s.emit e).module = s.module ∧ (s.emit e).draft = s.draft ∧
    (s.emit e).mailbox = s.mailbox ∧ (s.emit e).counters = s.counters ∧ (s.emit e).host = s.host ∧
    (s.emit e).msixPending = s.msixPending ∧ (s.emit e).queues = s.queues ∧
    (s.emit e).leases = s.leases ∧ (s.emit e).leaseReq = s.leaseReq ∧
    (s.emit e).leaseResult = s.leaseResult ∧ (s.emit e).grantSeq = s.grantSeq ∧
    (s.emit e).restoring = s.restoring ∧ (s.emit e).objects = s.objects ∧
    (s.emit e).frames = s.frames ∧ (s.emit e).looms = s.looms ∧ (s.emit e).heddles = s.heddles ∧
    (s.emit e).mcast = s.mcast ∧ (s.emit e).mcastSends = s.mcastSends ∧ (s.emit e).vecs = s.vecs ∧
    (s.emit e).cores = s.cores ∧ (s.emit e).xfers = s.xfers ∧ (s.emit e).rings = s.rings ∧
    (s.emit e).treadle = s.treadle ∧ (s.emit e).readyOrder = s.readyOrder ∧
    (s.emit e).tokens = s.tokens ∧ (s.emit e).stash = s.stash ∧ (s.emit e).segs = s.segs ∧
    (s.emit e).outcomeWaits = s.outcomeWaits ∧ (s.emit e).seals = s.seals ∧
    (s.emit e).ctxs = s.ctxs ∧ (s.emit e).attached = s.attached ∧ (s.emit e).coh = s.coh ∧
    (s.emit e).peruo = s.peruo ∧ (s.emit e).journal = s.journal ∧ (s.emit e).commit = s.commit ∧
    (s.emit e).repairs = s.repairs ∧ (s.emit e).fw = s.fw ∧ (s.emit e).sec = s.sec ∧
    (s.emit e).spdm = s.spdm ∧ (s.emit e).hartsStopped = s.hartsStopped ∧
    (s.emit e).coreSlots = s.coreSlots ∧ (s.emit e).fresh = s.fresh := by
  repeat' constructor

@[simp] theorem State.clearCounters_counters (s : State) (lo hi : Nat) : (s.clearCounters lo hi).counters = s.counters.filter (fun e => e.1 < lo ∨ hi < e.1) := rfl

@[simp] theorem State.clearCounters_keeps (s : State) (lo hi : Nat) :
    (s.clearCounters lo hi).pending = s.pending ∧ (s.clearCounters lo hi).mem = s.mem ∧
    (s.clearCounters lo hi).dies = s.dies ∧ (s.clearCounters lo hi).power = s.power ∧
    (s.clearCounters lo hi).module = s.module ∧ (s.clearCounters lo hi).draft = s.draft ∧
    (s.clearCounters lo hi).mailbox = s.mailbox ∧ (s.clearCounters lo hi).host = s.host ∧
    (s.clearCounters lo hi).msixPending = s.msixPending ∧
    (s.clearCounters lo hi).queues = s.queues ∧ (s.clearCounters lo hi).leases = s.leases ∧
    (s.clearCounters lo hi).leaseReq = s.leaseReq ∧
    (s.clearCounters lo hi).leaseResult = s.leaseResult ∧
    (s.clearCounters lo hi).grantSeq = s.grantSeq ∧
    (s.clearCounters lo hi).restoring = s.restoring ∧ (s.clearCounters lo hi).objects = s.objects ∧
    (s.clearCounters lo hi).frames = s.frames ∧ (s.clearCounters lo hi).looms = s.looms ∧
    (s.clearCounters lo hi).heddles = s.heddles ∧ (s.clearCounters lo hi).mcast = s.mcast ∧
    (s.clearCounters lo hi).mcastSends = s.mcastSends ∧ (s.clearCounters lo hi).vecs = s.vecs ∧
    (s.clearCounters lo hi).cores = s.cores ∧ (s.clearCounters lo hi).xfers = s.xfers ∧
    (s.clearCounters lo hi).rings = s.rings ∧ (s.clearCounters lo hi).treadle = s.treadle ∧
    (s.clearCounters lo hi).readyOrder = s.readyOrder ∧ (s.clearCounters lo hi).tokens = s.tokens ∧
    (s.clearCounters lo hi).stash = s.stash ∧ (s.clearCounters lo hi).segs = s.segs ∧
    (s.clearCounters lo hi).outcomeWaits = s.outcomeWaits ∧
    (s.clearCounters lo hi).seals = s.seals ∧ (s.clearCounters lo hi).ctxs = s.ctxs ∧
    (s.clearCounters lo hi).attached = s.attached ∧ (s.clearCounters lo hi).coh = s.coh ∧
    (s.clearCounters lo hi).peruo = s.peruo ∧ (s.clearCounters lo hi).journal = s.journal ∧
    (s.clearCounters lo hi).commit = s.commit ∧ (s.clearCounters lo hi).repairs = s.repairs ∧
    (s.clearCounters lo hi).fw = s.fw ∧ (s.clearCounters lo hi).sec = s.sec ∧
    (s.clearCounters lo hi).spdm = s.spdm ∧ (s.clearCounters lo hi).hartsStopped = s.hartsStopped ∧
    (s.clearCounters lo hi).coreSlots = s.coreSlots ∧ (s.clearCounters lo hi).sent = s.sent ∧
    (s.clearCounters lo hi).fresh = s.fresh := by
  repeat' constructor

/-- A draw takes the next free value and moves the counter of draws, nothing else (log 10). -/
@[simp] theorem State.draw_value (s : State) : s.draw.1 = Config.freeValue s.fresh := rfl

@[simp] theorem State.draw_fresh (s : State) : s.draw.2.fresh = s.fresh + 1 := rfl

@[simp] theorem State.draw_keeps (s : State) :
    (s.draw.2).pending = s.pending ∧ (s.draw.2).mem = s.mem ∧ (s.draw.2).dies = s.dies ∧
    (s.draw.2).power = s.power ∧ (s.draw.2).module = s.module ∧ (s.draw.2).draft = s.draft ∧
    (s.draw.2).mailbox = s.mailbox ∧ (s.draw.2).counters = s.counters ∧ (s.draw.2).host = s.host ∧
    (s.draw.2).msixPending = s.msixPending ∧ (s.draw.2).queues = s.queues ∧
    (s.draw.2).leases = s.leases ∧ (s.draw.2).leaseReq = s.leaseReq ∧
    (s.draw.2).leaseResult = s.leaseResult ∧ (s.draw.2).grantSeq = s.grantSeq ∧
    (s.draw.2).restoring = s.restoring ∧ (s.draw.2).objects = s.objects ∧
    (s.draw.2).frames = s.frames ∧ (s.draw.2).looms = s.looms ∧ (s.draw.2).heddles = s.heddles ∧
    (s.draw.2).mcast = s.mcast ∧ (s.draw.2).mcastSends = s.mcastSends ∧ (s.draw.2).vecs = s.vecs ∧
    (s.draw.2).cores = s.cores ∧ (s.draw.2).xfers = s.xfers ∧ (s.draw.2).rings = s.rings ∧
    (s.draw.2).treadle = s.treadle ∧ (s.draw.2).readyOrder = s.readyOrder ∧
    (s.draw.2).tokens = s.tokens ∧ (s.draw.2).stash = s.stash ∧ (s.draw.2).segs = s.segs ∧
    (s.draw.2).outcomeWaits = s.outcomeWaits ∧ (s.draw.2).seals = s.seals ∧
    (s.draw.2).ctxs = s.ctxs ∧ (s.draw.2).attached = s.attached ∧ (s.draw.2).coh = s.coh ∧
    (s.draw.2).peruo = s.peruo ∧ (s.draw.2).journal = s.journal ∧ (s.draw.2).commit = s.commit ∧
    (s.draw.2).repairs = s.repairs ∧ (s.draw.2).fw = s.fw ∧ (s.draw.2).sec = s.sec ∧
    (s.draw.2).spdm = s.spdm ∧ (s.draw.2).hartsStopped = s.hartsStopped ∧
    (s.draw.2).coreSlots = s.coreSlots ∧ (s.draw.2).sent = s.sent := by
  repeat' constructor

/-- Counting changes counters and nothing else (R53). -/
@[simp] theorem State.count_keeps (s : State) (index sub n : Nat) :
    (s.count index sub n).pending = s.pending ∧ (s.count index sub n).mem = s.mem ∧
    (s.count index sub n).dies = s.dies ∧ (s.count index sub n).power = s.power ∧
    (s.count index sub n).module = s.module ∧ (s.count index sub n).draft = s.draft ∧
    (s.count index sub n).mailbox = s.mailbox ∧ (s.count index sub n).host = s.host ∧
    (s.count index sub n).msixPending = s.msixPending ∧ (s.count index sub n).queues = s.queues ∧
    (s.count index sub n).leases = s.leases ∧ (s.count index sub n).leaseReq = s.leaseReq ∧
    (s.count index sub n).leaseResult = s.leaseResult ∧
    (s.count index sub n).grantSeq = s.grantSeq ∧ (s.count index sub n).restoring = s.restoring ∧
    (s.count index sub n).objects = s.objects ∧ (s.count index sub n).frames = s.frames ∧
    (s.count index sub n).looms = s.looms ∧ (s.count index sub n).heddles = s.heddles ∧
    (s.count index sub n).mcast = s.mcast ∧ (s.count index sub n).mcastSends = s.mcastSends ∧
    (s.count index sub n).vecs = s.vecs ∧ (s.count index sub n).cores = s.cores ∧
    (s.count index sub n).xfers = s.xfers ∧ (s.count index sub n).rings = s.rings ∧
    (s.count index sub n).treadle = s.treadle ∧ (s.count index sub n).readyOrder = s.readyOrder ∧
    (s.count index sub n).tokens = s.tokens ∧ (s.count index sub n).stash = s.stash ∧
    (s.count index sub n).segs = s.segs ∧ (s.count index sub n).outcomeWaits = s.outcomeWaits ∧
    (s.count index sub n).seals = s.seals ∧ (s.count index sub n).ctxs = s.ctxs ∧
    (s.count index sub n).attached = s.attached ∧ (s.count index sub n).coh = s.coh ∧
    (s.count index sub n).peruo = s.peruo ∧ (s.count index sub n).journal = s.journal ∧
    (s.count index sub n).commit = s.commit ∧ (s.count index sub n).repairs = s.repairs ∧
    (s.count index sub n).fw = s.fw ∧ (s.count index sub n).sec = s.sec ∧
    (s.count index sub n).spdm = s.spdm ∧ (s.count index sub n).hartsStopped = s.hartsStopped ∧
    (s.count index sub n).coreSlots = s.coreSlots ∧ (s.count index sub n).sent = s.sent ∧
    (s.count index sub n).fresh = s.fresh := by
  unfold State.count
  split <;> simp

/-- An MSI-X message joins what is sent and is counted (R297). -/
@[simp] theorem State.msix_keeps (s : State) (vector : Nat) :
    (s.msix vector).pending = s.pending ∧ (s.msix vector).mem = s.mem ∧
    (s.msix vector).dies = s.dies ∧ (s.msix vector).power = s.power ∧
    (s.msix vector).module = s.module ∧ (s.msix vector).draft = s.draft ∧
    (s.msix vector).mailbox = s.mailbox ∧ (s.msix vector).host = s.host ∧
    (s.msix vector).queues = s.queues ∧ (s.msix vector).leases = s.leases ∧
    (s.msix vector).leaseReq = s.leaseReq ∧ (s.msix vector).leaseResult = s.leaseResult ∧
    (s.msix vector).grantSeq = s.grantSeq ∧ (s.msix vector).restoring = s.restoring ∧
    (s.msix vector).objects = s.objects ∧ (s.msix vector).frames = s.frames ∧
    (s.msix vector).looms = s.looms ∧ (s.msix vector).heddles = s.heddles ∧
    (s.msix vector).mcast = s.mcast ∧ (s.msix vector).mcastSends = s.mcastSends ∧
    (s.msix vector).vecs = s.vecs ∧ (s.msix vector).cores = s.cores ∧
    (s.msix vector).xfers = s.xfers ∧ (s.msix vector).rings = s.rings ∧
    (s.msix vector).treadle = s.treadle ∧ (s.msix vector).readyOrder = s.readyOrder ∧
    (s.msix vector).tokens = s.tokens ∧ (s.msix vector).stash = s.stash ∧
    (s.msix vector).segs = s.segs ∧ (s.msix vector).outcomeWaits = s.outcomeWaits ∧
    (s.msix vector).seals = s.seals ∧ (s.msix vector).ctxs = s.ctxs ∧
    (s.msix vector).attached = s.attached ∧ (s.msix vector).coh = s.coh ∧
    (s.msix vector).peruo = s.peruo ∧ (s.msix vector).journal = s.journal ∧
    (s.msix vector).commit = s.commit ∧ (s.msix vector).repairs = s.repairs ∧
    (s.msix vector).fw = s.fw ∧ (s.msix vector).sec = s.sec ∧ (s.msix vector).spdm = s.spdm ∧
    (s.msix vector).hartsStopped = s.hartsStopped ∧ (s.msix vector).coreSlots = s.coreSlots ∧
    (s.msix vector).fresh = s.fresh := by
  unfold State.msix
  repeat' split
  all_goals simp

/-- A journal record changes the journal and its counters (R384). -/
@[simp] theorem State.record_keeps (s : State) (ty : Nat) (flags : Byte) (body : List Byte) :
    (s.record ty flags body).pending = s.pending ∧ (s.record ty flags body).mem = s.mem ∧
    (s.record ty flags body).dies = s.dies ∧ (s.record ty flags body).power = s.power ∧
    (s.record ty flags body).module = s.module ∧ (s.record ty flags body).draft = s.draft ∧
    (s.record ty flags body).mailbox = s.mailbox ∧ (s.record ty flags body).host = s.host ∧
    (s.record ty flags body).msixPending = s.msixPending ∧
    (s.record ty flags body).queues = s.queues ∧ (s.record ty flags body).leases = s.leases ∧
    (s.record ty flags body).leaseReq = s.leaseReq ∧
    (s.record ty flags body).leaseResult = s.leaseResult ∧
    (s.record ty flags body).grantSeq = s.grantSeq ∧
    (s.record ty flags body).restoring = s.restoring ∧
    (s.record ty flags body).objects = s.objects ∧ (s.record ty flags body).frames = s.frames ∧
    (s.record ty flags body).looms = s.looms ∧ (s.record ty flags body).heddles = s.heddles ∧
    (s.record ty flags body).mcast = s.mcast ∧ (s.record ty flags body).mcastSends = s.mcastSends ∧
    (s.record ty flags body).vecs = s.vecs ∧ (s.record ty flags body).cores = s.cores ∧
    (s.record ty flags body).xfers = s.xfers ∧ (s.record ty flags body).rings = s.rings ∧
    (s.record ty flags body).treadle = s.treadle ∧
    (s.record ty flags body).readyOrder = s.readyOrder ∧
    (s.record ty flags body).tokens = s.tokens ∧ (s.record ty flags body).stash = s.stash ∧
    (s.record ty flags body).segs = s.segs ∧
    (s.record ty flags body).outcomeWaits = s.outcomeWaits ∧
    (s.record ty flags body).seals = s.seals ∧ (s.record ty flags body).ctxs = s.ctxs ∧
    (s.record ty flags body).attached = s.attached ∧ (s.record ty flags body).coh = s.coh ∧
    (s.record ty flags body).peruo = s.peruo ∧ (s.record ty flags body).commit = s.commit ∧
    (s.record ty flags body).repairs = s.repairs ∧ (s.record ty flags body).fw = s.fw ∧
    (s.record ty flags body).sec = s.sec ∧ (s.record ty flags body).spdm = s.spdm ∧
    (s.record ty flags body).hartsStopped = s.hartsStopped ∧
    (s.record ty flags body).coreSlots = s.coreSlots ∧ (s.record ty flags body).sent = s.sent ∧
    (s.record ty flags body).fresh = s.fresh := by
  unfold State.record
  split
  · simp
  · by_cases h : tailLimit < s.journal.tailBytes + jrecLength body <;> simp [h]

/-- An event changes the log, the journal, its counters and what is sent (R363). -/
@[simp] theorem State.event_keeps (s : State) (index sub source arg1 arg2 : Nat) :
    (s.event index sub source arg1 arg2).pending = s.pending ∧
    (s.event index sub source arg1 arg2).mem = s.mem ∧
    (s.event index sub source arg1 arg2).dies = s.dies ∧
    (s.event index sub source arg1 arg2).power = s.power ∧
    (s.event index sub source arg1 arg2).module = s.module ∧
    (s.event index sub source arg1 arg2).mailbox = s.mailbox ∧
    (s.event index sub source arg1 arg2).host = s.host ∧
    (s.event index sub source arg1 arg2).queues = s.queues ∧
    (s.event index sub source arg1 arg2).leases = s.leases ∧
    (s.event index sub source arg1 arg2).leaseReq = s.leaseReq ∧
    (s.event index sub source arg1 arg2).leaseResult = s.leaseResult ∧
    (s.event index sub source arg1 arg2).grantSeq = s.grantSeq ∧
    (s.event index sub source arg1 arg2).restoring = s.restoring ∧
    (s.event index sub source arg1 arg2).objects = s.objects ∧
    (s.event index sub source arg1 arg2).frames = s.frames ∧
    (s.event index sub source arg1 arg2).looms = s.looms ∧
    (s.event index sub source arg1 arg2).heddles = s.heddles ∧
    (s.event index sub source arg1 arg2).mcast = s.mcast ∧
    (s.event index sub source arg1 arg2).mcastSends = s.mcastSends ∧
    (s.event index sub source arg1 arg2).vecs = s.vecs ∧
    (s.event index sub source arg1 arg2).cores = s.cores ∧
    (s.event index sub source arg1 arg2).xfers = s.xfers ∧
    (s.event index sub source arg1 arg2).rings = s.rings ∧
    (s.event index sub source arg1 arg2).treadle = s.treadle ∧
    (s.event index sub source arg1 arg2).readyOrder = s.readyOrder ∧
    (s.event index sub source arg1 arg2).tokens = s.tokens ∧
    (s.event index sub source arg1 arg2).stash = s.stash ∧
    (s.event index sub source arg1 arg2).segs = s.segs ∧
    (s.event index sub source arg1 arg2).outcomeWaits = s.outcomeWaits ∧
    (s.event index sub source arg1 arg2).seals = s.seals ∧
    (s.event index sub source arg1 arg2).ctxs = s.ctxs ∧
    (s.event index sub source arg1 arg2).attached = s.attached ∧
    (s.event index sub source arg1 arg2).coh = s.coh ∧
    (s.event index sub source arg1 arg2).peruo = s.peruo ∧
    (s.event index sub source arg1 arg2).commit = s.commit ∧
    (s.event index sub source arg1 arg2).repairs = s.repairs ∧
    (s.event index sub source arg1 arg2).fw = s.fw ∧
    (s.event index sub source arg1 arg2).sec = s.sec ∧
    (s.event index sub source arg1 arg2).spdm = s.spdm ∧
    (s.event index sub source arg1 arg2).hartsStopped = s.hartsStopped ∧
    (s.event index sub source arg1 arg2).coreSlots = s.coreSlots ∧
    (s.event index sub source arg1 arg2).fresh = s.fresh := by
  unfold State.event
  by_cases h : eventJournaled index <;> simp [h]

end Sys2Proof.Machine
end

