-- ==== Sys2Proof/Laws/Beside.lean ====
section
/-!
SUPPORT. What memory, the fabric and the completion of a descriptor never touch: `State.beside` is the state
without memory, coherence, written frames, counters, queues, draws and what is sent, and each of these
operations keeps it (R250 to R265, R294, R295).
-/

namespace Sys2Proof.Machine

open Sys2Proof

/-- The state beside memory, coherence, frames, counters, queues, pending vectors, draws and what is sent. -/
def State.beside (s : State) : State :=
  { s with mem := State.reset.mem, coh := State.reset.coh, frames := [], counters := [], queues := []
           msixPending := [], sent := [], fresh := 0 }

theorem ite_beside {c : Prop} [Decidable c] {s t u : State} (h : t.beside = s.beside)
    (k : u.beside = s.beside) : (if c then t else u).beside = s.beside := by
  split
  · exact h
  · exact k

theorem foldl_beside {α : Type} (f : State → α → State) (hf : ∀ t a, (f t a).beside = t.beside) (l : List α)
    (s : State) : (l.foldl f s).beside = s.beside := by
  induction l generalizing s with
  | nil => rfl
  | cons a r ih => rw [List.foldl_cons, ih, hf]

/-! ### Plain updates -/

@[simp] theorem setCoh_beside (s : State) (c : Coh) : (s.setCoh c).beside = s.beside := rfl

@[simp] theorem setQueue_beside (s : State) (q : BitVec 16) (c : QCtx) :
    (s.setQueue q c).beside = s.beside := rfl

@[simp] theorem emit_beside (s : State) (e : Emit) : (s.emit e).beside = s.beside := rfl

@[simp] theorem draw_beside (s : State) : s.draw.2.beside = s.beside := rfl

@[simp] theorem count_beside (s : State) (i j n : Nat) : (s.count i j n).beside = s.beside := by
  unfold State.count; split <;> rfl

@[simp] theorem msix_beside (s : State) (v : Nat) : (s.msix v).beside = s.beside := by
  unfold State.msix
  split
  · split
    · rfl
    · simp
  · rfl

@[simp] theorem dropCopies_beside (s : State) (lo hi : Nat) : (s.dropCopies lo hi).beside = s.beside := rfl

@[simp] theorem noteFrames_beside (s : State) (a n : Nat) : (s.noteFrames a n).beside = s.beside := rfl

@[simp] theorem settleLines_beside (s : State) (l : List Nat) : (s.settleLines l).beside = s.beside := by
  unfold State.settleLines; split <;> rfl

@[simp] theorem cohCount_beside (s : State) (l c n : Nat) : (s.cohCount l c n).beside = s.beside := by
  unfold State.cohCount; split <;> simp

@[simp] theorem toHost_beside (s : State) (op : CacheOp) (l : Nat) (b : List Byte) :
    (s.toHost op l b).beside = s.beside := by
  unfold State.toHost; split <;> simp

@[simp] theorem trapReq_beside (s : State) (r : Req) : (s.trapReq r).beside = s.beside := by
  unfold State.trapReq State.trapCore; split <;> simp

@[simp] theorem storePoison_beside (s : State) (l r a : Nat) : (s.storePoison l r a).beside = s.beside := by
  unfold State.storePoison
  split
  · rfl
  · dsimp only
    split
    · exact (count_beside _ _ _ _).trans (dropCopies_beside ..)
    · exact dropCopies_beside s l l

@[simp] theorem countTier_beside (s : State) (a n : Nat) (w : Bool) : (s.countTier a n w).beside = s.beside := by
  unfold State.countTier
  split
  all_goals first
    | rfl
    | (apply foldl_beside; intro t k; dsimp only; split
       · rfl
       · split
         · split <;> simp
         · simp)

@[simp] theorem noteRead_beside (s : State) (a n : Nat) : (s.noteRead a n).beside = s.beside := by
  unfold State.noteRead
  rw [countTier_beside, settleLines_beside]
  exact foldl_beside _ (fun t l => storePoison_beside t l _ _) _ _

@[simp] theorem omitFrame_beside (s : State) (j : Nat) (o : TierObj) (f : Nat) :
    (s.omitFrame j o f).beside = s.beside := rfl

@[simp] theorem encodeRange_beside (s : State) (a n : Nat) : (s.encodeRange a n).beside = s.beside := by
  unfold State.encodeRange
  generalize spaceOf a = sp
  cases sp with
  | object j =>
    dsimp only
    generalize Tab.find s.objects j = o
    cases o with
    | none => rfl
    | some o => exact ite_beside (foldl_beside _ (fun t f => omitFrame_beside t j o _) _ _) rfl
  | _ => rfl

@[simp] theorem putLine_beside (s : State) (l : Nat) (b : List Byte) (f : Bool) :
    (s.putLine l b f).beside = s.beside := by
  unfold State.putLine
  rw [encodeRange_beside]
  have h : ∀ t : State, t.beside = s.beside → ∀ m, ({ t with mem := m } : State).beside = s.beside :=
    fun t ht _ => ht
  refine h _ ?_ _
  by_cases hf : f = true <;> by_cases ht : s.inTier2 (64 * l) = true <;> simp [hf, ht]

@[simp] theorem setMem_beside (s : State) (m : Mem) : ({ s with mem := m } : State).beside = s.beside := rfl

@[simp] theorem recallLine_beside (s : State) (l : Nat) : (s.recallLine l).beside = s.beside := by
  cases ho : s.coh.ownerCopy l with
  | some x => simp only [State.recallLine, ho, setMem_beside]
  | none =>
    by_cases hh : s.coh.hostOwns l = true
    · simp only [State.recallLine, ho, hh, if_true, setMem_beside]
    · simp only [State.recallLine, ho, hh, if_false, Bool.false_eq_true]

/-! ### The fabric -/

@[simp] theorem poisonLine_beside (s : State) (l w a : Nat) : (s.poisonLine l w a).beside = s.beside := by
  unfold State.poisonLine; simp

@[simp] theorem dataFromMemory_beside (s : State) (a l : Nat) :
    (s.dataFromMemory a l).beside = s.beside := by
  unfold State.dataFromMemory; simp

@[simp] theorem grantTo_beside (s : State) (r : Req) (st : Moesi) (d : DirSt) (o : Nat) (sh : List Nat)
    (y : Bool) : (s.grantTo r st d o sh y).beside = s.beside := by
  unfold State.grantTo; simp

@[simp] theorem answerPoison_beside (s : State) (a l : Nat) : (s.answerPoison a l).beside = s.beside := by
  unfold State.answerPoison; simp

@[simp] theorem grantPoison_beside (s : State) (r : Req) : (s.grantPoison r).beside = s.beside := by
  unfold State.grantPoison; simp

@[simp] theorem finishGrant_beside (s : State) (t : Txn) : (s.finishGrant t).beside = s.beside := by
  unfold State.finishGrant
  extract_lets r e listed s1 s2
  have h2 : s2.beside = s.beside := ite_beside rfl (by simp [s1])
  clear_value s2
  split
  · rw [grantPoison_beside]; exact ite_beside (by simp [s1]) rfl
  · split
    · split <;> simp [h2]
    · simp [h2]

@[simp] theorem finishWrite_beside (s : State) (t : Txn) : (s.finishWrite t).beside = s.beside := by
  unfold State.finishWrite
  dsimp only
  split
  · simp
  · split <;> simp

@[simp] theorem finishAtomic_beside (s : State) (t : Txn) : (s.finishAtomic t).beside = s.beside := by
  unfold State.finishAtomic
  extract_lets r s1 waits hit s2 s3
  have h3 : s3.beside = s.beside := by
    by_cases a : hit = true <;> by_cases b : r.agent < 42 <;> simp [s3, s2, s1, a, b]
  clear_value s3
  split
  · exact h3
  · split
    · exact (noteRead_beside s3 _ _).trans h3
    · simp [h3]

@[simp] theorem finishWb_beside (s : State) (r : Req) : (s.finishWb r).beside = s.beside := by
  unfold State.finishWb
  dsimp only
  split <;> simp

@[simp] theorem finishCln_beside (s : State) (r : Req) : (s.finishCln r).beside = s.beside := by
  unfold State.finishCln; simp

@[simp] theorem finishHost_beside (s : State) (t : Txn) : (s.finishHost t).beside = s.beside := by
  unfold State.finishHost
  dsimp only
  cases t.bytes <;> simp

@[simp] theorem finishDropped_beside (s : State) (t : Txn) : (s.finishDropped t).beside = s.beside := by
  unfold State.finishDropped
  dsimp only
  cases t.bytes <;> split <;> (try split) <;> (try split) <;> simp

@[simp] theorem finishTxn_beside (s : State) (t : Txn) : (s.finishTxn t).1.beside = s.beside := by
  unfold State.finishTxn
  dsimp only
  split
  · simp
  split
  · simp
  split
  all_goals first
    | simp
    | (split
       · simp
       · split <;> simp)

@[simp] theorem openTxn_beside (s : State) (r : Req) : (s.openTxn r).beside = s.beside := by
  unfold State.openTxn; dsimp only; split <;> simp

@[simp] theorem settle_beside (s : State) (k : Nat) : (s.settle k).beside = s.beside := by
  unfold State.settle
  split
  · rfl
  · split
    · rfl
    · dsimp only; split <;> simp

@[simp] theorem refuseReq_beside (s : State) (r : Req) : (s.refuseReq r).beside = s.beside := by
  unfold State.refuseReq; split <;> simp

@[simp] theorem beginReq_beside (s : State) (r : Req) : (s.beginReq r).beside = s.beside := by
  unfold State.beginReq; dsimp only; split <;> simp

@[simp] theorem recall_beside (s : State) (l : Nat) : (s.recall l).beside = s.beside := by
  unfold State.recall; dsimp only; split <;> simp

theorem beginFuel_beside (n : Nat) : ∀ s : State, (s.beginFuel n).beside = s.beside := by
  induction n with
  | zero => exact fun _ => rfl
  | succ n ih =>
    intro s
    unfold State.beginFuel
    split
    · rfl
    · rw [ih]; split <;> simp

@[simp] theorem beginAll_beside (s : State) : s.beginAll.beside = s.beside := beginFuel_beside _ s

@[simp] theorem advance_beside (s : State) (k : Nat) : (s.advance k).beside = s.beside := by
  unfold State.advance; simp

@[simp] theorem arrive_beside (s : State) (r : Req) : (s.arrive r).beside = s.beside := by
  unfold State.arrive; simp

@[simp] theorem ask_beside (s : State) (r : Req) : (s.ask r).beside = s.beside := by
  unfold State.ask; simp

@[simp] theorem answered_beside (s : State) (h : Bool) (a l : Nat) : (s.answered h a l).beside = s.beside := by
  unfold State.answered; dsimp only; split <;> simp

@[simp] theorem snoopArrives_beside (s : State) (x : Snoop) : (s.snoopArrives x).beside = s.beside := by
  unfold State.snoopArrives State.askHost
  dsimp only
  split
  · rw [count_beside, emit_beside]; rfl
  · split <;> simp

@[simp] theorem homeFwd_beside (s : State) (a l : Nat) (h : Bool) : (s.homeFwd a l h).beside = s.beside := by
  unfold State.homeFwd
  dsimp only
  split
  · simp
  · split <;> simp

@[simp] theorem homeAck_beside (s : State) (a l : Nat) : (s.homeAck a l).beside = s.beside := by
  unfold State.homeAck
  split
  · split <;> simp
  · rfl

@[simp] theorem farRuns_beside (s : State) (f : FarOp) (l : CacheLine) : (s.farRuns f l).beside = s.beside := by
  unfold State.farRuns
  dsimp only
  split
  · simp
  · split <;> simp
  · simp

@[simp] theorem farReady_beside (s : State) (a l : Nat) : (s.farReady a l).beside = s.beside := by
  unfold State.farReady
  split
  · dsimp only; split <;> simp
  · rfl

@[simp] theorem settleFill_beside (s : State) (f : Fill) : (s.settleFill f).beside = s.beside := by
  unfold State.settleFill
  dsimp only
  split
  · simp
  · split <;> simp
  · split <;> simp
  · simp
  · rfl

@[simp] theorem deliverMsg_beside (s : State) (m : CohMsg) : (s.deliverMsg m).beside = s.beside := by
  unfold State.deliverMsg
  split
  all_goals first
    | (simp [State.homeRspI, State.homeRspS, State.homeRspO, State.wbAckArrives])
    | (unfold State.grantArrives; dsimp only; split <;> simp)
    | (unfold State.dataArrives; dsimp only; split
       · split <;> simp
       · simp)

@[simp] theorem hostReturns_beside (s : State) (x : Snoop) (d : Option (List Byte)) (k : Bool) :
    (s.hostReturns x d k).beside = s.beside := by
  unfold State.hostReturns
  dsimp only
  cases d <;> split <;> simp

theorem pushLine_beside (l : Nat) (h : Bool) (n : Nat) : ∀ s : State, (s.pushLine l h n).beside = s.beside := by
  induction n with
  | zero => exact fun _ => rfl
  | succ n ih =>
    intro s
    unfold State.pushLine
    split
    · rfl
    · split
      · rw [ih]; simp
      · split
        · rw [ih]; simp [State.endDelay]
        · split
          · rfl
          · split
            · rw [ih]; simp
            · split
              · split
                · rw [ih]; simp
                · rfl
              · rfl

@[simp] theorem drain_beside (s : State) (lo hi : Nat) (h : Bool) : (s.drain lo hi h).beside = s.beside := by
  unfold State.drain
  exact ite_beside rfl (foldl_beside _ (fun t l => pushLine_beside l h _ t) _ _)

/-! ### Engine accesses -/

@[simp] theorem poisonRange_beside (s : State) (a n r x : Nat) : (s.poisonRange a n r x).beside = s.beside := by
  unfold State.poisonRange
  dsimp only
  rw [foldl_beside _ (fun t l => storePoison_beside t l r x)]
  exact ite_beside rfl (by simp)

@[simp] theorem storeBytes_beside (s : State) (a : Nat) (bs : List Byte) :
    (s.storeBytes a bs).beside = s.beside := by
  unfold State.storeBytes
  split
  · rfl
  · dsimp only
    rw [encodeRange_beside]
    have key : ∀ t : State, t.beside = s.beside → ∀ m, ({ t with mem := m } : State).beside = s.beside :=
      fun t ht _ => ht
    exact key _ (ite_beside (by simp) (by simp)) _

/-- A write touches memory, coherence, frames, counters, draws and what is sent, nothing else. -/
@[simp] theorem writeMem_beside (s : State) (a : Nat) (bs : List Byte) : (s.writeMem a bs).beside = s.beside := by
  unfold State.writeMem
  exact ite_beside rfl (by simp)

/-! ### Completions -/

@[simp] theorem issueFlush_beside (s : State) (q : BitVec 16) : (s.issueFlush q).beside = s.beside := by
  unfold State.issueFlush; simp

@[simp] theorem putRecord_beside (s : State) (q : BitVec 16) (r : CRec) (u p : Bool) :
    (s.putRecord q r u p).beside = s.beside := by
  unfold State.putRecord
  extract_lets c a s1 s2 s3 c3 c4 w c5 s4 s5
  have h3 : s3.beside = s.beside := ite_beside (by simp [s2, s1]; exact ite_beside rfl (by simp))
    (by simp [s2, s1]; exact ite_beside rfl (by simp))
  have h5 : s5.beside = s.beside := ite_beside (by simp [s4, h3]) (by simp [s4, h3])
  clear_value s5
  exact ite_beside (by simp [h5]) h5

theorem pumpOnce_beside (s t : State) (q : BitVec 16) (h : s.pumpOnce q = some t) : t.beside = s.beside := by
  unfold State.pumpOnce at h
  dsimp only at h
  cases hf : (s.queue q).fetched with
  | nil =>
    rw [hf] at h
    dsimp only at h
    repeat' split at h
    all_goals first
      | (cases h; done)
      | (injection h with h; subst h; simp)
  | cons f r =>
    obtain ⟨n, op, irq, b, g, ph⟩ := f
    rw [hf] at h
    dsimp only at h
    cases ph with
    | waiting => cases h
    | done st d1 d2 =>
      dsimp only at h
      repeat' split at h
      all_goals first
        | (cases h; done)
        | (injection h with h; subst h; simp)
    | running e =>
      cases e <;> dsimp only at h <;> first
        | cases h
        | (repeat' split at h
           all_goals first
             | (cases h; done)
             | (injection h with h; subst h; simp))

theorem pumpFuel_beside (n : Nat) (q : BitVec 16) : ∀ s : State, (s.pumpFuel q n).beside = s.beside := by
  induction n with
  | zero => exact fun _ => rfl
  | succ n ih =>
    intro s
    unfold State.pumpFuel
    split
    · rfl
    · rename_i t h
      rw [ih, pumpOnce_beside s t q h]

@[simp] theorem pump_beside (s : State) (q : BitVec 16) : (s.pump q).beside = s.beside := by
  unfold State.pump
  dsimp only
  exact ite_beside (by rw [issueFlush_beside, pumpFuel_beside]) (by rw [pumpFuel_beside])

/-- A descriptor's completion touches its queue, its record in memory, counters and what is sent. -/
@[simp] theorem complete_beside (s : State) (q n : BitVec 16) (o : Outcm) :
    (s.complete q n o).beside = s.beside := by
  unfold State.complete; simp

@[simp] theorem finish_beside (s : State) (d : Desc) (o : Outcm) : (s.finish d o).beside = s.beside := by
  unfold State.finish; simp

@[simp] theorem handOver_beside (s : State) (d : Desc) (e : Engine) : (s.handOver d e).beside = s.beside := by
  unfold State.handOver; simp

/-- Any field that `State.beside` keeps, such as the looms, is as before. -/
theorem complete_looms (s : State) (q n : BitVec 16) (o : Outcm) : (s.complete q n o).looms = s.looms :=
  show (s.complete q n o).beside.looms = s.beside.looms by rw [complete_beside]

end Sys2Proof.Machine
end

