-- ==== Sys2Proof/Laws/Memory.lean ====
section
/-!
SUPPORT. The laws of memory: a byte written is read back, others stay, and every memory operation
keeps the canonical form.
-/

namespace Sys2Proof.Machine

open Sys2Proof

/-! ### The canonical form as a relation -/

theorem risingNats_iff (l : List Nat) : risingNats l = true ↔ l.Pairwise (· < ·) := by
  induction l with
  | nil => simp [risingNats]
  | cons a r ih =>
    cases r with
    | nil => simp [risingNats]
    | cons b r =>
      rw [show risingNats (a :: b :: r) = (decide (a < b) && risingNats (b :: r)) from rfl,
        Bool.and_eq_true, ih, List.pairwise_cons (a := a)]
      constructor
      · rintro ⟨h, p⟩
        refine ⟨fun c hc => ?_, p⟩
        have h := of_decide_eq_true h
        rcases List.mem_cons.1 hc with rfl | hc
        · exact h
        · exact h.trans ((List.pairwise_cons.1 p).1 c hc)
      · rintro ⟨h, p⟩
        exact ⟨decide_eq_true (h b (List.mem_cons_self ..)), p⟩

theorem cellsWf_iff (l : List Host.Cell) :
    cellsWf l = true ↔
      l.Pairwise (fun c d => c.1 < d.1) ∧ ∀ c ∈ l, c.2 ≠ memDefault c.1 := by
  induction l with
  | nil => simp [cellsWf]
  | cons a r ih =>
    cases r with
    | nil => simp [cellsWf]
    | cons b r =>
      rw [show cellsWf (a :: b :: r)
          = (a.2 != memDefault a.1 && decide (a.1 < b.1) && cellsWf (b :: r)) from rfl,
        Bool.and_eq_true, Bool.and_eq_true, ih, List.pairwise_cons (a := a)]
      constructor
      · rintro ⟨⟨hd, h⟩, p, q⟩
        have h := of_decide_eq_true h
        refine ⟨⟨fun c hc => ?_, p⟩, fun c hc => ?_⟩
        · rcases List.mem_cons.1 hc with rfl | hc
          · exact h
          · exact h.trans ((List.pairwise_cons.1 p).1 c hc)
        · rcases List.mem_cons.1 hc with rfl | hc
          · simpa using hd
          · exact q c hc
      · rintro ⟨⟨h, p⟩, q⟩
        exact ⟨⟨by simpa using q a (List.mem_cons_self ..),
          decide_eq_true (h b (List.mem_cons_self ..))⟩, p,
          fun c hc => q c (List.mem_cons_of_mem _ hc)⟩

theorem mem_insertNat (l : List Nat) (n k : Nat) : k ∈ insertNat l n ↔ k = n ∨ k ∈ l := by
  induction l with
  | nil => simp [insertNat]
  | cons a r ih =>
    unfold insertNat
    split
    · simp
    · split
      · rename_i h; subst h; simp
      · simp [ih]; tauto

theorem risingNats_insertNat (l : List Nat) (n : Nat) (h : risingNats l = true) :
    risingNats (insertNat l n) = true := by
  rw [risingNats_iff] at *
  induction l with
  | nil => simp [insertNat]
  | cons a r ih =>
    have hp := List.pairwise_cons.1 h
    unfold insertNat
    split
    · rename_i hn
      exact List.pairwise_cons.2 ⟨fun c hc => by
        rcases List.mem_cons.1 hc with rfl | hc
        · exact hn
        · exact hn.trans (hp.1 c hc), h⟩
    · split
      · exact h
      · rename_i h1 h2
        refine List.pairwise_cons.2 ⟨fun c hc => ?_, ih hp.2⟩
        rcases (mem_insertNat r n c).1 hc with rfl | hc
        · omega
        · exact hp.1 c hc

theorem risingNats_insertAll (l m : List Nat) (h : risingNats m = true) :
    risingNats (l.foldl insertNat m) = true := by
  induction l generalizing m with
  | nil => exact h
  | cons a r ih => exact ih _ (risingNats_insertNat m a h)

theorem risingNats_filter (l : List Nat) (p : Nat → Bool) (h : risingNats l = true) :
    risingNats (l.filter p) = true := by
  rw [risingNats_iff] at *
  exact h.sublist List.filter_sublist

theorem cellsWf_filter (l : List Host.Cell) (p : Host.Cell → Bool) (h : cellsWf l = true) :
    cellsWf (l.filter p) = true := by
  rw [cellsWf_iff] at *
  exact ⟨h.1.sublist List.filter_sublist, fun c hc => h.2 c (List.mem_filter.1 hc).1⟩

/-! ### Writing a byte -/

/-- A cell of the list after a write is the written one or was there before. -/
theorem mem_cellsPut (l : List Host.Cell) (a : Nat) (b : Byte) (c : Host.Cell)
    (h : c ∈ cellsPut l a b) : (c = (a, b) ∧ b ≠ memDefault a) ∨ c ∈ l := by
  induction l with
  | nil =>
    unfold cellsPut at h
    split at h
    · simp at h
    · rename_i hb; exact .inl ⟨by simpa using h, hb⟩
  | cons d r ih =>
    unfold cellsPut at h
    split at h
    · split at h
      · exact .inr h
      · rename_i hb
        rcases List.mem_cons.1 h with h | h
        · exact .inl ⟨h, hb⟩
        · exact .inr h
    · split at h
      · split at h
        · exact .inr (List.mem_cons_of_mem _ h)
        · rename_i hb
          rcases List.mem_cons.1 h with h | h
          · exact .inl ⟨h, hb⟩
          · exact .inr (List.mem_cons_of_mem _ h)
      · rcases List.mem_cons.1 h with h | h
        · exact .inr (h ▸ List.mem_cons_self ..)
        · exact (ih h).imp_right (List.mem_cons_of_mem _)

/-- A write keeps the canonical form. -/
theorem cellsWf_put (l : List Host.Cell) (a : Nat) (b : Byte) (h : cellsWf l = true) :
    cellsWf (cellsPut l a b) = true := by
  rw [cellsWf_iff] at *
  refine ⟨?_, fun c hc => ?_⟩
  · obtain ⟨hp, -⟩ := h
    induction l with
    | nil => unfold cellsPut; split <;> simp
    | cons d r ih =>
      have hd := List.pairwise_cons.1 hp
      unfold cellsPut
      split
      · split
        · exact hp
        · rename_i ha _
          exact List.pairwise_cons.2 ⟨fun c hc => by
            rcases List.mem_cons.1 hc with rfl | hc
            · exact ha
            · exact Nat.lt_trans ha (hd.1 c hc), hp⟩
      · split
        · split
          · exact hd.2
          · rename_i h1 h2 _
            exact List.pairwise_cons.2 ⟨fun c hc => h2 ▸ hd.1 c hc, hd.2⟩
        · refine List.pairwise_cons.2 ⟨fun c hc => ?_, ih hd.2⟩
          rcases mem_cellsPut r a b c hc with ⟨rfl, -⟩ | hc
          · show d.1 < a; omega
          · exact hd.1 c hc
  · rcases mem_cellsPut l a b c hc with ⟨rfl, hb⟩ | hc
    · exact hb
    · exact h.2 c hc

theorem cellsWf_putAll (l : List Host.Cell) (a : Nat) (bs : List Byte) (h : cellsWf l = true) :
    cellsWf (cellsPutAll l a bs) = true := by
  induction bs generalizing l a with
  | nil => exact h
  | cons b r ih => exact ih _ _ (cellsWf_put l a b h)

/-- An address below every listed one reads as its default. -/
theorem cellsGet_below (l : List Host.Cell) (a : Nat) (h : ∀ c ∈ l, a < c.1) :
    cellsGet l a = memDefault a := by
  induction l with
  | nil => rfl
  | cons c r ih =>
    have hc := h c (List.mem_cons_self ..)
    rw [cellsGet, if_neg (by omega), ih (fun d hd => h d (List.mem_cons_of_mem _ hd))]

/-- The byte written is read back, and every other address reads as before. -/
theorem cellsGet_put (l : List Host.Cell) (a x : Nat) (b : Byte) (h : cellsWf l = true) :
    cellsGet (cellsPut l a b) x = if x = a then b else cellsGet l x := by
  obtain ⟨hp, hq⟩ := (cellsWf_iff l).1 h
  clear h
  induction l with
  | nil =>
    by_cases hx : x = a <;> by_cases hb : b = memDefault a <;> simp [cellsPut, cellsGet, hx, hb]
    all_goals simp_all [eq_comm]
  | cons d r ih =>
    have hd := List.pairwise_cons.1 hp
    have ih := ih hd.2 (fun c hc => hq c (List.mem_cons_of_mem _ hc))
    unfold cellsPut
    split
    · rename_i ha
      have hbel : cellsGet (d :: r) a = memDefault a := cellsGet_below _ _ (fun c hc => by
        rcases List.mem_cons.1 hc with rfl | hc
        · exact ha
        · exact Nat.lt_trans ha (hd.1 c hc))
      split
      · rename_i hb
        by_cases hx : x = a
        · subst hx; rw [if_pos rfl, hbel, hb]
        · rw [if_neg hx]
      · by_cases hx : x = a
        · subst hx; simp [cellsGet]
        · rw [if_neg hx, show cellsGet ((a, b) :: d :: r) x
            = if a = x then b else cellsGet (d :: r) x from rfl, if_neg (fun e => hx e.symm)]
    · split
      · rename_i h1 h2
        subst h2
        split
        · rename_i hb
          by_cases hx : x = d.1
          · subst hx
            rw [if_pos rfl, cellsGet_below r _ hd.1, hb]
          · rw [if_neg hx, cellsGet, if_neg (fun e => hx e.symm)]
        · by_cases hx : x = d.1
          · subst hx; simp [cellsGet]
          · rw [if_neg hx, cellsGet, cellsGet, if_neg (fun e => hx e.symm),
              if_neg (fun e => hx e.symm)]
      · rename_i h1 h2
        rw [cellsGet, ih]
        by_cases hx : x = a
        · subst hx; rw [if_neg (fun e => h2 e.symm), if_pos rfl, if_pos rfl]
        · rw [if_neg hx, if_neg hx, cellsGet]

/-- After a run of bytes is written from `a`, each of them is read back and the rest is as before. -/
theorem cellsGet_putAll (l : List Host.Cell) (a x : Nat) (bs : List Byte) (h : cellsWf l = true) :
    cellsGet (cellsPutAll l a bs) x
      = if a ≤ x ∧ x < a + bs.length then bs.getD (x - a) 0 else cellsGet l x := by
  induction bs generalizing l a with
  | nil => simp [cellsPutAll]
  | cons b r ih =>
    rw [cellsPutAll, ih _ _ (cellsWf_put l a b h), cellsGet_put l a x b h]
    by_cases hx : x = a
    · subst hx; simp
    · by_cases hr : a + 1 ≤ x ∧ x < a + 1 + r.length
      · rw [if_pos hr, if_pos (by simp; omega),
          show x - a = (x - (a + 1)) + 1 from by omega, List.getD_cons_succ]
      · rw [if_neg hr, if_neg hx, if_neg (by simp; omega)]

/-! ### The operations of memory keep the form -/

theorem foldl_keeps {α β : Type} (P : β → Prop) (f : β → α → β) (l : List α) (b : β) (hb : P b)
    (hf : ∀ b a, P b → P (f b a)) : P (l.foldl f b) := by
  induction l generalizing b with
  | nil => exact hb
  | cons a r ih => exact ih _ (hf b a hb)

theorem Mem.wf_iff (m : Mem) : m.wf = true ↔ cellsWf m.cells = true ∧ risingNats m.poison = true := by
  simp [Mem.wf]

/-! Updates that leave memory alone -/

theorem dropCopies_mem (s : State) (lo hi : Nat) : (s.dropCopies lo hi).mem = s.mem := rfl

/-- Settling lines touches the losses of the coherence state only. -/
theorem settleLines_mem (s : State) (ls : List Nat) : (s.settleLines ls).mem = s.mem := by
  unfold State.settleLines; split <;> rfl

/-- Counting an access touches counters and draws only. -/
theorem countTier_mem (s : State) (a n : Nat) (w : Bool) : (s.countTier a n w).mem = s.mem := by
  have hf : ∀ (l : List Nat) (f : State → Nat → State), (∀ t k, (f t k).mem = t.mem) →
      ∀ t : State, (l.foldl f t).mem = t.mem := by
    intro l f hf
    induction l with
    | nil => intro t; rfl
    | cons k r ih => intro t; rw [List.foldl_cons, ih, hf]
  unfold State.countTier
  split
  all_goals first
    | rfl
    | (apply hf; intro t k; dsimp only; split
       · rfl
       · split
         · split <;> simp
         · simp)

theorem noteFrames_mem (s : State) (a n : Nat) : (s.noteFrames a n).mem = s.mem := rfl

theorem cohCount_mem (s : State) (line code n : Nat) : (s.cohCount line code n).mem = s.mem := by
  unfold State.cohCount; split <;> simp

theorem toHost_mem (s : State) (op : CacheOp) (line : Nat) (b : List Byte) :
    (s.toHost op line b).mem = s.mem := by
  unfold State.toHost; split <;> simp

theorem trapCore_mem (s : State) (a c x : Nat) : (s.trapCore a c x).mem = s.mem := by
  unfold State.trapCore; split <;> simp

theorem trapReq_mem (s : State) (r : Req) : (s.trapReq r).mem = s.mem := trapCore_mem ..

theorem refuseReq_mem (s : State) (r : Req) : (s.refuseReq r).mem = s.mem := by
  unfold State.refuseReq; split <;> simp [trapReq_mem]

theorem openTxn_mem (s : State) (r : Req) : (s.openTxn r).mem = s.mem := by
  unfold State.openTxn; dsimp only; split <;> simp [cohCount_mem]

theorem askHost_mem (s : State) (x : Snoop) : (s.askHost x).mem = s.mem := by
  unfold State.askHost; simp

theorem snoopArrives_mem (s : State) (x : Snoop) : (s.snoopArrives x).mem = s.mem := by
  unfold State.snoopArrives; dsimp only; split
  · simp [askHost_mem]
  · split <;> simp

theorem farRuns_mem (s : State) (f : FarOp) (l : CacheLine) : (s.farRuns f l).mem = s.mem := by
  unfold State.farRuns; dsimp only; split
  · simp
  · split <;> simp
  · simp

theorem farReady_mem (s : State) (a l : Nat) : (s.farReady a l).mem = s.mem := by
  unfold State.farReady; split
  · dsimp only; rw [farRuns_mem]; split <;> simp
  · rfl

theorem settleFill_mem (s : State) (f : Fill) : (s.settleFill f).mem = s.mem := by
  unfold State.settleFill; dsimp only; split
  · simp [farReady_mem]
  · rw [farReady_mem]; split <;> simp
  · split <;> simp [trapReq_mem]
  · simp
  · rfl

theorem grantArrives_mem (s : State) (a l : Nat) (g : Option Moesi × Bool × Bool × Bool) :
    (s.grantArrives a l g).mem = s.mem := by
  unfold State.grantArrives; dsimp only; split <;> simp [settleFill_mem]

theorem dataArrives_mem (s : State) (a l : Nat) (d : List Byte × Bool) :
    (s.dataArrives a l d).mem = s.mem := by
  unfold State.dataArrives; dsimp only; split
  · split <;> simp
  · simp [settleFill_mem]

theorem wbAckArrives_mem (s : State) (a l : Nat) : (s.wbAckArrives a l).mem = s.mem := by
  unfold State.wbAckArrives; simp

theorem endDelay_mem (s : State) (x : Snoop) : (s.endDelay x).mem = s.mem := by
  unfold State.endDelay; simp

theorem answerPoison_mem (s : State) (a l : Nat) : (s.answerPoison a l).mem = s.mem := by
  unfold State.answerPoison; simp

theorem grantTo_mem (s : State) (r : Req) (st : Moesi) (d : DirSt) (o : Nat) (sh : List Nat) (y : Bool) :
    (s.grantTo r st d o sh y).mem = s.mem := by
  unfold State.grantTo; simp

theorem finishCln_mem (s : State) (r : Req) : (s.finishCln r).mem = s.mem := by
  unfold State.finishCln; simp

/-! The operations that write -/

theorem storePoison_wf (s : State) (line reason agent : Nat) (h : s.mem.wf = true) :
    (s.storePoison line reason agent).mem.wf = true := by
  unfold State.storePoison
  split
  · exact h
  · dsimp only
    rw [Mem.wf_iff] at *
    refine ⟨?_, risingNats_insertNat _ _ ?_⟩
    · split <;> simpa [dropCopies_mem] using h.1
    · split <;> simpa [dropCopies_mem] using h.2

theorem poisonRange_fold_wf (l : List Nat) (reason agent : Nat) (s : State) (h : s.mem.wf = true) :
    (l.foldl (fun (s : State) l => s.storePoison l reason agent) s).mem.wf = true :=
  foldl_keeps (fun t : State => t.mem.wf = true) _ _ _ h (fun t l ht => storePoison_wf t l _ _ ht)

theorem noteRead_wf (s : State) (a n : Nat) (h : s.mem.wf = true) :
    (s.noteRead a n).mem.wf = true := by
  unfold State.noteRead
  rw [countTier_mem, settleLines_mem]
  exact poisonRange_fold_wf _ _ _ s h

theorem omitFrame_wf (s : State) (j : Nat) (o : TierObj) (off : Nat) (h : s.mem.wf = true) :
    (s.omitFrame j o off).mem.wf = true := by
  unfold State.omitFrame
  rw [Mem.wf_iff] at *
  exact ⟨cellsWf_filter _ _ h.1, h.2⟩

/-- Encoding frames keeps the canonical form. -/
theorem encodeRange_wf (s : State) (a n : Nat) (h : s.mem.wf = true) :
    (s.encodeRange a n).mem.wf = true := by
  unfold State.encodeRange
  generalize spaceOf a = sp
  cases sp with
  | object j =>
    dsimp only
    generalize Tab.find s.objects j = o
    cases o with
    | none => exact h
    | some o =>
      dsimp only
      split
      · exact foldl_keeps (fun t : State => t.mem.wf = true) _ _ _ h
          (fun t f ht => omitFrame_wf t _ _ _ ht)
      · exact h
  | _ => exact h

/-- The home's write of one line keeps the canonical form. -/
theorem putLine_wf (s : State) (line : Nat) (bytes : List Byte) (full : Bool) (h : s.mem.wf = true) :
    (s.putLine line bytes full).mem.wf = true := by
  unfold State.putLine
  apply encodeRange_wf
  have h2 : (if s.inTier2 (64 * line) then s.noteFrames (64 * line) 64 else s).mem = s.mem := by
    split <;> rfl
  have h3 : (if full then (if s.inTier2 (64 * line) then s.noteFrames (64 * line) 64 else s).settleLines [line]
      else (if s.inTier2 (64 * line) then s.noteFrames (64 * line) 64 else s)).mem = s.mem := by
    split
    · rw [settleLines_mem, h2]
    · exact h2
  dsimp only
  rw [h3]
  rw [Mem.wf_iff] at *
  refine ⟨cellsWf_putAll _ _ _ h.1, ?_⟩
  dsimp only
  split
  · exact risingNats_filter _ _ h.2
  · exact h.2

theorem putCells_wf (m : Mem) (a : Nat) (b : List Byte) (h : m.wf = true) :
    Mem.wf { m with cells := cellsPutAll m.cells a b } = true := by
  rw [Mem.wf_iff] at *
  exact ⟨cellsWf_putAll _ _ _ h.1, h.2⟩

theorem recallLine_wf (s : State) (line : Nat) (h : s.mem.wf = true) :
    (s.recallLine line).mem.wf = true := by
  cases ho : s.coh.ownerCopy line with
  | some l => simp only [State.recallLine, ho]; exact putCells_wf s.mem _ _ h
  | none =>
    by_cases hh : s.coh.hostOwns line = true
    · simp only [State.recallLine, ho, hh, if_true]; exact putCells_wf s.mem _ _ h
    · simp only [State.recallLine, ho, hh]; exact h

theorem clearRange_wf (s : State) (a n : Nat) (h : s.mem.wf = true) :
    (s.clearRange a n).mem.wf = true := by
  unfold State.clearRange
  split
  · exact h
  · rw [Mem.wf_iff] at *
    exact ⟨cellsWf_filter _ _ h.1, risingNats_filter _ _ h.2⟩

/-! ### What a home does keeps the form -/

theorem poisonLine_wf (s : State) (l w a : Nat) (h : s.mem.wf = true) :
    (s.poisonLine l w a).mem.wf = true := storePoison_wf _ _ _ _ h

theorem dataFromMemory_wf (s : State) (a l : Nat) (h : s.mem.wf = true) :
    (s.dataFromMemory a l).mem.wf = true := noteRead_wf s _ _ h

theorem grantPoison_wf (s : State) (r : Req) (h : s.mem.wf = true) : (s.grantPoison r).mem.wf = true := by
  unfold State.grantPoison; rw [answerPoison_mem]; exact noteRead_wf _ _ _ h

theorem finishGrant_wf (s : State) (t : Txn) (h : s.mem.wf = true) : (s.finishGrant t).mem.wf = true := by
  unfold State.finishGrant
  dsimp only
  split
  · apply grantPoison_wf
    split
    · rw [cohCount_mem]; exact h
    · exact h
  · have key : ∀ u : State, u.mem.wf = true →
        (if t.forwarded = true ∨ upgListed (s.coh.entry t.req.line) t.req = true then u
          else u.dataFromMemory t.req.agent t.req.line).mem.wf = true := by
      intro u hu
      split
      · exact hu
      · exact dataFromMemory_wf _ _ _ hu
    split
    · split <;> (rw [grantTo_mem]; exact key _ h)
    · rw [grantTo_mem]; exact key _ h

theorem finishWrite_wf (s : State) (t : Txn) (h : s.mem.wf = true) : (s.finishWrite t).mem.wf = true := by
  unfold State.finishWrite
  dsimp only
  split
  · exact h
  · split
    · exact putLine_wf _ _ _ _ h
    · rw [toHost_mem]; exact putLine_wf _ _ _ _ h

theorem finishAtomic_wf (s : State) (t : Txn) (h : s.mem.wf = true) : (s.finishAtomic t).mem.wf = true := by
  unfold State.finishAtomic
  extract_lets r s1 waits hit s2 s3
  have h2 : s2.mem = s.mem := by
    by_cases c : hit = true
    · simp only [s2, c, if_true, cohCount_mem]; rfl
    · simp only [s2, c]; rfl
  have h3 : s3.mem.wf = true := by
    by_cases c : r.agent < 42
    · simp only [s3, c, if_true, State.count_keeps, h2, h]
    · simp only [s3, c, if_false, h2, h]
  clear_value s3
  split
  · exact h3
  · split
    · exact noteRead_wf _ _ _ h3
    · exact putLine_wf _ _ _ _ h3

theorem finishWb_wf (s : State) (r : Req) (h : s.mem.wf = true) : (s.finishWb r).mem.wf = true := by
  unfold State.finishWb
  dsimp only
  split
  · simp only [State.setCoh_keeps, toHost_mem]; exact putLine_wf _ _ _ _ h
  · simp only [State.setCoh_keeps, cohCount_mem]; exact h

theorem finishHost_wf (s : State) (t : Txn) (h : s.mem.wf = true) : (s.finishHost t).mem.wf = true := by
  unfold State.finishHost
  dsimp only
  simp only [State.emit_keeps, State.setCoh_keeps]
  split
  · exact putLine_wf _ _ _ _ h
  · exact h

theorem finishDropped_wf (s : State) (t : Txn) (h : s.mem.wf = true) : (s.finishDropped t).mem.wf = true := by
  have put : ∀ d : Option (List Byte), (match d with
      | some b => (s.putLine t.req.line b false).toHost .dirtyEvict t.req.line b
      | none => s).mem.wf = true := by
    intro d
    cases d with
    | some b => simp only [toHost_mem]; exact putLine_wf _ _ _ _ h
    | none => exact h
  unfold State.finishDropped
  dsimp only
  split
  · split
    · split
      · simpa using h
      · exact poisonLine_wf _ _ _ _ h
    · have := put t.bytes
      cases hb : t.bytes <;> simp only [hb] at this ⊢ <;> exact this
  · split
    · split
      · simpa using h
      · exact poisonLine_wf _ _ _ _ h
    · have := put t.bytes
      cases hb : t.bytes <;> simp only [hb] at this ⊢ <;> exact this
  · split
    · simpa using h
    · exact h
  · exact h

theorem finishTxn_wf (s : State) (t : Txn) (h : s.mem.wf = true) : (s.finishTxn t).1.mem.wf = true := by
  unfold State.finishTxn
  dsimp only
  split
  · exact finishHost_wf _ _ h
  split
  · exact finishDropped_wf _ _ h
  split
  · exact finishGrant_wf _ _ h
  · exact finishGrant_wf _ _ h
  · exact finishGrant_wf _ _ h
  · split
    · simpa [cohCount_mem] using h
    · split
      · exact h
      · exact dataFromMemory_wf _ _ _ h
  · exact finishWrite_wf _ _ h
  · exact finishAtomic_wf _ _ h
  · exact finishWb_wf _ _ h
  · rw [finishCln_mem]; exact h

theorem settle_wf (s : State) (k : Nat) (h : s.mem.wf = true) : (s.settle k).mem.wf = true := by
  unfold State.settle
  split
  · exact h
  · split
    · exact h
    · dsimp only; split
      · exact finishTxn_wf _ _ h
      · exact finishTxn_wf _ _ h

theorem beginReq_wf (s : State) (r : Req) (h : s.mem.wf = true) : (s.beginReq r).mem.wf = true := by
  unfold State.beginReq
  dsimp only
  split
  · rw [refuseReq_mem]; exact h
  · exact settle_wf _ _ (by rw [openTxn_mem]; exact h)

theorem recall_wf (s : State) (l : Nat) (h : s.mem.wf = true) : (s.recall l).mem.wf = true := by
  unfold State.recall
  refine settle_wf _ _ ?_
  rw [openTxn_mem]
  split
  · simpa using h
  · rw [cohCount_mem]; exact h

theorem beginFuel_wf (n : Nat) : ∀ s : State, s.mem.wf = true → (s.beginFuel n).mem.wf = true := by
  induction n with
  | zero => exact fun _ h => h
  | succ n ih =>
    intro s h
    unfold State.beginFuel
    split
    · exact h
    · refine ih _ ?_
      split
      · exact recall_wf _ _ h
      · exact beginReq_wf _ _ h

theorem beginAll_wf (s : State) (h : s.mem.wf = true) : s.beginAll.mem.wf = true := beginFuel_wf _ _ h

theorem advance_wf (s : State) (k : Nat) (h : s.mem.wf = true) : (s.advance k).mem.wf = true :=
  beginAll_wf _ (settle_wf _ _ h)

theorem arrive_wf (s : State) (r : Req) (h : s.mem.wf = true) : (s.arrive r).mem.wf = true :=
  beginAll_wf _ (by simpa [cohCount_mem] using h)

theorem answered_wf (s : State) (host : Bool) (a l : Nat) (h : s.mem.wf = true) :
    (s.answered host a l).mem.wf = true := by
  unfold State.answered
  dsimp only
  split
  · exact h
  · exact advance_wf _ _ h

theorem homeFwd_wf (s : State) (a l : Nat) (host : Bool) (h : s.mem.wf = true) :
    (s.homeFwd a l host).mem.wf = true := by
  have h2 : (s.cohCount l 1 1).mem.wf = true := by rw [cohCount_mem]; exact h
  unfold State.homeFwd
  dsimp only
  split
  · exact h2
  · split
    · exact advance_wf _ _ h2
    · exact answered_wf _ _ _ _ h2

theorem homeAck_wf (s : State) (a l : Nat) (h : s.mem.wf = true) : (s.homeAck a l).mem.wf = true := by
  unfold State.homeAck
  split
  · split
    · exact beginAll_wf _ h
    · exact h
  · exact h

/-- A message that arrives keeps the canonical form. -/
theorem deliverMsg_wf (s : State) (m : CohMsg) (h : s.mem.wf = true) : (s.deliverMsg m).mem.wf = true := by
  unfold State.deliverMsg
  split
  · rw [snoopArrives_mem]; exact h
  · exact answered_wf _ _ _ _ h
  · exact answered_wf _ _ _ _ h
  · exact answered_wf _ _ _ _ h
  · exact homeFwd_wf _ _ _ _ h
  · rw [grantArrives_mem]; exact h
  · exact homeAck_wf _ _ _ h
  · rw [wbAckArrives_mem]; exact h
  · rw [dataArrives_mem]; exact h

theorem hostReturns_wf (s : State) (x : Snoop) (d : Option (List Byte)) (k : Bool) (h : s.mem.wf = true) :
    (s.hostReturns x d k).mem.wf = true := by
  have put : (match d with
      | some b => (s.setCoh { s.coh with biWait := s.coh.biWait.erase x }).putLine x.line (slice b 0 64) false
      | none => s.setCoh { s.coh with biWait := s.coh.biWait.erase x }).mem.wf = true := by
    split
    · exact putLine_wf _ _ _ _ h
    · exact h
  unfold State.hostReturns
  dsimp only
  split
  · exact put
  · exact put

theorem pushLine_wf (line : Nat) (host : Bool) (n : Nat) :
    ∀ s : State, s.mem.wf = true → (s.pushLine line host n).mem.wf = true := by
  induction n with
  | zero => exact fun _ h => h
  | succ n ih =>
    intro s h
    unfold State.pushLine
    split
    · exact h
    · split
      · exact ih _ (deliverMsg_wf _ _ h)
      · split
        · exact ih _ (by rw [endDelay_mem]; exact h)
        · split
          · exact h
          · split
            · exact ih _ (hostReturns_wf _ _ _ _ h)
            · split
              · split
                · exact ih _ (advance_wf _ _ h)
                · exact h
              · exact h

/-- Serving the requests that came earlier keeps the canonical form. -/
theorem drain_wf (s : State) (lo hi : Nat) (host : Bool) (h : s.mem.wf = true) :
    (s.drain lo hi host).mem.wf = true := by
  unfold State.drain
  split
  · exact h
  · exact foldl_keeps (fun t : State => t.mem.wf = true) _ _ _ h (fun t l ht => pushLine_wf _ _ _ t ht)

/-! ### Engine accesses -/

theorem poisonRange_wf (s : State) (a n reason agent : Nat) (h : s.mem.wf = true) :
    (s.poisonRange a n reason agent).mem.wf = true := by
  unfold State.poisonRange
  refine poisonRange_fold_wf _ _ _ _ ?_
  split
  · exact h
  · exact drain_wf _ _ _ _ h

theorem storeBytes_wf (s : State) (a : Nat) (bs : List Byte) (h : s.mem.wf = true) :
    (s.storeBytes a bs).mem.wf = true := by
  unfold State.storeBytes
  split
  · exact h
  · dsimp only
    apply encodeRange_wf
    have hr := recallLine_wf _ ((a + bs.length - 1) / 64) (recallLine_wf _ (a / 64)
      (drain_wf s (a / 64) ((a + bs.length - 1) / 64) true h))
    have key : ∀ t : State, t.mem.wf = true → (Mem.wf
        { cells := cellsPutAll t.mem.cells a bs
          poison := t.mem.poison.filter (fun l => !(fullLines a bs.length).contains l) }) = true := by
      intro t ht
      rw [Mem.wf_iff] at *
      exact ⟨cellsWf_putAll _ _ _ ht.1, risingNats_filter _ _ ht.2⟩
    apply key
    split
    · rw [noteFrames_mem, settleLines_mem]; exact hr
    · rw [settleLines_mem]; exact hr

/-- Every write keeps the canonical form. -/
theorem writeMem_wf (s : State) (a : Nat) (bs : List Byte) (h : s.mem.wf = true) :
    (s.writeMem a bs).mem.wf = true := by
  unfold State.writeMem
  split
  · exact h
  · rw [countTier_mem]; exact storeBytes_wf s a bs h

/-- The memory after reset has the form. -/
theorem reset_mem_wf : State.reset.mem.wf = true := rfl

end Sys2Proof.Machine
end

