-- ==== Sys2Proof/Laws/Ops.lean ====
section
/-!
SUPPORT. The laws of tables and counters: what is written is read back, the rest stays, and no
counter passes its maximum (R53).
-/

namespace Sys2Proof

/-- A table gives back what was written, and the rest as before. -/
theorem Tab.find_write {α : Type} (t : Tab α) (k j : Nat) (v : α) :
    Tab.find (Tab.write t k v) j = if j = k then some v else Tab.find t j := by
  induction t with
  | nil =>
    by_cases h : j = k
    · simp [Tab.write, Tab.find, h]
    · simp [Tab.write, Tab.find, h, Ne.symm h]
  | cons e r ih =>
    obtain ⟨i, w⟩ := e
    unfold Tab.write
    split
    · by_cases h : j = k
      · simp [Tab.find, h]
      · rw [Tab.find, if_neg (fun e => h e.symm), if_neg h]
    · split
      · rename_i h
        subst h
        by_cases h : j = k
        · simp [Tab.find, h]
        · simp [Tab.find, h, Ne.symm h]
      · rename_i h1 h2
        rw [Tab.find, ih, Tab.find]
        by_cases h : j = k
        · subst h; rw [if_neg (fun e => h2 e.symm), if_pos rfl, if_pos rfl]
        · rw [if_neg h, if_neg h]

@[simp] theorem Tab.find_write_same {α : Type} (t : Tab α) (k : Nat) (v : α) :
    Tab.find (Tab.write t k v) k = some v := by rw [Tab.find_write, if_pos rfl]

theorem Tab.find_write_other {α : Type} (t : Tab α) (k j : Nat) (v : α) (h : j ≠ k) :
    Tab.find (Tab.write t k v) j = Tab.find t j := by rw [Tab.find_write, if_neg h]

@[simp] theorem Tab.read_write_same {α : Type} (t : Tab α) (d : α) (k : Nat) (v : α) :
    Tab.read (Tab.write t k v) d k = v := by simp [Tab.read]

theorem Tab.read_write_other {α : Type} (t : Tab α) (d : α) (k j : Nat) (v : α) (h : j ≠ k) :
    Tab.read (Tab.write t k v) d j = Tab.read t d j := by
  rw [Tab.read, Tab.read, Tab.find_write_other t k j v h]

/-- A removed key is absent, and the rest is as before. -/
theorem Tab.find_remove {α : Type} (t : Tab α) (k j : Nat) :
    Tab.find (Tab.remove t k) j = if j = k then none else Tab.find t j := by
  induction t with
  | nil => simp [Tab.remove, Tab.find]
  | cons e r ih =>
    obtain ⟨i, w⟩ := e
    unfold Tab.remove at *
    by_cases hi : i = k
    · subst hi
      rw [List.filter_cons_of_neg (by simp), ih, Tab.find]
      by_cases h : j = i
      · rw [if_pos h, if_pos h]
      · rw [if_neg h, if_neg h, if_neg (fun e => h e.symm)]
    · rw [List.filter_cons_of_pos (by simpa using hi), Tab.find, Tab.find, ih]
      by_cases h : i = j
      · subst h; rw [if_pos rfl, if_neg hi, if_pos rfl]
      · rw [if_neg h, if_neg h]

theorem Tab.mem_write {α : Type} (t : Tab α) (k : Nat) (v : α) (e : Nat × α)
    (h : e ∈ Tab.write t k v) : e = (k, v) ∨ e ∈ t := by
  induction t with
  | nil => simpa [Tab.write] using h
  | cons f r ih =>
    obtain ⟨i, w⟩ := f
    unfold Tab.write at h
    split at h
    · exact List.mem_cons.1 h
    · split at h
      · exact (List.mem_cons.1 h).imp_right (List.mem_cons_of_mem _)
      · rcases List.mem_cons.1 h with h | h
        · exact .inr (h ▸ List.mem_cons_self ..)
        · exact (ih h).imp_right (List.mem_cons_of_mem _)

end Sys2Proof

namespace Sys2Proof.Machine

/-- Counting adds to one counter up to its maximum and leaves the others (R53). -/
theorem counter_count (s : State) (i j n k m : Nat) :
    (s.count i j n).counter k m
      = if n ≠ 0 ∧ objKey k m = objKey i j then min counterMax (s.counter i j + n) else s.counter k m := by
  unfold State.count State.counter
  by_cases hn : n = 0
  · simp [hn]
  · rw [if_neg hn]
    by_cases h : objKey k m = objKey i j
    · rw [if_pos ⟨hn, h⟩, h]; simp
    · rw [if_neg (fun e => h e.2)]; exact Tab.read_write_other _ _ _ _ _ h

/-- Counting leaves every counter within its maximum. -/
theorem count_bounded (s : State) (i j n : Nat) (h : ∀ e ∈ s.counters, e.2 ≤ counterMax) :
    ∀ e ∈ (s.count i j n).counters, e.2 ≤ counterMax := by
  unfold State.count
  split
  · exact h
  · intro e he
    rcases Tab.mem_write _ _ _ _ he with rfl | he
    · exact Nat.min_le_left _ _
    · exact h e he

end Sys2Proof.Machine
end

