-- ==== Sys2Proof/Laws/Queue.lean ====
section
/-!
SUPPORT. A descriptor at its turn, the halves of a doorbell word, and that completing a descriptor keeps memory
in canonical form (R294, R295).
-/

namespace Sys2Proof.Machine

open Sys2Proof

/-! ### A descriptor at its turn -/

/-- At its turn a descriptor command answers the state its meaning gives; otherwise nothing happens. -/
theorem onDesc_turn (s : State) (d : Desc) (op : Byte) (f : State → State)
    (h : s.canDispatch d op = true) : s.onDesc d op f = .next (f s) := by
  unfold State.onDesc; rw [if_pos h]

theorem onDesc_early (s : State) (d : Desc) (op : Byte) (f : State → State)
    (h : s.canDispatch d op = false) : s.onDesc d op f = .next s := by
  unfold State.onDesc; rw [h]; rfl

/-- The low and the high half of a doorbell word. -/
theorem doorbell_low (a b : BitVec 16) : (a ++ b).extractLsb' 0 16 = b := by
  apply BitVec.eq_of_toNat_eq
  simp only [BitVec.extractLsb'_toNat, BitVec.toNat_append, Nat.shiftRight_zero]
  rw [← Nat.shiftLeft_add_eq_or_of_lt b.isLt, Nat.shiftLeft_eq]
  omega

theorem doorbell_high (a b : BitVec 16) : (a ++ b).extractLsb' 16 16 = a := by
  apply BitVec.eq_of_toNat_eq
  simp only [BitVec.extractLsb'_toNat, BitVec.toNat_append]
  rw [← Nat.shiftLeft_add_eq_or_of_lt b.isLt, Nat.shiftLeft_eq, Nat.shiftRight_eq_div_pow]
  omega

/-! ### Memory stays canonical -/

theorem issueFlush_mem (s : State) (q : BitVec 16) : (s.issueFlush q).mem = s.mem := by
  unfold State.issueFlush; simp

theorem putRecord_wf (s : State) (q : BitVec 16) (r : CRec) (u p : Bool) (h : s.mem.wf = true) :
    (s.putRecord q r u p).mem.wf = true := by
  unfold State.putRecord
  extract_lets c a s1 s2 s3 c3 c4 w c5 s4 s5
  have h1 : s1.mem.wf = true := by
    by_cases x : s.objWrite a = .refused
    · simp [s1, x, h]
    · simp only [s1, x, if_false]; exact writeMem_wf _ _ _ h
  have h3 : s3.mem.wf = true := by by_cases x : p = true <;> simp [s3, s2, x, h1]
  have h5 : s5.mem.wf = true := by
    simp only [s5, s4]
    split
    · rw [(State.msix_keeps _ _).2.1]; simpa using h3
    · simpa using h3
  clear_value s5
  split
  · rw [issueFlush_mem]; exact h5
  · exact h5

theorem pumpOnce_wf (s t : State) (q : BitVec 16) (h : s.pumpOnce q = some t) (w : s.mem.wf = true) :
    t.mem.wf = true := by
  unfold State.pumpOnce at h
  dsimp only at h
  cases hf : (s.queue q).fetched with
  | nil =>
    rw [hf] at h
    dsimp only at h
    repeat' split at h
    all_goals first
      | (cases h; done)
      | (injection h with h; subst h; simpa using w)
  | cons f r =>
    obtain ⟨n, op, irq, b, g, ph⟩ := f
    rw [hf] at h
    dsimp only at h
    cases ph with
    | waiting => cases h
    | done st d1 d2 =>
      dsimp only at h
      split at h
      · injection h with h; subst h; simpa using w
      · split at h
        · cases h
        · injection h with h; subst h; exact putRecord_wf _ _ _ _ _ (by simpa using w)
    | running e =>
      cases e <;> dsimp only at h <;> first
        | cases h
        | (repeat' split at h
           all_goals first
             | (cases h; done)
             | (injection h with h; subst h; simpa using w)
             | (injection h with h; subst h; simpa [State.issueFlush] using w))

theorem pump_wf (s : State) (q : BitVec 16) (h : s.mem.wf = true) : (s.pump q).mem.wf = true := by
  have key : ∀ (n : Nat) (s : State), s.mem.wf = true → (s.pumpFuel q n).mem.wf = true := by
    intro n
    induction n with
    | zero => exact fun _ h => h
    | succ n ih =>
      intro s h
      unfold State.pumpFuel
      split
      · exact h
      · rename_i t ht
        exact ih t (pumpOnce_wf s t q ht h)
  unfold State.pump
  dsimp only
  split
  · exact key _ s h
  · exact key _ s h

theorem complete_wf (s : State) (q n : BitVec 16) (o : Outcm) (h : s.mem.wf = true) :
    (s.complete q n o).mem.wf = true := pump_wf _ q h

theorem handOver_wf (s : State) (d : Desc) (e : Engine) (h : s.mem.wf = true) :
    (s.handOver d e).mem.wf = true := by
  unfold State.handOver; simpa using h

end Sys2Proof.Machine
end

