-- ==== Sys2Proof/Tests/Slice0.lean ====
section
/-!
SUPPORT. Tests: an ill-formed term for each check of WellFormed, one witness for each clause of the
statements that has hypotheses, and a few results that the manual states.
-/

namespace Sys2Proof.Tests

set_option Elab.async false
set_option linter.unusedVariables false

open Sys2Proof Sys2Proof.Machine

/-! ### Small states -/

/-- A body whose fields are given as (descriptor byte, value). -/
def body (l : List (Nat × Nat)) : BitVec 352 :=
  BitVec.ofNat 352 (l.foldl (fun a e => a + e.2 * 2 ^ (8 * (e.1 - 16))) 0)

/-- A lease of tier 1, tier 2, every die store and the host window. -/
def lease1 : Lease :=
  { Lease.init with
    state := .active, grantSeq := 1, t1Bytes := 2 ^ 30, t2Base := 2 ^ 40, t2Bytes := 2 ^ 30
    t1Quota := 2 ^ 31, t2Quota := 2 ^ 31, q1 := 2 ^ 30, q2 := 2 ^ 30, dieMask := 0x3FFFFFF, queues := 64
    host := true }

def queueWith (f : List Fetched) : QCtx :=
  { QCtx.init with
    state := .active, lease := 1, sqBase := 0x10000, cqBase := 0x20000, depth := 16, vector := 0xFFFF
    limit := 16, sqTail := 1, nextSeq := 1, fetched := f }

/-- A running module with an active lease 1 and an active queue 0 with nothing fetched. -/
def up : State :=
  { State.reset with
    power := { Power.init with mode := .running, draftUp := true }
    module := { Module.init with pwrGood := true }
    journal := { Journal.init with accepting := true }
    host := { HostIf.init with attach := .attached, portReady := true, linkUp := true, cxlUp := true
                               bar2Size := 2 ^ 34 }
    leases := [(1, lease1)], queues := [(0, queueWith [])] }

def entry (op : Byte) (b : BitVec 352) : Fetched :=
  { seq := 0, opcode := op, irq := false, body := b, granted := false, phase := .waiting }

/-- `s` with one descriptor waiting in queue 0. -/
def offer (s : State) (op : Byte) (b : BitVec 352) : State :=
  { s with queues := [(0, queueWith [entry op b])] }

def desc (b : BitVec 352) : Desc := { queue := 0, seq := 0, body := b }

/-- `s` with `bs` in memory from `a`. -/
def fill (s : State) (a : Nat) (bs : List Byte) : State :=
  { s with mem := { s.mem with cells := cellsPutAll s.mem.cells a bs } }

/-- `s` with one running entry in queue 0. -/
def busy (s : State) (op : Byte) (b : BitVec 352) (e : Engine) : State :=
  { s with queues := [(0, queueWith [{ entry op b with phase := .running e }])] }

def armed : PendingArm := { byWhom := 1, step := 7, epoch := 2, values := [] }

/-- Queue 0 of `up` with sequences 0 to 4 used. -/
def rung : State :=
  { up with queues := [(0, { queueWith [] with sqTail := 5, nextSeq := 5, cqWritten := 5, cqConfirmed := 5 })] }

/-- A QCTL_NOP of queue 0 with sequence 1 and its CRC. -/
def nopDesc : List Byte :=
  let b := [0x00, 0x00] ++ toLe 2 1 ++ List.replicate 56 0
  b ++ toLe 4 (crc32c b).toNat

/-- The first byte of the die store of tensor die 0. -/
def ds : Nat := dieStoreBase

/-- An operand record of Table LOM-2 with rows 64 bytes apart. -/
def recOf (mant scale rows cols : Nat) : List Byte :=
  toLe 6 mant ++ toLe 6 scale ++ toLe 4 64 ++ toLe 4 64 ++ toLe 4 rows ++ toLe 4 cols ++ List.replicate 20 0

/-- A transfer of queue 0, not accepted, over body `b`. -/
def xferOf (op : Byte) (b : BitVec 352) : Xfer :=
  { queue := 0, seq := 0, opcode := op, body := b, die := 0, shuttle := 0, step := 0, accepted := false, slot := none
    got := [], reads := [], todo := [], sent := false, zeroRead := false, signalled := false, bad := none
    heldOnce := false }

/-- A running module whose shuttle holds transfer `x`. -/
def moving (x : Xfer) : State := { busy up x.opcode x.body (.shuttle 0) with xfers := [x] }

def ringOf (l : List SlotSt) : Ring :=
  { Ring.init with configured := true, slots := 3, slotBytes := 64, base := ds, slotTab := l }

def copyBody : BitVec 352 := body [(24, 0x1000), (32, 0x2000), (40, 64)]
def ringBody : BitVec 352 := body [(17, 1), (18, 5), (24, 0x1000), (40, 64)]
def mcastBody : BitVec 352 := body [(17, 3), (18, 9), (20, 256), (24, 0x1000), (32, 2), (40, 256)]
def atomBody : BitVec 352 := body [(17, 8), (24, 0x1000), (32, 0x2000), (38, 0x3000)]
def send : McastSend :=
  { queue := 0, seq := 0, die := 0, group := 3, tag := 9, bytes := 256, src := 0x1000, count := 2, stride := 256
    next := 1, held := [{ index := 0, bytes := [], poison := false, pending := [1] }], firstBad := none }
def mcPick : Pick := newPick 0 1 false (body [(16, 3), (17, 3), (18, 3), (23, 0x80), (24, 3), (26, 1), (28, 9), (30, 1)]) (up.numCfg 0)

/-- The second pass of a chain of three on loom 0, which keeps its warp: one row, 64 × 64 shape, SK16. -/
def contBody : BitVec 352 :=
  body [(16, 3), (17, 3), (18, 3), (21, 0xA9), (26, 1), (30, 3), (32, 1), (34, ds), (40, ds + 48), (46, ds + 96)]

def contPick : Pick := newPick 0 0 false contBody (up.numCfg 0)

def contLoom : Loom :=
  { Loom.init with
    shapeMode := true, picks := [contPick]
    warp := some { kt := 32, nt := 64, opf := 3, elems := List.replicate 2048 (.val 0) }
    chain := some { queue := 0, bwd := false, body := contBody, nextK := 1, failed := none, ending := false
                    merge := [[{ emax := some 0, sum := 5, nar := false }]] } }

/-- A pick of one row in the 64 × 64 shape at SK16, over zero operands. -/
def pickBody : BitVec 352 :=
  body [(16, 3), (17, 3), (18, 3), (21, 9), (26, 1), (30, 1), (34, ds), (40, ds + 48), (46, ds + 96)]

def onePick : Pick := newPick 0 0 false pickBody (up.numCfg 0)

def pickState : State :=
  fill { busy up 0x30 pickBody (.loom 0) with looms := [(0, { Loom.init with shapeMode := true })] } ds
    (recOf (ds + 0x1000) (ds + 0x2000) 1 32 ++ recOf (ds + 0x3000) (ds + 0x5000) 32 64
      ++ recOf (ds + 0x6000) (ds + 0x7000) 1 64)

theorem offered_some {α : Type} (o : Option α) (h : o.isSome = true) : o = some (o.get h) := by simp

/-- One record for every operand of a vector instruction of one element. -/
def vecMem (s : State) : State :=
  fill s ds (recOf (ds + 0x1000) (ds + 0x2000) 1 1 ++ List.replicate 16 0 ++ [2, 0])

def vecBody (o : VecOp) (rows cols : Nat) : BitVec 352 :=
  body ([(22, 3), (24, rows), (28, cols), (32, ds), (44, ds)]
    ++ (if o = .convert then [] else [(17, 3)]) ++ (if o = .argmax then [] else [(19, 3)])
    ++ (if o.usesB then [(18, 3), (38, ds)] else [])
    ++ (if o = .fma then [(50, ds)] else if o = .curve then [(50, ds + 64)]
        else if o = .gather then [(50, ds + 128)] else []))

/-- A VEC_REQUANT of one zero element, accepted by engine 3. -/
def vecJob : VecJob :=
  { queue := 0, seq := 0, opcode := 0x45, body := vecBody .requant 1 1, cfg := up.numCfg 0, need := 0, drained := []
    busyLeft := 0, started := true }

/-- Core 5 of die 0 runs a program that SEQ_START of queue 0 started. -/
def progState : State :=
  { busy up 0x59 0 .seqCores with
    cores := [(5, { CtrlCore.init with running := true, queueBase := 0, queueCnt := 1 })] }

/-- A geometry of one pixel, one channel and a 1 × 1 kernel, or with no image when `n` is 0. -/
def geomOf (n : Nat) : List Byte :=
  toLe 4 n ++ toLe 4 1 ++ toLe 4 1 ++ toLe 4 1 ++ toLe 4 1 ++ toLe 2 1 ++ toLe 2 1 ++ [1, 1, 1, 1]
    ++ List.replicate 8 0 ++ toLe 4 1 ++ [0, 0, 0, 0] ++ toLe 6 (ds + 0x1000) ++ toLe 6 (ds + 0x1100)
    ++ toLe 6 (ds + 0x1200) ++ toLe 6 (ds + 0x1300) ++ toLe 6 (ds + 0x1400) ++ toLe 6 (ds + 0x1500)
    ++ List.replicate 16 0

def convBody (post : Nat) : BitVec 352 :=
  body ([(16, 3), (17, 3), (18, 3), (22, 1), (23, post), (28, ds)] ++ (if post = 4 then [(19, 3), (34, ds + 96)] else []))

def convState (n post : Nat) : State :=
  fill (offer up 0x60 (convBody post)) ds (geomOf n ++ recOf (ds + 0x1600) (ds + 0x1700) 1 1)

def sk16Row : Opf := { fmt := .sk16, dir := .row, size := 32 }

/-- The record of a BWD_ATTN, and its operands: `rows` rows of Q and one row of K. -/
def attnMem (rows : Nat) : State :=
  let plane := fun (k r c : Nat) => recOf (ds + 0x1000 * k) (ds + 0x10000 + 0x1000 * k) r c
  let wide := fun (k r c : Nat) => overlay (plane k r c) 12 (toLe 4 512)
  fill (offer up 0x71 (body [(16, 3), (17, 3), (18, 0x83), (23, 1), (26, 64), (28, 64), (38, ds)])) ds
    ((List.range 11).flatMap (fun i => toLe 6 (ds + 128 + 48 * i)) ++ List.replicate 62 0
      ++ wide 1 rows 64 ++ wide 2 1 64 ++ wide 3 1 64 ++ wide 4 rows 64 ++ plane 5 rows 1 ++ plane 6 rows 1
      ++ plane 7 rows 1 ++ wide 8 rows 64 ++ wide 9 1 64 ++ wide 10 1 64 ++ [2, 0])

def stashed : StashEntry :=
  { mb := 1, layer := 2, part := 3, tier2 := false, eligible := false, step := 0, length := 64, units := 1, live := true
    bytes := List.replicate 64 9, poison := none, gets := 0, dying := false, queue := 0, seq := 7 }

def withStash (s : State) (l : List StashEntry) : State := { s with stash := [(1, { Stash.init with entries := l })] }

/-- A TREADLE_SIGNAL of sequence 1 behind a QCTL_FLUSH that waits. -/
def behindFlush : State :=
  { up with queues := [(0, queueWith [{ entry 2 0 with phase := .running .dispatch },
                                      { entry 0x77 0 with seq := 1 }])] }

/-- Queue 0 is bound and its head granted. -/
def granted (s : State) (op : Byte) (b : BitVec 352) : State :=
  { s with queues := [(0, queueWith [{ entry op b with granted := true }])], treadle := [(0, false)] }

/-- A group record of one element: rule 0, or rule 2 with its second moment. -/
def groupRec (rule : Nat) : List Byte :=
  let m2 := if rule = 2 then 3 else 0
  let b := toLe 4 0 ++ [BitVec.ofNat 8 rule, 0, 0, 0] ++ List.replicate 16 0 ++ toLe 4 1 ++ toLe 4 1 ++ toLe 4 0 ++ toLe 4 1
    ++ toLe 6 0x40200 ++ toLe 6 0x40300 ++ toLe 6 0x40200 ++ toLe 6 (if rule = 2 then 0x40200 else 0)
    ++ toLe 6 0x40200 ++ List.replicate 42 0 ++ toLe 4 0x100 ++ toLe 4 0 ++ toLe 4 0x100 ++ List.replicate 17 0
    ++ [3, 3, BitVec.ofNat 8 m2] ++ List.replicate 108 0
  b ++ toLe 4 (crc32c b).toNat

/-- Group 0 in tier 1, and the outcome of step 5 when `held`. -/
def updState (op : Byte) (b : BitVec 352) (rule : Nat) (held : Bool) : State :=
  let s := fill (offer up op b) 0x40000 (groupRec rule ++ List.replicate 256 0 ++ recOf 0x40400 0x40500 1 1)
  { s with
    draft := { s.draft with active := [(objKey 0x4000 1, toLe 6 0x40000), (objKey 0x4000 2, [1])] }
    peruo := { s.peruo with
      outcomes := if held then [(5, { step := 5, flag := false, members := 1, sum := 0 })] else [] } }

def statBody : BitVec 352 := body [(20, 3), (24, 5), (40, 0x40600)]
def applyBody : BitVec 352 := body [(20, 3), (24, 5)]

/-- The configuration with group table base 0x40000 and one group. -/
def groupConf : ConfPair :=
  { active := [(objKey 0x4000 1, toLe 6 0x40000), (objKey 0x4000 2, [1])], prevActive := [], prevStep := none }

def waitApply : OutcomeWait := { queue := 0, seq := 0, opcode := 0x81, body := applyBody, conf := groupConf }
def outcome5 : Outcome := { step := 5, flag := false, members := 1, sum := 0 }

/-- Context 63 in state `st` at step 5, with one layer. -/
def templeState (s : State) (st : CtxState) : State :=
  { s with ctxs := [(63, { Ctx.init with
    state := st, step := 5, formats := [0], runs := [0], skipMap := [], tallyBase := 0x50000 })] }

theorem ok_of {ε α : Type} (e : Except ε α) (h : e.isOk = true) : ∃ a, e = .ok a := by
  cases e with
  | error _ => cases h
  | ok a => exact ⟨a, rfl⟩

/-- An unpinned object of one frame that lease 1 owns. -/
def obj : TierObj :=
  { state := .residentT2, packed := false, owner := 1, opf := 0, rows := 0, cols := 0, size := 65536, sectors := 0, logical := 1
    doomed := false
    pins := [], movePins := [], backing := { cells := [], poison := [] }, waiters := [], byDevice := false }

/-- `s` with object 4095 as `o`. -/
def withObj (s : State) (o : TierObj) : State := { s with objects := [(4095, o)] }

def objBody : BitVec 352 := body [(16, 4095)]

/-- A host-class transaction that waits for agent `a`. -/
def waitTxn (a : Nat) : Txn :=
  { req := { kind := .rdX, agent := 43, line := 5, mask := 0, bytes := [], offset := 0, op := none, fetch := false }
    waitFor := [a], needHost := false, refused := false, forwarded := false, fwdDue := false, snooped := true
    granted := false, bytes := none, dropped := false, lost := false }

def withCoh (c : Coh) : State := { up with coh := c }

/-- A device of a domain of 16 whose view has the members 0 and 1, with the Ethernet ports in use. -/
def domain : State :=
  { up with
    draft := { Draft.init with active :=
      [(objKey 0x5000 2, [16]), (objKey 0x5002 3, List.replicate 8 0 ++ [3] ++ List.replicate 1535 0),
       (objKey 0x5500 1, [1])] }
    peruo := { Peruo.init with
      regions := [(1023, { registered := true, enabled := true, perm := 7, lease := 1, target := 0x1000, length := 64 })] } }

/-- The header with which device 1 sends a record of step 0 when it agrees with this device. -/
def fromOne (s : State) : XHdr := { s.header s.ownPod 7 0 with src := 1 }

theorem fromOne_agrees (s : State) (h1 : viewHas (s.viewAt 0) 1 = true) (h2 : s.peerState 1 ≠ .cfgMismatch)
    (h3 : viewNumber (s.viewAt 0) < 2 ^ 32) : s.agree (fromOne s) 0 = .accept := by
  have h4 : viewNumber (s.viewAt 0) % 4294967296 = viewNumber (s.viewAt 0) := Nat.mod_eq_of_lt (by simpa using h3)
  simp [State.agree, fromOne, State.header, h1, h2, h4]

theorem domain_agrees : domain.agree (fromOne domain) 0 = .accept :=
  fromOne_agrees domain (by decide +kernel) (by decide +kernel) (by decide +kernel)

def stranger : XHdr := { fromOne domain with epoch := 5 }

def putRec : PutRec :=
  { queue := 0, step := 0, addr := 0, region := 1023, length := 64, pod := false
    data := { bytes := List.replicate 64 7, poison := [] } }

def sigRec : SignalRec := { mode := 1, die := 23, step := 0, token := 4095, increment := 1 }

def laneUpState (x : LaneSt) : State :=
  { domain with peruo := { domain.peruo with lanes := [(0, { Lane.init with st := x }), (127, { Lane.init with st := x })] } }

def flit : Flit :=
  { ftype := .idle, vc := 0, creditVc := 0
    credits := 0, nak := false, flitSeq := 0, ack := 0, hdr := stranger, mask := 0, payload := [] }

def collWait : CollWait := { queue := 0, seq := 0, opcode := 0xB6, body := body [(16, 4095), (18, 255)], cfg := up.numCfg 0 }

def xact : Xact := { peer := 1, xtag := 7, queue := 0, seq := 0, kind := 0, offset := 0, length := 64 }

def collRec : CollRec := { kind := 0, group := 9, step := 0, collSeq := 0, rows := 1, cols := 1, opfIn := 0, h := 0 }

def ackPacket : EthPacket :=
  { src := 1, ecrcOk := true, version := 1, ackOnly := true, nak := false, ceEcho := false
    ceMarked := false, psn := 0, ackPsn := 0, flits := [] }

def farData : FarDatagram :=
  { region := 1023, offset := 0, length := 64, data := List.replicate 64 7 }

/-- Agent `a`'s copy of line `l` in state `st`. -/
def held (a l : Nat) (st : Moesi) : CacheLine :=
  { agent := a, line := l, st := st, bytes := List.replicate 64 7, gone := false }

def withLine (st : Moesi) : State := withCoh { Coh.init with lines := [held 38 5 st] }

def snoopOf (k : SnoopKind) : Snoop := { kind := k, agent := 38, line := 5, dest := 3, host := false }

/-- A snoop in flight to agent 38, which holds the line in state `st`. -/
def snooped (k : SnoopKind) (st : Moesi) : State :=
  withCoh { Coh.init with lines := [held 38 5 st], msgs := [.snoop (snoopOf k)] }

def withMsg (m : CohMsg) : State := withCoh { Coh.init with msgs := [m] }

/-- Region 9 of BAR2: one aperture from tier 1 address 0x1000000, for reads and writes. -/
def hostRegion : Region :=
  { enabled := true, lost := false, rd := true, wr := true, lease := 1, first := 0, apertures := 1
    target := 0x1000000, length := 65536 }

def barState : State := { up with host := { up.host with regions := [(9, hostRegion)] } }

/-- `up` with the parameters `a` in the local admin block. -/
def adminState (a : Admin) : State := { up with host := { up.host with adminLocal := a } }

def createArgs : Admin :=
  { Admin.init with
    queue := 7, lease := 1, die := 25, depth := 4, vector := 2047, sqBase := 0x10000, cqBase := 0x20000 }

theorem low_stays (f : Nat → Nat) (l : List Nat) (m : Nat) (h : f m = 0) :
    l.foldl (fun m x => if f x < f m then x else m) m = m := by
  induction l with
  | nil => rfl
  | cons x r ih => simpa [h] using ih

theorem high_found (f : Nat → Nat) (b : Nat) (hb : ∀ x, x ≠ b → f x < f b) (l : List Nat) (m : Nat)
    (h : m = b ∨ b ∈ l) : l.foldl (fun m x => if f m < f x then x else m) m = b := by
  induction l generalizing m with
  | nil => simpa using h
  | cons x r ih =>
    apply ih
    by_cases hx : x = b
    · by_cases hm : m = b
      · simp [hx, hm]
      · simp [hx, hb m hm]
    · rcases h with h | h
      · have := hb x hx
        simp [h, Nat.not_lt.mpr (Nat.le_of_lt this)]
      · exact .inr ((List.mem_cons.mp h).resolve_left (fun e => hx e.symm))

/-- A pool in which block 8 holds records and the free block 9 has the highest erase count. -/
def wornNand : Nand := { Nand.init with erases := [(9, 2000)], live := [8] }

theorem worn_counts (x : Nat) (h : x ≠ 9) : wornNand.eraseOf x < wornNand.eraseOf 9 := by
  have : wornNand.eraseOf x = 0 := by simp [Nand.eraseOf, wornNand, Tab.read, Tab.find, Ne.symm h]
  rw [this]; decide

theorem worn_pool : ∃ t, wornNand.goodBlocks = 4 :: t ∧ 9 ∈ wornNand.goodBlocks ∧ 8 ∈ wornNand.goodBlocks := by
  have h : wornNand.goodBlocks = rangeFrom 4 2496 := by
    simp [Nand.goodBlocks, wornNand, Nand.init, poolFirst, poolBlocks]
  refine ⟨(List.range 2495).map (fun i => 4 + (i + 1)), ?_, ?_, ?_⟩
  · rw [h, rangeFrom, List.range_succ_eq_map, List.map_cons, List.map_map]; rfl
  · rw [h]; exact List.mem_map.mpr ⟨5, by simp, rfl⟩
  · rw [h]; exact List.mem_map.mpr ⟨4, by simp, rfl⟩

theorem worn_highest (l : List Nat) (h : 9 ∈ l) : highestBy wornNand.eraseOf l = some 9 := by
  cases l with
  | nil => simp at h
  | cons b r =>
    exact congrArg some (high_found _ 9 worn_counts r b ((List.mem_cons.mp h).imp Eq.symm id))

theorem worn_relocation : wornNand.relocation = some (8, 9) := by
  obtain ⟨t, ht, h9, h8⟩ := worn_pool
  have hlo : lowestBy wornNand.eraseOf wornNand.goodBlocks = some 4 := by
    rw [ht]; exact congrArg some (low_stays _ t 4 (by decide))
  have hf : (wornNand.goodBlocks.filter (fun b => wornNand.live.contains b &&
      wornNand.eraseOf b == wornNand.eraseOf 4)).head? = some 8 := by
    have e : wornNand.goodBlocks.filter (fun b => wornNand.live.contains b &&
        wornNand.eraseOf b == wornNand.eraseOf 4) ≠ [] := by
      intro c
      have := List.filter_eq_nil_iff.mp c 8 h8
      exact this (by decide)
    obtain ⟨y, r, hy⟩ := List.exists_cons_of_ne_nil e
    have hm : y ∈ wornNand.goodBlocks.filter (fun b => wornNand.live.contains b &&
        wornNand.eraseOf b == wornNand.eraseOf 4) := by rw [hy]; simp
    have : y = 8 := by
      have := (List.mem_filter.mp hm).2
      simp [wornNand] at this
      exact this.1
    rw [hy, this]; rfl
  have hfree : highestBy wornNand.eraseOf (wornNand.goodBlocks.filter (fun b => !wornNand.live.contains b)) =
      some 9 := worn_highest _ (List.mem_filter.mpr ⟨h9, by decide⟩)
  have hc : ¬ wornNand.eraseOf 9 ≤ wornNand.eraseOf 4 + 1000 := by decide
  unfold Nand.relocation
  simp only [hlo, worn_highest _ h9, hc, if_false, hf, hfree]

/-- A DAP message of session 1 by 10BASE-T1S, without its tag. -/
def dapMsg (nonce : BitVec 64) (b : List Byte) : DapMsg :=
  { transport := .t1s, hopLimit := 255, multicast := false, version := 1, reqId := 0, session := 1, nonce := nonce
    length := BitVec.ofNat 16 b.length, result := 0, reserved := 0, body := b, tag := [] }

def key7 : List Byte := List.replicate 32 7

/-- The message with the tag that `key7` gives it. -/
def signed (k : Byte) (m : DapMsg) : DapMsg := { m with tag := hmac256 key7 (dapRequest m k) }

/-- An owned device with session 1 of role own. -/
def session1 : State :=
  { up with
    sec := { up.sec with owned := true, operatorKey := key7, ownerKey := key7 }
    draft := { up.draft with sessions :=
      [{ num := 1, role := .own, ownerKey := true, transport := .t1s, key := key7, rxNonce := 0, txNonce := 1
         kept := [] }] } }

/-- Group 0 of `updState` with its planes' stamp in the entry of a GROUP_RESTORE at 0x50000. -/
def restoreState : State :=
  let s := updState 0 0 0 false
  fill s 0x50000 (List.replicate 16 0 ++ toLe 4 (s.stamp (s.readGroup 0x40000)) ++ List.replicate 4 0)

/-- A skipped step 5 whose outcome is held, with the body of its commit at 0x50000. -/
def commitState : State :=
  let s := updState 0 0 0 false
  let c := s.pairAt 5
  let t := fill s 0x50000 (toLe 8 5 ++ toLe 4 c.1.toNat ++ toLe 4 (viewNumber (s.viewAt 5)) ++ toLe 8 c.2.toNat
    ++ [1, 0, 1, 0] ++ List.replicate 40 0 ++ [1])
  { t with peruo := { t.peruo with outcomes := [(5, { step := 5, flag := true, members := 1, sum := 0 })] } }

theorem pair_of {α β : Type} {b : β} (r : α × β) (h : r.2 = b) : r = (r.1, b) := by rw [← h]

def session1Rec : Session :=
  { num := 1, role := .own, ownerKey := true, transport := .t1s, key := key7, rxNonce := 0, txNonce := 1, kept := [] }

/-- An IDENTIFY in the mailbox, which is enabled. -/
def mailState : State :=
  { up with draft := { up.draft with active := [(objKey 0x1100 4, [1])] }
            mailbox := { up.mailbox with reqBuf := [(0, 1), (1, 1)] } }

theorem witness_StepRunsTheFrontCommand_0 : ∃ (c : Instr) (r : List Instr) (s : State),
    s.pending = c :: r :=
  ⟨.lifetime, [.checkpoint], { up with pending := [.lifetime, .checkpoint] },
    by decide +kernel⟩

theorem witness_IdleBlockCountsClockCycles_0 : ∃ (s : State),
    s.pending = [] :=
  ⟨up,
    by decide +kernel⟩

/-- A step from a state with memory. -/
theorem witness_StepKeepsMemoryCanonical : ∃ s t : State, s.mem.wf = true ∧ step s = .next t :=
  ⟨fill { up with pending := [.lifetime] } 0x100 [7, 8], _, by decide +kernel, rfl⟩

/-- A step from a state whose counters stand at 5 and at their maximum. -/
theorem witness_StepKeepsCountersWithinMaximum : ∃ (s t : State) (e : Nat × Nat),
    (∀ e ∈ s.counters, e.2 ≤ 2 ^ 64 - 1) ∧ step s = .next t ∧ e ∈ t.counters :=
  ⟨{ up with counters := [(0, 5), (0x782000, 2 ^ 64 - 1)], pending := [.fmtCountersClear 0] }, _, (0, 5),
    by decide, rfl, by decide +kernel⟩

/-- The state that an outcome goes on in. -/
def after (o : Host.Outcome State Fault Refusal) : State := match o with
  | .next t => t
  | _ => up
theorem after_next (o : Host.Outcome State Fault Refusal)
    (h : (match o with | .next _ => true | _ => false) = true) : o = .next (after o) := by
  cases o <;> simp_all [after]

/-- Both fuse counters stand at 2. -/
def released : State :=
  { up with leases := [], sec := { up.sec with fuses0 := [0, 2], fuses1 := [0, 2] } }


theorem released_fuses (s : State) (h : s.leases.any (fun e => e.2.state != .free) = false) (h1 : s.arCounter 1 < 64)
    (h2 : s.journalUp = true) :
    (s.ownerRelease 0xA5).1.sec.fuses0 = (s.blowTo 1 (s.arCounter 1 + 1)).sec.fuses0 := by
  unfold State.ownerRelease
  rw [if_neg (by simp [h, h2, Nat.not_le.mpr h1])]
  simp [State.keepValue, State.endSessions]

theorem after_cmd (s : State) (f : State → State × DapResult) (h : s.power.draftUp = true) :
    (after (s.onCmd f)).sec = (f s).1.sec := by simp [State.onCmd, h, after]

theorem step_release (s : State) (v : Byte) : step { s with pending := [.ownerRelease v] } =
    State.onCmd { s with pending := [] } (fun s => s.ownerRelease v) := rfl

/-- A step from a state with blown fuses: OWNER_RELEASE with no lease. -/
theorem witness_StepNeverLowersFuseCounters : ∃ s t : State,
    step s = .next t ∧ s.sec.fuses0.getD 1 0 = 2 ∧ t.sec.fuses0.getD 1 0 = 3 := by
  refine ⟨{ released with pending := [.ownerRelease 0xA5] }, _,
    (step_release _ _).trans (after_next _ (by decide +kernel)), by decide +kernel, ?_⟩
  rw [after_cmd _ _ (by decide +kernel), released_fuses _ (by decide +kernel) (by decide +kernel) (by decide +kernel)]
  decide +kernel

theorem witness_CompletionWritesItsRecordAndNoOtherByte_0 : ∃ (s : State) (q : BitVec 16) (f : Fetched)
      (i : Nat) (x : Nat),
    let c := s.queue q
    let a := c.cqSlot f.seq
    c.state = .active ∧
    c.fetched = [f] ∧
    f.phase = .waiting ∧
    c.abortTail = none ∧
    cqInHost c = false ∧
    inHostWindow a = false ∧
    s.objWrite a = .free ∧
    s.mayOmit a = false ∧
    s.mem.wf = true ∧
    s.coh.quiet = true ∧
    i < 16 ∧
    (x < a ∨ a + 16 ≤ x) :=
  ⟨offer up 0 0, 0, entry 0 0, 15, 0x20010,
    by decide +kernel⟩

theorem witness_QueueControlCommandsComplete_0 : ∃ (s : State) (d : Desc),
    s.canDispatch d 0x00 = true ∧
    fieldZero d.body 16 60 = true :=
  ⟨offer up 0x00 (body []), desc (body []),
    by decide +kernel⟩

theorem witness_QueueControlCommandsComplete_1 : ∃ (s : State) (d : Desc),
    s.canDispatch d 0x01 = true ∧
    fieldZero d.body 24 60 = true ∧
    s.switchDue (fieldOf d.body 16 8) = none :=
  ⟨offer up 0x01 (body [(16, 18446744073709551615)]), desc (body [(16, 18446744073709551615)]),
    by decide +kernel⟩

theorem witness_QueueControlCommandsComplete_2 : ∃ (s : State) (d : Desc) (p : PendingArm),
    s.canDispatch d 0x01 = true ∧
    fieldZero d.body 24 60 = true ∧
    s.switchDue (fieldOf d.body 16 8) = some p ∧
    s.journalUp = true :=
  ⟨offer { up with draft := { Draft.init with pending := some armed } } 0x01 (body [(16, 7)]), desc (body
      [(16, 7)]), armed,
    by decide +kernel⟩

theorem witness_QueueControlCommandsComplete_3 : ∃ (s : State) (d : Desc),
    s.canDispatch d 0x02 = true ∧
    fieldZero d.body 16 60 = true :=
  ⟨offer up 0x02 (body []), desc (body []),
    by decide +kernel⟩

theorem witness_DoorbellsMoveTheirIndices_0 : ∃ (s : State) (q : BitVec 16) (v : BitVec 16),
    s.ready = true ∧
    (s.queue q).state = .active ∧
    v ≠ (s.queue q).sqTail ∧
    seqAhead (s.queue q).sqTail v ≤ (s.queue q).depth ∧
    seqAhead (s.queue q).cqHead v ≤ (s.queue q).depth :=
  ⟨rung, 0, 16,
    by decide +kernel⟩

theorem witness_DoorbellsMoveTheirIndices_1 : ∃ (s : State) (q : BitVec 16) (v : BitVec 16),
    s.ready = true ∧
    (s.queue q).state = .active ∧
    seqAhead (s.queue q).cqHead v ≤ seqAhead (s.queue q).cqHead (s.queue q).cqWritten :=
  ⟨rung, 0, 5,
    by decide +kernel⟩

theorem witness_DoorbellsMoveTheirIndices_2 : ∃ (s : State) (q : BitVec 16) (e : BitVec 16),
    s.ready = true ∧
    (e ≠ s.host.epoch.extractLsb' 0 16 ∨ (s.queue q).state ≠ .active) :=
  ⟨rung, 7, 1,
    by decide +kernel⟩

theorem witness_DoorbellsMoveTheirIndices_3 : ∃ (s : State) (q : BitVec 16),
    s.ready = true ∧
    (s.queue q).state = .active :=
  ⟨rung, 0,
    by decide +kernel⟩

theorem witness_DoorbellsMoveTheirIndices_4 : ∃ (s : State) (q : BitVec 16) (v : BitVec 16),
    s.ready = true ∧
    (s.queue q).state = .active ∧
    v ≠ (s.queue q).sqTail ∧
    ((s.queue q).depth < seqAhead (s.queue q).sqTail v ∨ (s.queue q).depth < seqAhead (s.queue q).cqHead
      v) :=
  ⟨rung, 0, 17,
    by decide +kernel⟩

theorem witness_DoorbellsMoveTheirIndices_5 : ∃ (s : State) (q : BitVec 16) (v : BitVec 16),
    s.ready = true ∧
    (s.queue q).state = .active ∧
    seqAhead (s.queue q).cqHead (s.queue q).cqWritten < seqAhead (s.queue q).cqHead v :=
  ⟨rung, 0, 6,
    by decide +kernel⟩

theorem witness_DoorbellsMoveTheirIndices_6 : ∃ (w : Nat),
    w ≠ 32 :=
  ⟨16,
    by decide +kernel⟩

theorem witness_DoorbellsMoveTheirIndices_7 : ∃ (o : Nat),
    o % 64 ≠ 0 ∧
    o % 64 ≠ 4 :=
  ⟨8,
    by decide +kernel⟩

theorem witness_FetchesAndFlushReadsAdvanceTheQueue_0 : ∃ (s : State) (q : BitVec 16),
    let c := s.queue q
    let a := c.sqBase + 64 * (c.nextSeq.toNat % c.depth)
    let b := s.bytesAt a 64
    s.mayFetch q = true ∧
    c.retryWait = false ∧
    sqInHost c = false ∧
    s.anyPoison a 64 = false ∧
    leNat (slice b 2 2) = c.nextSeq.toNat ∧
    (crc32c (slice b 0 60)).toNat = leNat (slice b 60 4) ∧
    headerOutcome q b = none ∧
    c.state = .active :=
  ⟨fill { up with queues := [(0, { queueWith [] with sqTail := 2 })] } 0x10040 nopDesc, 0,
    by decide +kernel⟩

theorem witness_FetchesAndFlushReadsAdvanceTheQueue_1 : ∃ (s : State) (q : BitVec 16) (f : FetchData),
    let c := s.queue q
    let b := toLe 64 f.bytes.toNat
    s.mayFetch q = true ∧
    c.retryWait = false ∧
    sqInHost c = true ∧
    f.poison = false ∧
    s.linePoisoned ((c.sqBase + 64 * (c.nextSeq.toNat % c.depth)) / 64) = false ∧
    leNat (slice b 2 2) = c.nextSeq.toNat ∧
    (crc32c (slice b 0 60)).toNat = leNat (slice b 60 4) ∧
    headerOutcome q b = none ∧
    c.state = .active :=
  ⟨{ up with queues := [(0, { queueWith [] with sqBase := hostBase, sqTail := 2 })] }, 0,
      { bytes := BitVec.ofNat 512 (leNat nopDesc), poison := false },
    by decide +kernel⟩

theorem witness_FetchesAndFlushReadsAdvanceTheQueue_2 : ∃ (s : State) (q : BitVec 16),
    s.mayFetch q = true ∧
    (s.queue q).retryWait = true :=
  ⟨{ up with queues := [(0, { queueWith [] with sqTail := 2, retryWait := true })] }, 0,
    by decide +kernel⟩

theorem witness_FetchesAndFlushReadsAdvanceTheQueue_3 : ∃ (s : State) (q : BitVec 16) (v : BitVec 16) (r :
      List (BitVec 16)),
    (s.queue q).flushReads = v :: r :=
  ⟨{ up with queues := [(0, { queueWith [] with flushReads := [1] })] }, 0, 1, [],
    by decide +kernel⟩

theorem witness_EngineWriteReadsBackAndLeavesOtherBytes_0 : ∃ (s : State) (a : Nat),
    s.mem.wf = true ∧
    s.coh.quiet = true ∧
    (inHostWindow a = false ∨ s.host.attach = .attached) ∧
    s.mayOmit a = false :=
  ⟨up, 0x100,
    by decide +kernel⟩

theorem witness_EngineWriteReadsBackAndLeavesOtherBytes_1 : ∃ (s : State) (a : Nat),
    s.mem.wf = true ∧
    s.coh.quiet = true ∧
    (inHostWindow a = false ∨ s.host.attach = .attached) :=
  ⟨up, 0x100,
    by decide +kernel⟩

theorem witness_EngineWriteReadsBackAndLeavesOtherBytes_2 : ∃ (s : State) (a : Nat),
    inHostWindow a = true ∧
    s.host.attach ≠ .attached :=
  ⟨{ up with host := { up.host with attach := .detached } }, hostBase,
    by decide +kernel⟩

theorem witness_OnlyWholeLineWritesClearPoison_0 : ∃ (s : State) (a : Nat) (bs : List Byte),
    bs ≠ [] ∧
    s.coh.quiet = true ∧
    (inHostWindow a = false ∨ s.host.attach = .attached) :=
  ⟨up, 0x40, List.replicate 64 7,
    by decide +kernel⟩

theorem witness_CopiesAreHandedToTheirShuttle_0 : ∃ (s : State) (d : Desc),
    s.canDispatch d 0x10 = true ∧
    s.copyFieldsOk (s.queue d.queue).die 0x10 d.body = true ∧
    (copyShape 0x10 d.body).rows ≠ 0 ∧
    (copyShape 0x10 d.body).rowBytes ≠ 0 ∧
    s.copyLeased d.queue 0x10 d.body = true :=
  ⟨offer up 0x10 (body [(24, 4096), (32, 8192), (40, 64)]), desc (body [(24, 4096), (32, 8192), (40, 64)]),
    by decide +kernel⟩

theorem witness_CopiesAreHandedToTheirShuttle_1 : ∃ (s : State) (d : Desc),
    s.canDispatch d 0x11 = true ∧
    s.copyFieldsOk (s.queue d.queue).die 0x11 d.body = true ∧
    (copyShape 0x11 d.body).rows ≠ 0 ∧
    (copyShape 0x11 d.body).rowBytes ≠ 0 ∧
    s.copyLeased d.queue 0x11 d.body = true :=
  ⟨offer up 0x11 (body [(20, 64), (24, 4096), (32, 8192), (40, 2), (44, 128), (48, 64)]), desc (body [(20,
      64), (24, 4096), (32, 8192), (40, 2), (44, 128), (48, 64)]),
    by decide +kernel⟩

theorem witness_CopiesAreHandedToTheirShuttle_2 : ∃ (s : State) (d : Desc) (a : Nat),
    s.canDispatch d 0x12 = true ∧
    decodeAddr s (fieldOf d.body 24 8) = .here a ∧
    fieldBits d.body 16 2 0 ≤ 4 ∧
    fieldBits d.body 16 7 3 = 0 ∧
    fieldOf d.body 20 4 ≠ 0 ∧
    fieldOf d.body 20 4 % 256 = 0 ∧
    fieldOf d.body 20 4 ≤ 65536 ∧
    fieldOf d.body 20 4 ≤ fieldOf d.body 40 8 ∧
    fieldOf d.body 32 4 ≤ 65536 ∧
    fieldZero d.body 36 40 = true ∧
    fieldZero d.body 48 60 = true ∧
    fieldOf d.body 32 4 ≠ 0 ∧
    (s.members (s.queue d.queue).die (fieldOf d.body 17 1)).isEmpty = false ∧
    (List.range (fieldOf d.body 32 4)).all (fun i => s.within d.queue (a + i * fieldOf d.body 40 8)
      (fieldOf d.body 20 4)) = true :=
  ⟨offer { up with mcast := [(groupKey 0 3, [1])] } 0x12 (body [(17, 3), (18, 9), (20, 256), (24, 4096),
      (32, 2), (40, 256)]), desc (body [(17, 3), (18, 9), (20, 256), (24, 4096), (32, 2), (40, 256)]),
      0x1000,
    by decide +kernel⟩

theorem witness_TransfersAreAcceptedDeliverAndEnd_0 : ∃ (s : State) (q : BitVec 16) (n : BitVec 16) (x :
      Xfer),
    s.ready = true ∧
    s.xfer q n = some x ∧
    x.accepted = false ∧
    (s.noteHold x).mayAccept x = true ∧
    (isCopy x.opcode && (copyShape x.opcode x.body).toRing) = false ∧
    x.opcode ≠ 0x12 ∧
    x.opcode ≠ 0xB1 :=
  ⟨moving (xferOf 0x10 copyBody), 0, 0, xferOf 0x10 copyBody,
    by decide +kernel⟩

theorem witness_TransfersAreAcceptedDeliverAndEnd_1 : ∃ (s : State) (q : BitVec 16) (n : BitVec 16) (x :
      Xfer),
    let c := copyShape x.opcode x.body
    let t := s.noteHold x
    let g := t.ring x.die c.ring
    let k := g.tail
    let u := ((t.setRing x.die c.ring { setSlot g k .filling with tail := (k + 1) % g.slots }).updXfer q n
      (fun y => { y with accepted := true })).updXfer q n (fun y => { y with slot := some k })
    s.ready = true ∧
    s.xfer q n = some x ∧
    x.accepted = false ∧
    t.mayAccept x = true ∧
    isCopy x.opcode = true ∧
    c.toRing = true ∧
    g.configured = true ∧
    slotAt g k = .empty ∧
    (∀ a, decodeAddr u c.src = .here a → overlaps a (spanOf c.rows c.rowBytes c.srcStr) (slotAddr g k)
      (spanOf c.rows c.rowBytes c.dstStr) = false) :=
  ⟨{ moving (xferOf 0x10 ringBody) with rings := [(5, ringOf [.empty, .empty, .empty])] }, 0, 0, xferOf
      0x10 ringBody,
    by decide +kernel, by decide +kernel, by decide +kernel, by decide +kernel, by decide +kernel, by
      decide +kernel,
    by decide +kernel, by decide +kernel, fun a h => by injection h with h; subst h; decide +kernel⟩

theorem witness_TransfersAreAcceptedDeliverAndEnd_2 : ∃ (s : State) (q : BitVec 16) (n : BitVec 16) (x :
      Xfer) (a : Nat),
    let t := s.noteHold x
    s.ready = true ∧
    s.xfer q n = some x ∧
    x.accepted = false ∧
    t.mayAccept x = true ∧
    x.opcode = 0x12 ∧
    decodeAddr t (fieldOf x.body 24 8) = .here a :=
  ⟨moving (xferOf 0x12 mcastBody), 0, 0, xferOf 0x12 mcastBody, 0x1000,
    by decide +kernel⟩

theorem witness_TransfersAreAcceptedDeliverAndEnd_3 : ∃ (s : State) (q : BitVec 16) (n : BitVec 16) (x :
      Xfer),
    s.ready = true ∧
    s.xfer q n = some x ∧
    x.accepted = false ∧
    (s.noteHold x).mayAccept x = true ∧
    x.opcode = 0xB1 :=
  ⟨moving (xferOf 0xB1 atomBody), 0, 0, xferOf 0xB1 atomBody,
    by decide +kernel⟩

theorem witness_TransfersAreAcceptedDeliverAndEnd_4 : ∃ (s : State) (q : BitVec 16) (n : BitVec 16) (x :
      Xfer),
    s.ready = true ∧
    s.xfer q n = some x ∧
    x.accepted = true ∧
    s.earlierXfers x = [] ∧
    s.xferReady x = true ∧
    s.heldByMove x = false :=
  ⟨moving { xferOf 0x10 copyBody with accepted := true, sent := true }, 0, 0,
      { xferOf 0x10 copyBody with accepted := true, sent := true },
    by decide +kernel⟩

theorem witness_TransfersAreAcceptedDeliverAndEnd_5 : ∃ (s : State) (q : BitVec 16) (n : BitVec 16) (die :
      Nat) (l : Nat) (x : Xfer) (m : McastSend) (p : Pick) (y : Delivery),
    let f := pickFields p.bwd p.body
    let mine := fun (d : Delivery) => d.pending.contains (8 * die + l) && (m.tag + d.index) % 65536 == f.tag
    s.xfer q n = some x ∧
    s.sendOf x = some m ∧
    s.ready = true ∧
    l < 8 ∧
    (s.loom die l).creditPick = some p ∧
    f.group = m.group ∧
    Tab.find (s.loom die l).mcastHome f.group = some m.die ∧
    m.held.find? mine = some y :=
  ⟨{ moving { xferOf 0x12 mcastBody with accepted := true } with mcastSends := [send], looms := [(1,
      { Loom.init with picks := [mcPick], mcastHome := [(3, 0)] })] }, 0, 0, 0, 1,
      { xferOf 0x12 mcastBody with accepted := true }, send, mcPick,
      { index := 0, bytes := [], poison := false, pending := [1] },
    by decide +kernel⟩

theorem witness_RingsGroupsAndLimitsAreSet_0 : ∃ (s : State) (d : Desc),
    let die := (s.queue d.queue).die
    let n := fieldOf d.body 17 1
    let bytes := fieldOf d.body 20 4
    let base := fieldOf d.body 24 6
    s.canDispatch d 0x14 = true ∧
    fieldOf d.body 18 1 = 0 ∧
    fieldOf d.body 19 1 = 0 ∧
    fieldZero d.body 30 60 = true ∧
    3 ≤ n ∧
    n ≤ 16 ∧
    0 < bytes ∧
    bytes ≤ 4194304 ∧
    bytes % 64 = 0 ∧
    base % 64 = 0 ∧
    inDieStore die base (n * bytes) = true ∧
    (s.ring die (fieldOf d.body 16 1)).configured = false :=
  ⟨offer up 0x14 (body [(16, 5), (17, 16), (20, 64), (24, ds)]), desc (body [(16, 5), (17, 16), (20, 64),
      (24, ds)]),
    by decide +kernel⟩

theorem witness_RingsGroupsAndLimitsAreSet_1 : ∃ (s : State) (d : Desc),
    let die := (s.queue d.queue).die
    let g := s.ring die (fieldOf d.body 16 1)
    s.canDispatch d 0x14 = true ∧
    fieldOf d.body 18 1 = 1 ∧
    fieldOf d.body 19 1 = 0 ∧
    fieldZero d.body 30 60 = true ∧
    fieldOf d.body 17 1 = 0 ∧
    fieldOf d.body 20 4 = 0 ∧
    fieldOf d.body 24 6 = 0 ∧
    g.configured = true ∧
    g.slotTab.all (fun x => x == .empty) = true ∧
    g.claims.all Claim.released = true :=
  ⟨offer ({ up with rings := [(5, ringOf [.empty, .empty, .empty])] }) 0x14 (body [(16, 5), (18, 1)]), desc
      (body [(16, 5), (18, 1)]),
    by decide +kernel⟩

theorem witness_RingsGroupsAndLimitsAreSet_2 : ∃ (s : State) (d : Desc),
    let q := BitVec.ofNat 16 (fieldOf d.body 16 2)
    let n := fieldOf d.body 18 2
    s.canDispatch d 0x15 = true ∧
    fieldZero d.body 20 60 = true ∧
    n ≠ 0 ∧
    n ≤ 256 ∧
    (q = d.queue ∨ ((s.queue q).state ≠ .free ∧ (s.queue q).lease = (s.queue d.queue).lease)) :=
  ⟨offer up 0x15 (body [(16, 0), (18, 256)]), desc (body [(16, 0), (18, 256)]),
    by decide +kernel⟩

theorem witness_RingsGroupsAndLimitsAreSet_3 : ∃ (s : State) (d : Desc),
    let die := (s.queue d.queue).die
    let g := fieldOf d.body 16 1
    let ms := memberList d.body
    let old := s.members die g
    let adds := ms.filter (fun m => !old.contains m)
    s.canDispatch d 0x13 = true ∧
    fieldOf d.body 17 1 = 0 ∧
    fieldZero d.body 18 24 = true ∧
    fieldZero d.body 50 60 = true ∧
    ms ≠ [] ∧
    ms.all (fun m => s.dieActive (m / 8)) = true ∧
    adds.all (fun m => (Tab.find (s.loom (m / 8) (m % 8)).mcastHome g).isNone) = true ∧
    s.mcastSends = [] :=
  ⟨offer up 0x13 (body [(16, 3), (24, 2)]), desc (body [(16, 3), (24, 2)]),
    by decide +kernel⟩

theorem witness_RingsGroupsAndLimitsAreSet_4 : ∃ (s : State) (die : Nat) (r : Nat),
    s.ready = true ∧
    r < 256 ∧
    slotAt (s.ring die r) (s.ring die r).head = .draining :=
  ⟨{ up with rings := [(5, ringOf [.draining, .full, .empty])] }, 0, 5,
    by decide +kernel⟩

theorem witness_RingsGroupsAndLimitsAreSet_5 : ∃ (g : Ring),
    g.gone = [] :=
  ⟨ringOf [.full, .empty, .empty],
    by decide +kernel⟩

theorem witness_PickWithoutRowsIsDoneEmpty_0 : ∃ (s : State) (d : Desc) (l : Nat) (bwd : Bool),
    let die := (s.queue d.queue).die
    let f := pickFields bwd d.body
    (if f.any then s.freeLoom die else some f.loom) = some l ∧
    s.canDispatchTo d (if bwd then 0x70 else 0x30) (.loom l) = true ∧
    pickFieldsOk f (s.numCfg d.queue) (s.loom die l).shapeMode = true ∧
    pickRefsOk die f = true ∧
    f.rows = 0 :=
  ⟨offer ({ up with looms := [(0, { Loom.init with shapeMode := true })] }) 0x70 (body [(16, 3), (17, 3),
      (18, 3), (21, 9), (30, 1), (34, ds), (40, ds + 48), (46, ds + 96), (22, 128)]), desc (body [(16, 3),
      (17, 3), (18, 3), (21, 9), (30, 1), (34, ds), (40, ds + 48), (46, ds + 96), (22, 128)]), 0, true,
    by decide +kernel⟩

theorem witness_PicksAreHandedToTheirLoom_0 : ∃ (s : State) (d : Desc) (l : Nat),
    let die := (s.queue d.queue).die
    let f := pickFields false d.body
    let cfg := s.numCfg d.queue
    (if f.any then s.freeLoom die else some f.loom) = some l ∧
    s.canDispatchTo d 0x30 (.loom l) = true ∧
    pickFieldsOk f cfg (s.loom die l).shapeMode = true ∧
    pickRefsOk die f = true ∧
    f.rows ≠ 0 :=
  ⟨offer ({ up with looms := [(7, { Loom.init with shapeMode := true })] }) 0x30 (body [(16, 3), (17, 3),
      (18, 3), (21, 9), (30, 1), (34, ds), (40, ds + 48), (46, ds + 96), (22, 7), (26, 1024)]), desc (body
      [(16, 3), (17, 3), (18, 3), (21, 9), (30, 1), (34, ds), (40, ds + 48), (46, ds + 96), (22, 7), (26,
      1024)]), 7,
    by decide +kernel⟩

theorem witness_PicksAreHandedToTheirLoom_1 : ∃ (s : State) (d : Desc) (l : Nat),
    let die := (s.queue d.queue).die
    let f := pickFields true d.body
    let cfg := s.numCfg d.queue
    (if f.any then s.freeLoom die else some f.loom) = some l ∧
    s.canDispatchTo d 0x70 (.loom l) = true ∧
    pickFieldsOk f cfg (s.loom die l).shapeMode = true ∧
    pickRefsOk die f = true ∧
    f.rows ≠ 0 :=
  ⟨offer ({ up with looms := [(0, { Loom.init with shapeMode := true })] }) 0x70 (body [(16, 3), (17, 3),
      (18, 3), (21, 9), (30, 1), (34, ds), (40, ds + 48), (46, ds + 96), (26, 1)]), desc (body [(16, 3),
      (17, 3), (18, 3), (21, 9), (30, 1), (34, ds), (40, ds + 48), (46, ds + 96), (26, 1)]), 0,
    by decide +kernel⟩

/-- The third pass of the chain. -/
def endBody : BitVec 352 :=
  body [(16, 3), (17, 3), (18, 3), (21, 0xB9), (26, 1), (30, 3), (32, 2), (34, ds), (40, ds + 48), (46, ds + 96)]

def endPick : Pick := newPick 0 0 false endBody (up.numCfg 0)

theorem witness_LoomTakesAndCompletesPicks_0 : ∃ (s : State) (u : State) (die : Nat) (l : Nat) (p : Pick),
    let m := s.loom die l
    s.ready = true ∧
    l < 8 ∧
    (firstOfQueue m.waiting).head? = some p ∧
    (s.setLoom die l
      { m with waiting := m.waiting.filter (fun w => !(w.queue == p.queue && w.seq == p.seq)) }).offerPick
      die l p = some u :=
  ⟨{ pickState with looms := [(0, { Loom.init with shapeMode := true, waiting := [onePick] })] }, _, 0, 0,
      onePick,
    by decide +kernel, by decide +kernel, by decide +kernel, offered_some _ (by decide +kernel)⟩

theorem witness_LoomTakesAndCompletesPicks_1 : ∃ (s : State) (die : Nat) (l : Nat) (p : Pick) (r : List
      Pick),
    let run := s.runPick die l p
    s.ready = true ∧
    l < 8 ∧
    (s.loom die l).picks = p :: r ∧
    pickSupplied p = true ∧
    decidedOutcm (s.loom die l) p = none ∧
    run.out.1 = stDone :=
  ⟨fill { busy up 0x30 contBody (.loom 0) with looms := [(0, contLoom)] } ds (recOf (ds + 0x1000) (ds +
      0x2000) 1 96 ++ recOf (ds + 0x3000) (ds + 0x5000) 96 64), 0, 0, contPick, [],
    by decide +kernel⟩

theorem witness_LoomTakesAndCompletesPicks_2 : ∃ (s : State) (die : Nat) (l : Nat) (p : Pick) (r : List
      Pick) (o : Outcm),
    let m := s.loom die l
    let f := pickFields p.bwd p.body
    s.ready = true ∧
    l < 8 ∧
    m.picks = p :: r ∧
    f.chain = 3 ∧
    p.ends = none ∧
    m.chain.bind (fun c => c.failed) = some o ∧
    o.1 = stNarOut :=
  ⟨{ busy up 0x30 endBody (.loom 0) with looms := [(0,
      { contLoom with picks := [endPick], chain := contLoom.chain.map (fun c =>
      { c with failed := some (stNarOut, 0, 0) }) })] }, 0, 0, endPick, [], (stNarOut, 0, 0),
    by decide +kernel⟩

theorem witness_ChainsAreDroppedAndModesAreSet_0 : ∃ (s : State) (d : Desc),
    s.canDispatch d 0x31 = true ∧
    fieldBits d.body 16 7 3 = 0 ∧
    fieldZero d.body 17 60 = true ∧
    s.earlierDone d = true :=
  ⟨offer up 0x31 (body [(16, 7)]), desc (body [(16, 7)]),
    by decide +kernel⟩

theorem witness_ChainsAreDroppedAndModesAreSet_1 : ∃ (s : State) (d : Desc),
    let die := (s.queue d.queue).die
    let sel := bitList 8 (fieldOf d.body 16 1)
    let mode := fieldOf d.body 17 1
    s.canDispatch d 0x32 = true ∧
    mode < 2 ∧
    fieldZero d.body 18 60 = true ∧
    fieldOf d.body 16 1 ≠ 0 ∧
    s.earlierDone d = true ∧
    sel.all (fun l => (s.loom die l).chain.isNone) = true ∧
    sel.all (fun l => (s.loom die l).picks.isEmpty) = true :=
  ⟨offer up 0x32 (body [(16, 255), (17, 1)]), desc (body [(16, 255), (17, 1)]),
    by decide +kernel⟩

theorem witness_VectorInstructionsEnterAndComplete_0 : ∃ (o : VecOp) (s : State) (d : Desc) (e : Nat),
    let f := vecFields d.body
    let die := (s.queue d.queue).die
    let cfg := s.numCfg d.queue
    (if f.any then s.freeVec die else some f.engine) = some e ∧
    s.canDispatchTo d o.opcode (.vec e) = true ∧
    vecFieldsOk o f cfg = true ∧
    vecRefsOk die o f = true ∧
    f.rows ≠ 0 ∧
    f.cols ≠ 0 ∧
    s.vecRecords die e d.queue o f = none ∧
    (s.vec die e).length < 4 :=
  ⟨.ew2, vecMem (offer up 0x40 (vecBody .ew2 1 1)), desc (vecBody .ew2 1 1), 3,
    by decide +kernel⟩

theorem witness_VectorInstructionsEnterAndComplete_1 : ∃ (o : VecOp) (s : State) (d : Desc) (e : Nat),
    let f := vecFields d.body
    let die := (s.queue d.queue).die
    let cfg := s.numCfg d.queue
    (if f.any then s.freeVec die else some f.engine) = some e ∧
    s.canDispatchTo d o.opcode (.vec e) = true ∧
    vecFieldsOk o f cfg = true ∧
    vecRefsOk die o f = true ∧
    (f.rows = 0 ∨ f.cols = 0) :=
  ⟨.gather, offer up 0x48 (vecBody .gather 0 1), desc (vecBody .gather 0 1), 3,
    by decide +kernel⟩

theorem witness_VectorInstructionsEnterAndComplete_2 : ∃ (s : State) (die : Nat) (e : Nat) (j : VecJob)
      (r : List VecJob),
    s.ready = true ∧
    e < 16 ∧
    s.vec die e = j :: r ∧
    j.need = 0 ∧
    (s.runVec die e j).2.1 = stDone :=
  ⟨vecMem { busy up 0x45 (vecBody .requant 1 1) (.vec 3) with vecs := [(3, [vecJob])] }, 0, 3, vecJob, [],
    by decide +kernel⟩

/-- Each of the nine vector commands has a descriptor that the first clause accepts. -/
theorem witness_each_vector_command (o : VecOp) :
    let s := vecMem (offer up o.opcode (vecBody o 1 1))
    let d := desc (vecBody o 1 1)
    let f := vecFields d.body
    let cfg := s.numCfg d.queue
    (if f.any then s.freeVec 0 else some f.engine) = some 3 ∧ s.canDispatchTo d o.opcode (.vec 3) = true ∧
      vecFieldsOk o f cfg = true ∧ vecRefsOk 0 o f = true ∧ f.rows ≠ 0 ∧ f.cols ≠ 0 ∧
      s.vecRecords 0 3 d.queue o f = none ∧ (s.vec 0 3).length < 4 := by
  cases o <;> decide +kernel

theorem witness_SequenceProgramsLoadRunAndEnd_0 : ∃ (s : State) (d : Desc),
    let die := (s.queue d.queue).die
    let core := fieldOf d.body 17 1
    let len := fieldOf d.body 20 4
    let src := fieldOf d.body 24 6
    s.canDispatch d 0x58 = true ∧
    fieldOf d.body 16 1 = 0 ∧
    fieldZero d.body 18 20 = true ∧
    fieldZero d.body 30 60 = true ∧
    s.seqCoreOk die core = true ∧
    (s.core die core).running = false ∧
    len ≤ 65536 ∧
    len % 4 = 0 ∧
    s.seqEnabled = true ∧
    len ≠ 0 ∧
    s.within d.queue src len = true ∧
    (s.handOver d .seqCores).anyPoison src len = false :=
  ⟨offer up 0x58 (body [(17, 4), (20, 65536), (24, 0)]), desc (body [(17, 4), (20, 65536), (24, 0)]),
    by decide +kernel⟩

theorem witness_SequenceProgramsLoadRunAndEnd_1 : ∃ (s : State) (d : Desc),
    let die := (s.queue d.queue).die
    let core := fieldOf d.body 17 1
    let base := fieldOf d.body 18 2
    let count := fieldOf d.body 20 2
    s.canDispatch d 0x59 = true ∧
    fieldOf d.body 16 1 = 0 ∧
    fieldZero d.body 22 32 = true ∧
    fieldZero d.body 48 60 = true ∧
    s.seqCoreOk die core = true ∧
    (s.core die core).running = false ∧
    count ≠ 0 ∧
    count ≤ 256 ∧
    s.seqEnabled = true ∧
    (List.range count).all (fun i => decide (base + i < 65536) && ((s.queue (BitVec.ofNat 16 (base +
      i))).state != .free && (s.queue (BitVec.ofNat 16 (base + i))).die == die)) = true :=
  ⟨offer up 0x59 (body [(17, 63), (18, 0), (20, 1)]), desc (body [(17, 63), (18, 0), (20, 1)]),
    by decide +kernel⟩

theorem witness_SequenceProgramsLoadRunAndEnd_2 : ∃ (s : State) (d : Desc),
    let die := (s.queue d.queue).die
    let core := fieldOf d.body 17 1
    s.canDispatch d 0x5A = true ∧
    fieldOf d.body 16 1 = 0 ∧
    fieldZero d.body 18 60 = true ∧
    s.seqCoreOk die core = true :=
  ⟨offer up 0x5A (body [(17, 5)]), desc (body [(17, 5)]),
    by decide +kernel⟩

theorem witness_SequenceProgramsLoadRunAndEnd_3 : ∃ (s : State) (die : Nat) (core : Nat),
    s.seqRuns die core = true :=
  ⟨progState, 0, 5,
    by decide +kernel⟩

theorem witness_SequenceProgramsLoadRunAndEnd_4 : ∃ (s : State) (die : Nat) (core : Nat),
    s.seqRuns die core = true :=
  ⟨progState, 0, 5,
    by decide +kernel⟩

theorem witness_TensorIssueInstructions_0 : ∃ (s : State) (die : Nat) (core : Nat) (a : BitVec 64) (q :
      BitVec 16),
    let c := s.core die core
    let x := s.queue q
    let n := x.sqTail
    s.seqRuns die core = true ∧
    a.toNat % 64 = 0 ∧
    c.inRange q.toNat = true ∧
    x.state = .active ∧
    sqInHost x = false ∧
    seqAhead x.cqHead x.sqTail < x.depth ∧
    s.objWrite (x.sqBase + 64 * (n.toNat % x.depth)) = .free ∧
    s.leaseCovers (s.coreLease die core) a.toNat 64 = true ∧
    inDieStore die a.toNat 64 = true ∧
    s.anyPoison a.toNat 64 = false :=
  ⟨progState, 0, 5, BitVec.ofNat 64 ds, 0,
    by decide +kernel⟩

theorem witness_TensorIssueInstructions_1 : ∃ (s : State) (die : Nat) (core : Nat) (t : BitVec 64),
    s.seqRuns die core = true ∧
    s.recordWritten (ticketQueue t) (ticketSeq t) = true :=
  ⟨{ progState with queues := [(0, { queueWith [] with cqWritten := 1 })] }, 0, 5, 0,
    by decide +kernel⟩

theorem witness_TensorIssueInstructions_2 : ∃ (s : State) (die : Nat) (core : Nat) (t : BitVec 64),
    s.seqRuns die core = true ∧
    s.recordWritten (ticketQueue t) (ticketSeq t) = false :=
  ⟨progState, 0, 5, 0,
    by decide +kernel⟩

theorem witness_TensorIssueInstructions_3 : ∃ (s : State) (die : Nat) (core : Nat),
    s.seqRuns die core = true :=
  ⟨progState, 0, 5,
    by decide +kernel⟩

theorem witness_TensorIssueInstructions_4 : ∃ (s : State) (die : Nat) (core : Nat),
    s.seqRuns die core = true ∧
    (s.core die core).tickets.all (fun t => s.recordWritten t.1 t.2) = true :=
  ⟨progState, 0, 5,
    by decide +kernel⟩

theorem witness_ConvolutionsRunOnTheReed_0 : ∃ (s : State) (d : Desc) (ox : Opf) (ow : Opf) (oy : Opf),
    let die := (s.queue d.queue).die
    let cfg := s.numCfg d.queue
    let f := reedF d.body
    let g := s.readGeom f.geom
    s.canDispatch d 0x60 = true ∧
    firstFail (reedFieldChecks die f cfg) = none ∧
    decodeOpf f.opfX = some ox ∧
    decodeOpf f.opfW = some ow ∧
    decodeOpf f.opfY = some oy ∧
    s.anyPoison f.geom 96 = false ∧
    firstFail (s.reedRefChecks die f g ++ geomChecks die f g ox ow oy) = none ∧
    g.empty = true :=
  ⟨convState 0 0, desc (convBody 0), sk16Row, sk16Row, sk16Row,
    by decide +kernel⟩

theorem witness_ConvolutionsRunOnTheReed_1 : ∃ (s : State) (d : Desc) (ox : Opf) (ow : Opf) (oy : Opf),
    let die := (s.queue d.queue).die
    let cfg := s.numCfg d.queue
    let f := reedF d.body
    let g := s.readGeom f.geom
    s.canDispatch d 0x60 = true ∧
    firstFail (reedFieldChecks die f cfg) = none ∧
    decodeOpf f.opfX = some ox ∧
    decodeOpf f.opfW = some ow ∧
    decodeOpf f.opfY = some oy ∧
    s.anyPoison f.geom 96 = false ∧
    firstFail (s.reedRefChecks die f g ++ geomChecks die f g ox ow oy) = none ∧
    g.empty = false ∧
    s.within d.queue f.geom 96 = true ∧
    (f.bias = true → s.within d.queue f.biasRef 48 = true ∧ s.anyPoison f.biasRef 48 = false) :=
  ⟨convState 1 4, desc (convBody 4), sk16Row, sk16Row, sk16Row,
    by decide +kernel⟩

theorem witness_AttentionBackwardRunsOnItsDie_0 : ∃ (s : State) (d : Desc) (oi : Opf) (os : Opf) (oo : Opf),
    let die := (s.queue d.queue).die
    let f := attnF d.body
    let r := s.readAttn f.ref
    let q := s.readRec r.q
    let k := s.readRec r.k
    s.canDispatch d 0x71 = true ∧
    decodeOpf f.opfIn = some oi ∧
    decodeOpf f.opfStat = some os ∧
    decodeOpf f.opfOut = some oo ∧
    attnFieldsOk f (s.numCfg d.queue) = true ∧
    f.ref % 16 = 0 ∧
    inDieStore die f.ref 96 = true ∧
    s.anyPoison f.ref 96 = false ∧
    r.rsvd = true ∧
    r.refs.all (recAddrOk die) = true ∧
    r.curve % 16 = 0 ∧
    inDieStore die r.curve 16 = true ∧
    s.attnShapes die r oi os oo = true ∧
    s.anyPoison r.q 48 = false ∧
    s.anyPoison r.k 48 = false ∧
    (q.rows = 0 ∨ k.rows = 0) :=
  ⟨attnMem 0, desc (body [(16, 3), (17, 3), (18, 0x83), (23, 1), (26, 64), (28, 64), (38, ds)]), sk16Row,
      sk16Row, { fmt := .acc64, dir := .row, size := 32 },
    by decide +kernel⟩

theorem witness_AttentionBackwardRunsOnItsDie_1 : ∃ (s : State) (d : Desc) (oi : Opf) (os : Opf) (oo : Opf),
    let die := (s.queue d.queue).die
    let f := attnF d.body
    let r := s.readAttn f.ref
    let q := s.readRec r.q
    let k := s.readRec r.k
    s.canDispatch d 0x71 = true ∧
    decodeOpf f.opfIn = some oi ∧
    decodeOpf f.opfStat = some os ∧
    decodeOpf f.opfOut = some oo ∧
    attnFieldsOk f (s.numCfg d.queue) = true ∧
    f.ref % 16 = 0 ∧
    inDieStore die f.ref 96 = true ∧
    s.anyPoison f.ref 96 = false ∧
    r.rsvd = true ∧
    r.refs.all (recAddrOk die) = true ∧
    r.curve % 16 = 0 ∧
    inDieStore die r.curve 16 = true ∧
    s.attnShapes die r oi os oo = true ∧
    s.anyPoison r.q 48 = false ∧
    s.anyPoison r.k 48 = false ∧
    q.rows ≠ 0 ∧
    k.rows ≠ 0 ∧
    r.refs.any (fun a => s.anyPoison a 48) = false ∧
    s.anyPoison r.curve 16 = false ∧
    s.within d.queue f.ref 96 = true ∧
    [r.dq, r.dk, r.dv].all (fun a => s.imageLeased d.queue a oo) = true :=
  ⟨attnMem 1, desc (body [(16, 3), (17, 3), (18, 0x83), (23, 1), (26, 64), (28, 64), (38, ds)]), sk16Row,
      sk16Row, { fmt := .acc64, dir := .row, size := 32 },
    by decide +kernel⟩

theorem witness_StashPutsGetsAndDrops_0 : ∃ (s : State) (d : Desc) (t : Bool),
    let l := (s.queue d.queue).lease
    let n := fieldOf d.body 32 8
    s.canDispatch d 0x72 = true ∧
    fieldBits d.body 21 7 1 = 0 ∧
    fieldZero d.body 22 24 = true ∧
    fieldZero d.body 30 32 = true ∧
    fieldZero d.body 40 60 = true ∧
    s.putWaits d.queue d.seq = false ∧
    s.keyBusy d.queue d.body = false ∧
    (s.stashOf l).at (keyOf d.body) = none ∧
    n ≠ 0 ∧
    s.within d.queue (fieldOf d.body 24 6) n = true ∧
    s.restoring = false ∧
    (s.stashOf l).latch = none ∧
    stashPlace (s.lease l) (s.stashOf l).entries n = some t :=
  ⟨offer up 0x72 (body [(16, 1), (18, 2), (20, 3), (24, 0x1000), (32, 64)]), desc (body [(16, 1), (18, 2),
      (20, 3), (24, 0x1000), (32, 64)]), false,
    by decide +kernel⟩

theorem witness_StashPutsGetsAndDrops_1 : ∃ (s : State) (d : Desc),
    let l := (s.queue d.queue).lease
    let n := fieldOf d.body 32 8
    let e := ((s.stashOf l).at (keyOf d.body)).filter (fun e => e.live && !e.dying)
    s.canDispatch d 0x73 = true ∧
    fieldBits d.body 21 7 1 = 0 ∧
    fieldZero d.body 22 24 = true ∧
    fieldZero d.body 30 32 = true ∧
    fieldZero d.body 40 60 = true ∧
    s.keyBusy d.queue d.body = false ∧
    n ≠ 0 ∧
    s.within d.queue (fieldOf d.body 24 6) n = true ∧
    e = none :=
  ⟨offer up 0x73 (body [(16, 1), (18, 2), (20, 3), (24, 0x1000), (32, 64)]), desc (body [(16, 1), (18, 2),
      (20, 3), (24, 0x1000), (32, 64)]),
    by decide +kernel⟩

theorem witness_StashPutsGetsAndDrops_2 : ∃ (s : State) (d : Desc) (x : _),
    let l := (s.queue d.queue).lease
    let n := fieldOf d.body 32 8
    let e := ((s.stashOf l).at (keyOf d.body)).filter (fun e => e.live && !e.dying)
    s.canDispatch d 0x73 = true ∧
    fieldBits d.body 21 7 1 = 0 ∧
    fieldZero d.body 22 24 = true ∧
    fieldZero d.body 30 32 = true ∧
    fieldZero d.body 40 60 = true ∧
    s.keyBusy d.queue d.body = false ∧
    n ≠ 0 ∧
    s.within d.queue (fieldOf d.body 24 6) n = true ∧
    e = some x ∧
    x.length = n :=
  ⟨offer (withStash up [stashed]) 0x73 (body [(16, 1), (18, 2), (20, 3), (24, 0x1000), (32, 64)]), desc
      (body [(16, 1), (18, 2), (20, 3), (24, 0x1000), (32, 64)]), stashed,
    by decide +kernel⟩

theorem witness_StashPutsGetsAndDrops_3 : ∃ (s : State) (d : Desc),
    let l := (s.queue d.queue).lease
    let x := s.stashOf l
    let t := s.setStash l (Stash.sweep
      { x with entries := x.entries.map (fun e => if dropMatches d.body e then { e with dying := true }
      else e) })
    s.canDispatch d 0x74 = true ∧
    fieldZero d.body 21 60 = true ∧
    (t.stashOf l).entries.any (fun e => dropMatches d.body e) = false :=
  ⟨offer (withStash up [stashed]) 0x74 (body [(16, 1), (18, 0xFFFF), (20, 0xFF)]), desc (body [(16, 1),
      (18, 0xFFFF), (20, 0xFF)]),
    by decide +kernel⟩

theorem witness_StashPutsGetsAndDrops_4 : ∃ (s : State),
    s.ready = true :=
  ⟨up,
    by decide +kernel⟩

theorem witness_StashPutsGetsAndDrops_5 : ∃ (s : State) (q : BitVec 16) (n : BitVec 16),
    s.ready = true ∧
    s.putWaits q n = true :=
  ⟨{ offer up 0x72 0 with stash := [(1,
      { Stash.init with waits := [{ queue := 0, seq := 0, body := 0, step := 0 }] })] }, 0, 0,
    by decide +kernel⟩

theorem witness_TreadleBindsGrantsAndWaits_0 : ∃ (s : State) (d : Desc),
    let q := fieldOf d.body 16 2
    let ctl := fieldOf d.body 18 1
    let c := s.queue (BitVec.ofNat 16 q)
    s.canDispatch d 0x75 = true ∧
    bitsOf ctl 6 1 = 0 ∧
    fieldZero d.body 19 60 = true ∧
    c.state ≠ .free ∧
    c.die = (s.queue d.queue).die ∧
    bitOf ctl 7 = true :=
  ⟨offer up 0x75 (body [(18, 0x80)]), desc (body [(18, 0x80)]),
    by decide +kernel⟩

theorem witness_TreadleBindsGrantsAndWaits_1 : ∃ (s : State) (d : Desc),
    let q := fieldOf d.body 16 2
    let ctl := fieldOf d.body 18 1
    let c := s.queue (BitVec.ofNat 16 q)
    s.canDispatch d 0x75 = true ∧
    bitsOf ctl 6 1 = 0 ∧
    fieldZero d.body 19 60 = true ∧
    c.state ≠ .free ∧
    c.die = (s.queue d.queue).die ∧
    bitOf ctl 7 = false ∧
    ((Tab.find s.treadle q).isSome = true ∨ (s.boundQueues (s.queue d.queue).die).length < 16) :=
  ⟨offer up 0x75 (body [(18, 1)]), desc (body [(18, 1)]),
    by decide +kernel⟩

theorem witness_TreadleBindsGrantsAndWaits_2 : ∃ (s : State) (die : Nat),
    s.ready = true ∧
    s.tensorDie die = true :=
  ⟨up, 23,
    by decide +kernel⟩

theorem witness_TreadleBindsGrantsAndWaits_3 : ∃ (s : State) (d : Desc),
    s.canDispatch d 0x76 = true ∧
    waitFieldsOk s d.body = true ∧
    waitMet s d.body = true :=
  ⟨offer up 0x76 (body [(18, 4095)]), desc (body [(18, 4095)]),
    by decide +kernel⟩

theorem witness_TreadleBindsGrantsAndWaits_4 : ∃ (s : State) (d : Desc),
    s.canDispatch d 0x76 = true ∧
    waitFieldsOk s d.body = true ∧
    waitMet s d.body = false :=
  ⟨offer up 0x76 (body [(18, 4095), (20, 1)]), desc (body [(18, 4095), (20, 1)]),
    by decide +kernel⟩

theorem witness_TreadleBindsGrantsAndWaits_5 : ∃ (n : Nat),
    n < 2 ^ 32 :=
  ⟨2 ^ 32 - 1,
    by decide +kernel⟩

theorem witness_SignalsMoveTheirToken_1 : ∃ (s : State) (d : Desc),
    s.canDispatch d 0x77 = true ∧
    signalFieldsOk s d.body = true ∧
    s.earlierDone d = true :=
  ⟨offer up 0x77 (body [(16, 23), (17, 0), (18, 4095), (20, 0xFFFFFFFF)]), desc (body [(16, 23), (17, 0),
      (18, 4095), (20, 0xFFFFFFFF)]),
    by decide +kernel⟩

theorem witness_SignalsMoveTheirToken_2 : ∃ (s : State) (d : Desc),
    s.canDispatch d 0x77 = true ∧
    signalFieldsOk s d.body = true ∧
    s.earlierDone d = false :=
  ⟨behindFlush, { desc 0 with seq := 1 },
    by decide +kernel⟩

theorem witness_MicrobatchesAreAdmittedAndRetired_0 : ∃ (s : State) (d : Desc) (g : Seg) (n : Nat) (k :
      Nat),
    s.canDispatch d 0x78 = true ∧
    s.admitCase d.queue d.body = .admits g n k ∧
    s.admitFits g = true :=
  ⟨granted up 0x78 (body [(16, 7), (20, 256), (24, 1)]), desc (body [(16, 7), (20, 256), (24, 1)]),
      { die := 0, mb := 7, segment := 0, tokens := 256 }, 1, 1682592,
    by decide +kernel⟩

theorem witness_MicrobatchesAreAdmittedAndRetired_1 : ∃ (s : State) (d : Desc),
    let hit := fun (g : Seg) => g.die == (s.queue d.queue).die && g.mb == fieldOf d.body 16 4 && g.segment
      == fieldOf d.body 28 2
    s.canDispatch d 0x79 = true ∧
    fieldZero d.body 20 28 = true ∧
    fieldZero d.body 30 60 = true ∧
    s.segs.any hit = true :=
  ⟨offer { up with segs := [{ die := 0, mb := 7, segment := 0, tokens := 256 }] } 0x79 (body [(16, 7)]),
      desc (body [(16, 7)]),
    by decide +kernel⟩

theorem witness_UpdatesRunOnceTheirOutcomeIsHeld_0 : ∃ (s : State) (d : Desc) (o : Outcome),
    s.canDispatch d 0x80 = true ∧
    s.updChecks d.queue false d.body = none ∧
    s.updLoad (s.queue d.queue).die < 2 ∧
    s.outcomeOf (updF d.body).step = some o :=
  ⟨updState 0x80 statBody 2 true, desc statBody, outcome5,
    by decide +kernel⟩

theorem witness_UpdatesRunOnceTheirOutcomeIsHeld_1 : ∃ (s : State) (d : Desc) (o : Outcome),
    s.canDispatch d 0x81 = true ∧
    s.updChecks d.queue true d.body = none ∧
    s.updLoad (s.queue d.queue).die < 2 ∧
    s.outcomeOf (updF d.body).step = some o :=
  ⟨updState 0x81 applyBody 0 true, desc applyBody, outcome5,
    by decide +kernel⟩

theorem witness_UpdatesRunOnceTheirOutcomeIsHeld_2 : ∃ (s : State) (d : Desc),
    s.canDispatch d 0x81 = true ∧
    s.updChecks d.queue true d.body = none ∧
    s.outcomeOf (updF d.body).step = none ∧
    s.outcomeGone (updF d.body).step = false ∧
    s.updLoad (s.queue d.queue).die < 2 :=
  ⟨updState 0x81 applyBody 0 false, desc applyBody,
    by decide +kernel⟩

theorem witness_UpdatesRunOnceTheirOutcomeIsHeld_3 : ∃ (s : State) (q : BitVec 16) (n : BitVec 16) (w :
      OutcomeWait) (o : Outcome),
    s.ready = true ∧
    s.outcomeWaits.find? (fun w => w.queue == q && w.seq == n) = some w ∧
    w.opcode ≠ 0x94 ∧
    s.outcomeOf (updF w.body).step = some o :=
  ⟨{ updState 0x81 applyBody 0 true with outcomeWaits := [waitApply] }, 0, 0, waitApply, outcome5,
    by decide +kernel⟩

theorem witness_TempleContextsOpenAttachAndClose_0 : ∃ (s : State) (d : Desc),
    let k := fieldOf d.body 16 1
    let n := fieldOf d.body 20 4
    s.canDispatch d 0x90 = true ∧
    fieldOf d.body 18 2 = 0 ∧
    fieldZero d.body 44 60 = true ∧
    k ≤ 63 ∧
    (s.ctx k).state = .closed ∧
    fieldOf d.body 17 1 = 1 ∧
    n = 0 ∧
    fieldOf d.body 24 8 = 0 ∧
    fieldOf d.body 32 6 = 0 ∧
    fieldOf d.body 38 6 = 0 :=
  ⟨offer up 0x90 (body [(16, 63), (17, 1)]), desc (body [(16, 63), (17, 1)]),
    by decide +kernel⟩

theorem witness_TempleContextsOpenAttachAndClose_1 : ∃ (s : State) (d : Desc),
    let k := fieldOf d.body 16 1
    let n := fieldOf d.body 20 4
    s.canDispatch d 0x90 = true ∧
    fieldOf d.body 18 2 = 0 ∧
    fieldZero d.body 44 60 = true ∧
    k ≤ 63 ∧
    (s.ctx k).state = .closed ∧
    fieldOf d.body 17 1 = 0 ∧
    n ≠ 0 ∧
    n ≤ 65536 ∧
    fieldOf d.body 38 6 % 16 = 0 ∧
    s.within d.queue (fieldOf d.body 32 6) (256 * n) = true ∧
    (fieldOf d.body 38 6 = 0 ∨ s.within d.queue (fieldOf d.body 38 6) (histBytes n) = true) :=
  ⟨offer up 0x90 (body [(16, 63), (20, 1), (24, 5), (32, 0x50000)]), desc (body [(16, 63), (20, 1), (24,
      5), (32, 0x50000)]),
    by decide +kernel⟩

theorem witness_TempleContextsOpenAttachAndClose_2 : ∃ (s : State) (d : Desc),
    let k := fieldOf d.body 16 1
    let ctl := fieldOf d.body 17 1
    let q := fieldOf d.body 18 2
    s.canDispatch d 0x91 = true ∧
    k ≤ 63 ∧
    bitsOf ctl 6 0 = 0 ∧
    fieldZero d.body 20 60 = true ∧
    (s.ctx k).state ≠ .closed ∧
    bitOf ctl 7 = false ∧
    (Tab.find s.attached q = none ∨ Tab.find s.attached q = some k) :=
  ⟨templeState (offer up 0x91 (body [(16, 63), (18, 9)])) .opened, desc (body [(16, 63), (18, 9)]),
    by decide +kernel⟩

theorem witness_TempleContextsOpenAttachAndClose_3 : ∃ (s : State) (d : Desc),
    let k := fieldOf d.body 16 1
    let ctl := fieldOf d.body 17 1
    let q := fieldOf d.body 18 2
    s.canDispatch d 0x91 = true ∧
    k ≤ 63 ∧
    bitsOf ctl 6 0 = 0 ∧
    fieldZero d.body 20 60 = true ∧
    (s.ctx k).state ≠ .closed ∧
    bitOf ctl 7 = true ∧
    Tab.find s.attached q = some k :=
  ⟨{ templeState (offer up 0x91 (body [(16, 63), (17, 0x80), (18, 9)])) .opened with attached := [(9, 63)]
      }, desc (body [(16, 63), (17, 0x80), (18, 9)]),
    by decide +kernel⟩

theorem witness_TempleContextsOpenAttachAndClose_4 : ∃ (s : State) (d : Desc),
    let k := fieldOf d.body 16 1
    s.canDispatch d 0x95 = true ∧
    k ≤ 63 ∧
    fieldZero d.body 17 60 = true ∧
    (s.ctx k).state ≠ .closed ∧
    s.outcomeWaits.any (fun w => w.decides k) = false :=
  ⟨templeState (offer up 0x95 (body [(16, 63)])) .sealed, desc (body [(16, 63)]),
    by decide +kernel⟩

theorem witness_TempleContextsOpenAttachAndClose_5 : ∃ (s : State) (v : Byte),
    s.power.draftUp = true ∧
    v.toNat ≤ 63 :=
  ⟨up, 63,
    by decide +kernel⟩

theorem witness_TempleStepsAreTalliedSealedAndDecided_0 : ∃ (s : State) (d : Desc) (o : Opf),
    let k := fieldOf d.body 16 1
    let l := fieldOf d.body 20 4
    let a := fieldOf d.body 32 6
    let c := s.ctx k
    let r := s.readRec a
    s.canDispatch d 0x92 = true ∧
    decodeOpf (fieldOf d.body 17 1) = some o ∧
    k ≤ 63 ∧
    fieldZero d.body 18 20 = true ∧
    fieldZero d.body 38 60 = true ∧
    c.perch = false ∧
    c.state = .opened ∧
    o.fmt = .acc64 ∧
    l < c.formats.length ∧
    fieldOf d.body 24 8 = c.step ∧
    a % 16 = 0 ∧
    s.anyPoison a 48 = false ∧
    r.rsvd = true ∧
    r.source = 0 ∧
    r.rows ≠ 0 ∧
    r.cols ≠ 0 ∧
    s.objWrite c.tallyBase = .free ∧
    s.updLoad (s.queue d.queue).die < 2 ∧
    s.within d.queue a 48 = true ∧
    s.within d.queue c.tallyBase (256 * c.formats.length) = true ∧
    s.within d.queue r.mant (r.mantExtent o.fmt) = true ∧
    s.within d.queue r.scale (r.scaleExtent o) = true :=
  ⟨fill (templeState (offer up 0x92 (body [(16, 63), (17, 0x83), (24, 5), (32, 0x60000)])) .opened) 0x60000
      (recOf 0x61000 0x62000 1 1), desc (body [(16, 63), (17, 0x83), (24, 5), (32, 0x60000)]),
      { fmt := .acc64, dir := .row, size := 32 },
    by decide +kernel⟩

theorem witness_TempleStepsAreTalliedSealedAndDecided_1 : ∃ (s : State) (d : Desc),
    let k := fieldOf d.body 16 1
    let c := s.ctx k
    s.canDispatch d 0x93 = true ∧
    s.seals.find? (fun w => w.queue == d.queue && w.seq == d.seq) = none ∧
    k ≤ 63 ∧
    fieldZero d.body 17 24 = true ∧
    fieldZero d.body 32 60 = true ∧
    c.perch = false ∧
    c.state = .opened ∧
    fieldOf d.body 24 8 = c.step ∧
    s.watchedOpen k c.step = [] ∧
    s.seals = [] :=
  ⟨templeState (offer up 0x93 (body [(16, 63), (24, 5)])) .opened, desc (body [(16, 63), (24, 5)]),
    by decide +kernel⟩

theorem witness_TempleStepsAreTalliedSealedAndDecided_2 : ∃ (s : State) (d : Desc) (o : Outcome),
    let k := fieldOf d.body 16 1
    let c := s.ctx k
    let n := c.formats.length
    let tally := fieldOf d.body 32 6
    s.canDispatch d 0x94 = true ∧
    k ≤ 63 ∧
    fieldZero d.body 17 24 = true ∧
    fieldZero d.body 44 60 = true ∧
    c.perch = false ∧
    c.state = .sealed ∧
    fieldOf d.body 24 8 = c.step ∧
    fieldOf d.body 38 6 % 16 = 0 ∧
    (tally = 0 ∨ s.within d.queue tally (256 * n) = true) ∧
    s.within d.queue (fieldOf d.body 38 6) (histBytes n) = true ∧
    s.within d.queue c.tallyBase (256 * n) = true ∧
    s.decideHeld d.body = false ∧
    s.outcomeOf (fieldOf d.body 24 8) = some o :=
  ⟨templeState { offer up 0x94 (body [(16, 63), (24, 5), (38, 0x70000)]) with
      peruo := { Peruo.init with outcomes := [(5, outcome5)] } } .sealed, desc (body [(16, 63), (24, 5),
      (38, 0x70000)]), outcome5,
    by decide +kernel⟩

theorem witness_TempleStepsAreTalliedSealedAndDecided_3 : ∃ (s : State) (q : BitVec 16) (n : BitVec 16)
      (w : OutcomeWait) (o : Outcome),
    s.ready = true ∧
    s.outcomeWaits.find? (fun w => w.queue == q && w.seq == n) = some w ∧
    w.opcode = 0x94 ∧
    s.outcomeOf (fieldOf w.body 24 8) = some o ∧
    s.decideHeld w.body = false :=
  ⟨templeState { busy up 0x94 (body [(16, 63), (24, 5), (38, 0x70000)]) .dispatch with
      outcomeWaits := [{ waitApply with opcode := 0x94, body := body [(16, 63), (24, 5), (38, 0x70000)] }],
      peruo := { Peruo.init with outcomes := [(5, outcome5)] } } .sealed, 0, 0,
      { waitApply with opcode := 0x94, body := body [(16, 63), (24, 5), (38, 0x70000)] }, outcome5,
    by decide +kernel⟩

/-- A tier 2 line that agent 3 waits for. -/
def waitingFill : Fill :=
  { agent := 3, line := 2 ^ 34, data := none, grant := none
    req := { kind := .rdS, agent := 3, line := 2 ^ 34, mask := 0, bytes := [], offset := 0, op := none, fetch := false } }

theorem witness_TierObjectsAndTheirMoves_0 : ∃ (s : State) (d : Desc) (n : Nat),
    let j := fieldOf d.body 16 2
    let kind := fieldOf d.body 18 1
    let x := (s.queue d.queue).lease
    s.canDispatch d 0xA0 = true ∧
    registerSize (fieldOf d.body 19 1) (fieldOf d.body 20 4) (fieldOf d.body 24 4) (fieldOf d.body 32 8) =
      some n ∧
    j ≤ 4095 ∧
    kind ≤ 1 ∧
    fieldZero d.body 28 32 = true ∧
    fieldZero d.body 40 60 = true ∧
    Tab.find s.objects j = none ∧
    n ≠ 0 ∧
    s.restoring = false ∧
    (kind = 1 ∨ n / 65536 * frameCharge ≤ s.freeT2 x) :=
  ⟨offer up 0xA0 (body [(16, 4095), (32, 65536)]), desc (body [(16, 4095), (32, 65536)]), 65536,
    by decide +kernel⟩

theorem witness_TierObjectsAndTheirMoves_1 : ∃ (s : State) (d : Desc) (o : TierObj),
    let j := fieldOf d.body 16 2
    s.canDispatch d 0xA1 = true ∧
    Tab.find s.objects j = some o ∧
    fieldZero d.body 18 60 = true ∧
    o.state = .residentT2 ∧
    o.pins = [] ∧
    o.owner = (s.queue d.queue).lease :=
  ⟨withObj (offer up 0xA1 objBody) obj, desc objBody, obj,
    by decide +kernel⟩

theorem witness_TierObjectsAndTheirMoves_2 : ∃ (s : State) (d : Desc) (o : TierObj),
    let j := fieldOf d.body 16 2
    let t := s.handOver d .tier
    let x := (t.queue d.queue).lease
    s.canDispatch d 0xA2 = true ∧
    fieldZero d.body 18 60 = true ∧
    j ≤ 4095 ∧
    Tab.find s.objects j = some o ∧
    s.restoring = false ∧
    o.state = .residentT2 ∧
    t.pinRoom x o.size = true :=
  ⟨withObj (offer up 0xA2 objBody) obj, desc objBody, obj,
    by decide +kernel⟩

theorem witness_TierObjectsAndTheirMoves_3 : ∃ (s : State) (d : Desc) (o : TierObj),
    let j := fieldOf d.body 16 2
    let t := s.handOver d .tier
    let x := (t.queue d.queue).lease
    s.canDispatch d 0xA2 = true ∧
    fieldZero d.body 18 60 = true ∧
    j ≤ 4095 ∧
    Tab.find s.objects j = some o ∧
    s.restoring = false ∧
    o.state = .residentT1 ∧
    o.pins.contains x = true :=
  ⟨withObj (offer up 0xA2 objBody) { obj with state := .residentT1, pins := [1] }, desc objBody,
      { obj with state := .residentT1, pins := [1] },
    by decide +kernel⟩

theorem witness_TierObjectsAndTheirMoves_4 : ∃ (s : State) (d : Desc) (o : TierObj),
    let j := fieldOf d.body 16 2
    let t := s.handOver d .tier
    let x := (t.queue d.queue).lease
    s.canDispatch d 0xA3 = true ∧
    fieldZero d.body 18 60 = true ∧
    j ≤ 4095 ∧
    Tab.find s.objects j = some o ∧
    o.state = .residentT1 ∧
    o.pins.contains x = true ∧
    o.pins.filter (fun p => p ≠ x) = [] :=
  ⟨withObj (offer up 0xA3 objBody) { obj with state := .residentT1, pins := [1] }, desc objBody,
      { obj with state := .residentT1, pins := [1] },
    by decide +kernel⟩

theorem witness_TierObjectsAndTheirMoves_5 : ∃ (s : State) (d : Desc) (o : TierObj) (p : _) (r : _),
    let j := fieldOf d.body 16 2
    let t := s.handOver d .tier
    let x := (t.queue d.queue).lease
    s.canDispatch d 0xA3 = true ∧
    fieldZero d.body 18 60 = true ∧
    j ≤ 4095 ∧
    Tab.find s.objects j = some o ∧
    o.state = .residentT1 ∧
    o.pins.contains x = true ∧
    o.pins.filter (fun p => p ≠ x) = p :: r :=
  ⟨withObj (offer up 0xA3 objBody) { obj with state := .residentT1, pins := [1, 2] }, desc objBody,
      { obj with state := .residentT1, pins := [1, 2] }, 2, [],
    by decide +kernel⟩

theorem witness_TierObjectsAndTheirMoves_6 : ∃ (s : State) (d : Desc) (o : TierObj) (a : Nat),
    let j := fieldOf d.body 16 2
    s.canDispatch d 0xA4 = true ∧
    Tab.find s.objects j = some o ∧
    decodeAddr s (fieldOf d.body 24 8) = .here a ∧
    fieldZero d.body 18 24 = true ∧
    fieldZero d.body 32 60 = true ∧
    o.state = .residentT2 ∧
    s.restoring = false ∧
    s.within d.queue a o.size = true ∧
    o.owner = (s.queue d.queue).lease ∧
    o.packed = false :=
  ⟨withObj (offer up 0xA4 (body [(16, 4095), (24, 0x10000)])) obj, desc (body [(16, 4095), (24, 0x10000)]),
      obj, 0x10000,
    by decide +kernel⟩

theorem witness_TierObjectsAndTheirMoves_7 : ∃ (s : State) (j : Nat) (o : TierObj),
    s.ready = true ∧
    Tab.find s.objects j = some o ∧
    o.doomed = false ∧
    o.state = .promoting :=
  ⟨withObj up { obj with state := .promoting }, 4095, { obj with state := .promoting },
    by decide +kernel⟩

theorem witness_TierObjectsAndTheirMoves_8 : ∃ (s : State) (j : Nat) (o : TierObj),
    s.ready = true ∧
    Tab.find s.objects j = some o ∧
    o.doomed = false ∧
    o.state = .demoting ∧
    o.packed = false ∧
    o.waiters = [] ∧
    (s.lease o.owner).state = .active :=
  ⟨withObj up { obj with state := .demoting }, 4095, { obj with state := .demoting },
    by decide +kernel⟩

theorem witness_TierObjectsAndTheirMoves_9 : ∃ (s : State) (j : Nat) (o : TierObj),
    s.ready = true ∧
    Tab.find s.objects j = some o ∧
    o.state = .residentT1 ∧
    o.byDevice = true ∧
    o.pins = [] :=
  ⟨withObj up { obj with state := .residentT1, byDevice := true }, 4095,
      { obj with state := .residentT1, byDevice := true },
    by decide +kernel⟩

theorem witness_TierObjectsAndTheirMoves_10 : ∃ (s : State) (hub : Nat),
    s.ready = true ∧
    hub < 8 :=
  ⟨up, 7,
    by decide +kernel⟩

theorem witness_TierObjectsAndTheirMoves_11 : ∃ (s : State) (j : Nat) (o : TierObj),
    s.ready = true ∧
    Tab.find s.objects j = some o ∧
    o.state = .demoting :=
  ⟨withObj up { obj with state := .demoting }, 4095, { obj with state := .demoting },
    by decide +kernel⟩

theorem witness_TierObjectsAndTheirMoves_12 : ∃ (s : State) (a : Nat) (l : Nat) (f : Fill),
    s.ready = true ∧
    s.coh.fill a l = some f ∧
    s.inTier2 (64 * l) = true ∧
    (Tab.read s.coh.waitq [] l).contains f.req = true :=
  ⟨{ up with coh := { Coh.init with fills := [waitingFill], waitq := [(2 ^ 34, [waitingFill.req])] } }, 3,
      2 ^ 34, waitingFill,
    by decide +kernel⟩

theorem witness_LeasesAreGrantedAndReleased_0 : ∃ (s : State) (n : Nat) (l : Lease),
    s.power.draftUp = true ∧
    s.grantCase = .ok (n, l) := by
  obtain ⟨⟨n, l⟩, h⟩ := ok_of ({ up with leases := [] } : State).grantCase (by decide +kernel)
  exact ⟨{ up with leases := [] }, n, l,
    by decide +kernel, h⟩

theorem witness_LeasesAreGrantedAndReleased_1 : ∃ (s : State),
    s.power.draftUp = true :=
  ⟨up,
    by decide +kernel⟩

theorem witness_PartsLeaveServiceAndCoresStart_0 : ∃ (s : State) (k : Nat),
    s.ready = true ∧
    k < 8 ∧
    s.dieActive (dieHub k) = true :=
  ⟨up, 7,
    by decide +kernel⟩

theorem witness_PartsLeaveServiceAndCoresStart_1 : ∃ (s : State) (die : Nat) (core : Nat),
    s.ready = true ∧
    die < 26 ∧
    s.dieState die ≠ 2 ∧
    core < 64 ∧
    (s.core die core).retired = false :=
  ⟨up, 25, 63,
    by decide +kernel⟩

theorem witness_PartsLeaveServiceAndCoresStart_2 : ∃ (s : State) (a : Nat),
    s.ready = true ∧
    a < 26 ∧
    s.dieState a ≠ 2 :=
  ⟨up, 25,
    by decide +kernel⟩

theorem witness_PartsLeaveServiceAndCoresStart_3 : ∃ (s : State) (a : Nat),
    s.ready = true ∧
    privileged a = false ∧
    s.owesAnswer a = true :=
  ⟨withCoh { Coh.init with txns := [(5, waitTxn 3)] }, 3,
    by decide +kernel⟩

theorem witness_PartsLeaveServiceAndCoresStart_4 : ∃ (s : State) (a : Nat) (line : Nat) (t : Txn),
    s.coh.txn (txnKey true line) = some t ∧
    s.ready = true ∧
    t.waitFor.contains a = true ∧
    privileged a = true :=
  ⟨withCoh { Coh.init with txns := [(txnKey true 5, waitTxn 40)] }, 40, 5, waitTxn 40,
    by decide +kernel⟩

theorem witness_PartsLeaveServiceAndCoresStart_5 : ∃ (s : State),
    s.ready = true :=
  ⟨up,
    by decide +kernel⟩

theorem witness_PartsLeaveServiceAndCoresStart_6 : ∃ (s : State),
    s.ready = true :=
  ⟨up,
    by decide +kernel⟩

/-- `domain` with every lane UP. -/
def cabled : State :=
  { domain with peruo := { domain.peruo with lanes := (List.range 128).map (fun n => (n, { Lane.init with st := .up })) } }

theorem witness_PeruoDescriptorsPutSignalAndRegister_0 : ∃ (s : State) (d : Desc) (a : Nat),
    let f := putF d.body
    s.canDispatch d 0xB0 = true ∧
    f.rsvd = true ∧
    fieldBits d.body 16 2 0 ≤ 4 ∧
    s.scopeOk f.scope f.peer = true ∧
    decodeAddr s f.src = .here a ∧
    f.region ≤ 1023 ∧
    (f.scope ≠ 1 ∨ f.peer ≠ s.ownPod) ∧
    (f.signal = false ∨ (f.scope ≠ 2 ∧ f.token ≤ 4095 ∧ f.sigDie ≤ 25 ∧ (s.putPeer f.scope f.peer ≠
      s.ownPod ∨ s.tensorDie f.sigDie = true))) ∧
    f.length ≠ 0 ∧
    s.within d.queue a f.length = true :=
  ⟨offer up 0xB0 (body [(18, 0), (20, 1023), (24, 0x1000), (40, 64)]), desc (body [(18, 0), (20, 1023),
      (24, 0x1000), (40, 64)]), 0x1000,
    by decide +kernel⟩

theorem witness_PeruoDescriptorsPutSignalAndRegister_1 : ∃ (s : State) (d : Desc) (t : Target),
    let op := fieldOf d.body 16 1
    let w := fieldOf d.body 17 1
    let ref := fieldOf d.body 32 6
    let out := fieldOf d.body 38 6
    s.canDispatch d 0xB1 = true ∧
    fieldZero d.body 18 24 = true ∧
    fieldZero d.body 44 60 = true ∧
    atomicWidthOk op w = true ∧
    decodeAddr s (fieldOf d.body 24 8) = t ∧
    t ≠ .bad ∧
    s.within d.queue ref (if op = 9 then 2 * w else w) = true ∧
    s.within d.queue out w = true ∧
    s.objWrite out = .free ∧
    (∀ a, t = .here a → s.within d.queue a w = true ∧ s.objWrite a = .free) :=
  ⟨offer up 0xB1 (body [(16, 9), (17, 16), (24, 0x1000), (32, 0x2000), (38, 0x3000)]), desc (body [(16, 9),
      (17, 16), (24, 0x1000), (32, 0x2000), (38, 0x3000)]), .here 0x1000,
    by decide +kernel, by decide +kernel, by decide +kernel, by decide +kernel, by decide +kernel, by
      decide +kernel, by decide +kernel, by decide +kernel, by decide +kernel, fun a h => (Target.here.inj
      h) ▸ by decide +kernel⟩

theorem witness_PeruoDescriptorsPutSignalAndRegister_2 : ∃ (s : State) (d : Desc),
    let scope := fieldBits d.body 17 2 1
    let die := fieldOf d.body 22 1
    let mode := fieldOf d.body 23 1
    let token := fieldOf d.body 48 2
    let p := s.putPeer scope (fieldOf d.body 18 2)
    s.canDispatch d 0xB2 = true ∧
    fieldOf d.body 16 1 = 0 ∧
    fieldBits d.body 17 0 0 = 0 ∧
    fieldBits d.body 17 7 3 = 0 ∧
    fieldZero d.body 20 22 = true ∧
    fieldZero d.body 24 48 = true ∧
    fieldZero d.body 50 52 = true ∧
    fieldZero d.body 56 60 = true ∧
    scope ≤ 1 ∧
    s.scopeOk scope (fieldOf d.body 18 2) = true ∧
    mode ≤ 1 ∧
    token ≤ 4095 ∧
    die ≤ 25 ∧
    s.earlierDone d = true ∧
    p = s.ownPod ∧
    s.tensorDie die = true :=
  ⟨offer up 0xB2 (body [(22, 23), (48, 4095), (52, 1)]), desc (body [(22, 23), (48, 4095), (52, 1)]),
    by decide +kernel⟩

theorem witness_PeruoDescriptorsPutSignalAndRegister_3 : ∃ (s : State) (d : Desc),
    let scope := fieldBits d.body 17 2 1
    let die := fieldOf d.body 22 1
    let mode := fieldOf d.body 23 1
    let token := fieldOf d.body 48 2
    let p := s.putPeer scope (fieldOf d.body 18 2)
    s.canDispatch d 0xB2 = true ∧
    fieldOf d.body 16 1 = 0 ∧
    fieldBits d.body 17 0 0 = 0 ∧
    fieldBits d.body 17 7 3 = 0 ∧
    fieldZero d.body 20 22 = true ∧
    fieldZero d.body 24 48 = true ∧
    fieldZero d.body 50 52 = true ∧
    fieldZero d.body 56 60 = true ∧
    scope ≤ 1 ∧
    s.scopeOk scope (fieldOf d.body 18 2) = true ∧
    mode ≤ 1 ∧
    token ≤ 4095 ∧
    die ≤ 25 ∧
    s.earlierDone d = true ∧
    p ≠ s.ownPod ∧
    s.refusal p (scope == 1) = none ∧
    s.tagRoom p = true :=
  ⟨offer cabled 0xB2 (body [(18, 1), (22, 25), (48, 4095), (52, 1)]), desc (body [(18, 1), (22, 25), (48,
      4095), (52, 1)]),
    by decide +kernel⟩

theorem witness_PeruoDescriptorsPutSignalAndRegister_4 : ∃ (s : State) (d : Desc),
    let r := fieldOf d.body 16 2
    let a := fieldOf d.body 24 6
    let n := fieldOf d.body 32 8
    s.canDispatch d 0xB7 = true ∧
    fieldZero d.body 20 24 = true ∧
    fieldZero d.body 30 32 = true ∧
    fieldZero d.body 40 60 = true ∧
    fieldOf d.body 19 1 ≤ 7 ∧
    r ≤ 1023 ∧
    fieldOf d.body 18 1 = 0 ∧
    (s.region r).registered = false ∧
    n ≠ 0 ∧
    s.within d.queue a n = true :=
  ⟨offer up 0xB7 (body [(16, 1023), (19, 7), (24, 0x1000), (32, 64)]), desc (body [(16, 1023), (19, 7),
      (24, 0x1000), (32, 64)]),
    by decide +kernel⟩

theorem witness_PeruoDescriptorsPutSignalAndRegister_5 : ∃ (s : State) (d : Desc),
    let r := fieldOf d.body 16 2
    let a := fieldOf d.body 24 6
    let n := fieldOf d.body 32 8
    s.canDispatch d 0xB7 = true ∧
    fieldZero d.body 20 24 = true ∧
    fieldZero d.body 30 32 = true ∧
    fieldZero d.body 40 60 = true ∧
    fieldOf d.body 19 1 ≤ 7 ∧
    r ≤ 1023 ∧
    fieldOf d.body 18 1 = 1 ∧
    (s.region r).registered = true ∧
    fieldOf d.body 19 1 = 0 ∧
    a = 0 ∧
    n = 0 :=
  ⟨offer { up with
      peruo := { Peruo.init with regions := [(1023,
      { registered := true, enabled := true, perm := 7, lease := 1, target := 0x1000, length := 64 })] } }
      0xB7 (body [(16, 1023), (18, 1)]), desc (body [(16, 1023), (18, 1)]),
    by decide +kernel⟩

theorem witness_CollectivesAndTheirGroups_0 : ∃ (s : State) (d : Desc),
    let gi := fieldOf d.body 16 2
    let pod := fieldOf d.body 19 1
    let n := fieldOf d.body 20 2
    let a := fieldOf d.body 24 6
    s.canDispatch d 0xB3 = true ∧
    fieldZero d.body 22 24 = true ∧
    fieldZero d.body 30 60 = true ∧
    pod ≤ 1 ∧
    gi ≤ 4095 ∧
    fieldOf d.body 18 1 = 0 ∧
    Tab.find s.peruo.groups gi = none ∧
    (pod = 0 ∨ s.podMode ≠ 0) ∧
    2 ≤ n ∧
    n ≤ 12288 ∧
    s.within d.queue a (2 * n) = true ∧
    s.anyPoison a (2 * n) = false ∧
    distinctNats (s.groupList a n) = true ∧
    (s.groupList a n).contains s.ownPod = true ∧
    (s.groupList a n).all (fun p => decide (p ≤ 12287) && (pod == 1 || sameDomain p s.ownPod)) = true :=
  ⟨offer (fill domain 0x1000 [0, 0, 1, 0]) 0xB3 (body [(16, 4095), (20, 2), (24, 4096)]), desc (body [(16,
      4095), (20, 2), (24, 4096)]),
    by decide +kernel⟩

theorem witness_CollectivesAndTheirGroups_1 : ∃ (s : State) (d : Desc),
    let gi := fieldOf d.body 16 2
    let pod := fieldOf d.body 19 1
    s.canDispatch d 0xB3 = true ∧
    fieldZero d.body 22 24 = true ∧
    fieldZero d.body 30 60 = true ∧
    pod ≤ 1 ∧
    gi ≤ 4095 ∧
    fieldOf d.body 18 1 = 1 ∧
    (Tab.find s.peruo.groups gi).isSome = true ∧
    s.peruo.collWaits.any (fun w => collGroup w.body == gi) = false :=
  ⟨offer { up with
      peruo := { Peruo.init with groups := [(4095,
      { podScope := false, members := [0, 1], rank := 0, nextSeq := 0 })] } } 0xB3 (body [(16, 4095), (18,
      1)]), desc (body [(16, 4095), (18, 1)]),
    by decide +kernel⟩

theorem witness_CollectivesAndTheirGroups_2 : ∃ (s : State) (d : Desc) (g : PGroup),
    s.peruo.collWaits.find? (fun w => w.queue == d.queue && w.seq == d.seq) = none ∧
    s.group (collGroup d.body) = some g ∧
    (collGroup d.body = groupAlone ∨ collSeqOf d.body = g.nextSeq) ∧
    s.canDispatch d 0xB4 = true ∧
    (redF d.body).ok { s.numCfg d.queue with tabby := false } g.members.length = true ∧
    ((redF d.body).rows = 0 ∨ (redF d.body).cols = 0 ∨ s.redMem d.queue (redF d.body) g.members.length
      g.rank = none) :=
  ⟨offer up 0xB4 (body [(16, 0xFFFF), (18, 3), (24, 1), (28, 8), (32, 4096), (38, 8192)]), desc (body [(16,
      0xFFFF), (18, 3), (24, 1), (28, 8), (32, 4096), (38, 8192)]),
      { podScope := false, members := [0], rank := 0, nextSeq := 0 },
    by decide +kernel⟩

theorem witness_CollectivesAndTheirGroups_3 : ∃ (s : State) (d : Desc) (g : PGroup),
    s.peruo.collWaits.find? (fun w => w.queue == d.queue && w.seq == d.seq) = none ∧
    s.group (collGroup d.body) = some g ∧
    (collGroup d.body = groupAlone ∨ collSeqOf d.body = g.nextSeq) ∧
    s.canDispatch d 0xB5 = true ∧
    (gatF d.body).ok g.members.length = true ∧
    ((gatF d.body).len = 0 ∨ s.gatMem d.queue (gatF d.body) g.members.length g.rank = none) :=
  ⟨offer { up with
      peruo := { Peruo.init with groups := [(4095,
      { podScope := false, members := [0, 1], rank := 0, nextSeq := 0 })] } } 0xB5 (body [(16, 4095), (24,
      4096), (32, 8192), (40, 64)]), desc (body [(16, 4095), (24, 4096), (32, 8192), (40, 64)]),
      { podScope := false, members := [0, 1], rank := 0, nextSeq := 0 },
    by decide +kernel⟩

theorem witness_CollectivesAndTheirGroups_4 : ∃ (s : State) (d : Desc) (g : PGroup),
    s.peruo.collWaits.find? (fun w => w.queue == d.queue && w.seq == d.seq) = none ∧
    s.group (collGroup d.body) = some g ∧
    (collGroup d.body = groupAlone ∨ collSeqOf d.body = g.nextSeq) ∧
    s.canDispatch d 0xB6 = true ∧
    s.barOk (barF d.body) = true :=
  ⟨offer { up with
      peruo := { Peruo.init with groups := [(4095,
      { podScope := false, members := [0, 1], rank := 0, nextSeq := 0 })] } } 0xB6 (body [(16, 4095), (18,
      255)]), desc (body [(16, 4095), (18, 255)]),
      { podScope := false, members := [0, 1], rank := 0, nextSeq := 0 },
    by decide +kernel⟩

theorem witness_CollectivesAndTheirGroups_5 : ∃ (s : State) (d : Desc) (w : CollWait),
    s.ready = true ∧
    s.peruo.collWaits.find? (fun w => w.queue == d.queue && w.seq == d.seq) = some w :=
  ⟨{ up with peruo := { Peruo.init with collWaits := [collWait] } }, desc 0, collWait,
    by decide +kernel⟩

/-- A flit with one control record, which has no right CRC, and one without. -/
def badRecord : Flit := { flit with ftype := .control, mask := 1, payload := List.replicate 480 1 }
def quiet : Flit := { flit with payload := List.replicate 480 0 }
def block (f : List Byte) : Block := { uncorrectable := false, corrected := 15, flit := f }

theorem witness_LanesTrainAndTakeFlits_0 : ∃ (s : State) (n : Nat),
    s.ready = true ∧
    n < 128 ∧
    (s.lane n).st = .training :=
  ⟨laneUpState .training, 127,
    by decide +kernel⟩

theorem witness_LanesTrainAndTakeFlits_1 : ∃ (s : State) (n : Nat) (pod : Nat) (ld : Nat) (ln : Nat) (cr :
      List Nat),
    s.ready = true ∧
    n < 128 ∧
    ((s.lane n).st = .up ∨ (s.lane n).st = .training) ∧
    cr.length = 4 ∧
    s.wrongCable n pod ld ln = false :=
  ⟨laneUpState .up, 127, 0, 0, 0, [0, 0, 0, 0],
    by decide +kernel⟩

theorem witness_LanesTrainAndTakeFlits_2 : ∃ (s : State) (n : Nat) (pod : Nat) (ld : Nat) (ln : Nat) (cr :
      List Nat),
    s.ready = true ∧
    n < 128 ∧
    ((s.lane n).st = .up ∨ (s.lane n).st = .training) ∧
    cr.length = 4 ∧
    s.wrongCable n pod ld ln = true :=
  ⟨laneUpState .up, 0, 9, 0, 0, [0, 0, 0, 0],
    by decide +kernel⟩

theorem witness_LanesTrainAndTakeFlits_3 : ∃ (s : State) (n : Nat) (b : Block),
    s.ready = true ∧
    n < 128 ∧
    (s.lane n).st = .up ∧
    b.uncorrectable = true :=
  ⟨laneUpState .up, 127, { block quiet.bytes with uncorrectable := true },
    by decide +kernel⟩

theorem witness_LanesTrainAndTakeFlits_4 : ∃ (s : State) (n : Nat) (b : Block),
    s.ready = true ∧
    n < 128 ∧
    (s.lane n).st = .up ∧
    b.uncorrectable = false ∧
    flitHeaderOk b.flit = false :=
  ⟨laneUpState .up, 127, block (0xFF :: quiet.bytes.drop 1),
    by decide +kernel⟩

theorem witness_LanesTrainAndTakeFlits_5 : ∃ (s : State) (n : Nat) (b : Block),
    s.ready = true ∧
    n < 128 ∧
    (s.lane n).st = .up ∧
    b.uncorrectable = false ∧
    flitHeaderOk b.flit = true ∧
    flitRecordsOk b.flit = false :=
  ⟨laneUpState .up, 127, block badRecord.bytes,
    by decide +kernel⟩

theorem witness_LanesTrainAndTakeFlits_6 : ∃ (s : State) (n : Nat) (b : Block),
    s.ready = true ∧
    n < 128 ∧
    (s.lane n).st = .up ∧
    b.uncorrectable = false ∧
    flitHeaderOk b.flit = true ∧
    flitRecordsOk b.flit = true :=
  ⟨laneUpState .up, 127, block quiet.bytes,
    by decide +kernel⟩

theorem witness_LanesTrainAndTakeFlits_7 : ∃ (s : State) (n : Nat),
    s.ready = true ∧
    n < 128 ∧
    (s.lane n).st = .up :=
  ⟨laneUpState .up, 127,
    by decide +kernel⟩

theorem witness_LanesTrainAndTakeFlits_8 : ∃ (s : State),
    s.ready = true :=
  ⟨laneUpState .up,
    by decide +kernel⟩

theorem witness_LanesTrainAndTakeFlits_9 : ∃ (f : Flit),
    f.vc < 4 ∧
    f.creditVc < 4 ∧
    f.credits < 256 ∧
    f.hdr.src < 2 ^ 14 ∧
    f.hdr.dst < 2 ^ 14 ∧
    f.payload.length = 480 :=
  ⟨quiet,
    by decide +kernel⟩

theorem witness_LaneRolesAreFixed_0 : ∃ (k : _) (l : _),
    k < 8 ∧
    l < 16 :=
  ⟨7, 15,
    by decide +kernel⟩

theorem witness_PeerRecordsActAtTheTarget_0 : ∃ (s : State) (h : XHdr) (r : PutRec) (a : Nat),
    s.ready = true ∧
    s.agree h r.step = .accept ∧
    s.putTarget h r = .ok a ∧
    s.objWrite a = .free :=
  ⟨domain, fromOne domain, putRec, 0x1000,
    by decide +kernel, domain_agrees, rfl, by decide +kernel⟩

theorem witness_PeerRecordsActAtTheTarget_1 : ∃ (s : State) (h : XHdr) (r : GetRec),
    s.ready = true ∧
    s.agree h r.step = .accept ∧
    r.region = noRegion ∧
    sameDomain h.src s.ownPod = true ∧
    s.leased r.addr r.length = true :=
  ⟨domain, fromOne domain, { queue := 0, step := 0, addr := 0x1000, region := 0xFFFF, length := 64 },
    by decide +kernel, domain_agrees, by decide +kernel, by decide +kernel, by decide +kernel⟩

theorem witness_PeerRecordsActAtTheTarget_2 : ∃ (s : State) (h : XHdr) (r : AtomRec),
    s.ready = true ∧
    s.agree h r.step = .accept ∧
    s.cachedAtomic h.src h.xtag = none ∧
    r.op ≠ 9 ∧
    atomicWidthOk r.op r.width = true ∧
    sameDomain h.src s.ownPod = true ∧
    s.leased r.addr r.width = true ∧
    s.objWrite r.addr = .free ∧
    s.anyPoison r.addr r.width = false :=
  ⟨domain, fromOne domain,
      { op := 8, width := 8, step := 0, addr := 0x1000, operand := List.replicate 8 1 },
    by decide +kernel, domain_agrees, by decide +kernel, by decide +kernel, by decide +kernel, by
      decide +kernel, by decide +kernel, by decide +kernel, by decide +kernel⟩

theorem witness_PeerRecordsActAtTheTarget_3 : ∃ (s : State) (h : XHdr) (r : SignalRec),
    s.ready = true ∧
    s.agree h r.step = .accept ∧
    r.mode ≤ 1 ∧
    r.token ≤ 4095 ∧
    s.tensorDie r.die = true :=
  ⟨domain, fromOne domain, sigRec,
    by decide +kernel, domain_agrees, by decide +kernel, by decide +kernel, by decide +kernel⟩

theorem witness_PeerRecordsActAtTheTarget_4 : ∃ (s : State) (h : XHdr) (r : SignalRec) (st : Byte),
    s.ready = true ∧
    s.agree h r.step = .refuse st :=
  ⟨domain, stranger, sigRec, stCfgMismatch,
    by decide +kernel⟩

/-- A frame from device 1 to `domain`, and one whose checksum field is zero. -/
def frameFrom1 (port : Nat) (b : List Byte) : List Byte :=
  ipFrame (domain.macOf 0) (domain.macOf 1) (domain.ipOf 1) (domain.ipOf 0) 2 port port b

def noSum (b : List Byte) : List Byte := overlay b 60 [0, 0]

def read (b : List Byte) : Datagram := (datagramOf b).getD
  { dstMac := [], src := [], dst := [], ecn := 0, dport := 0, sumOk := false, data := [] }

def ackBytes : List Byte := encapHeader true false false 0 0 0
def farBytes : List Byte := farHeader 1023 0 64 ++ List.replicate 64 7

theorem witness_AnswersTimeoutsAndPackets_0 : ∃ (s : State) (h : XHdr) (r : RspRec) (x : Xact),
    s.ready = true ∧
    h.dst = s.ownPod ∧
    statusListed r.status = true ∧
    viewHas (s.viewAt s.draft.deviceStep) h.src = true ∧
    s.peruo.xacts.find? (fun x => x.peer == h.src && x.xtag == h.xtag) = some x :=
  ⟨{ domain with peruo := { domain.peruo with xacts := [xact] } }, stranger,
      { status := 0, old := 0, detail := 0, data := { bytes := [], poison := [] } }, xact,
    by decide +kernel⟩

theorem witness_AnswersTimeoutsAndPackets_1 : ∃ (s : State) (h : XHdr) (r : CollRec),
    s.ready = true ∧
    s.agree h r.step = .accept ∧
    s.collAwaited r.group r.collSeq = true :=
  ⟨domain, fromOne domain, collRec,
    by decide +kernel, domain_agrees, by decide +kernel⟩

theorem witness_AnswersTimeoutsAndPackets_2 : ∃ (s : State) (h : XHdr) (r : ExpRec),
    s.ready = true ∧
    s.agree h (s.expStep h.src r) = .accept ∧
    s.collAwaited r.group r.collSeq = true :=
  ⟨domain, fromOne domain,
      { group := 9, collSeq := 0, exponents := [], elements := [], bytes := [], poison := [] },
    by decide +kernel, domain_agrees, by decide +kernel⟩

theorem witness_AnswersTimeoutsAndPackets_3 : ∃ (s : State) (h : XHdr) (r : BarrierRec),
    s.ready = true ∧
    s.agree h r.step = .accept ∧
    s.collAwaited r.group r.collSeq = true :=
  ⟨domain, fromOne domain, { group := 9, flag := true, step := 0, digest := 0, collSeq := 0 },
    by decide +kernel, domain_agrees, by decide +kernel⟩

theorem witness_AnswersTimeoutsAndPackets_4 : ∃ (s : State) (h : XHdr),
    s.ready = true ∧
    h.dst = s.ownPod ∧
    viewHas (s.viewAt s.draft.deviceStep) h.src = true ∧
    s.peerState h.src = .member :=
  ⟨domain, fromOne domain,
    by decide +kernel⟩

theorem witness_AnswersTimeoutsAndPackets_5 : ∃ (s : State) (h : XHdr) (p : Nat) (v : BitVec 32),
    s.ready = true ∧
    h.dst = s.ownPod ∧
    viewHas s.viewRecord h.src = true ∧
    v.toNat = viewNumber s.viewRecord ∧
    p ≠ s.ownPod ∧
    (s.peerState p = .member ∨ s.peerState p = .cfgMismatch) :=
  ⟨domain, stranger, 1, BitVec.ofNat 32 (viewNumber domain.viewRecord),
    by decide +kernel⟩

theorem witness_AnswersTimeoutsAndPackets_6 : ∃ (s : State) (h : XHdr) (p : Nat) (v : BitVec 32),
    s.ready = true ∧
    h.dst = s.ownPod ∧
    viewHas s.viewRecord h.src = true ∧
    v.toNat = viewNumber s.viewRecord ∧
    p = s.ownPod :=
  ⟨domain, stranger, 0, BitVec.ofNat 32 (viewNumber domain.viewRecord),
    by decide +kernel⟩

theorem witness_AnswersTimeoutsAndPackets_7 : ∃ (s : State) (p : Nat),
    s.ready = true ∧
    s.awaitsPeer p = true :=
  ⟨{ domain with peruo := { domain.peruo with xacts := [xact] } }, 1,
    by decide +kernel⟩

theorem witness_AnswersTimeoutsAndPackets_8 : ∃ (s : State) (b : List Byte) (d : Datagram),
    s.ready = true ∧
    s.obj 0x5500 1 0 ≠ 0 ∧
    datagramOf b = some d ∧
    s.ownFrame d = true ∧
    d.dport = s.ethPort ∧
    d.sumOk = false :=
  ⟨domain, noSum (frameFrom1 domain.ethPort ackBytes), read (noSum (frameFrom1 domain.ethPort ackBytes)),
    by decide +kernel⟩

theorem witness_AnswersTimeoutsAndPackets_9 : ∃ (s : State) (b : List Byte) (d : Datagram),
    s.ready = true ∧
    s.obj 0x5500 1 0 ≠ 0 ∧
    datagramOf b = some d ∧
    s.ownFrame d = true ∧
    d.dport = s.obj 0x5500 8 51731 ∧
    d.sumOk = false :=
  ⟨domain, noSum (frameFrom1 51731 farBytes), read (noSum (frameFrom1 51731 farBytes)),
    by decide +kernel⟩

theorem witness_AnswersTimeoutsAndPackets_10 : ∃ (s : State) (b : List Byte) (d : Datagram),
    s.ready = true ∧
    s.obj 0x5500 1 0 ≠ 0 ∧
    datagramOf b = some d ∧
    s.ownFrame d = true ∧
    d.dport = s.ethPort ∧
    d.sumOk = true ∧
    (packetOf d).version = 1 ∧
    (packetOf d).ecrcOk = true ∧
    viewHas s.viewRecord (packetOf d).src = true :=
  ⟨domain, frameFrom1 domain.ethPort ackBytes, read (frameFrom1 domain.ethPort ackBytes),
    by decide +kernel⟩

theorem witness_AnswersTimeoutsAndPackets_11 : ∃ (s : State) (b : List Byte) (d : Datagram) (a : Nat),
    s.ready = true ∧
    s.obj 0x5500 1 0 ≠ 0 ∧
    datagramOf b = some d ∧
    s.ownFrame d = true ∧
    d.dport = s.obj 0x5500 8 51731 ∧
    d.sumOk = true ∧
    s.regionCheck (farOf d.data).region (farOf d.data).offset (farOf d.data).length 2 = .ok a ∧
    (farOf d.data).data.length = (farOf d.data).length ∧
    s.objWrite a = .free :=
  ⟨domain, frameFrom1 51731 farBytes, read (frameFrom1 51731 farBytes), 0x1000,
    by decide +kernel⟩

theorem witness_AnswersTimeoutsAndPackets_12 : ∃ (s : State) (p : Nat),
    s.ready = true ∧
    (s.eth p).unacked ≠ 0 :=
  ⟨{ domain with peruo := { domain.peruo with eth := [(1, { EthPeer.init with txPsn := 1 })] } }, 1,
    by decide +kernel⟩

/-- `s` with ATOMIC_POLICY `v`. -/
def policy (v : Byte) (s : State) : State := { s with draft := { s.draft with active := [(objKey 0x5801 1, [v])] } }

def add4 : AtomicOp := { op := 0, width := 4, operand := 1, compare := 0 }

theorem witness_AgentsAskTheirHome_0 : ∃ (s : State) (a : Nat) (l : Nat),
    s.mayAsk a l = true ∧
    s.coh.copy a l = none ∧
    s.coreFaults a l = false :=
  ⟨up, 38, 5,
    by decide +kernel⟩

theorem witness_AgentsAskTheirHome_1 : ∃ (s : State) (a : Nat) (l : Nat),
    s.mayAsk a l = true ∧
    s.coh.copy a l = none ∧
    s.coreFaults a l = true :=
  ⟨up, 3, 2 ^ 24,
    by decide +kernel⟩

theorem witness_AgentsAskTheirHome_2 : ∃ (s : State) (a : Nat) (l : Nat) (c : CacheLine),
    s.mayAsk a l = true ∧
    s.coh.copy a l = some c ∧
    (c.st = .s ∨ c.st = .o) ∧
    s.coreFaults a l = false :=
  ⟨withLine .s, 38, 5, held 38 5 .s,
    by decide +kernel⟩

theorem witness_AgentsAskTheirHome_3 : ∃ (s : State) (a : Nat) (l : Nat) (b : List Byte) (c : CacheLine),
    s.mayAsk a l = true ∧
    s.coh.copy a l = some c ∧
    (c.st = .m ∨ c.st = .o) ∧
    b.length ≠ 64 :=
  ⟨withLine .m, 38, 5, [], held 38 5 .m,
    by decide +kernel⟩

theorem witness_AgentsAskTheirHome_4 : ∃ (s : State) (a : Nat) (l : Nat) (b : List Byte) (c : CacheLine),
    s.mayAsk a l = true ∧
    s.coh.copy a l = some c ∧
    (c.st = .m ∨ c.st = .e) ∧
    a ≠ hostAgent ∧
    b.length = 64 ∧
    s.objWrite (64 * l) = .free :=
  ⟨withLine .m, 38, 5, List.replicate 64 3, held 38 5 .m,
    by decide +kernel⟩

theorem witness_AgentsAskTheirHome_5 : ∃ (s : State) (a : Nat) (l : Nat) (c : CacheLine),
    s.mayAsk a l = true ∧
    s.coh.copy a l = some c ∧
    (c.st = .e ∨ c.st = .s) :=
  ⟨withLine .e, 38, 5, held 38 5 .e,
    by decide +kernel⟩

theorem witness_AgentsAskTheirHome_6 : ∃ (s : State) (l : Nat),
    s.ready = true ∧
    homed l = true ∧
    s.hubCredit l = true :=
  ⟨up, 5,
    by decide +kernel⟩

theorem witness_AgentsAskTheirHome_7 : ∃ (s : State) (l : Nat),
    s.controlReach l = true :=
  ⟨up, (controlBase + 0x1000000) / 64,
    by decide +kernel⟩

theorem witness_AgentsAskTheirHome_8 : ∃ (s : State) (l : Nat),
    s.ready = true ∧
    homed l = true ∧
    s.hubCredit l = true :=
  ⟨up, 5,
    by decide +kernel⟩

theorem witness_AgentsAskTheirHome_9 : ∃ (s : State) (a : Nat) (l : Nat) (k : Nat) (o : AtomicOp),
    s.ready = true ∧
    s.agentLive a = true ∧
    a ≠ hostAgent ∧
    a ≠ engineAgent ∧
    s.coh.asking a l = false ∧
    s.hubCredit l = true ∧
    homed l = true ∧
    cacheable l = true ∧
    atomicWidthOk o.op o.width = true ∧
    k % o.width = 0 ∧
    k + o.width ≤ 64 ∧
    s.coreFaults a l = false ∧
    s.runsNear a l = true :=
  ⟨policy 1 up, 38, 5, 60, add4,
    by decide +kernel⟩

theorem witness_AgentsAskTheirHome_10 : ∃ (s : State) (a : Nat) (l : Nat) (k : Nat) (o : AtomicOp),
    s.ready = true ∧
    s.agentLive a = true ∧
    a ≠ hostAgent ∧
    a ≠ engineAgent ∧
    s.coh.asking a l = false ∧
    s.hubCredit l = true ∧
    homed l = true ∧
    cacheable l = true ∧
    atomicWidthOk o.op o.width = true ∧
    k % o.width = 0 ∧
    k + o.width ≤ 64 ∧
    s.coreFaults a l = false ∧
    s.runsNear a l = false ∧
    s.coh.copy a l = none :=
  ⟨policy 2 up, 38, 5, 60, add4,
    by decide +kernel⟩

theorem witness_AgentsAskTheirHome_11 : ∃ (s : State) (a : Nat) (l : Nat) (k : Nat) (o : AtomicOp) (c : _),
    s.ready = true ∧
    s.agentLive a = true ∧
    a ≠ hostAgent ∧
    a ≠ engineAgent ∧
    s.coh.asking a l = false ∧
    s.hubCredit l = true ∧
    homed l = true ∧
    cacheable l = true ∧
    atomicWidthOk o.op o.width = true ∧
    k % o.width = 0 ∧
    k + o.width ≤ 64 ∧
    s.coreFaults a l = false ∧
    s.runsNear a l = false ∧
    s.coh.copy a l = some c ∧
    (c.st = .m ∨ c.st = .e) ∧
    s.objWrite (64 * l) = .free :=
  ⟨policy 2 (withLine .m), 38, 5, 60, add4, held 38 5 .m,
    by decide +kernel⟩

theorem witness_AgentsAnswerSnoops_0 : ∃ (s : State) (a : Nat) (l : Nat) (b : List Byte) (x : Snoop),
    let u := s.storedIn a l b
    let t := u.setCoh (u.coh.take (.snoop x))
    x.agent = a ∧
    x.line = l ∧
    a ≠ hostAgent ∧
    s.coh.inFlight .snpInv a l = some x ∧
    x.kind = .snpInv ∧
    b = [] ∧
    t.coh.delayed x = false :=
  ⟨snooped .snpInv .m, 38, 5, [], snoopOf .snpInv,
    by decide +kernel⟩

theorem witness_AgentsAnswerSnoops_1 : ∃ (s : State) (a : Nat) (l : Nat) (b : List Byte) (x : Snoop) (c :
      _),
    let u := s.storedIn a l b
    let t := u.setCoh (u.coh.take (.snoop x))
    x.agent = a ∧
    x.line = l ∧
    a ≠ hostAgent ∧
    s.coh.inFlight .snpX a l = some x ∧
    x.kind = .snpX ∧
    t.coh.delayed x = false ∧
    t.coh.answering a l = some c ∧
    c.st = .m :=
  ⟨snooped .snpX .m, 38, 5, [], snoopOf .snpX, held 38 5 .m,
    by decide +kernel⟩

theorem witness_AgentsAnswerSnoops_2 : ∃ (s : State) (a : Nat) (l : Nat) (b : List Byte) (x : Snoop) (c :
      _),
    let u := s.storedIn a l b
    let t := u.setCoh (u.coh.take (.snoop x))
    x.agent = a ∧
    x.line = l ∧
    a ≠ hostAgent ∧
    s.coh.inFlight .snpS a l = some x ∧
    x.kind = .snpS ∧
    t.coh.delayed x = false ∧
    t.coh.answering a l = some c ∧
    c.st = .s :=
  ⟨snooped .snpS .s, 38, 5, [], snoopOf .snpS, held 38 5 .s,
    by decide +kernel⟩

theorem witness_AgentsAnswerSnoops_3 : ∃ (s : State) (a : Nat) (l : Nat) (b : List Byte) (x : Snoop) (c :
      _),
    let u := s.storedIn a l b
    let t := u.setCoh (u.coh.take (.snoop x))
    x.agent = a ∧
    x.line = l ∧
    a ≠ hostAgent ∧
    s.coh.inFlight .snpS a l = some x ∧
    x.kind = .snpS ∧
    x.host = false ∧
    t.coh.delayed x = false ∧
    t.coh.answering a l = some c ∧
    (c.st = .m ∨ c.st = .o) :=
  ⟨snooped .snpS .m, 38, 5, [], snoopOf .snpS, held 38 5 .m,
    by decide +kernel⟩

theorem witness_AgentsAnswerSnoops_4 : ∃ (s : State) (a : Nat) (l : Nat) (b : List Byte) (x : Snoop),
    let u := s.storedIn a l b
    let t := u.setCoh (u.coh.take (.snoop x))
    x.agent = a ∧
    x.line = l ∧
    a ≠ hostAgent ∧
    s.coh.inFlight .snpCur a l = some x ∧
    x.kind = .snpCur ∧
    t.coh.delayed x = false :=
  ⟨snooped .snpCur .e, 38, 5, [], snoopOf .snpCur,
    by decide +kernel⟩

theorem witness_AgentsAnswerSnoops_5 : ∃ (s : State) (l : Nat) (x : Snoop),
    s.coh.inFlight .snpX hostAgent l = some x ∧
    x.agent = hostAgent :=
  ⟨withMsg (.snoop { snoopOf .snpX with agent := hostAgent }), 5, { snoopOf .snpX with agent := hostAgent },
    by decide +kernel⟩

theorem witness_AgentsAnswerSnoops_6 : ∃ (s : State) (a : Nat) (l : Nat) (x : Snoop),
    s.coh.lrHeld.find? (fun x => x.agent == a && x.line == l) = some x :=
  ⟨withCoh { Coh.init with reserved := [(38, 5)], lrHeld := [snoopOf .snpX] }, 38, 5, snoopOf .snpX,
    by decide +kernel⟩

/-- What agent 38 fetches, with nothing of it arrived. -/
def fetch38 : Fill :=
  { agent := 38, line := 5, data := none, grant := none
    req := { kind := .rdS, agent := 38, line := 5, mask := 0, bytes := [], offset := 0, op := none, fetch := false } }

theorem witness_HomesTakeAnswersAndHostSnoops_0 : ∃ (s : State) (a : Nat) (l : Nat) (h : Bool),
    s.coh.has (.rspI a l h) = true ∧
    (h = false ∨ s.coh.has (.rspI a l false) = false) :=
  ⟨withMsg (.rspI 38 5 true), 38, 5, true,
    by decide +kernel⟩

theorem witness_HomesTakeAnswersAndHostSnoops_1 : ∃ (s : State) (a : Nat) (l : Nat) (h : Bool),
    s.coh.has (.rspS a l h) = true ∧
    (h = false ∨ s.coh.has (.rspS a l false) = false) :=
  ⟨withMsg (.rspS 38 5 false), 38, 5, false,
    by decide +kernel⟩

theorem witness_HomesTakeAnswersAndHostSnoops_2 : ∃ (s : State) (a : Nat) (l : Nat) (h : Bool),
    s.coh.has (.rspO a l h) = true ∧
    (h = false ∨ s.coh.has (.rspO a l false) = false) :=
  ⟨withMsg (.rspO 38 5 false), 38, 5, false,
    by decide +kernel⟩

theorem witness_HomesTakeAnswersAndHostSnoops_3 : ∃ (s : State) (a : Nat) (l : Nat) (h : Bool) (k : _),
    s.coh.has (.rspFwd a l k h) = true ∧
    (h = false ∨ s.coh.has (.rspFwd a l k false) = false) :=
  ⟨withMsg (.rspFwd 38 5 true false), 38, 5, false, true,
    by decide +kernel⟩

theorem witness_HomesTakeAnswersAndHostSnoops_4 : ∃ (s : State) (a : Nat) (l : Nat) (t : Txn),
    s.coh.has (.ack a l) = true ∧
    (s.coh.take (.ack a l)).txn l = some t ∧
    t.granted = true ∧
    t.req.agent = a :=
  ⟨withCoh { Coh.init with msgs := [.ack 43 5], txns := [(5, { waitTxn 3 with granted := true })] }, 43, 5,
      { waitTxn 3 with granted := true },
    by decide +kernel⟩

theorem witness_HomesTakeAnswersAndHostSnoops_5 : ∃ (s : State) (a : Nat) (l : Nat) (g : Option Moesi ×
      Bool × Bool × Bool) (f : Fill),
    s.coh.grantFor a l = some g ∧
    s.coh.fill a l = some f :=
  ⟨withCoh { Coh.init with msgs := [.grant 38 5 (some .e) false false false], fills := [fetch38] }, 38, 5,
      (some .e, false, false, false), fetch38,
    by decide +kernel⟩

theorem witness_HomesTakeAnswersAndHostSnoops_6 : ∃ (s : State) (a : Nat) (l : Nat) (d : List Byte × Bool)
      (f : _),
    s.coh.dataFor a l = some d ∧
    s.coh.fill a l = some f :=
  ⟨withCoh { Coh.init with msgs := [.data 38 5 [] true], fills := [fetch38] }, 38, 5, ([], true), fetch38,
    by decide +kernel⟩

theorem witness_HomesTakeAnswersAndHostSnoops_7 : ∃ (s : State) (a : Nat) (l : Nat) (d : List Byte × Bool),
    s.coh.dataFor a l = some d ∧
    s.coh.fill a l = none ∧
    d.2 = false :=
  ⟨withMsg (.data engineAgent 5 [] false), engineAgent, 5, ([], false),
    by decide +kernel⟩

theorem witness_HomesTakeAnswersAndHostSnoops_8 : ∃ (s : State) (a : Nat) (l : Nat) (d : List Byte × Bool),
    s.coh.dataFor a l = some d ∧
    s.coh.fill a l = none ∧
    d.2 = true :=
  ⟨withMsg (.data engineAgent 5 [] true), engineAgent, 5, ([], true),
    by decide +kernel⟩

theorem witness_HomesTakeAnswersAndHostSnoops_9 : ∃ (s : State) (a : Nat) (l : Nat),
    s.coh.has (.wbAck a l) = true :=
  ⟨withMsg (.wbAck 38 5), 38, 5,
    by decide +kernel⟩

theorem witness_HomesTakeAnswersAndHostSnoops_10 : ∃ (s : State) (l : Nat),
    s.ready = true ∧
    s.host.cxlUp = true ∧
    let u := (s.drain l l false).count 0x7919 0 1
    ((u.coh.entry l).holders = [] ∨ hostLine l = false) :=
  ⟨up, 5,
    by decide +kernel⟩

theorem witness_HomesTakeAnswersAndHostSnoops_11 : ∃ (s : State) (l : Nat),
    s.ready = true ∧
    s.host.cxlUp = true ∧
    let u := (s.drain l l false).count 0x7919 0 1
    (u.coh.entry l).holders ≠ [] ∧
    hostLine l = true ∧
    u.coh.txn (txnKey true l) = none :=
  ⟨withCoh { Coh.init with dir := [(hostBase / 64, { DirEntry.none with st := .s, sharers := [3] })] },
      hostBase / 64,
    by decide +kernel⟩

theorem witness_HomesTakeAnswersAndHostSnoops_12 : ∃ (s : State) (l : Nat) (x : Snoop),
    s.coh.biWait.find? (fun x => x.line == l) = some x :=
  ⟨withCoh { Coh.init with biWait := [snoopOf .snpX] }, 5, snoopOf .snpX,
    by decide +kernel⟩

theorem witness_HomesTakeAnswersAndHostSnoops_13 : ∃ (s : State) (l : Nat) (t : Txn),
    s.coh.txn l = some t ∧
    t.needHost = true :=
  ⟨withCoh { Coh.init with txns := [(5, { waitTxn 3 with needHost := true })] }, 5,
      { waitTxn 3 with needHost := true },
    by decide +kernel⟩

theorem witness_HomesTakeAnswersAndHostSnoops_14 : ∃ (s : State),
    s.power.draftUp = true :=
  ⟨up,
    by decide +kernel⟩

theorem witness_HostAccessesMemoryAndThePort_0 : ∃ (s : State) (o : Nat) (n : Nat),
    s.portUp = true ∧
    (s.barPieces o n false).any (fun p => p.2.2.isNone) = true :=
  ⟨up, 0, 64,
    by decide +kernel⟩

theorem witness_HostAccessesMemoryAndThePort_1 : ∃ (s : State) (o : Nat) (n : Nat),
    s.portUp = true ∧
    (s.barPieces o n false).any (fun p => p.2.2.isNone) = false :=
  ⟨barState, 100, 300,
    by decide +kernel⟩

theorem witness_HostAccessesMemoryAndThePort_2 : ∃ (s : State) (o : Nat) (b : List Byte) (p : Bool),
    let ps := s.barPieces o b.length true
    s.portUp = true ∧
    s.barHeld ps = false ∧
    ps.any (fun p => p.2.2.isNone) = false :=
  ⟨barState, 100, [7, 8], false,
    by decide +kernel⟩

theorem witness_HostAccessesMemoryAndThePort_3 : ∃ (s : State) (o : Nat) (b : List Byte) (p : Bool),
    let ps := s.barPieces o b.length true
    s.portUp = true ∧
    s.barHeld ps = false ∧
    ps.any (fun p => p.2.2.isNone) = true :=
  ⟨barState, 65536, [7, 8], false,
    by decide +kernel⟩

theorem witness_HostAccessesMemoryAndThePort_4 : ∃ (s : State) (o : Nat),
    let ps := s.barPieces (o / 64 * 64) 64 false
    s.portUp = true ∧
    s.host.cxlUp = true ∧
    ps.any (fun p => p.2.2.isNone) = true :=
  ⟨barState, 65536,
    by decide +kernel⟩

theorem witness_HostAccessesMemoryAndThePort_5 : ∃ (s : State) (o : Nat),
    let ps := s.barPieces (o / 64 * 64) 64 false
    s.portUp = true ∧
    s.host.cxlUp = true ∧
    ps.any (fun p => p.2.2.isNone) = false :=
  ⟨barState, 70,
    by decide +kernel⟩

theorem witness_HostAccessesMemoryAndThePort_6 : ∃ (s : State) (o : Nat) (a : _),
    s.portUp = true ∧
    s.host.cxlUp = true ∧
    s.barPieces (o / 64 * 64) 64 true = [(0, 64, some a)] ∧
    s.objWrite a ≠ .held :=
  ⟨barState, 70, 0x1000040,
    by decide +kernel⟩

theorem witness_HostAccessesMemoryAndThePort_7 : ∃ (s : State) (o : Nat),
    s.portUp = true ∧
    s.host.cxlUp = true ∧
    s.barPieces (o / 64 * 64) 64 true = [(0, 64, none)] :=
  ⟨barState, 65536,
    by decide +kernel⟩

theorem witness_HostAccessesMemoryAndThePort_8 : ∃ (s : State),
    s.ready = true :=
  ⟨up,
    by decide +kernel⟩

theorem witness_HostAccessesMemoryAndThePort_9 : ∃ (s : State) (q : BitVec 16) (n : BitVec 16) (x : Xfer),
    s.xfer q n = some x ∧
    s.ready = true ∧
    x.reads ≠ [] :=
  ⟨moving { xferOf 0x10 copyBody with accepted := true, reads := [(0, 64)] }, 0, 0,
      { xferOf 0x10 copyBody with accepted := true, reads := [(0, 64)] },
    by decide +kernel⟩

theorem witness_HostAccessesMemoryAndThePort_10 : ∃ (s : State) (q : BitVec 16) (n : BitVec 16) (x : Xfer),
    s.xfer q n = some x ∧
    s.ready = true ∧
    x.reads = [] ∧
    x.zeroRead = true :=
  ⟨moving { xferOf 0x10 copyBody with accepted := true, zeroRead := true }, 0, 0,
      { xferOf 0x10 copyBody with accepted := true, zeroRead := true },
    by decide +kernel⟩

theorem witness_HostAccessesMemoryAndThePort_11 : ∃ (s : State),
    s.ready = true ∧
    s.host.attach ≠ .lost ∧
    s.portUp = true :=
  ⟨up,
    by decide +kernel⟩

theorem witness_HostAccessesMemoryAndThePort_12 : ∃ (s : State),
    s.ready = true ∧
    s.host.attach ≠ .lost ∧
    s.host.linkUp = true :=
  ⟨up,
    by decide +kernel⟩

theorem witness_HostAccessesMemoryAndThePort_13 : ∃ (s : State) (n : _),
    s.ready = true ∧
    s.host.attach ≠ .lost ∧
    600 ≤ n :=
  ⟨up, 600,
    by decide +kernel⟩

theorem witness_HostAccessesMemoryAndThePort_14 : ∃ (s : State) (n : _),
    s.ready = true ∧
    s.host.attach ≠ .lost ∧
    n < 400 :=
  ⟨up, 399,
    by decide +kernel⟩

theorem witness_HostAccessesMemoryAndThePort_15 : ∃ (s : State) (g : Nat) (w : Nat),
    s.ready = true ∧
    s.host.attach ≠ .lost ∧
    s.module.perstN = true ∧
    0 < g ∧
    g ≤ 64 ∧
    0 < w ∧
    w ≤ 16 :=
  ⟨up, 64, 16,
    by decide +kernel⟩

theorem witness_HostAccessesMemoryAndThePort_16 : ∃ (s : State) (n : Nat),
    s.host.portReady = true ∧
    34 ≤ n ∧
    n ≤ 43 :=
  ⟨up, 34,
    by decide +kernel⟩

theorem witness_HostAccessesMemoryAndThePort_17 : ∃ (s : State),
    s.host.portReady = false ∧
    s.power.mode ≠ .off :=
  ⟨{ up with host := { up.host with portReady := false } },
    by decide +kernel⟩

theorem witness_AdminCommandsShowTheirResult_0 : ∃ (s : State) (t : State) (b : AdminBlock) (v : Nat),
    s.adminReach b = true ∧
    s.createQueue b (s.admin b) = .ok (t, v) := by
  obtain ⟨⟨t, v⟩, h⟩ := ok_of ((adminState createArgs : State).createQueue .localBlock ((adminState
      createArgs : State).admin .localBlock)) (by decide +kernel)
  exact ⟨adminState createArgs, t, .localBlock, v,
    by decide +kernel, h⟩

theorem witness_AdminCommandsShowTheirResult_1 : ∃ (s : State) (t : State) (b : AdminBlock) (v : Nat),
    s.adminReach b = true ∧
    s.destroyQueue b (s.admin b) = .ok (t, v) := by
  obtain ⟨⟨t, v⟩, h⟩ := ok_of ((adminState { Admin.init with queue := 0 } : State).destroyQueue .localBlock
      ((adminState { Admin.init with queue := 0 } : State).admin .localBlock)) (by decide +kernel)
  exact ⟨adminState { Admin.init with queue := 0 }, t, .localBlock, v,
    by decide +kernel, h⟩

theorem witness_AdminCommandsShowTheirResult_2 : ∃ (s : State) (t : State) (b : AdminBlock) (v : Nat),
    s.adminReach b = true ∧
    s.reattachQueue b (s.admin b) = .ok (t, v) := by
  obtain ⟨⟨t, v⟩, h⟩ := ok_of
      (({ adminState Admin.init with queues := [(0, { queueWith [] with state := .orphaned })] } :
      State).reattachQueue .localBlock
      (({ adminState Admin.init with queues := [(0, { queueWith [] with state := .orphaned })] } :
      State).admin .localBlock)) (by decide +kernel)
  exact ⟨{ adminState Admin.init with queues := [(0, { queueWith [] with state := .orphaned })] }, t,
      .localBlock, v,
    by decide +kernel, h⟩

theorem witness_AdminCommandsShowTheirResult_3 : ∃ (s : State) (t : State) (b : AdminBlock) (v : Nat),
    s.adminReach b = true ∧
    s.attachHost (s.admin b) = .ok (t, v) := by
  obtain ⟨⟨t, v⟩, h⟩ := ok_of
      (({ adminState { Admin.init with epoch := 3 } with
      host := { up.host with epoch := 3, attach := .detached, adminLocal := { Admin.init with epoch := 3 }
      } } : State).attachHost
      (({ adminState { Admin.init with epoch := 3 } with
      host := { up.host with epoch := 3, attach := .detached, adminLocal := { Admin.init with epoch := 3 }
      } } : State).admin .localBlock)) (by decide +kernel)
  exact ⟨{ adminState { Admin.init with epoch := 3 } with
      host := { up.host with epoch := 3, attach := .detached, adminLocal := { Admin.init with epoch := 3 }
      } }, t, .localBlock, v,
    by decide +kernel, h⟩

theorem witness_AdminCommandsShowTheirResult_4 : ∃ (s : State) (t : State) (b : AdminBlock) (v : Nat),
    s.adminReach b = true ∧
    s.registerRegion b (s.admin b) = .ok (t, v) := by
  obtain ⟨⟨t, v⟩, h⟩ := ok_of ((adminState
      { Admin.init with lease := 1, region := 4095, target := 0x1000000, length := 65536, aflags := 4 } :
      State).registerRegion .localBlock ((adminState
      { Admin.init with lease := 1, region := 4095, target := 0x1000000, length := 65536, aflags := 4 } :
      State).admin .localBlock)) (by decide +kernel)
  exact ⟨adminState
      { Admin.init with lease := 1, region := 4095, target := 0x1000000, length := 65536, aflags := 4 }, t,
      .localBlock, v,
    by decide +kernel, h⟩

theorem witness_AdminCommandsShowTheirResult_5 : ∃ (s : State) (t : State) (b : AdminBlock) (v : Nat),
    s.adminReach b = true ∧
    s.releaseRegion b (s.admin b) = .ok (t, v) := by
  obtain ⟨⟨t, v⟩, h⟩ := ok_of
      (({ barState with host := { barState.host with adminLocal := { Admin.init with region := 9 } } } :
      State).releaseRegion .localBlock
      (({ barState with host := { barState.host with adminLocal := { Admin.init with region := 9 } } } :
      State).admin .localBlock)) (by decide +kernel)
  exact ⟨{ barState with host := { barState.host with adminLocal := { Admin.init with region := 9 } } }, t,
      .localBlock, v,
    by decide +kernel, h⟩

theorem witness_AdminCommandsShowTheirResult_6 : ∃ (s : State) (b : AdminBlock) (r : Nat),
    s.adminReach b = true ∧
    s.createQueue b (s.admin b) = .error r :=
  ⟨adminState Admin.init, .localBlock, 2,
    by decide +kernel⟩

theorem witness_AdminCommandsShowTheirResult_7 : ∃ (s : State) (b : AdminBlock) (c : Byte),
    s.adminReach b = true ∧
    (6 < c.toNat ∨ c = 0) :=
  ⟨up, .hostBlock, 7,
    by decide +kernel⟩

theorem witness_AdminCommandsShowTheirResult_8 : ∃ (s : State) (b : AdminBlock),
    let q := (s.admin b).queue
    let c := s.queue q
    s.adminReach b = true ∧
    s.adminShut b = false ∧
    c.state = .free :=
  ⟨adminState { Admin.init with queue := 5 }, .localBlock,
    by decide +kernel⟩

theorem witness_AdminCommandsShowTheirResult_9 : ∃ (s : State) (b : AdminBlock),
    let q := (s.admin b).queue
    let c := s.queue q
    let u := (List.range 8).foldl (fun (t : State) l => t.dropChain c.die l q) s
    s.adminReach b = true ∧
    s.adminShut b = false ∧
    c.state ≠ .free ∧
    s.queueBusy q = false ∧
    (u.lease c.lease).state ≠ .revoked :=
  ⟨adminState Admin.init, .localBlock,
    by decide +kernel⟩

theorem witness_AdminCommandsShowTheirResult_10 : ∃ (s : State) (b : AdminBlock),
    let a := s.admin b
    let q := a.queue
    let c := s.queue q
    let sq := if a.sqBase = 0 then c.sqBase else a.sqBase.toNat
    let cq := if a.cqBase = 0 then c.cqBase else a.cqBase.toNat
    s.adminReach b = true ∧
    s.adminShut b = false ∧
    s.host.attach ≠ .lost ∧
    c.state = .orphaned ∧
    sq % 64 = 0 ∧
    cq % 64 = 0 ∧
    a.cqHead = c.replayFrom ∧
    s.ringsBad c.lease c.depth sq cq = none :=
  ⟨{ adminState Admin.init with queues := [(0, { queueWith [] with state := .orphaned })] }, .localBlock,
    by decide +kernel⟩

theorem witness_AdminCommandsShowTheirResult_11 : ∃ (s : State) (b : AdminBlock),
    s.adminReach b = true ∧
    s.host.attach ≠ .lost ∧
    (s.admin b).epoch = s.host.epoch :=
  ⟨adminState { Admin.init with epoch := up.host.epoch }, .localBlock,
    by decide +kernel⟩

theorem witness_AdminCommandsShowTheirResult_12 : ∃ (s : State) (b : AdminBlock) (f : Nat),
    let a := s.admin b
    let l := a.lease.toNat
    let r := a.region.toNat
    let t := a.target.toNat
    let n := a.length.toNat
    let k := if s.aperture = 0 then 0 else ceilDiv n s.aperture
    s.adminReach b = true ∧
    s.adminShut b = false ∧
    l ≠ 0 ∧
    l ≤ 1023 ∧
    (s.lease l).state = .active ∧
    r < 4096 ∧
    n ≠ 0 ∧
    n % 65536 = 0 ∧
    t % 65536 = 0 ∧
    Tab.find s.host.regions r = none ∧
    touchesHost t n = false ∧
    spaceOf t ≠ .control ∧
    s.leaseCovers l t n = true ∧
    s.apertureRun k = some f :=
  ⟨adminState { Admin.init with lease := 1, region := 9, target := 0x1000000, length := 65536 },
      .localBlock, 0,
    by decide +kernel⟩

theorem witness_AdminCommandsShowTheirResult_13 : ∃ (s : State) (b : AdminBlock),
    let r := (s.admin b).region.toNat
    s.adminReach b = true ∧
    s.adminShut b = false ∧
    r < 4096 ∧
    (Tab.find s.host.regions r).isSome = true :=
  ⟨{ barState with host := { barState.host with adminLocal := { Admin.init with region := 9 } } },
      .localBlock,
    by decide +kernel⟩

theorem witness_CreateMakesAnActiveQueue_0 : ∃ (s : State) (b : AdminBlock) (q : Nat),
    let a := s.admin b
    let l := a.lease.toNat
    s.adminReach b = true ∧
    s.adminShut b = false ∧
    l ≠ 0 ∧
    l ≤ 1023 ∧
    (s.lease l).state = .active ∧
    depthOk a.depth.toNat = true ∧
    a.sqBase.toNat % 64 = 0 ∧
    a.cqBase.toNat % 64 = 0 ∧
    (a.vector = 0xFFFF ∨ a.vector.toNat < 2048) ∧
    a.die.toNat < 26 ∧
    bitOf (s.lease l).dieMask.toNat a.die.toNat = true ∧
    s.newQueue a = some q ∧
    q < 65536 ∧
    s.leaseQueues l < (s.lease l).queues ∧
    s.ringsBad l a.depth.toNat a.sqBase.toNat a.cqBase.toNat = none :=
  ⟨adminState createArgs, .localBlock, 7,
    by decide +kernel⟩

theorem witness_RegisterWritesAbortsAndIpv6_0 : ∃ (s : State) (o : Nat) (w : Nat),
    s.portUp = true ∧
    (w = 8 ∨ w = 16 ∨ w = 32 ∨ w = 64) ∧
    o % (w / 8) = 0 :=
  ⟨up, 4, 32,
    by decide +kernel⟩

theorem witness_RegisterWritesAbortsAndIpv6_1 : ∃ (s : State) (o : Nat) (w : Nat),
    s.ready = true ∧
    (w = 8 ∨ w = 16 ∨ w = 32 ∨ w = 64) ∧
    o % (w / 8) = 0 :=
  ⟨up, 6, 16,
    by decide +kernel⟩

theorem witness_RegisterWritesAbortsAndIpv6_2 : ∃ (s : State),
    s.portUp = true :=
  ⟨up,
    by decide +kernel⟩

theorem witness_RegisterWritesAbortsAndIpv6_3 : ∃ (s : State) (i : Nat),
    s.power.draftUp = true ∧
    i < 1232 :=
  ⟨up, 1231,
    by decide +kernel⟩

theorem witness_RegisterWritesAbortsAndIpv6_4 : ∃ (s : State),
    s.power.draftUp = true :=
  ⟨up,
    by decide +kernel⟩

theorem witness_RegisterWritesAbortsAndIpv6_5 : ∃ (s : State),
    s.power.draftUp = true :=
  ⟨up,
    by decide +kernel⟩

theorem witness_RegisterWritesAbortsAndIpv6_6 : ∃ (s : State),
    s.power.draftUp = true :=
  ⟨up,
    by decide +kernel⟩

theorem witness_DraftPortsIdentifyOpenAndAnswer_0 : ∃ (s : State) (m : DapMsg),
    let b := dapRequest m 0x01
    m.transport = .t1s ∧
    m.hopLimit = 255 ∧
    s.power.draftUp = true ∧
    b.length = 20 ∧
    headerOk b 0 = true ∧
    at_ b 4 12 = 0 ∧
    at_ b 1 1 = 1 :=
  ⟨up, { dapMsg 0 [] with session := 0 },
    by decide +kernel⟩

theorem witness_DraftPortsIdentifyOpenAndAnswer_1 : ∃ (s : State) (m : DapMsg) (r : Role),
    let b := dapRequest m 0x02
    let body := bodyOfMsg b
    m.transport = .t1s ∧
    m.hopLimit = 255 ∧
    m.multicast = false ∧
    s.power.draftUp = true ∧
    52 ≤ b.length ∧
    b.length ≤ 1232 ∧
    at_ b 1 1 = 2 ∧
    s.sec.owned = true ∧
    roleOf (at_ body 1 1) (at_ body 0 1) = some r ∧
    at_ body 1 1 ≤ 1 ∧
    tagOk (s.sec.key (at_ body 1 1 == 1)) b = true :=
  ⟨session1, signed 2 (dapMsg 0 [1, 0, 0, 0]), .operate,
    by decide +kernel⟩

theorem witness_DraftPortsIdentifyOpenAndAnswer_2 : ∃ (s : State) (n : BitVec 32),
    s.power.draftUp = true ∧
    (s.draft.session n).isSome = true :=
  ⟨session1, 1,
    by decide +kernel⟩

theorem witness_DraftPortsIdentifyOpenAndAnswer_3 : ∃ (s : State) (v : BitVec 32),
    let n := v.toNat % 65536
    s.power.draftUp = true ∧
    s.obj 0x1100 4 1 ≠ 0 ∧
    s.mailbox.busy = false ∧
    s.mailbox.respReady = false ∧
    20 ≤ n ∧
    n ≤ 1232 :=
  ⟨mailState, 20,
    by decide +kernel⟩

theorem witness_DraftPortsIdentifyOpenAndAnswer_4 : ∃ (s : State) (v : BitVec 32),
    s.power.draftUp = true ∧
    v.getLsbD 0 = true :=
  ⟨up, 1,
    by decide +kernel⟩

/-- A request of session 1 with body `b`. -/
def ask (k : Byte) (b : List Byte) : DapMsg := signed k (dapMsg 1 b)

/-- The row of the object that a body names. -/
def rowOf (b : List Byte) : ObjRow := match rowFor .own (objOf b) with
  | .ok r => r
  | .error _ => { iLo := 0, iHi := 0, sLo := 0, sHi := 0, ty := 0, acc := 0, priv := 0, pers := false, bind := false
                  len := 0, dflt := 0 }

theorem row_ok {r : Role} {o : ObjId} (b : List Byte) (hr : r = .own) (ho : o = objOf b)
    (h : (rowFor .own (objOf b)).isOk = true) : rowFor r o = .ok (rowOf b) := by
  subst hr ho
  unfold rowOf
  cases h' : rowFor .own (objOf b) with
  | error _ => simp [h', Except.isOk, Except.toBool] at h
  | ok r => rfl

theorem witness_SessionRequestsRunAndAreAnswered_0 : ∃ (s : State) (m : DapMsg) (c : (DapMsg → Instr) ×
      Byte) (x : Session),
    c ∈ [(Instr.sessionClose, 0x03), (.read, 0x10), (.write, 0x11), (.describe, 0x12), (.enumerate, 0x13),
      (.arm, 0x20), (.armAtStep, 0x20), (.armCancel, 0x20), (.discard, 0x21), (.stagedList, 0x22),
      (.eventRead, 0x30), (.spdmTunnel, 0x40)] ∧
    Safety.requestSound s m c.2 x = true :=
  ⟨session1, ask 0x12 [0, 0x10, 1], (.describe, 0x12), session1Rec,
    by simp, by decide +kernel⟩

theorem witness_SessionRequestsRunAndAreAnswered_1 : ∃ (s : State) (m : DapMsg) (k : Byte) (x : Session),
    [0x01, 0x02, 0x03, 0x10, 0x11, 0x12, 0x13, 0x20, 0x21, 0x22, 0x30, 0x40].contains k.toNat = false ∧
    Safety.requestNew s m k x = true :=
  ⟨session1, ask 0x7F [], 0x7F, session1Rec,
    by decide +kernel⟩

theorem witness_SessionRequestsRunAndAreAnswered_2 : ∃ (s : State) (m : DapMsg) (x : Session),
    Safety.requestSound s m 0x03 x = true :=
  ⟨session1, ask 0x03 [], session1Rec,
    by decide +kernel⟩

theorem witness_SessionRequestsRunAndAreAnswered_3 : ∃ (s : State) (m : DapMsg) (x : Session) (r : ObjRow),
    let b := bodyOfMsg (dapRequest m 0x10)
    let u := Safety.requestState s m 0x10 x
    let o := objOf b
    let off := at_ b 4 4
    let v := (if at_ b 3 1 = 1 then u.draft.stagedCopy o.key else none).getD (u.value o r)
    Safety.requestSound s m 0x10 x = true ∧
    rowFor x.role o = .ok r ∧
    r.acc ≠ accWO ∧
    r.acc ≠ accCmd ∧
    off ≤ v.length ∧
    (r.ty = tyDomain ∨ off = 0) :=
  ⟨session1, ask 0x10 [0, 0x10, 1, 0, 0, 0, 0, 0, 32, 0], session1Rec, rowOf [0, 0x10, 1, 0, 0, 0, 0, 0,
      32, 0],
    by decide +kernel, row_ok [0, 0x10, 1, 0, 0, 0, 0, 0, 32, 0] rfl (by decide +kernel) (by
      decide +kernel), by decide +kernel, by decide +kernel, by decide +kernel, by decide +kernel⟩

theorem witness_SessionRequestsRunAndAreAnswered_4 : ∃ (s : State) (m : DapMsg) (x : Session) (r : ObjRow),
    let b := bodyOfMsg (dapRequest m 0x11)
    let u := Safety.requestState s m 0x11 x
    let o := objOf b
    let v := b.drop 10
    Safety.requestSound s m 0x11 x = true ∧
    rowFor x.role o = .ok r ∧
    r.acc = accRWS ∧
    r.ty ≠ tyDomain ∧
    v.length = r.len ∧
    at_ b 4 4 = 0 ∧
    u.draft.mayStage x.num = true ∧
    (r.ty ≠ tyBool ∨ leNat v ≤ 1) :=
  ⟨session1, ask 0x11 [1, 0x58, 1, 0, 0, 0, 0, 0, 1, 0, 1], session1Rec, rowOf [1, 0x58, 1, 0, 0, 0, 0, 0,
      1, 0, 1],
    by decide +kernel, row_ok [1, 0x58, 1, 0, 0, 0, 0, 0, 1, 0, 1] rfl (by decide +kernel) (by
      decide +kernel), by decide +kernel⟩

theorem witness_SessionRequestsRunAndAreAnswered_5 : ∃ (s : State) (m : DapMsg) (x : Session) (r : ObjRow),
    let o := objOf (bodyOfMsg (dapRequest m 0x12))
    Safety.requestSound s m 0x12 x = true ∧
    rowFor x.role o = .ok r :=
  ⟨session1, ask 0x12 [0, 0x10, 1], session1Rec, rowOf [0, 0x10, 1],
    by decide +kernel, row_ok [0, 0x10, 1] rfl (by decide +kernel) (by decide +kernel)⟩

theorem witness_SessionRequestsRunAndAreAnswered_6 : ∃ (s : State) (m : DapMsg) (x : Session),
    let b := bodyOfMsg (dapRequest m 0x13)
    Safety.requestSound s m 0x13 x = true ∧
    1 ≤ at_ b 3 1 ∧
    at_ b 3 1 ≤ 64 :=
  ⟨session1, ask 0x13 [0, 0x10, 1, 64], session1Rec,
    by decide +kernel⟩

theorem witness_SessionRequestsRunAndAreAnswered_7 : ∃ (s : State) (m : DapMsg) (x : Session),
    let b := bodyOfMsg (dapRequest m 0x20)
    let u := Safety.requestState s m 0x20 x
    let f := at_ b 0 1
    Safety.requestSound s m 0x20 x = true ∧
    bitOf f 1 = false ∧
    (u.draft.stagingSess = x.num ∨ (u.draft.stagingSess = 0 ∧ x.role = .own)) ∧
    u.draft.epoch ≠ 0xFFFFFFFF ∧
    u.draft.pending = none ∧
    u.journalUp = true ∧
    bitOf f 0 = false ∧
    u.firstFault false = none :=
  ⟨session1, ask 0x20 (List.replicate 16 0), session1Rec,
    by decide +kernel⟩

theorem witness_SessionRequestsRunAndAreAnswered_8 : ∃ (s : State) (m : DapMsg) (x : Session),
    let b := bodyOfMsg (dapRequest m 0x20)
    let u := Safety.requestState s m 0x20 x
    let f := at_ b 0 1
    Safety.requestSound s m 0x20 x = true ∧
    bitOf f 1 = false ∧
    (u.draft.stagingSess = x.num ∨ (u.draft.stagingSess = 0 ∧ x.role = .own)) ∧
    u.draft.epoch ≠ 0xFFFFFFFF ∧
    u.draft.pending = none ∧
    u.journalUp = true ∧
    bitOf f 0 = true ∧
    u.draft.deviceStep < at_ b 8 8 ∧
    u.stepsBehind = false ∧
    u.firstFault true = none :=
  ⟨session1, ask 0x20 ([1] ++ List.replicate 7 0 ++ toLe 8 9), session1Rec,
    by decide +kernel⟩

theorem witness_SessionRequestsRunAndAreAnswered_9 : ∃ (s : State) (m : DapMsg) (x : Session) (k : _),
    let b := bodyOfMsg (dapRequest m 0x20)
    let u := Safety.requestState s m 0x20 x
    let f := at_ b 0 1
    Safety.requestSound s m 0x20 x = true ∧
    bitOf f 1 = true ∧
    u.draft.pending = some k ∧
    (x.role = .own ∨ k.byWhom = x.num) ∧
    u.journalUp = true :=
  ⟨{ session1 with draft := { session1.draft with pending := some armed } }, ask 0x20 ([2] ++
      List.replicate 15 0), session1Rec, armed,
    by decide +kernel⟩

theorem witness_SessionRequestsRunAndAreAnswered_10 : ∃ (s : State) (m : DapMsg) (x : Session),
    let u := Safety.requestState s m 0x21 x
    Safety.requestSound s m 0x21 x = true ∧
    (u.draft.stagingSess = x.num ∨ x.role = .own) :=
  ⟨session1, ask 0x21 [], session1Rec,
    by decide +kernel⟩

theorem witness_SessionRequestsRunAndAreAnswered_11 : ∃ (s : State) (m : DapMsg) (x : Session),
    let b := bodyOfMsg (dapRequest m 0x22)
    Safety.requestSound s m 0x22 x = true ∧
    1 ≤ at_ b 3 1 ∧
    at_ b 3 1 ≤ 64 :=
  ⟨session1, ask 0x22 [0, 0, 0, 1], session1Rec,
    by decide +kernel⟩

theorem witness_SessionRequestsRunAndAreAnswered_12 : ∃ (s : State) (m : DapMsg) (x : Session),
    let b := bodyOfMsg (dapRequest m 0x30)
    Safety.requestSound s m 0x30 x = true ∧
    1 ≤ at_ b 4 1 ∧
    at_ b 4 1 ≤ 32 :=
  ⟨session1, ask 0x30 [0, 0, 0, 0, 32], session1Rec,
    by decide +kernel⟩

theorem witness_SessionRequestsRunAndAreAnswered_13 : ∃ (s : State) (m : DapMsg) (x : Session),
    Safety.requestSound s m 0x40 x = true :=
  ⟨session1, ask 0x40 [0x12, 0x84, 0, 0], session1Rec,
    by decide +kernel⟩

theorem witness_ManagementMessagesAreAnswered_0 : ∃ (s : State),
    s.mctpUp = true :=
  ⟨up,
    by decide +kernel⟩

theorem witness_ManagementMessagesAreAnswered_1 : ∃ (s : State) (m : SpdmMsg) (c : (SpdmMsg → Instr) ×
      Byte),
    c ∈ [(Instr.getVersion, 0x84), (.getCapabilities, 0xE1), (.negotiateAlgorithms, 0xE3), (.getDigests,
      0x81), (.getCertificate, 0x82), (.challenge, 0x83), (.getMeasurements, 0xE0), (.chunkSend, 0x85),
      (.chunkGet, 0x86)] ∧
    m.transport = .mctp ∧
    s.mctpUp = true :=
  ⟨up, { transport := .mctp, version := 0x10, param1 := 0, param2 := 0, rest := [] }, (Instr.getVersion,
      0x84),
    by simp, by decide +kernel, by decide +kernel⟩

theorem witness_ManagementMessagesAreAnswered_2 : ∃ (s : State) (m : SpdmMsg),
    m.transport = .mctp ∧
    s.mctpUp = true :=
  ⟨up, { transport := .mctp, version := 0x13, param1 := 0, param2 := 0, rest := [] },
    by decide +kernel⟩

theorem witness_CounterClearsZeroTheirIndices_0 : ∃ (s : State) (c : (Byte → Instr) × Nat × Nat),
    c ∈ [(Instr.fmtCountersClear, 0x7820, 0x7820), (.loomCountersClear, 0x7830, 0x7849),
      (.vecCountersClear, 0x7851, 0x7871), (.reedCountersClear, 0x7880, 0x7899), (.bwdCountersClear,
      0x78A1, 0x78BB), (.updCountersClear, 0x78C1, 0x78C1), (.strCountersClear, 0x78E1, 0x78FA),
      (.pruCountersClear, 0x7931, 0x7939), (.dftCountersClear, 0x7941, 0x7941), (.recCountersClear, 0x7951,
      0x7951), (.secCountersClear, 0x7971, 0x7971), (.pwrCountersClear, 0x7981, 0x7981),
      (.modCountersClear, 0x7991, 0x7991)] ∧
    s.power.draftUp = true :=
  ⟨up, (Instr.modCountersClear, 0x7991, 0x7991),
    by simp, by decide +kernel⟩

theorem witness_CounterClearsZeroTheirIndices_1 : ∃ (s : State) (c : (Byte → Instr) × Nat × Nat),
    c ∈ [(Instr.cohCountersClear, 0x7911, 0x7919), (.templeCountersClear, 0x78D1, 0x78D1),
      (.hstCountersClear, 0x7921, 0x7921), (.tirCountersClear, 0x7901, 0x7909)] ∧
    s.power.draftUp = true :=
  ⟨up, (Instr.tirCountersClear, 0x7901, 0x7909),
    by simp, by decide +kernel⟩

theorem witness_CounterClearsZeroTheirIndices_2 : ∃ (j : Nat),
    j < 256 :=
  ⟨255,
    by decide +kernel⟩

theorem witness_CommitCommandsTakeEffect_0 : ∃ (s : State) (a : BitVec 64) (p : BitVec 64),
    s.power.draftUp = true ∧
    s.commitReason a.toNat p.toNat = (0, 0) ∧
    s.journal.accepting = true :=
  ⟨commitState, 0x50000, 0,
    by decide +kernel⟩

theorem witness_CommitCommandsTakeEffect_1 : ∃ (s : State) (i : BitVec 32) (n : BitVec 32) (a : BitVec 64),
    s.power.draftUp = true ∧
    s.journalUp = true ∧
    (∀ k, k < n.toNat → s.readable (a.toNat + 24 * k) 24 = true ∧ s.restoreReason (i.toNat + k)
      (s.restoreEntry a.toNat k).2.2 = 0) :=
  ⟨restoreState, 0, 1, 0x50000,
    by decide +kernel⟩

theorem witness_CommitCommandsTakeEffect_2 : ∃ (s : State) (n : BitVec 64),
    s.power.draftUp = true ∧
    s.outcomeOf n.toNat = none :=
  ⟨up, 5,
    by decide +kernel⟩

theorem witness_CommitCommandsTakeEffect_3 : ∃ (s : State) (n : BitVec 64),
    s.power.draftUp = true ∧
    s.journalUp = true ∧
    n.toNat ≠ noStep :=
  ⟨up, 5,
    by decide +kernel⟩

theorem witness_CommitCommandsTakeEffect_4 : ∃ (s : State) (n : BitVec 64),
    s.power.draftUp = true ∧
    s.journalUp = true ∧
    s.commit.last ≠ noStep ∧
    n.toNat ≤ s.commit.last :=
  ⟨{ up with commit := { up.commit with last := 9 } }, 9,
    by decide +kernel⟩

/-- A firmware image of seven components of four bytes, with a signature of zeros. -/
def fwBlob (j : Nat) : List Byte := toLe 4 (j + 1)

def fwImg : List Byte :=
  ascii "KLFW" ++ toLe 4 9 ++ [0, 0xA1, 7, 0] ++ toLe 4 8284 ++ List.replicate 48 0
    ++ (List.range 7).flatMap (fun j => [BitVec.ofNat 8 j, 0, 0, 0] ++ toLe 4 (400 + 4 * j) ++ toLe 4 4 ++ toLe 4 0
        ++ sha256 (fwBlob j))
    ++ (List.range 7).flatMap fwBlob ++ List.replicate 7856 0

theorem fwImg_checks : imgHeaderOk fwImg = true ∧ imgNat fwImg 12 4 = fwImg.length ∧ imgNat fwImg 12 4 = 8284 ∧
    imgCompsOk fwImg = true ∧ imgSvn fwImg = 0 := by decide +kernel

theorem fwImg_digests : (imgComps fwImg).any (fun c => sha256 (slice fwImg c.offset c.length) != c.digest) = false := by
  decide +kernel

theorem fwImg_key : imgComp fwImg 6 =
    some { kind := 6, offset := 424, length := 4, digest := sha256 (fwBlob 6) } := by decide +kernel

theorem witness_FirmwareKeysAndDefaultsTakeEffect_0 : ∃ (s : State) (k : Nat) (b : List Byte),
    s.power.draftUp = true ∧
    b.length ≤ segmentMax ∧
    k + b.length ≤ imageMax ∧
    k = 0 :=
  ⟨up, 0, [7],
    by decide +kernel⟩

theorem witness_FirmwareKeysAndDefaultsTakeEffect_1 : ∃ (s : State) (k : Nat) (b : List Byte),
    s.power.draftUp = true ∧
    b.length ≤ segmentMax ∧
    k + b.length ≤ imageMax ∧
    k ≠ 0 ∧
    s.fw.imageDone = false ∧
    k = s.fw.image.length :=
  ⟨{ up with fw := { up.fw with image := [1] } }, 1, [7],
    by decide +kernel⟩

/-- FW_INSTALL of a whole image whose signature verifies under a vendor key that its certificate names. -/
theorem witness_FirmwareKeysAndDefaultsTakeEffect_2
    (h5 : Config.slhVerify vendorKey (imgManifest fwImg)
      (slice fwImg (fwImg.length - signatureBytes) signatureBytes) = true)
    (h7 : Config.certKey (slice fwImg 424 4) = vendorKey) :
    ∃ s : State, s.power.draftUp = true ∧ imageCheck s.fw.image s.fw.imageDone (s.arCounter 0) = 0 ∧
      s.journalUp = true := by
  refine ⟨{ up with fw := { up.fw with image := fwImg, imageDone := true } }, by decide +kernel, ?_, by decide +kernel⟩
  obtain ⟨c1, c2, c3, c4, c5⟩ := fwImg_checks
  have ha : ({ up with fw := { up.fw with image := fwImg, imageDone := true } } : State).arCounter 0 = 0 := by
    decide +kernel
  rw [ha]
  rw [← c2, c3] at h5
  show imageCheck fwImg true 0 = 0
  unfold imageCheck
  simp [c1, c3, c4, c5, fwImg_digests, fwImg_key, h5, h7, ← c2]

theorem witness_FirmwareKeysAndDefaultsTakeEffect_3 : ∃ (s : State) (img : List Byte),
    let k := 1 - s.fwActive
    s.power.draftUp = true ∧
    s.fw.slot k = some img ∧
    s.arCounter 0 ≤ imgSvn img ∧
    s.journalUp = true :=
  ⟨{ up with fw := { up.fw with slotB := some [] } }, [],
    by decide +kernel⟩

theorem witness_FirmwareKeysAndDefaultsTakeEffect_4 : ∃ (s : State) (k : List Byte),
    s.power.draftUp = true ∧
    s.keyResult k = .ok :=
  ⟨up, List.replicate 32 1,
    by decide +kernel⟩

theorem witness_FirmwareKeysAndDefaultsTakeEffect_5 : ∃ (s : State),
    s.power.draftUp = true ∧
    s.leases.any (fun e => e.2.state != .free) = false ∧
    s.arCounter 1 < 64 ∧
    s.journalUp = true :=
  ⟨{ up with leases := [] },
    by decide +kernel⟩

theorem witness_FirmwareKeysAndDefaultsTakeEffect_6 : ∃ (s : State) (n : BitVec 32),
    s.power.draftUp = true ∧
    s.draft.sessions.any (fun x => x.num == n) = true ∧
    s.draft.mayStage n = true :=
  ⟨session1, 1,
    by decide +kernel⟩

theorem witness_StartsResetsAndPowerLoss_0 : ∃ (s : State),
    s.power.mode = .off :=
  ⟨State.reset,
    by decide +kernel⟩

theorem witness_StartsResetsAndPowerLoss_1 : ∃ (s : State),
    s.power.draftUp = true :=
  ⟨up,
    by decide +kernel⟩

theorem witness_StartsResetsAndPowerLoss_2 : ∃ (s : State),
    s.power.mode = .resetHeld :=
  ⟨{ up with power := { up.power with mode := .resetHeld } },
    by decide +kernel⟩

theorem witness_StartsResetsAndPowerLoss_3 : ∃ (s : State),
    s.power.mode ≠ .resetHeld ∧
    s.power.resetPending = true :=
  ⟨{ up with power := { up.power with resetPending := true } },
    by decide +kernel⟩

theorem witness_StartsResetsAndPowerLoss_4 : ∃ (s : State) (n : Nat),
    s.power.mode = .running ∧
    1000 ≤ n :=
  ⟨up, 1000,
    by decide +kernel⟩

theorem witness_StartsResetsAndPowerLoss_5 : ∃ (s : State) (n : Nat),
    s.power.mode = .running ∧
    n < 900 :=
  ⟨up, 899,
    by decide +kernel⟩

theorem witness_StartsResetsAndPowerLoss_6 : ∃ (s : State) (v : Nat),
    s.stagesUp = true ∧
    v < 62000 :=
  ⟨up, 61999,
    by decide +kernel⟩

theorem witness_StartsResetsAndPowerLoss_7 : ∃ (s : State) (v : Nat),
    s.stagesUp = true ∧
    v < 59000 :=
  ⟨up, 58999,
    by decide +kernel⟩

theorem witness_StartsResetsAndPowerLoss_8 : ∃ (s : State) (v : Nat),
    s.stagesUp = true ∧
    5000 ≤ v :=
  ⟨up, 5000,
    by decide +kernel⟩

theorem witness_StartsResetsAndPowerLoss_9 : ∃ (s : State) (v : Nat),
    s.stagesUp = true ∧
    82000 < v :=
  ⟨up, 82001,
    by decide +kernel⟩

theorem witness_StartsResetsAndPowerLoss_10 : ∃ (s : State) (t : Int),
    s.stagesUp = true ∧
    1150 < t :=
  ⟨up, 1151,
    by decide +kernel⟩

theorem witness_StartsResetsAndPowerLoss_11 : ∃ (s : State),
    (s.power.mode = .halted ∨ s.power.mode = .thermalOff) :=
  ⟨{ up with power := { up.power with mode := .thermalOff } },
    by decide +kernel⟩

theorem witness_StartsResetsAndPowerLoss_12 : ∃ (s : State) (k : Nat),
    s.stagesUp = true ∧
    k < 7 ∧
    s.power.stageFailed.contains k = false :=
  ⟨up, 6,
    by decide +kernel⟩

theorem witness_ClocksAndSensorsChangeTheirState_0 : ∃ (s : State),
    s.power.draftUp = true ∧
    s.rootLocked (1 - s.power.clockRoot) = true :=
  ⟨{ up with power := { up.power with rootLock := 3 } },
    by decide +kernel⟩

theorem witness_ClocksAndSensorsChangeTheirState_1 : ∃ (s : State),
    s.power.draftUp = true ∧
    s.rootLocked s.power.clockRoot = true :=
  ⟨{ up with power := { up.power with rootLock := 3 } },
    by decide +kernel⟩

theorem witness_ClocksAndSensorsChangeTheirState_2 : ∃ (s : State),
    s.power.draftUp = true :=
  ⟨up,
    by decide +kernel⟩

theorem witness_ClocksAndSensorsChangeTheirState_3 : ∃ (s : State) (a : Nat) (b : Nat),
    s.power.draftUp = true ∧
    s.mgmtIn 0 = some a ∧
    s.mgmtIn 3 = some b :=
  ⟨up, 96, 97,
    by decide +kernel⟩

theorem witness_ClocksAndSensorsChangeTheirState_4 : ∃ (s : State),
    s.stagesUp = true :=
  ⟨up,
    by decide +kernel⟩

theorem witness_ClocksAndSensorsChangeTheirState_5 : ∃ (s : State) (v : Nat),
    s.stagesUp = true ∧
    s.power.draftUp = true ∧
    60000 ≤ v ∧
    v < 62000 :=
  ⟨up, 60000,
    by decide +kernel⟩

theorem witness_ClocksAndSensorsChangeTheirState_6 : ∃ (s : State) (v : Nat),
    s.stagesUp = true ∧
    s.power.draftUp = true ∧
    80000 < v ∧
    v ≤ 82000 :=
  ⟨up, 82000,
    by decide +kernel⟩

theorem witness_ClocksAndSensorsChangeTheirState_7 : ∃ (s : State),
    s.ready = true :=
  ⟨up,
    by decide +kernel⟩

theorem witness_ClocksAndSensorsChangeTheirState_8 : ∃ (s : State) (mj : Nat),
    s.power.draftUp = true ∧
    mj < holdupFloor :=
  ⟨up, 0,
    by decide +kernel⟩

theorem witness_ClocksAndSensorsChangeTheirState_9 : ∃ (s : State) (f : Nat),
    s.power.draftUp = true ∧
    f < 800 :=
  ⟨up, 799,
    by decide +kernel⟩

theorem witness_ClocksAndSensorsChangeTheirState_10 : ∃ (s : State) (t : Int),
    s.power.draftUp = true ∧
    350 < t :=
  ⟨up, 351,
    by decide +kernel⟩

theorem witness_JournalAndRepairEventsAreKept_1 : ∃ (s : State),
    s.journalUp = true ∧
    s.ckptInterval ≤ s.journal.sinceCkpt :=
  ⟨{ up with journal := { up.journal with sinceCkpt := 2 ^ 30 } },
    by decide +kernel⟩

theorem witness_JournalAndRepairEventsAreKept_2 : ∃ (s : State),
    s.power.draftUp = true :=
  ⟨up,
    by decide +kernel⟩

theorem witness_JournalAndRepairEventsAreKept_3 : ∃ (s : State) (k : Nat),
    s.power.draftUp = true ∧
    k < 2 :=
  ⟨up, 1,
    by decide +kernel⟩

theorem witness_JournalAndRepairEventsAreKept_4 : ∃ (s : State) (k : Nat) (a : Nat) (b : Nat),
    s.journalUp = true ∧
    k < 2 ∧
    (s.journal.nand k).failed = false ∧
    (s.journal.nand k).relocation = some (a, b) :=
  ⟨{ up with journal := { up.journal with nand0 := wornNand } }, 0, 8, 9,
    by decide +kernel, by decide +kernel, by decide +kernel, worn_relocation⟩

theorem witness_JournalAndRepairEventsAreKept_5 : ∃ (s : State) (d : Nat),
    s.power.draftUp = true ∧
    memoryDies.contains d = true :=
  ⟨up, 0x22,
    by decide +kernel⟩

/-! ### Ill-formed commands, one or more for each check -/

def badDap : DapMsg := dapMsg 0 []
def longDap : DapMsg := dapMsg 0 (List.replicate 1181 0)
def farHdr : XHdr := { stranger with src := 12288 }
def atom4 : AtomicOp := { op := 0, width := 4, operand := 1, compare := 0 }

theorem test_wf_refuses_widths : [Instr.sqDb 0 24 0, .cqDb 0 0 0, .registerWrite .bar0 2 32 0, .registerWrite .bar0 0 128 0].all
    (fun i => !i.wf) = true := by decide

theorem test_wf_refuses_units : [Instr.mcastDelivery 0 0 26 0, .pickAccept 0 8, .pickComplete 26 7, .slotEmpty 25 256,
    .vecInstructionComplete 3 16, .ecall 0 64 0 0, .seqAccessFault 26 0 .poisonedLoad, .tiSubmit 0 64 0 0 0,
    .tiWait 26 0 0 0, .tiPoll 0 64 0 0, .tiStep 26 0 0, .tiFence 0 64, .controlCoreRetire 26 63, .treadleGrant 26,
    .t2LateThresholdExpiry 8 .retrain 0, .hubRetire 8, .nandDieFail 2, .wearLevelRelocation 2, .stageFailure 7,
    .hartStart 256 0 0].all (fun i => !i.wf) = true := by decide

theorem test_wf_refuses_numbers : [Instr.stashRoomFreed 1024, .moveEnds 4096, .demotionRetry 4096, .laneTrained 128,
    .nak 128 0, .laneFail 128, .laneMarker 0 0 0 0 [0], .flitReceive 0 (block [0]), .put farHdr putRec,
    .xactTimeoutExpiry 12288, .ethRtoExpiry 12288, .badCommand .hostBlock 6,
    .ethFrameReceive (List.replicate 8271 0)].all (fun i => !i.wf) = true := by decide +kernel

theorem test_wf_refuses_lines : [Instr.rdS 42 ⟨0, 0, false⟩, .rdX 0 ⟨0, 64⟩, .snpX 0 ⟨0, [1]⟩, .upg 0 ⟨2 ^ 42, 0⟩, .atomN 0 0 61 atom4, .rdNc (2 ^ 42), .wrNc 0 0 [0],
    .data 0 (2 ^ 42), .agentDead 42, .birsp 0 (some [0]) false, .cxlCacheResponse (2 ^ 42) none, .memwr 0 0 [] false].all
    (fun i => !i.wf) = true := by decide

theorem test_wf_refuses_messages : [Instr.identify longDap, .sessionOpen badDap, .unknownMtype 0 badDap,
    .neighborSolicitation [] (List.replicate 16 0) 255, .echoRequest (List.replicate 16 0) [] [], .ownerKey [],
    .operatorKey [0]].all (fun i => !i.wf) = true := by decide +kernel

theorem test_wf_accepts_limits : [Instr.sqDb 0xFFFF 64 0, .pickAccept 25 7, .ecall 25 63 0 0, .laneTrained 127,
    .atomN 41 (2 ^ 42 - 1) 60 atom4, .registerWrite .bar0 8 64 0, .badCommand .localBlock 0, .put stranger putRec,
    .hartStart 255 0 0, .ownerKey key7].all Instr.wf = true := by decide

/-! ### Worked examples of the manual and of the standards it names -/

/-- CRC-32C of the digits 1 to 9 (R5, R448). -/
theorem test_crc32c_check : crc32c (ascii "123456789") = 0xE3069283#32 := by decide +kernel

/-- SHA-256 of "abc" (FIPS 180-4). -/
theorem test_sha256_abc : leNat (sha256 (ascii "abc")).reverse =
    0xBA7816BF8F01CFEA414140DE5DAE2223B00361A396177A9CB410FF61F20015AD := by decide +kernel

/-- SHA-256 of a message of two blocks (FIPS 180-4). -/
theorem test_sha256_two_blocks :
    leNat (sha256 (ascii "abcdbcdecdefdefgefghfghighijhijkijkljklmklmnlmnomnopnopq")).reverse =
    0x248D6A61D20638B8E5C026930C3E6039A33CE45964FF2167F6ECEDD419DB06C1 := by decide +kernel

/-- HMAC-SHA-256 of the second case of RFC 4231. -/
theorem test_hmac_jefe : leNat (hmac256 (ascii "Jefe") (ascii "what do ya want for nothing?")).reverse =
    0x5BDCC146BF60754E6A042426089575C75A003F089D2739839DEC58B964EC3843 := by decide +kernel

/-- The reduction group of 02's example: products 0 to 7 at exponent -11, 8 to 15 at -23. -/
def exampleGroup (g : Nat) : List Term :=
  let p := fun (a b : Int) => prodTerm g (.exp (-6)) (.exp (-5)) (.val a) (.val b)
  let q := fun (a b : Int) => prodTerm g (.exp (-20)) (.exp (-3)) (.val a) (.val b)
  [p 100 50, p 0 1, p 0 0, p (-37) 12, p 0 0, p 0 0, p 0 0, p 0 0, q 0 0, q 120 (-1), q 0 0, q 0 0, q 7 3, q 0 0,
   q (-1) 2, q 1 2]

theorem test_group_native : groupOf false (exampleGroup 8) = (.num 1166328 (-19), false) := by decide

/-- The same group in tabby mode (08). -/
theorem test_group_tabby : groupOf true (exampleGroup 4) = (.num 72894 (-15), false) := by decide

def rne : Rounding := { rne := true, fixed := none, step := 0, tensor := 0, seed := 0 }

/-- 02: eight sums at exponent -19 requantized to SK8. -/
theorem test_requant_sk8 :
    requantSkein .sk8 rne (([1166328, -300000, 24576, 8192, -2048, 1, 0, -40960] : List Int).map
      (fun v => (.num v (-19), 0))) =
    ({ scale := 0xFB, mants := some ([71, -18, 2, 0, 0, 0, 0, -2].map .val) },
     { FmtCounts.zero with crushed := 3 }) := by decide +kernel

/-- 02: eight binary16 values converted to SK4. -/
theorem test_convert_sk4 :
    requantSkein .sk4 rne ([0x3C00, 0xC500, 0x3400, 0x7E00, 0x0001, 0x8000, 0x4600, 0x3E00].map
      (fun v => (convertValue 1 v, 0))) =
    ({ scale := 0x00, mants := some [.val 1, .val (-5), .val 0, .nar, .val 0, .val 0, .val 6, .val 2] },
     { FmtCounts.zero with crushed := 2, nar := 1 }) := by decide +kernel

/-- 04: an SK8 sum with a bias at another scale, and its output skein. -/
theorem test_vector_add :
    (([(12, 16), (-3, 8), (0, -5), (100, 127), (1, -127), (-1, 3), (64, 0), (7, 1)] : List (Int × Int)).map (fun p =>
      (groupOf false [elemTerm 8 .sk8 (.exp (-5)) (.val p.1), elemTerm 8 .sk8 (.exp (-9)) (.val p.2)]).1)) =
    ([3328, -640, -80, 27632, -1776, -208, 16384, 1808] : List Int).map (fun v => .num v (-13)) := by decide

theorem test_vector_add_skein :
    requantSkein .sk8 rne (([3328, -640, -80, 27632, -1776, -208, 16384, 1808] : List Int).map
      (fun v => (.num v (-13), 0))) =
    ({ scale := 0xFB, mants := some ([13, -2, 0, 108, -7, -1, 64, 7].map .val) },
     { FmtCounts.zero with crushed := 1 }) := by decide +kernel

/-- 03: the piece products of one term under PRODUCT 2 and PRODUCT 3. -/
theorem test_piece_products :
    let h : Scale := .exp (-5)
    let l : Scale := .exp (-20)
    let three := [prodTerm 8 h h (.val 3) (.val 2), prodTerm 8 h l (.val 3) (.val 7), prodTerm 8 l h (.val (-5)) (.val 2)]
    groupOf false three = (.num 1535 (-18), false) ∧
      groupOf false (three ++ [prodTerm 8 l l (.val (-5)) (.val 7)]) = (.num 1534 (-18), false) := by decide

/-- 07: the curve of three knots. -/
theorem test_curve :
    [500, 3000, 9000, 20000].map (curveStep [(0, 0), (1000, 6144), (9000, 614)]) = [3072, 4761, 614, 614] := by decide

/-- Bin counts with C_4, C_8 and C_16 among 1,000,000 elements. -/
def binsOf (c4 c8 c16 : Nat) : List Nat :=
  [1000000 - c4, 0, 0, 0, c4 - c8, 0, 0, 0, c8 - c16, 0, 0, 0, 0, 0, 0, 0, c16]

/-- 08: three layers under LOSS_LIMIT 1,024 and NARROW_AFTER 64. -/
theorem test_layer_formats :
    layerStep (binsOf 40000 500 0) 1 12 1024 2 64 = (1, 0, false) ∧
    layerStep (binsOf 41000 2000 3) 1 0 1024 2 64 = (0, 0, false) ∧
    layerStep (binsOf 900 40 0) 1 63 1024 2 64 = (2, 0, false) := by decide

/-- 13: domain lanes between devices 5 and 9 of 16. -/
theorem test_domain_lanes :
    [8, 23, 38, 53].map (domainLanePeer 16 5) = [some (9, 0), some (9, 1), some (9, 2), some (9, 3)] ∧
    [5, 20, 35, 50].map (domainLanePeer 16 9) = [some (5, 0), some (5, 1), some (5, 2), some (5, 3)] ∧
    [60, 63].map (domainLanePeer 16 5) = [none, none] := by decide

/-- 13: an ACC64 reduction over three devices. -/
theorem test_reduce_three :
    ([(1000000, 250000, 8000000), (-5, 7, 100), (0, -1, 9), (3, 0, -9)] : List (Int × Int × Int)).map (fun t =>
      reduceElem 2 [(.exp (-30), .val t.1), (.exp (-28), .val t.2.1), (.exp (-33), .val t.2.2)]) =
    ([187500, 0, -1, -1] : List Int).map (fun v => .num v (-26)) := by decide

/-- A BAR2 of 1 TiB with apertures 0 to 9 in use, and the parameters of a region of 600 MiB. -/
def regionState : State :=
  { up with
    host := { up.host with
      bar2Size := 2 ^ 40, regions := [(0, { hostRegion with apertures := 10 })]
      adminLocal := { Admin.init with
        lease := 1, region := 7, target := 0x40000000, length := 600 * 2 ^ 20, aflags := 8 } }
    leases := [(1, { lease1 with t1Bytes := 2 ^ 32, t1Quota := 2 ^ 32 })] }

/-- 12: the region takes apertures 10 to 12. -/
theorem test_region_apertures :
    (match exec (.regionRegister .localBlock) regionState with
      | .next u => (u.host.adminLocal.result, (Tab.find u.host.regions 7).map (fun g => (g.first, g.apertures)))
      | _ => (1, none)) = (0, some (10, 3)) := by decide +kernel

/-- 00: VEC_EW1 without rows is DONE_EMPTY (0x01) when its fields are legal, and BAD_FIELD (0x12) when
OPF_A has SIZE 0. -/
def ew1Status (opf : Nat) : Option Byte :=
  let b := body [(17, opf), (19, 3), (22, 3), (28, 1), (32, ds), (44, ds)]
  match exec (.vecEw1 (desc b)) (offer up 0x41 b) with
  | .next t => some (t.byteAt 0x20004)
  | _ => none

theorem test_rows_zero : ew1Status 0x24 = some 0x01 ∧ ew1Status 0x20 = some 0x12 := by decide +kernel

/-- The state of 07's momentum example: rule 0 over one row of two elements, in step 500. -/
def momentumRec : List Byte :=
  let b := toLe 4 0 ++ [0, 0, 1, 1] ++ toLe 8 499 ++ toLe 8 499 ++ toLe 4 1 ++ toLe 4 2 ++ toLe 4 0 ++ toLe 4 1
    ++ toLe 6 0x40200 ++ toLe 6 0x47000 ++ toLe 6 0x40300 ++ toLe 6 0 ++ toLe 6 0x40400 ++ toLe 6 0
    ++ toLe 6 0x40500 ++ toLe 6 0 ++ toLe 12 0 ++ toLe 4 0 ++ toLe 4 0x7FD ++ List.replicate 32 0 ++ [0, 3, 0x23, 0]
    ++ List.replicate 108 0
  b ++ toLe 4 (crc32c b).toNat

def knot (t : Nat) (v : Nat) : List Byte := toLe 8 t ++ toLe 4 v ++ toLe 4 0

def momentumBody : BitVec 352 := body [(20, 0x23), (21, 2), (24, 500), (32, 499)]

def momentumState : State :=
  let s := fill (offer up 0x81 momentumBody) 0x40000 (momentumRec)
  let s := fill s 0x40200 (recOf 0x41000 0x42000 1 2)
  let s := fill s 0x40300 (recOf 0x43000 0x44000 1 2)
  let s := fill s 0x40400 (recOf 0x45000 0x46000 1 2)
  let s := fill s 0x40500 (toLe 2 3 ++ [0xEC] ++ List.replicate 13 0 ++ knot 0 0 ++ knot 1000 6144 ++ knot 9000 614)
  let s := fill s 0x41000 (toLe 2 30000 ++ toLe 2 1000)
  let s := fill (fill s 0x42000 [0xEC]) 0x43000 [40, 0xFE]
  let s := fill (fill s 0x44000 [0xF4]) 0x45000 [12, 5]
  let s := fill (fill s 0x46000 [0xF7]) 0x47000 [0, 100]
  { s with
    draft := { s.draft with active := [(objKey 0x4000 1, toLe 6 0x40000), (objKey 0x4000 2, [1])] }
    peruo := { s.peruo with outcomes := [(500 % 256, { step := 500, flag := false, members := 1, sum := 0 })] } }

/-- 07: the stored weights, bobbins, moments and scales, GROUP_STEP and LAST_STEP. -/
theorem test_momentum_step :
    (match exec (.updApply (desc momentumBody)) momentumState with
      | .next t => [t.bytesAt 0x41000 4, t.bytesAt 0x42000 1, t.bytesAt 0x43000 2, t.bytesAt 0x44000 1,
          t.bytesAt 0x47000 2, t.bytesAt 0x40008 2, t.bytesAt 0x40010 2]
      | _ => []) =
    [[0x04, 0x75, 0xE2, 0x03], [0xEC], [0x76, 0x10], [0xF3], [0xC0, 0x64], [0xF4, 0x01], [0xF4, 0x01]] := by
  decide +kernel

/-- Table DFT-7 and Table FMT-1: codes of elements at their limits. -/
theorem test_element_codes :
    Fmt.decode .sk8 0x80 = .nar ∧ Fmt.decode .sk8 0x7F = .val 127 ∧ Fmt.decode .sk4 0xF = .val (-1) ∧
    Fmt.decode .sk16 0x8001 = .val (-32767) ∧ Fmt.decode .sk2 0x2 = .nar := by decide

/-- No row of the opcode table gives bits, so no word spells a command and withFetchWord changes nothing. -/
theorem test_no_words : decodeTableWord 8 0x30 = none ∧ up.withFetchWord 8 0x30 = up := ⟨rfl, rfl⟩

end Sys2Proof.Tests
end

section
/-!
PROOF. O8: the record of a completed descriptor stands in its slot of a completion ring in device memory, and no
other byte of memory changes (R9, R294, R295). The laws of an engine's write while the fabric is quiet, of
`State.putRecord` and of the record engine's turns come first; the statement is assembled from them.
-/

namespace Sys2Proof

@[simp] theorem length_toLe (n v : Nat) : (toLe n v).length = n := by
  induction n generalizing v with
  | zero => rfl
  | succ n ih => simp [toLe, ih]

/-- Of two writes at one key the later one stands. -/
@[simp] theorem Tab.write_write_same {α : Type} (t : Tab α) (k : Nat) (v w : α) :
    Tab.write (Tab.write t k v) k w = Tab.write t k w := by
  induction t with
  | nil => simp [Tab.write]
  | cons e r ih =>
    obtain ⟨j, x⟩ := e
    rcases Nat.lt_trichotomy k j with h | h | h
    · simp [Tab.write, h]
    · simp [Tab.write, h]
    · simp [Tab.write, Nat.not_lt.2 h.le, h.ne', ih]

end Sys2Proof

namespace Sys2Proof.Machine

open Sys2Proof

/-! ### Queues that are read back -/

@[simp] theorem queue_setQueue_same (s : State) (q : BitVec 16) (c : QCtx) : (s.setQueue q c).queue q = c := by
  simp [State.queue]

@[simp] theorem setQueue_setQueue_same (s : State) (q : BitVec 16) (c d : QCtx) :
    (s.setQueue q c).setQueue q d = s.setQueue q d := by
  simp [State.setQueue]

theorem queue_congr {s t : State} (h : t.queues = s.queues) (q : BitVec 16) : t.queue q = s.queue q := by
  rw [State.queue, h, State.queue]

/-! ### Operations that leave the queues alone -/

theorem settleLines_queues (s : State) (ls : List Nat) : (s.settleLines ls).queues = s.queues := by
  unfold State.settleLines; split <;> rfl

theorem countTier_queues (s : State) (a n : Nat) (w : Bool) : (s.countTier a n w).queues = s.queues := by
  have one : ∀ l : List Nat, ∀ f : State → Nat → State, (∀ t k, (f t k).queues = t.queues) →
      (l.foldl f s).queues = s.queues := fun l f hf =>
    foldl_keeps (fun t => t.queues = s.queues) f l s rfl (fun t k ht => (hf t k).trans ht)
  unfold State.countTier
  split
  case h_4 => rfl
  all_goals
    refine one _ _ fun t k => ?_
    dsimp only
    split
    · rfl
    · split
      · split <;> simp
      · simp

/-! ### The object window -/

theorem mayOmit_congr {s t : State} (h : t.objects = s.objects) (a : Nat) : t.mayOmit a = s.mayOmit a := by
  simp only [State.mayOmit, State.inTier2, State.objInT1, h]

theorem objWrite_congr {s t : State} (h : t.objects = s.objects) (a : Nat) : t.objWrite a = s.objWrite a := by
  simp only [State.objWrite, h]

theorem encodeRange_of_not_mayOmit (s : State) (a n : Nat) (h : s.mayOmit a = false) :
    s.encodeRange a n = s := by
  unfold State.encodeRange
  split
  · split <;> simp [h]
  · rfl

/-! ### An engine's write while no line has an entry or a request at its home -/

theorem Coh.quiet_iff (c : Coh) : c.quiet = true ↔ c.dir = [] ∧ c.txns = [] ∧ c.waitq = [] := by
  simp [Coh.quiet, and_assoc]

theorem drain_of_quiet (s : State) (lo hi : Nat) (host : Bool) (h : s.coh.quiet = true) :
    s.drain lo hi host = s := by
  obtain ⟨-, htxns, hwaitq⟩ := (Coh.quiet_iff _).1 h
  simp [State.drain, htxns, hwaitq]

theorem recallLine_of_quiet (s : State) (line : Nat) (h : s.coh.quiet = true) : s.recallLine line = s := by
  obtain ⟨hdir, -, -⟩ := (Coh.quiet_iff _).1 h
  simp [State.recallLine, Coh.ownerCopy, Coh.hostOwns, hdir, Tab.find]

theorem objects_of_beside {s t : State} (h : t.beside = s.beside) : t.objects = s.objects :=
  show t.beside.objects = s.beside.objects from congrArg State.objects h

/-- With nothing to serve first and no frame to encode, the bytes go to memory as they are. -/
theorem storeBytes_of_quiet (s : State) (a : Nat) (bs : List Byte) (hq : s.coh.quiet = true)
    (ho : s.mayOmit a = false) :
    (s.storeBytes a bs).mem.cells = cellsPutAll s.mem.cells a bs ∧ (s.storeBytes a bs).queues = s.queues := by
  unfold State.storeBytes
  split
  · rename_i hb; subst hb; exact ⟨rfl, rfl⟩
  · extract_lets n lo hi s1 s2 full s3 s4 s5
    have h1 : s1 = s := by
      simp only [s1, drain_of_quiet s _ _ _ hq, recallLine_of_quiet s _ hq]
    have h3 : s3.mem = s1.mem ∧ s3.queues = s1.queues ∧ s3.beside = s1.beside :=
      ⟨settleLines_mem s2 full, settleLines_queues s2 full, settleLines_beside s2 full⟩
    have h4 : s4.mem = s3.mem ∧ s4.queues = s3.queues ∧ s4.beside = s3.beside := by
      simp only [s4]; split <;> exact ⟨rfl, rfl, rfl⟩
    obtain ⟨hmem3, hqueues3, hbeside3⟩ := h1 ▸ h3
    obtain ⟨hmem4, hqueues4, hbeside4⟩ := h4
    have h5 : s5.mayOmit a = false :=
      (mayOmit_congr (objects_of_beside (hbeside4.trans hbeside3)) a).trans ho
    rw [encodeRange_of_not_mayOmit s5 a n h5]
    exact ⟨by simp only [s5, hmem4, hmem3], hqueues4.trans hqueues3⟩

theorem writeMem_of_quiet (s : State) (a : Nat) (bs : List Byte) (hq : s.coh.quiet = true)
    (ho : s.mayOmit a = false) (hw : inHostWindow a = false) :
    (s.writeMem a bs).mem.cells = cellsPutAll s.mem.cells a bs ∧ (s.writeMem a bs).queues = s.queues := by
  simpa [State.writeMem, hw, countTier_mem, countTier_queues] using storeBytes_of_quiet s a bs hq ho

/-! ### One record in a ring in device memory (R294, R295) -/

@[simp] theorem length_recordBytes (q : BitVec 16) (depth : Nat) (r : CRec) (u p : Bool) :
    (recordBytes q depth r u p).length = 16 := by
  simp [recordBytes]

/-- Slot `n` of the completion ring of queue `q` takes plain bytes of device memory: neither a host, nor a move,
nor a packed or encoded object, nor a cached copy or request stands in the way. -/
structure State.SlotPlain (s : State) (q n : BitVec 16) : Prop where
  device : cqInHost (s.queue q) = false
  outside : inHostWindow ((s.queue q).cqSlot n) = false
  free : s.objWrite ((s.queue q).cqSlot n) = .free
  unencoded : s.mayOmit ((s.queue q).cqSlot n) = false
  quiet : s.coh.quiet = true

/-- Queue `q` with the list `l` of fetched descriptors. -/
def State.withFetched (s : State) (q : BitVec 16) (l : List Fetched) : State :=
  s.setQueue q { s.queue q with fetched := l }

@[simp] theorem queue_withFetched (s : State) (q : BitVec 16) (l : List Fetched) :
    (s.withFetched q l).queue q = { s.queue q with fetched := l } := queue_setQueue_same ..

@[simp] theorem withFetched_withFetched (s : State) (q : BitVec 16) (l m : List Fetched) :
    (s.withFetched q l).withFetched q m = s.withFetched q m := by
  unfold State.withFetched
  rw [setQueue_setQueue_same, queue_setQueue_same]

theorem withFetched_slotPlain {s : State} {q n : BitVec 16} (h : s.SlotPlain q n) (l : List Fetched) :
    (s.withFetched q l).SlotPlain q n := by
  refine ⟨?_, ?_, ?_, ?_, h.quiet⟩ <;> rw [queue_withFetched]
  · exact h.device
  · exact h.outside
  · exact (objWrite_congr rfl _).trans h.free
  · exact (mayOmit_congr rfl _).trans h.unencoded

/-- What `State.putRecord` leaves of the context of a queue whose ring lies in device memory: the result is kept
for its sequence, and both indices stand at the next one. -/
def QCtx.recorded (c : QCtx) (r : CRec) : QCtx :=
  { c with results := Tab.write c.results r.seq.toNat (r.status, r.detail)
           cqWritten := r.seq + 1, cqConfirmed := r.seq + 1 }

theorem putRecord_of_slotPlain (s : State) (q : BitVec 16) (r : CRec) (u p : Bool) (h : s.SlotPlain q r.seq) :
    (s.putRecord q r u p).mem.cells
        = cellsPutAll s.mem.cells ((s.queue q).cqSlot r.seq) (recordBytes q (s.queue q).depth r u p) ∧
      (s.putRecord q r u p).queue q = (s.queue q).recorded r := by
  unfold State.putRecord
  extract_lets c a s1 s2 s3 c3 c4 w c5 s4 s5
  obtain ⟨hmem, hqueues⟩ := writeMem_of_quiet s a (recordBytes q c.depth r u p) h.quiet h.unencoded h.outside
  have h1 : s1 = s.writeMem a (recordBytes q c.depth r u p) := by simp [s1, a, c, h.free]
  have h3 : s3.mem = s1.mem ∧ s3.queues = s1.queues := by
    simp only [s3, s2]; split <;> simp
  have hc3 : c3 = s.queue q := queue_congr (h3.2.trans (h1 ▸ hqueues)) q
  have hc5 : c5 = (s.queue q).recorded r := by
    have hdev : cqInHost c4 = false := (congrArg cqInHost hc3).trans h.device
    simp only [c5, hdev, Bool.false_eq_true, if_false]
    simp only [c4, hc3, QCtx.recorded, w]
  have h5 : s5.mem = s3.mem ∧ s5.queues = (s3.setQueue q c5).queues := by
    simp only [s5, s4]; split <;> simp
  have hdev : cqInHost c5 = false := (congrArg cqInHost hc5).trans h.device
  rw [if_neg (by simp [hdev])]
  refine ⟨?_, ?_⟩
  · rw [h5.1, h3.1, h1, hmem]
  · rw [queue_congr h5.2, queue_setQueue_same, hc5]

/-! ### The record engine (R294) -/

/-- A completed descriptor at the front of an active queue has its record written, when no move holds the
ring. -/
theorem pumpOnce_done (s : State) (q : BitVec 16) (f : Fetched) (r : List Fetched) (st : Byte)
    (d1 d2 : BitVec 32) (hr : (s.queue q).fetched = f :: r) (hp : f.phase = .done st d1 d2)
    (ha : (s.queue q).state = .active) (hh : s.objWrite ((s.queue q).cqSlot f.seq) ≠ .held) :
    s.pumpOnce q = some ((s.withFetched q r).putRecord q (f.record st d1 d2) false false) := by
  have hobj : (s.withFetched q r).objWrite ((s.queue q).cqSlot f.seq) ≠ .held := by
    rwa [objWrite_congr rfl]
  simp only [State.pumpOnce, hr, hp]
  rw [if_neg (by simp [ha])]
  exact if_neg hobj

theorem pumpOnce_empty (s : State) (q : BitVec 16) (hr : (s.queue q).fetched = [])
    (ht : (s.queue q).abortTail = none) : s.pumpOnce q = none := by
  simp only [State.pumpOnce, hr, ht]

theorem pumpFuel_at_rest (s : State) (q : BitVec 16) (n : Nat) (h : s.pumpOnce q = none) :
    s.pumpFuel q n = s := by
  cases n with
  | zero => rfl
  | succ n => simp only [State.pumpFuel, h]

/-- When one turn brings the record engine of a device ring to rest, that turn is all it does. -/
theorem pump_one_turn (s t : State) (q : BitVec 16) (h : s.pumpOnce q = some t) (ht : t.pumpOnce q = none)
    (hc : cqInHost (t.queue q) = false) : s.pump q = t := by
  have hfuel : ∀ n, s.pumpFuel q (n + 1) = t := fun n => by
    simp only [State.pumpFuel, h, pumpFuel_at_rest t q n ht]
  simp only [State.pump, hfuel, hc, Bool.false_eq_true, false_and, if_false]

/-! ### Completion of the only fetched descriptor -/

theorem Fetched.finish_waiting (f : Fetched) (o : Outcm) (h : f.phase = .waiting) :
    f.finish o = { f with phase := .done o.1 o.2.1 o.2.2 } := by
  simp only [Fetched.finish, h]

theorem QCtx.updEntry_only (c : QCtx) (f : Fetched) (g : Fetched → Fetched) (h : c.fetched = [f]) :
    c.updEntry f.seq g = { c with fetched := [g f] } := by
  simp [QCtx.updEntry, h]

/-- Completing the only fetched descriptor of an active queue is writing its record, with nothing left
fetched. -/
theorem complete_only (s : State) (q : BitVec 16) (f : Fetched) (o : Outcm) (h : s.SlotPlain q f.seq)
    (ha : (s.queue q).state = .active) (hr : (s.queue q).fetched = [f]) (hp : f.phase = .waiting)
    (ht : (s.queue q).abortTail = none) :
    s.complete q f.seq o
      = (s.withFetched q []).putRecord q (f.record o.1 o.2.1 o.2.2) false false := by
  have hdone : s.complete q f.seq o
      = (s.withFetched q [{ f with phase := .done o.1 o.2.1 o.2.2 }]).pump q := by
    simp only [State.complete, QCtx.updEntry_only _ f _ hr, Fetched.finish_waiting f o hp, State.withFetched]
  obtain ⟨-, hqueue⟩ := putRecord_of_slotPlain (s.withFetched q []) q (f.record o.1 o.2.1 o.2.2) false false
    (withFetched_slotPlain h [])
  rw [hdone]
  apply pump_one_turn
  · rw [pumpOnce_done _ q { f with phase := .done o.1 o.2.1 o.2.2 } [] o.1 o.2.1 o.2.2 (by simp) rfl (by simpa)
      (by rw [(withFetched_slotPlain h _).free]; simp), withFetched_withFetched]
    rfl
  · exact pumpOnce_empty _ q (by simp [hqueue, QCtx.recorded]) (by simp [hqueue, QCtx.recorded, ht])
  · rw [hqueue, queue_withFetched]
    exact h.device

/-- Settles O8: the completion is one written record, whose 16 bytes are all that memory takes. -/
theorem completionWritesItsRecordAndNoOtherByte : Obligations.CompletionWritesItsRecordAndNoOtherByte := by
  unfold Obligations.CompletionWritesItsRecordAndNoOtherByte
  intro s q f o i x c a t rec_ hactive hfetched hwaiting htail hdevice houtside hfree hplain hwf hquiet hi hx
  have hslot : s.SlotPlain q f.seq := ⟨hdevice, houtside, hfree, hplain, hquiet⟩
  have ht : t = (s.withFetched q []).putRecord q (f.record o.1 o.2.1 o.2.2) false false :=
    complete_only s q f o hslot hactive hfetched hwaiting htail
  obtain ⟨hcells, hqueue⟩ := putRecord_of_slotPlain (s.withFetched q []) q (f.record o.1 o.2.1 o.2.2) false false
    (withFetched_slotPlain hslot [])
  rw [← ht, queue_withFetched] at hcells hqueue
  have hmem : t.mem.cells = cellsPutAll s.mem.cells a rec_ := hcells
  have hlen : rec_.length = 16 := length_recordBytes ..
  have hread : ∀ y, cellsGet t.mem.cells y
      = if a ≤ y ∧ y < a + 16 then rec_.getD (y - a) 0 else cellsGet s.mem.cells y := fun y => by
    rw [hmem, cellsGet_putAll s.mem.cells a y rec_ ((Mem.wf_iff _).1 hwf).1, hlen]
  rw [hqueue, hread, hread, if_pos (by omega), if_neg (by omega), Nat.add_sub_cancel_left]
  exact ⟨rfl, rfl, rfl, rfl, rfl⟩

end Sys2Proof.Machine
end

section
/-!
PROOF. O41: the roles of the 128 lanes (R28). The rule of R28 for lane l of a link die is read off `laneRole`; since
it names the same roles on every link die, the counts are those of one die, taken eight times.
-/

namespace Sys2Proof

/-- A count over m blocks of d numbers is m times the count of a block, when every block has the same. -/
theorem countP_range_mul_of_blocks (p : Nat → Bool) (d m c : Nat)
    (h : ∀ k < m, (List.range d).countP (fun l => p (d * k + l)) = c) :
    (List.range (d * m)).countP p = m * c := by
  induction m with
  | zero => simp
  | succ m ih =>
    have hlast : (List.range d).countP (p ∘ (d * m + ·)) = c := h m (Nat.lt_succ_self m)
    rw [Nat.mul_succ, List.range_add, List.countP_append, List.countP_map, hlast,
      ih fun k hk => h k (Nat.lt_succ_of_lt hk), Nat.succ_mul]

end Sys2Proof

namespace Sys2Proof.Machine

open Sys2Proof

/-! ### The role of lane l of link die k -/

theorem laneRole_of_die (k l : Nat) (hl : l < 16) : laneRole (16 * k + l) =
    if l < 8 then .domain (8 * k + l) else if l < 15 then .pod (7 * k + l - 8) else .spare := by
  have hdie : (16 * k + l) / 16 = k := by omega
  have hlane : (16 * k + l) % 16 = l := by omega
  simp only [laneRole, hdie, hlane]
  split
  · rfl
  · next hnotDomain => rw [Nat.add_sub_assoc (Nat.not_lt.1 hnotDomain)]

/-- A property that depends only on a lane's place on its link die (by r) has eight times as many lanes as places. -/
theorem countP_lanes (p : Nat → Bool) (r : Nat → Prop) [DecidablePred r]
    (h : ∀ k, ∀ l < 16, p (16 * k + l) = true ↔ r l) : (List.range 128).countP p = 8 * Nat.count r 16 :=
  countP_range_mul_of_blocks p 16 8 _ fun k _ =>
    List.countP_congr fun l hl => by rw [h k l (List.mem_range.1 hl), decide_eq_true_iff]

/-- Settles O41: the rule for lane l of a die, and each count as eight times that of one die. -/
theorem laneRolesAreFixed : Obligations.LaneRolesAreFixed := by
  unfold Obligations.LaneRolesAreFixed
  refine ⟨fun k l _ hl => laneRole_of_die k l hl, ?_, ?_, ?_⟩
  · refine (countP_lanes _ (· < 8) fun k l hl => ?_).trans (by decide)
    rw [laneRole_of_die k l hl]
    split_ifs <;> simp [*]
  · refine (countP_lanes _ (fun l => 8 ≤ l ∧ l < 15) fun k l hl => ?_).trans (by decide)
    rw [laneRole_of_die k l hl]
    split_ifs <;> simp <;> omega
  · refine (countP_lanes _ (· = 15) fun k l hl => ?_).trans (by decide)
    rw [laneRole_of_die k l hl]
    split_ifs <;> simp <;> omega

end Sys2Proof.Machine
end

section
/-!
PROOF. O19, O20 and O22: what a pick comes to at dispatch (R70, R71, R77, R78) and the two commands that wait for
the earlier descriptors of their queue (R65, R72, R80). One law says what `State.dispatchPick` does once the
descriptor checks are passed; both opcodes and both kinds of row count are read off it.
-/

namespace Sys2Proof.Machine

open Sys2Proof

/-! ### Picks at dispatch -/

theorem exec_loomPick (d : Desc) (s : State) :
    exec (.loomPick d) s = .next (s.dispatchPick d 0x30 false) := rfl

theorem exec_bwdPick (d : Desc) (s : State) :
    exec (.bwdPick d) s = .next (s.dispatchPick d 0x70 true) := rfl

theorem exec_pick (bwd : Bool) (d : Desc) (s : State) :
    exec (if bwd then .bwdPick d else .loomPick d) s = .next (s.dispatchPick d (if bwd then 0x70 else 0x30) bwd) := by
  cases bwd
  · exact exec_loomPick d s
  · exact exec_bwdPick d s

/-- A pick that has its loom and passes its descriptor checks is empty when ROWS = 0 (R71), and else reaches the
loom. -/
theorem dispatchPick_of_checked (s : State) (d : Desc) (op : Byte) (bwd : Bool) (l : Nat)
    (htarget : (if (pickFields bwd d.body).any then s.freeLoom (s.queue d.queue).die
      else some (pickFields bwd d.body).loom) = some l)
    (hdispatch : s.canDispatchTo d op (.loom l) = true)
    (hfields : pickFieldsOk (pickFields bwd d.body) (s.numCfg d.queue)
      (s.loom (s.queue d.queue).die l).shapeMode = true)
    (hrefs : pickRefsOk (s.queue d.queue).die (pickFields bwd d.body) = true) :
    s.dispatchPick d op bwd =
      if (pickFields bwd d.body).rows = 0 then s.finish d doneEmpty
      else (s.handOver d (.loom l)).handPick (s.queue d.queue).die l
        (newPick d.queue d.seq bwd d.body (s.numCfg d.queue)) := by
  simp [State.dispatchPick, htarget, hdispatch, hfields, hrefs]

/-- Settles O19: the checked pick without rows is finished, and a completion changes no loom. -/
theorem pickWithoutRowsIsDoneEmpty : Obligations.PickWithoutRowsIsDoneEmpty := by
  unfold Obligations.PickWithoutRowsIsDoneEmpty
  intro s d l bwd die f htarget hdispatch hfields hrefs hrows
  refine ⟨?_, complete_looms s d.queue d.seq doneEmpty⟩
  rw [exec_pick, dispatchPick_of_checked s d _ bwd l htarget hdispatch hfields hrefs, if_pos hrows]

/-- Settles O20: the checked pick with rows is handed to its loom, for each of the two opcodes. -/
theorem picksAreHandedToTheirLoom : Obligations.PicksAreHandedToTheirLoom := by
  unfold Obligations.PicksAreHandedToTheirLoom
  constructor
  · intro s d l die f cfg htarget hdispatch hfields hrefs hrows
    rw [exec_loomPick, dispatchPick_of_checked s d _ false l htarget hdispatch hfields hrefs, if_neg hrows]
  · intro s d l die f cfg htarget hdispatch hfields hrefs hrows
    rw [exec_bwdPick, dispatchPick_of_checked s d _ true l htarget hdispatch hfields hrefs, if_neg hrows]

/-! ### Commands that run whole when they are handed over -/

theorem onDesc_of_canDispatch (s : State) (d : Desc) (op : Byte) (f : State → State)
    (h : s.canDispatch d op = true) : s.onDesc d op f = .next (f s) := if_pos h

theorem handOver_queue (s : State) (d : Desc) (e : Engine) :
    (s.handOver d e).queue d.queue =
      (s.queue d.queue).updEntry d.seq (fun f => { f with phase := .running e }) := by
  simp [State.handOver, State.queue]

/-- A descriptor that is handed over stays of its queue's die. -/
@[simp] theorem handOver_die (s : State) (d : Desc) (e : Engine) :
    ((s.handOver d e).queue d.queue).die = (s.queue d.queue).die := by
  rw [handOver_queue]
  rfl

theorem runNow_of_engine (s : State) (d : Desc) (op : Byte) (e : Engine) (f : State → State × Outcm)
    (h : engineOf d.queue op d.body = e) :
    s.runNow d op f = (f (s.handOver d e)).1.finish d (f (s.handOver d e)).2 := by
  rw [State.runNow, h]

theorem exec_loomChainDrop (d : Desc) (s : State) : exec (.loomChainDrop d) s = execLoomChainDrop d s := rfl

theorem exec_loomSetMode (d : Desc) (s : State) : exec (.loomSetMode d) s = execLoomSetMode d s := rfl

/-- Settles O22: past their checks, with the earlier descriptors done, both commands run whole on dispatch. -/
theorem chainsAreDroppedAndModesAreSet : Obligations.ChainsAreDroppedAndModesAreSet := by
  unfold Obligations.ChainsAreDroppedAndModesAreSet
  constructor
  · intro s d hdispatch hrsvd hzero hearlier
    rw [exec_loomChainDrop, execLoomChainDrop, onDesc_of_canDispatch s d 0x31 _ hdispatch,
      if_neg (by simp [hrsvd, hzero]), if_neg (by simp [hearlier]), runNow_of_engine s d 0x31 .dispatch _ rfl,
      handOver_die]
  · intro s d die sel mode hdispatch hmode hzero hmask hearlier hchain hidle
    have hnoChain : sel.any (fun l => (s.loom die l).chain.isSome) ≠ true := by
      simpa using hchain
    have hnoPick : sel.any (fun l => !(s.loom die l).picks.isEmpty) ≠ true := by
      simpa using hidle
    rw [exec_loomSetMode, execLoomSetMode, onDesc_of_canDispatch s d 0x32 _ hdispatch,
      if_neg (by simp [hmode, hzero, mode]), if_neg hmask, if_neg (by simp [hearlier]),
      if_neg hnoChain, if_neg hnoPick, runNow_of_engine s d 0x32 .dispatch _ rfl]

end Sys2Proof.Machine
end

section
/-!
PROOF. O17 fails in its last clause. A loom takes the deliveries of its group in arrival order and holds back one
whose tag is not its pick's (R74, R221), so the delivery that carries the tag of the credit waits behind an older one
that does not. The clause has it delivered all the same. Two laws make the difference: such a send changes nothing,
and the state that the clause gives has a loom with one delivery more.
-/

namespace Sys2Proof.Machine

open Sys2Proof

/-! ### A delivery that is held back -/

theorem exec_mcastDelivery (s : State) (q n : BitVec 16) (die l : Nat) (x : Xfer) (m : McastSend)
    (hxfer : s.xfer q n = some x) (hsend : s.sendOf x = some m) (hready : s.ready = true) (hl : l < 8) :
    exec (.mcastDelivery q n die l) s = .next (s.deliver m x.shuttle die l) := by
  change execMcastDelivery q n die l s = _
  simp [execMcastDelivery, hxfer, hsend, hready, hl]

/-- The oldest delivery held for a loom carries another tag than the loom's credit: nothing is sent (R74). -/
theorem deliver_of_other_tag (s : State) (m : McastSend) (k die l : Nat) (p : Pick) (y : Delivery)
    (hcredit : (s.loom die l).creditPick = some p)
    (holdest : m.held.find? (fun d => d.pending.contains (8 * die + l)) = some y)
    (htag : (m.tag + y.index) % 65536 ≠ (pickFields p.bwd p.body).tag) : s.deliver m k die l = s := by
  simp only [State.deliver, hcredit, holdest]
  rw [if_pos htag, ite_self]

/-! ### What a delivery does to its loom -/

theorem mem_picks_of_creditPick {m : Loom} {p : Pick} (h : m.creditPick = some p) : p ∈ m.picks := by
  unfold Loom.creditPick at h
  split at h
  · cases h
  · next hfind =>
    dsimp only at h
    split at h
    · cases h; exact List.mem_of_find?_eq_some hfind
    · cases h

/-- A pick of the loom that takes a delivery has one more than before. -/
theorem takeDelivery_ne {m : Loom} {p : Pick} (h : p ∈ m.picks) (bytes : List Byte) (poison : Bool) :
    m.takeDelivery p bytes poison ≠ m := by
  intro hsame
  have hpicks : m.picks.map _ = m.picks.map id := (congrArg Loom.picks hsame).trans (List.map_id _).symm
  have hmc := congrArg (fun y => y.mc.length) (List.map_inj_left.1 hpicks p h)
  simp at hmc

theorem readDeliveries_beside (s : State) (m : McastSend) (n : Nat) :
    (s.readDeliveries m n).1.beside = s.beside := by
  induction n generalizing s m with
  | zero => rfl
  | succ n ih =>
    unfold State.readDeliveries
    split
    · rw [ih, noteRead_beside]
    · rfl

theorem releaseSend_beside (s : State) (m : McastSend) (k n : Nat) :
    (s.releaseSend m k n).1.beside = s.beside := by
  induction n generalizing s m with
  | zero => rfl
  | succ n ih =>
    unfold State.releaseSend
    dsimp only
    split
    · rw [ih, readDeliveries_beside, count_beside]
    · rw [readDeliveries_beside, count_beside]

/-- The release of deliveries touches its send, memory's reads and counters, but no loom. -/
theorem releaseHeld_looms (s : State) (m : McastSend) (k : Nat) : (s.releaseHeld m k).looms = s.looms :=
  show (s.releaseSend m k (m.count + 1)).1.beside.looms = s.beside.looms by rw [releaseSend_beside]

/-- The state after a delivery to a pick of the loom is another one. -/
theorem releaseHeld_takeDelivery_ne {s : State} {die l : Nat} {p : Pick} (h : p ∈ (s.loom die l).picks)
    (bytes : List Byte) (poison : Bool) (m : McastSend) (k : Nat) :
    ((s.setLoom die l ((s.loom die l).takeDelivery p bytes poison)).setSend m).releaseHeld m k ≠ s := by
  intro hsame
  have hlooms : Tab.write s.looms (loomKey die l) ((s.loom die l).takeDelivery p bytes poison) = s.looms :=
    (releaseHeld_looms _ m k).symm.trans (congrArg State.looms hsame)
  refine takeDelivery_ne h bytes poison ?_
  rw [← Tab.read_write_same s.looms Loom.init (loomKey die l) ((s.loom die l).takeDelivery p bytes poison), hlooms]
  rfl

/-! ### A loom whose group holds an older delivery of another tag -/

/-- A pick of loom 1 that takes its warp from group 3 under tag 10. -/
def tagTenPick : Pick :=
  newPick 0 1 false 0x0001_000A_0001_00_03_80_01_000000_030303 { tabby := false, rne := false, seed := 0, step := 0 }

/-- A SHUT_MCAST of two deliveries to group 3, from tag 9 on. -/
def tagNineXfer : Xfer :=
  { queue := 0, seq := 0, opcode := 0x12
    body := 0x0000000000000100_00000000_00000002_0000000000001000_00000100_0009_03_00
    die := 0, shuttle := 0, step := 0, accepted := true, slot := none, got := [], reads := [], todo := []
    sent := false, zeroRead := false, signalled := false, bad := none, heldOnce := false }

/-- Delivery `i` of it, held for loom 1. -/
def heldForOne (i : Nat) : Delivery := { index := i, bytes := List.replicate 256 0, poison := false, pending := [1] }

/-- Its send, with both deliveries held for loom 1. -/
def tagNineSend : McastSend :=
  { queue := 0, seq := 0, die := 0, group := 3, tag := 9, bytes := 256, src := 0x1000, count := 2, stride := 256
    next := 2, firstBad := none
    held := [heldForOne 0, heldForOne 1] }

/-- A running module where loom 1 of die 0 asks its group for tag 10, and tag 9 is still held for it. -/
def heldBackState : State :=
  { State.reset with
    power := { Power.init with mode := .running }
    xfers := [tagNineXfer], mcastSends := [tagNineSend]
    looms := [(1, { Loom.init with picks := [tagTenPick], mcastHome := [(3, 0)] })] }

theorem heldBackState_credit : (heldBackState.loom 0 1).creditPick = some tagTenPick := by decide +kernel

/-- The step leaves the state as it is: delivery 0, of tag 9, is the oldest held for loom 1. -/
theorem exec_mcastDelivery_heldBackState :
    exec (.mcastDelivery 0 0 0 1) heldBackState = .next heldBackState := by
  rw [exec_mcastDelivery heldBackState 0 0 0 1 tagNineXfer tagNineSend rfl rfl rfl (by decide),
    deliver_of_other_tag _ _ _ 0 1 tagTenPick (heldForOne 0) heldBackState_credit rfl (by decide +kernel)]

/-- Refutes O17: in `heldBackState` the held delivery 1 carries the tag 10 of the credit of loom 1, but delivery 0 is
older and of tag 9, and holds it back. -/
theorem not_transfersAreAcceptedDeliverAndEnd : ¬ Obligations.TransfersAreAcceptedDeliverAndEnd := by
  unfold Obligations.TransfersAreAcceptedDeliverAndEnd
  rintro ⟨-, -, -, -, -, hdelivers⟩
  have hclaim := hdelivers heldBackState 0 0 0 1 tagNineXfer tagNineSend tagTenPick (heldForOne 1) rfl rfl rfl
    (by decide) heldBackState_credit (by decide +kernel) (by decide +kernel) (by decide +kernel)
  rw [exec_mcastDelivery_heldBackState] at hclaim
  exact releaseHeld_takeDelivery_ne (mem_picks_of_creditPick heldBackState_credit) _ _ _ _
    (Host.Outcome.next.inj hclaim).symm

end Sys2Proof.Machine
end

section
/-!
PROOF. O23: what a vector instruction comes to at dispatch and when it completes (R84, R94, R96, R217). One law says
that all nine commands are `State.dispatchVec`; past the descriptor checks that is a completion when the tensor is
empty, and else an entry in the engine.
-/

namespace Sys2Proof.Machine

open Sys2Proof

/-! ### A descriptor that is handed over or completes leaves the engines -/

@[simp] theorem vec_handOver (s : State) (d : Desc) (g : Engine) (die e : Nat) :
    (s.handOver d g).vec die e = s.vec die e :=
  show (s.handOver d g).beside.vec die e = s.beside.vec die e by rw [handOver_beside]

theorem finish_vecs (s : State) (d : Desc) (o : Outcm) : (s.finish d o).vecs = s.vecs :=
  show (s.finish d o).beside.vecs = s.beside.vecs by rw [finish_beside]

/-! ### Vector instructions at dispatch -/

/-- The command of a vector operation (Table VEC-2). -/
def VecOp.command (o : VecOp) : Desc → Instr :=
  match o with
  | .ew2 => .vecEw2 | .ew1 => .vecEw1 | .fma => .vecFma | .reduce => .vecReduce | .argmax => .vecArgmax
  | .requant => .vecRequant | .convert => .vecConvert | .curve => .vecCurve | .gather => .vecGather

theorem exec_vecCommand (o : VecOp) (d : Desc) (s : State) : exec (o.command d) s = .next (s.dispatchVec d o) := by
  cases o <;> rfl

/-- The descriptor has its engine `e` and passes the checks of its own fields (R11, R84). -/
structure State.VecChecked (s : State) (d : Desc) (o : VecOp) (e : Nat) : Prop where
  target : (if (vecFields d.body).any then s.freeVec (s.queue d.queue).die
    else some (vecFields d.body).engine) = some e
  dispatch : s.canDispatchTo d o.opcode (.vec e) = true
  fields : vecFieldsOk o (vecFields d.body) (s.numCfg d.queue) = true
  refs : vecRefsOk (s.queue d.queue).die o (vecFields d.body) = true

/-- The creel slots that the first operand of a vector descriptor needs (R216). -/
def State.vecSlots (s : State) (d : Desc) : Nat :=
  let a := s.readRec (vecFields d.body).aRef
  if a.source = 1 then ceilDiv a.rows (rowsPerSlot (s.ring (s.queue d.queue).die a.ring) a) else 0

/-- The instruction that a vector descriptor becomes in its engine. -/
def State.vecJob (s : State) (d : Desc) (o : VecOp) : VecJob :=
  { queue := d.queue, seq := d.seq, opcode := o.opcode, body := d.body, cfg := s.numCfg d.queue
    need := s.vecSlots d, drained := [], busyLeft := vecBusy o (vecFields d.body) (s.numCfg d.queue).tabby
    started := false }

theorem dispatchVec_of_empty {s : State} {d : Desc} {o : VecOp} {e : Nat} (h : s.VecChecked d o e)
    (hempty : (vecFields d.body).rows = 0 ∨ (vecFields d.body).cols = 0) :
    s.dispatchVec d o = s.finish d doneEmpty := by
  simp [State.dispatchVec, h.target, h.dispatch, h.fields, h.refs, hempty]

theorem dispatchVec_of_room {s : State} {d : Desc} {o : VecOp} {e : Nat} (h : s.VecChecked d o e)
    (hrows : (vecFields d.body).rows ≠ 0) (hcols : (vecFields d.body).cols ≠ 0)
    (hrecords : s.vecRecords (s.queue d.queue).die e d.queue o (vecFields d.body) = none)
    (hroom : (s.vec (s.queue d.queue).die e).length < 4) :
    s.dispatchVec d o =
      (let die := (s.queue d.queue).die
       let u := (s.handOver d (.vec e)).setVec die e (s.vec die e ++ [s.vecJob d o])
       if s.vecSlots d = 0 then u
       else u.claimSlots die (s.readRec (vecFields d.body).aRef).ring d.queue d.seq (s.vecSlots d)) := by
  simp only [State.dispatchVec, h.target, h.dispatch, h.fields, h.refs, hrecords, vec_handOver]
  simp only [hrows, hcols, Nat.not_le.2 hroom, Bool.not_true, Bool.false_eq_true, or_self, if_false]
  rfl

/-! ### The front instruction completes -/

/-- A front instruction that has its slots and ends with DONE writes its results and leaves its engine. -/
theorem completeVec_of_done (s : State) (die e : Nat) (j : VecJob) (r : List VecJob)
    (hfront : s.vec die e = j :: r) (hslots : j.need = 0) (hdone : (s.runVec die e j).2.1 = stDone) :
    s.completeVec die e =
      ((((s.runVec die e j).1.setVec die e r).count (0x7851 + die) (8 * e + 3) 1).complete j.queue j.seq
        (s.runVec die e j).2).settleDie die := by
  simp only [State.completeVec, hfront, hslots, hdone, ne_eq, not_true_eq_false, false_and, if_false]

theorem exec_vecInstructionComplete (s : State) (die e : Nat) (hready : s.ready = true) (he : e < 16) :
    exec (.vecInstructionComplete die e) s = .next (s.completeVec die e) := if_pos ⟨hready, he⟩

/-- Settles O23: past their checks the nine commands are one dispatch, with or without rows and columns. -/
theorem vectorInstructionsEnterAndComplete : Obligations.VectorInstructionsEnterAndComplete := by
  unfold Obligations.VectorInstructionsEnterAndComplete
  constructor
  · intro o s d e c f die cfg a n htarget hdispatch hfields hrefs
    have hchecked : s.VecChecked d o e := ⟨htarget, hdispatch, hfields, hrefs⟩
    have hexec : exec (c d) s = .next (s.dispatchVec d o) := exec_vecCommand o d s
    refine ⟨fun hrows hcols hrecords hroom => ?_, fun hempty => ⟨?_, finish_vecs s d doneEmpty⟩⟩
    · rw [hexec, dispatchVec_of_room hchecked hrows hcols hrecords hroom]
      rfl
    · rw [hexec, dispatchVec_of_empty hchecked hempty]
  · intro s die e j r hready he hfront hslots hdone
    rw [exec_vecInstructionComplete s die e hready he, completeVec_of_done s die e j r hfront hslots hdone]

end Sys2Proof.Machine
end

section
/-!
PROOF. O24: sequence programs are loaded, started and ended (R97, R99, R101). A program that runs ends in one way,
whatever ends it: its core stops and its SEQ_START completes.
-/

namespace Sys2Proof.Machine

open Sys2Proof

/-! ### Running programs (R99) -/

theorem seqRuns_iff (s : State) (die core : Nat) : s.seqRuns die core = true ↔
    s.ready = true ∧ s.seqCoreOk die core = true ∧ (s.core die core).running = true := by
  simp [State.seqRuns, and_assoc]

theorem endProgram_of_seqRuns (s : State) (die core : Nat) (o : Outcm) (h : s.seqRuns die core = true) :
    s.endProgram die core o =
      (s.setCore die core { s.core die core with running := false }).complete (s.core die core).startQ
        (s.core die core).startSeq o := by
  obtain ⟨-, -, hrunning⟩ := (seqRuns_iff s die core).1 h
  simp [State.endProgram, hrunning]

theorem exec_ecall_zero (s : State) (die core : Nat) (a0 : BitVec 64) (h : s.seqRuns die core = true) :
    exec (.ecall die core 0 a0) s = .next (s.endProgram die core (outcm stDone (a0.toNat % 2 ^ 32) 0)) :=
  if_pos ⟨h, rfl⟩

theorem exec_seqAccessFault (s : State) (die core : Nat) (f : SeqFault) (h : s.seqRuns die core = true) :
    exec (.seqAccessFault die core f) s = .next (s.endProgram die core (seqFaultOutcm f)) := if_pos h

/-! ### SEQ_LOAD, SEQ_START and SEQ_STOP at dispatch (R101) -/

theorem exec_seqLoad (d : Desc) (s : State) : exec (.seqLoad d) s = execSeqLoad d s := rfl

theorem exec_seqStart (d : Desc) (s : State) : exec (.seqStart d) s = execSeqStart d s := rfl

theorem exec_seqStop (d : Desc) (s : State) : exec (.seqStop d) s = execSeqStop d s := rfl

/-- Settles O24: past their checks the three commands run whole on dispatch, and every end is `State.endProgram`. -/
theorem sequenceProgramsLoadRunAndEnd : Obligations.SequenceProgramsLoadRunAndEnd := by
  unfold Obligations.SequenceProgramsLoadRunAndEnd
  refine ⟨?_, ?_, ?_, ?_, ?_⟩
  · intro s d die core len src t c hdispatch hop hlow hhigh hcore hidle hlen halign henabled hnonempty hwithin hclean
    rw [exec_seqLoad, execSeqLoad, onDesc_of_canDispatch s d 0x58 _ hdispatch,
      if_neg (by simp [hop, hlow, hhigh, hcore, hidle, hlen, halign, henabled, die, core, len]),
      if_neg hnonempty, if_neg (by simp [hwithin, len, src]), runNow_of_engine s d 0x58 .seqCores _ rfl]
    simp only [hclean, src, len, Bool.false_eq_true, if_false]
    rfl
  · intro s d die core base count t c hdispatch hop hlow hhigh hcore hidle hsome hmax henabled hbound
    have hmin : min count 256 = count := min_eq_left hmax
    rw [exec_seqStart, execSeqStart, onDesc_of_canDispatch s d 0x59 _ hdispatch]
    dsimp only
    rw [hmin, if_neg, if_neg hsome]
    simpa [hop, hlow, hhigh, hcore, hidle, hmax, henabled, die, core, base, count] using hbound
  · intro s d die core hdispatch hop hzero hcore
    rw [exec_seqStop, execSeqStop, onDesc_of_canDispatch s d 0x5A _ hdispatch,
      if_neg (by simp [hop, hzero, hcore, die, core]), runNow_of_engine s d 0x5A .seqCores _ rfl]
  · intro s die core a0 hruns
    rw [exec_ecall_zero s die core a0 hruns, endProgram_of_seqRuns s die core _ hruns]
  · intro s die core f hruns
    rw [exec_seqAccessFault s die core f hruns, endProgram_of_seqRuns s die core _ hruns]
    cases f <;> rfl

end Sys2Proof.Machine
end

section
/-!
PROOF. O25: the tensor-issue instructions of a running program (R99, R100, Table VEC-6) and the registers of a control
core. Each instruction is its meaning without the cases that its hypotheses exclude.
-/

namespace Sys2Proof.Machine

open Sys2Proof

/-! ### Registers of a control core -/

@[simp] theorem CtrlCore.setReg_zero (c : CtrlCore) (v : BitVec 64) : c.setReg 0 v = c := rfl

@[simp] theorem CtrlCore.reg_zero (c : CtrlCore) : c.reg 0 = 0 := rfl

theorem CtrlCore.reg_setReg_same (c : CtrlCore) (i : Nat) (v : BitVec 64) (h : i ≠ 0) : (c.setReg i v).reg i = v := by
  simp [CtrlCore.reg, CtrlCore.setReg, h]

theorem CtrlCore.reg_setReg_other (c : CtrlCore) (i j : Nat) (v : BitVec 64) (h : j ≠ i) :
    (c.setReg i v).reg j = c.reg j := by
  by_cases hi : i = 0
  · rw [hi, setReg_zero]
  · simp [CtrlCore.reg, CtrlCore.setReg, hi, Tab.read_write_other _ _ _ _ _ h]

/-! ### Each instruction on a core whose program runs -/

theorem exec_tiSubmit (s : State) (die core : Nat) (rd : BitVec 5) (a b : BitVec 64) :
    exec (.tiSubmit die core rd a b) s = execTiSubmit die core rd a b s := rfl

theorem exec_tiWait_of_written (s : State) (die core : Nat) (rd : BitVec 5) (t : BitVec 64)
    (hruns : s.seqRuns die core = true) (hwritten : s.recordWritten (ticketQueue t) (ticketSeq t) = true) :
    exec (.tiWait die core rd t) s = .next (s.setCore die core ((s.core die core).setReg rd.toNat
      (s.ticketValue (ticketQueue t) (ticketSeq t)))) := if_pos ⟨hruns, hwritten⟩

theorem exec_tiPoll (s : State) (die core : Nat) (rd : BitVec 5) (t : BitVec 64) (hruns : s.seqRuns die core = true) :
    exec (.tiPoll die core rd t) s = .next (s.setCore die core ((s.core die core).setReg rd.toNat
      (if s.recordWritten (ticketQueue t) (ticketSeq t) then s.ticketValue (ticketQueue t) (ticketSeq t)
       else minusOne))) := if_pos hruns

theorem exec_tiStep (s : State) (die core : Nat) (rd : BitVec 5) (hruns : s.seqRuns die core = true) :
    exec (.tiStep die core rd) s = .next (s.setCore die core ((s.core die core).setReg rd.toNat
      (BitVec.ofNat 64 (s.queue (s.core die core).startQ).step))) := if_pos hruns

theorem exec_tiFence_of_written (s : State) (die core : Nat) (hruns : s.seqRuns die core = true)
    (hwritten : (s.core die core).tickets.all (fun t => s.recordWritten t.1 t.2) = true) :
    exec (.tiFence die core) s = .next (s.setCore die core { s.core die core with tickets := [] }) :=
  if_pos ⟨hruns, hwritten⟩

/-- Settles O25: the excluded refusals and faults leave the one effect of each instruction. -/
theorem tensorIssueInstructions : Obligations.TensorIssueInstructions := by
  unfold Obligations.TensorIssueInstructions
  refine ⟨?_, ?_, ?_, exec_tiStep, exec_tiFence_of_written, ?_⟩
  · intro s die core rd a q c x n hruns halign hrange hactive hring hroom hfree hlease hstore hclean
    rw [exec_tiSubmit, execTiSubmit, if_neg (by simp [hruns])]
    simp only [BitVec.toNat_setWidth_of_le (show 16 ≤ 64 by decide), BitVec.ofNat_toNat, BitVec.setWidth_eq]
    rw [if_neg (by simp [halign, hrange, hactive, hring, Nat.not_le.2 hroom, c, x]),
      if_neg (by simp [hlease, hstore]), if_neg (by simp [hclean]), if_neg (by simp [hfree, n, x]),
      if_neg (by simp [hfree, n, x])]
  · intro s die core rd t hruns hwritten
    refine ⟨exec_tiWait_of_written s die core rd t hruns hwritten, ?_⟩
    rw [exec_tiPoll s die core rd t hruns, if_pos hwritten]
  · intro s die core rd t hruns hunwritten
    rw [exec_tiPoll s die core rd t hruns, if_neg (by simp [hunwritten])]
    rfl
  · intro c i j v
    exact ⟨c.setReg_zero v, c.reg_zero, c.reg_setReg_same i v, c.reg_setReg_other i j v⟩

end Sys2Proof.Machine
end

section
/-!
PROOF. O37: hubs, control cores and agents leave service, and a server core starts (R102, R103, R243, R268, R270,
R274). Each command is its meaning once the device can act on it; the die of a tensor agent is the agent itself.
-/

namespace Sys2Proof.Machine

open Sys2Proof

/-! ### Agents that are declared dead (R268) -/

theorem dieOfAgent_of_tensor (a : Nat) (ha : a < 26) : dieOfAgent a = a := if_pos ha

/-- A tensor die that is declared dead goes with what it held, and its agent's lines are reclaimed. -/
theorem agentDies_of_tensor (s : State) (a : Nat) (ha : a < 26) (hlive : s.dieState a ≠ 2) :
    s.agentDies a = (s.tensorDies a).buryAgent a := by
  have hknown : ¬(42 ≤ a ∨ s.dieState (dieOfAgent a) = 2) := by
    rw [dieOfAgent_of_tensor a ha]
    exact not_or.2 ⟨by omega, hlive⟩
  rw [State.agentDies, if_neg hknown, if_pos ha, dieOfAgent_of_tensor a ha]

theorem exec_agentDead (s : State) (a : Nat) (hready : s.ready = true) :
    exec (.agentDead a) s = .next (s.agentDies a) := if_pos hready

theorem exec_agentSnoopLimitExpiry (s : State) (a : Nat) (hready : s.ready = true) (hplain : privileged a = false)
    (howes : s.owesAnswer a = true) : exec (.agentSnoopLimitExpiry a) s = .next (s.agentDies a) :=
  if_pos (by simp [hready, hplain, howes])

/-! ### Hubs and control cores (R102, R243) -/

theorem exec_hubRetire (s : State) (k : Nat) (hready : s.ready = true) (hk : k < 8)
    (hactive : s.dieActive (dieHub k) = true) :
    exec (.hubRetire k) s = .next ((s.retireHub k).purgeHub s.activeHubs k) :=
  if_pos (by simp [hready, hk, hactive])

theorem exec_controlCoreRetire (die core : Nat) (s : State) :
    exec (.controlCoreRetire die core) s = execControlCoreRetire die core s := rfl

/-! ### Snoop deadlines (R270, R274) -/

theorem exec_snoopDeadlineMiss (s : State) (a line : Nat) (t : Txn)
    (htxn : s.coh.txn (txnKey true line) = some t) (hready : s.ready = true) (hwaits : t.waitFor.contains a = true) :
    exec (.snoopDeadlineMiss a line) s =
      .next (if privileged a then s.answerForHolder line t else (s.answerForHolder line t).agentDies a) := by
  change execSnoopDeadlineMiss a line s = _
  simp only [execSnoopDeadlineMiss, htxn, hready, hwaits, Bool.not_true, Bool.false_eq_true, or_self, if_false]

theorem exec_privSnoopTimeoutExpiry (s : State) (line : Nat) (hready : s.ready = true) :
    exec (.privSnoopTimeoutExpiry line) s = .next (s.privTimeout line) := if_pos hready

/-! ### Server cores (R103) -/

theorem exec_hartStart (s : State) (h : Nat) (a o : BitVec 64) (hready : s.ready = true) :
    exec (.hartStart h a o) s = .next { s with hartsStopped := s.hartsStopped.filter (fun k => k ≠ h) } :=
  if_pos hready

/-- Settles O37: one law for each command; a core's retirement and a holder's deadline go by the branch that the
hypotheses leave. -/
theorem partsLeaveServiceAndCoresStart : Obligations.PartsLeaveServiceAndCoresStart := by
  unfold Obligations.PartsLeaveServiceAndCoresStart
  refine ⟨exec_hubRetire, ?_, ?_, exec_agentSnoopLimitExpiry, ?_, exec_privSnoopTimeoutExpiry, exec_hartStart⟩
  · intro s die core t u hready hdie hlive hcore hserves
    rw [exec_controlCoreRetire, execControlCoreRetire,
      if_neg (by simp [hready, hlive, hserves, Nat.not_le.2 hdie, Nat.not_le.2 hcore])]
  · intro s a hready ha hlive
    rw [exec_agentDead s a hready, agentDies_of_tensor s a ha hlive]
  · intro s a line t htxn hready hwaits hprivileged
    rw [exec_snoopDeadlineMiss s a line t htxn hready hwaits, if_pos hprivileged]

end Sys2Proof.Machine
end

section
/-!
PROOF. O26: what a convolution comes to at dispatch (R108, R118, R119). The checks that it has passed are one
structure; under it `State.reedOutcome` ends an empty extent with DONE_EMPTY and lets any other run, and the command
follows its outcome. That the run is whole in the command's own step is the model's choice (logs 3 and 76).
-/

namespace Sys2Proof.Machine

open Sys2Proof

/-! ### Convolutions at dispatch -/

theorem exec_reedConv (d : Desc) (s : State) : exec (.reedConv d) s = execReedConv d s := rfl

/-- The convolution passes the checks of its own fields, and its geometry record is clean and passes those that rest
on it, the bias record's among them (R11, R119). -/
structure State.ReedChecked (s : State) (d : Desc) (ox ow oy : Opf) : Prop where
  dispatch : s.canDispatch d 0x60 = true
  fields : firstFail (reedFieldChecks (s.queue d.queue).die (reedF d.body) (s.numCfg d.queue)) = none
  input : decodeOpf (reedF d.body).opfX = some ox
  weights : decodeOpf (reedF d.body).opfW = some ow
  output : decodeOpf (reedF d.body).opfY = some oy
  clean : s.anyPoison (reedF d.body).geom 96 = false
  geometry : firstFail (s.reedRefChecks (s.queue d.queue).die (reedF d.body) (s.readGeom (reedF d.body).geom) ++
    geomChecks (s.queue d.queue).die (reedF d.body) (s.readGeom (reedF d.body).geom) ox ow oy) = none

/-- The records that a convolution reads are in its lease, and its bias record, when it has one, is clean (R122). -/
structure State.ReedReadable (s : State) (d : Desc) : Prop where
  geometry : s.within d.queue (reedF d.body).geom 96 = true
  bias : (reedF d.body).bias = true → s.within d.queue (reedF d.body).biasRef 48 = true ∧
    s.anyPoison (reedF d.body).biasRef 48 = false

section Checked

variable {s : State} {d : Desc} {ox ow oy : Opf} (h : s.ReedChecked d ox ow oy)

include h

/-- An empty extent is found before the lease and the bias record's poison are looked at. -/
theorem reedOutcome_of_empty (hempty : (s.readGeom (reedF d.body).geom).empty = true) :
    s.reedOutcome d (s.queue d.queue).die (reedF d.body) ox ow oy = some doneEmpty := by
  simp [State.reedOutcome, h.clean, h.geometry, hempty]

theorem reedOutcome_of_readable (hempty : (s.readGeom (reedF d.body).geom).empty = false)
    (hreadable : s.ReedReadable d) :
    s.reedOutcome d (s.queue d.queue).die (reedF d.body) ox ow oy = none := by
  cases hbias : (reedF d.body).bias with
  | false => simp [State.reedOutcome, h.clean, h.geometry, hempty, hreadable.geometry, hbias]
  | true =>
    obtain ⟨hlease, hpoison⟩ := hreadable.bias hbias
    simp [State.reedOutcome, h.clean, h.geometry, hempty, hreadable.geometry, hlease, hpoison]

/-- Counter 0x1 of Table CNV-7, CONVS_EMPTY, counts a convolution that ends for its empty extent. -/
theorem execReedConv_of_doneEmpty
    (houtcome : s.reedOutcome d (s.queue d.queue).die (reedF d.body) ox ow oy = some doneEmpty) :
    execReedConv d s = .next ((s.count (0x7880 + (s.queue d.queue).die) 1 1).finish d doneEmpty) := by
  rw [execReedConv, onDesc_of_canDispatch s d 0x60 _ h.dispatch]
  simp only [h.fields, h.input, h.weights, h.output, houtcome, if_true]

theorem execReedConv_of_run
    (houtcome : s.reedOutcome d (s.queue d.queue).die (reedF d.body) ox ow oy = none) :
    execReedConv d s = .next (s.runNow d 0x60 (fun t => t.runReed d (s.queue d.queue).die
      (t.reedEnv (reedF d.body) (s.numCfg d.queue) ox ow oy) (s.numCfg d.queue))) := by
  rw [execReedConv, onDesc_of_canDispatch s d 0x60 _ h.dispatch]
  simp only [h.fields, h.input, h.weights, h.output, houtcome]

end Checked

/-- Settles O26: the checked convolution's outcome is DONE_EMPTY with an empty extent and else its run, and the
command follows it. -/
theorem convolutionsRunOnTheReed : Obligations.ConvolutionsRunOnTheReed := by
  unfold Obligations.ConvolutionsRunOnTheReed
  intro s d ox ow oy die cfg f g hdispatch hfields hx hw hy hclean hgeometry
  have hchecked : s.ReedChecked d ox ow oy := ⟨hdispatch, hfields, hx, hw, hy, hclean, hgeometry⟩
  rw [exec_reedConv]
  constructor
  · intro hempty
    exact execReedConv_of_doneEmpty hchecked (reedOutcome_of_empty hchecked hempty)
  · intro hempty hlease hbias
    exact execReedConv_of_run hchecked (reedOutcome_of_readable hchecked hempty ⟨hlease, hbias⟩)

end Sys2Proof.Machine
end

section
/-!
PROOF. O7: the reset state as the manual fixes it (R53, R132, R233, R288, R297, R359).
-/

namespace Sys2Proof

/-- A table that lists nothing reads its default everywhere. -/
@[simp] theorem Tab.read_nil {α : Type} (d : α) (k : Nat) : Tab.read ([] : Tab α) d k = d := rfl

end Sys2Proof

namespace Sys2Proof.Machine

open Sys2Proof

theorem counter_reset (i j : Nat) : State.reset.counter i j = 0 := Tab.read_nil ..

theorem token_reset (die k : Nat) : State.reset.token die k = 0 := Tab.read_nil ..

theorem queue_reset (q : BitVec 16) : State.reset.queue q = QCtx.init := Tab.read_nil ..

theorem lease_reset (n : Nat) : State.reset.lease n = Lease.init := Tab.read_nil ..

theorem mem_reset_wf : State.reset.mem.wf = true := by decide

/-- Settles O7: every table of the reset state lists nothing, and so reads its default. -/
theorem resetStateAsTheManualSays : Obligations.ResetStateAsTheManualSays := by
  unfold Obligations.ResetStateAsTheManualSays
  refine ⟨mem_reset_wf, counter_reset, token_reset, fun q => ?_, fun n => ?_, rfl, rfl, rfl, rfl⟩
  · rw [queue_reset]
    rfl
  · rw [lease_reset]
    rfl

end Sys2Proof.Machine
end

section
/-!
PROOF. O27: what a BWD_ATTN comes to at dispatch (R141, R143). The checks that it has passed are one structure; under
it `State.attnCheck` ends an empty extent with DONE_EMPTY before it looks at the lease or at any poison, and lets a
leased and unpoisoned one run.
-/

namespace Sys2Proof.Machine

open Sys2Proof

/-! ### Attention recompute at dispatch -/

theorem exec_bwdAttn (d : Desc) (s : State) : exec (.bwdAttn d) s = execBwdAttn d s := rfl

/-- The BWD_ATTN passes the checks of its own fields, and its operand record is clean and passes those that rest on
it (R11, R143). -/
structure State.AttnChecked (s : State) (d : Desc) (oi os oo : Opf) : Prop where
  dispatch : s.canDispatch d 0x71 = true
  input : decodeOpf (attnF d.body).opfIn = some oi
  statistic : decodeOpf (attnF d.body).opfStat = some os
  output : decodeOpf (attnF d.body).opfOut = some oo
  fields : attnFieldsOk (attnF d.body) (s.numCfg d.queue) = true
  aligned : (attnF d.body).ref % 16 = 0
  inStore : inDieStore (s.queue d.queue).die (attnF d.body).ref 96 = true
  clean : s.anyPoison (attnF d.body).ref 96 = false
  reserved : (s.readAttn (attnF d.body).ref).rsvd = true
  refs : (s.readAttn (attnF d.body).ref).refs.all (recAddrOk (s.queue d.queue).die) = true
  curveAligned : (s.readAttn (attnF d.body).ref).curve % 16 = 0
  curveInStore : inDieStore (s.queue d.queue).die (s.readAttn (attnF d.body).ref).curve 16 = true
  shapes : s.attnShapes (s.queue d.queue).die (s.readAttn (attnF d.body).ref) oi os oo = true

/-- The records that a BWD_ATTN reads are clean, and its operand record and the three images that it writes lie in its
lease (R143, R146). -/
structure State.AttnRunnable (s : State) (d : Desc) (oo : Opf) : Prop where
  records : (s.readAttn (attnF d.body).ref).refs.any (fun a => s.anyPoison a 48) = false
  curve : s.anyPoison (s.readAttn (attnF d.body).ref).curve 16 = false
  lease : s.within d.queue (attnF d.body).ref 96 = true
  images : [(s.readAttn (attnF d.body).ref).dq, (s.readAttn (attnF d.body).ref).dk,
    (s.readAttn (attnF d.body).ref).dv].all (fun a => s.imageLeased d.queue a oo) = true

/-- A descriptor whose extent is empty ends with DONE_EMPTY, whose detail is 0. -/
theorem attnEnds_doneEmpty (s : State) (d : Desc) : s.attnEnds d stDoneEmpty = s.finish d doneEmpty := if_pos rfl

section Checked

variable {s : State} {d : Desc} {oi os oo : Opf} (h : s.AttnChecked d oi os oo)

include h

/-- An empty extent is found before the lease and the other records' poison are looked at. -/
theorem attnCheck_of_empty
    (hq : s.anyPoison (s.readAttn (attnF d.body).ref).q 48 = false)
    (hk : s.anyPoison (s.readAttn (attnF d.body).ref).k 48 = false)
    (hempty : (s.readRec (s.readAttn (attnF d.body).ref).q).rows = 0 ∨
      (s.readRec (s.readAttn (attnF d.body).ref).k).rows = 0) :
    s.attnCheck d.queue (s.queue d.queue).die (attnF d.body) oi os oo = some stDoneEmpty := by
  simp [State.attnCheck, h.clean, h.reserved, h.refs, h.curveAligned, h.curveInStore, h.shapes, hq, hk, hempty]

theorem attnCheck_of_runnable (hq : (s.readRec (s.readAttn (attnF d.body).ref).q).rows ≠ 0)
    (hk : (s.readRec (s.readAttn (attnF d.body).ref).k).rows ≠ 0) (hrun : s.AttnRunnable d oo) :
    s.attnCheck d.queue (s.queue d.queue).die (attnF d.body) oi os oo = none := by
  have himages : [(s.readAttn (attnF d.body).ref).dq, (s.readAttn (attnF d.body).ref).dk,
      (s.readAttn (attnF d.body).ref).dv].all (fun a => s.anyPoison a 48 || s.imageLeased d.queue a oo) = true :=
    List.all_eq_true.2 fun a ha => by simp [List.all_eq_true.1 hrun.images a ha]
  simp only [State.attnCheck, h.clean, h.reserved, h.refs, h.curveAligned, h.curveInStore, h.shapes, hrun.records,
    hrun.curve, hrun.lease, himages]
  simp [hq, hk]

theorem execBwdAttn_of_check {st : Byte}
    (hcheck : s.attnCheck d.queue (s.queue d.queue).die (attnF d.body) oi os oo = some st) :
    execBwdAttn d s = .next (s.attnEnds d st) := by
  rw [execBwdAttn, onDesc_turn s d 0x71 _ h.dispatch]
  simp [h.input, h.statistic, h.output, h.fields, h.aligned, h.inStore, hcheck]

theorem execBwdAttn_of_run
    (hcheck : s.attnCheck d.queue (s.queue d.queue).die (attnF d.body) oi os oo = none) :
    execBwdAttn d s = .next (s.runNow d 0x71 (fun t => t.runAttn d (s.queue d.queue).die (attnF d.body)
      (t.readAttn (attnF d.body).ref) oi os oo)) := by
  rw [execBwdAttn, onDesc_turn s d 0x71 _ h.dispatch]
  simp [h.input, h.statistic, h.output, h.fields, h.aligned, h.inStore, hcheck]

end Checked

/-- Settles O27: the check of the accepted BWD_ATTN gives DONE_EMPTY for an empty extent and else lets it run, and
the command follows it. -/
theorem attentionBackwardRunsOnItsDie : Obligations.AttentionBackwardRunsOnItsDie := by
  unfold Obligations.AttentionBackwardRunsOnItsDie
  intro s d oi os oo die f r q k hdispatch hinput hstat houtput hfields haligned hinStore hclean hreserved hrefs
    hcurveAligned hcurveInStore hshapes hqClean hkClean
  have hchecked : s.AttnChecked d oi os oo := ⟨hdispatch, hinput, hstat, houtput, hfields, haligned, hinStore,
    hclean, hreserved, hrefs, hcurveAligned, hcurveInStore, hshapes⟩
  rw [exec_bwdAttn]
  constructor
  · intro hempty
    rw [execBwdAttn_of_check hchecked (attnCheck_of_empty hchecked hqClean hkClean hempty), attnEnds_doneEmpty]
  · intro hq hk hrecords hcurve hlease himages
    exact execBwdAttn_of_run hchecked (attnCheck_of_runnable hchecked hq hk ⟨hrecords, hcurve, hlease, himages⟩)

end Sys2Proof.Machine
end

section
/-!
PROOF. O28: puts, gets and drops of the activation stash and the puts that wait for room (R136 to R140). What the
placement decides for an entry that fits comes first; each command's law says which state its accepted form answers.
-/

namespace Sys2Proof.Machine

open Sys2Proof

/-! ### Placement (R136) -/

/-- A key with no entry has none that a running put occupies. -/
theorem putRuns_of_absent (x : Stash) (k : StashKey) (h : x.at k = none) : x.putRuns k = false := by
  have hnone : ∀ e ∈ x.entries, ¬(e.key == k) = true := List.find?_eq_none.1 h
  rw [Stash.putRuns, List.any_eq_false]
  intro e he hrunning
  exact hnone e he (Bool.and_eq_true_iff.1 hrunning).2

/-- With no full latch set, an entry that fits is placed and nothing else of the stash changes. -/
theorem placePut_of_fits (s : State) (l : Nat) (b : BitVec 352) (st n : Nat) (t : Bool)
    (hlatch : (s.stashOf l).latch = none) (hplace : stashPlace (s.lease l) (s.stashOf l).entries n = some t) :
    s.placePut l b st n = (s, .placed t) := by
  simp [State.placePut, hlatch, hplace]

theorem actPut_of_fits (s : State) (d : Desc) (t : Bool)
    (hlatch : (s.stashOf (s.queue d.queue).lease).latch = none)
    (hplace : stashPlace (s.lease (s.queue d.queue).lease) (s.stashOf (s.queue d.queue).lease).entries
      (fieldOf d.body 32 8) = some t) :
    s.actPut d = (s.chargePut (s.queue d.queue).lease d.queue d.seq d.body (s.queue d.queue).step
      (fieldOf d.body 32 8) t).handXfer d 0x72 (d.queue.toNat % 4) := by
  rw [State.actPut, placePut_of_fits s _ _ _ _ t hlatch hplace]

/-! ### Copies at dispatch (R136 to R139) -/

theorem exec_stashPut (d : Desc) (s : State) : exec (.stashPut d) s = execStashPut d s := rfl

theorem exec_stashGet (d : Desc) (s : State) : exec (.stashGet d) s = execStashGet d s := rfl

theorem exec_stashDrop (d : Desc) (s : State) : exec (.stashDrop d) s = execStashDrop d s := rfl

/-- The stash copy of opcode `op` can be dispatched with its reserved fields 0, no earlier copy of its key holds it,
and its bytes, of which there are some, lie in its lease (R136, R138, R207). -/
structure State.StashCopyChecked (s : State) (d : Desc) (op : Byte) : Prop where
  dispatch : s.canDispatch d op = true
  flags : fieldBits d.body 21 7 1 = 0
  reserved22 : fieldZero d.body 22 24 = true
  reserved30 : fieldZero d.body 30 32 = true
  reserved40 : fieldZero d.body 40 60 = true
  idle : s.keyBusy d.queue d.body = false
  nonempty : fieldOf d.body 32 8 ≠ 0
  lease : s.within d.queue (fieldOf d.body 24 6) (fieldOf d.body 32 8) = true

/-- The entry that a get of this descriptor finds: visible and not dying (R138, R139). -/
def State.stashEntry (s : State) (d : Desc) : Option StashEntry :=
  ((s.stashOf (s.queue d.queue).lease).at (keyOf d.body)).filter (fun e => e.live && !e.dying)

/-- A put of a new key that waits for nothing goes to its placement. -/
theorem execStashPut_of_new {s : State} {d : Desc} (h : s.StashCopyChecked d 0x72)
    (hwaits : s.putWaits d.queue d.seq = false)
    (hnew : (s.stashOf (s.queue d.queue).lease).at (keyOf d.body) = none) (hrestoring : s.restoring = false) :
    execStashPut d s = .next (s.actPut d) := by
  rw [execStashPut, onDesc_turn s d 0x72 _ h.dispatch]
  simp [h.flags, h.reserved22, h.reserved30, h.reserved40, h.idle, h.nonempty, h.lease, hwaits,
    putRuns_of_absent _ _ hnew, hnew, hrestoring]

theorem execStashGet_of_absent {s : State} {d : Desc} (h : s.StashCopyChecked d 0x73)
    (habsent : s.stashEntry d = none) :
    execStashGet d s =
      .next (s.runNow d 0x73 (fun t => (t.count 0x78BB 6 1, outcm stDone bit31 0))) := by
  rw [State.stashEntry] at habsent
  rw [execStashGet, onDesc_turn s d 0x73 _ h.dispatch]
  simp [h.flags, h.reserved22, h.reserved30, h.reserved40, h.idle, h.nonempty, h.lease, habsent]

theorem execStashGet_of_entry {s : State} {d : Desc} {e : StashEntry} (h : s.StashCopyChecked d 0x73)
    (hentry : s.stashEntry d = some e) (hlength : e.length = fieldOf d.body 32 8) :
    execStashGet d s = .next ((s.getCount (s.queue d.queue).lease (keyOf d.body) true false).handXfer d 0x73
      (d.queue.toNat % 4)) := by
  rw [State.stashEntry] at hentry
  rw [execStashGet, onDesc_turn s d 0x73 _ h.dispatch]
  simp [h.flags, h.reserved22, h.reserved30, h.reserved40, h.idle, h.nonempty, h.lease, hentry, hlength]

/-! ### Drops (R139, R140) -/

/-- Marks what a drop matches as dying and frees what no get still reads. -/
def State.dropEntries (s : State) (l : Nat) (b : BitVec 352) : State :=
  s.setStash l (Stash.sweep { s.stashOf l with entries := (s.stashOf l).entries.map (fun e =>
    if dropMatches b e then { e with dying := true } else e) })

theorem execStashDrop_of_freed {s : State} {d : Desc} (hdispatch : s.canDispatch d 0x74 = true)
    (hreserved : fieldZero d.body 21 60 = true)
    (hfreed : ((s.dropEntries (s.queue d.queue).lease d.body).stashOf (s.queue d.queue).lease).entries.any
      (fun e => dropMatches d.body e) = false) :
    execStashDrop d s =
      .next ((s.dropEntries (s.queue d.queue).lease d.body).runNow d 0x74 (fun t => (t, doneOk))) := by
  rw [State.dropEntries] at hfreed ⊢
  rw [execStashDrop, onDesc_turn s d 0x74 _ hdispatch, if_neg (by simp [hreserved])]
  exact congrArg _ (if_neg (by simp [hfreed]))

/-! ### Puts that wait (R137) -/

theorem exec_stashRoomFreed (s : State) (l : Nat) (hready : s.ready = true) :
    exec (.stashRoomFreed l) s = .next (s.retryPuts l (s.stashOf l).waits) := if_pos hready

theorem exec_stashFullWaitExpiry (s : State) (q n : BitVec 16) (hready : s.ready = true)
    (hwaits : s.putWaits q n = true) :
    exec (.stashFullWaitExpiry q n) s =
      .next (((s.setStash (s.queue q).lease { s.stashOf (s.queue q).lease with
        waits := (s.stashOf (s.queue q).lease).waits.filter (fun w => !(w.queue == q && w.seq == n)) }).count
          0x78BB 5 1).complete q n (outcm stStashFull 0 0)) := if_pos ⟨hready, hwaits⟩

/-- Settles O28: one law for each form of the copies and the drop; the two events of waiting puts only ask a ready
module and a put that waits. -/
theorem stashPutsGetsAndDrops : Obligations.StashPutsGetsAndDrops := by
  unfold Obligations.StashPutsGetsAndDrops
  refine ⟨?_, ?_, ?_, fun s l hready => exec_stashRoomFreed s l hready, exec_stashFullWaitExpiry⟩
  · intro s d t l n hdispatch hflags h22 h30 h40 hwaits hidle hnew hnonempty hlease hrestoring hlatch hplace
    have hchecked : s.StashCopyChecked d 0x72 := ⟨hdispatch, hflags, h22, h30, h40, hidle, hnonempty, hlease⟩
    rw [exec_stashPut, execStashPut_of_new hchecked hwaits hnew hrestoring, actPut_of_fits s d t hlatch hplace]
  · intro s d l n e hdispatch hflags h22 h30 h40 hidle hnonempty hlease
    have hchecked : s.StashCopyChecked d 0x73 := ⟨hdispatch, hflags, h22, h30, h40, hidle, hnonempty, hlease⟩
    rw [exec_stashGet]
    constructor
    · intro habsent
      rw [execStashGet_of_absent hchecked habsent, runNow_of_engine s d 0x73 _ _ rfl]
    · intro x hentry hlength
      exact execStashGet_of_entry hchecked hentry hlength
  · intro s d l x t hdispatch hreserved hfreed
    rw [exec_stashDrop, execStashDrop_of_freed hdispatch hreserved hfreed, runNow_of_engine _ d 0x74 _ _ rfl]
    rfl

end Sys2Proof.Machine
end

section
/-!
PROOF. O29 and O30: the treadle's bindings, grants and waits, and the tokens that signals move (R129 to R133). That
neither dispatch nor completion touches a token is read off `State.beside`.
-/

namespace Sys2Proof.Machine

open Sys2Proof

/-! ### Tokens (R132) -/

/-- A token that lies `n` past its target meets it for the first half of the numbers of 32 bits, with or without a
wrap between them. -/
theorem tokenMet_add_iff (target : BitVec 32) (n : Nat) (hn : n < 2 ^ 32) :
    tokenMet (target + BitVec.ofNat 32 n) target = true ↔ n < 2 ^ 31 := by
  have hdistance : target + BitVec.ofNat 32 n - target = BitVec.ofNat 32 n := by
    rw [BitVec.add_comm, BitVec.add_sub_cancel]
  rw [tokenMet, hdistance, Bool.not_eq_true', BitVec.msb_eq_false_iff_two_mul_lt, BitVec.toNat_ofNat,
    Nat.mod_eq_of_lt hn]
  omega

theorem token_congr {s t : State} (h : t.tokens = s.tokens) (die k : Nat) : t.token die k = s.token die k := by
  rw [State.token, h, State.token]

theorem handOver_tokens (s : State) (d : Desc) (e : Engine) : (s.handOver d e).tokens = s.tokens :=
  show (s.handOver d e).beside.tokens = s.beside.tokens by rw [handOver_beside]

theorem finish_tokens (s : State) (d : Desc) (o : Outcm) : (s.finish d o).tokens = s.tokens :=
  show (s.finish d o).beside.tokens = s.beside.tokens by rw [finish_beside]

/-- Tokens of different dies, or different tokens of a die, stand at different keys. -/
theorem tokenKey_inj {i j die k : Nat} (hj : j < 4096) (hk : k < 4096) (h : tokenKey i j = tokenKey die k) :
    (i, j) = (die, k) := by
  rw [tokenKey, tokenKey] at h
  exact Prod.ext (show i = die by omega) (show j = k by omega)

theorem token_signalToken_same (s : State) (die k mode : Nat) (v : BitVec 32) :
    (s.signalToken die k mode v).token die k = if mode = 0 then s.token die k + v else v :=
  Tab.read_write_same ..

theorem token_signalToken_other (s : State) (die k mode i j : Nat) (v : BitVec 32) (hk : k < 4096) (hj : j < 4096)
    (hne : (i, j) ≠ (die, k)) : (s.signalToken die k mode v).token i j = s.token i j :=
  Tab.read_write_other _ _ _ _ _ fun h => hne (tokenKey_inj hj hk h)

/-! ### Binding (R129) -/

theorem exec_treadleBind (d : Desc) (s : State) : exec (.treadleBind d) s = execTreadleBind d s := rfl

/-- The TREADLE_BIND has its reserved fields 0 and names a queue of its own die that is in use (R129). -/
structure State.BindChecked (s : State) (d : Desc) : Prop where
  dispatch : s.canDispatch d 0x75 = true
  control : bitsOf (fieldOf d.body 18 1) 6 1 = 0
  reserved : fieldZero d.body 19 60 = true
  used : (s.queue (BitVec.ofNat 16 (fieldOf d.body 16 2))).state ≠ .free
  die : (s.queue (BitVec.ofNat 16 (fieldOf d.body 16 2))).die = (s.queue d.queue).die

theorem execTreadleBind_of_unbind {s : State} {d : Desc} (h : s.BindChecked d)
    (hunbind : bitOf (fieldOf d.body 18 1) 7 = true) :
    execTreadleBind d s = .next (s.runNow d 0x75 (fun t =>
      ({ t with treadle := Tab.remove t.treadle (fieldOf d.body 16 2)
                readyOrder := t.readyOrder.filter (fun x => x ≠ fieldOf d.body 16 2) }, doneOk))) := by
  rw [execTreadleBind, onDesc_turn s d 0x75 _ h.dispatch]
  simp [h.control, h.reserved, h.used, h.die, hunbind]

/-- A queue that is bound already, or one of a die that serves fewer than 16, is bound with its class. -/
theorem execTreadleBind_of_bind {s : State} {d : Desc} (h : s.BindChecked d)
    (hbind : bitOf (fieldOf d.body 18 1) 7 = false)
    (hroom : (Tab.find s.treadle (fieldOf d.body 16 2)).isSome = true ∨
      (s.boundQueues (s.queue d.queue).die).length < 16) :
    execTreadleBind d s = .next (s.runNow d 0x75 (fun t =>
      ({ t with treadle := Tab.write t.treadle (fieldOf d.body 16 2) (bitOf (fieldOf d.body 18 1) 0) },
        doneOk))) := by
  have hfull : ¬(Tab.find s.treadle (fieldOf d.body 16 2) = none ∧
      16 ≤ (s.boundQueues (s.queue d.queue).die).length) := by
    rintro ⟨hnew, hlength⟩
    rcases hroom with hbound | hless
    · simp [hnew] at hbound
    · omega
  rw [execTreadleBind, onDesc_turn s d 0x75 _ h.dispatch]
  simp [h.control, h.reserved, h.used, h.die, hbind, hfull]

/-! ### Grants, waits and signals (R131 to R133) -/

theorem exec_treadleGrant (s : State) (die : Nat) (hready : s.ready = true) (hdie : s.tensorDie die = true) :
    exec (.treadleGrant die) s = .next (s.grantTurn die) := if_pos ⟨hready, hdie⟩

theorem exec_treadleWait_of_met (s : State) (d : Desc) (hdispatch : s.canDispatch d 0x76 = true)
    (hfields : waitFieldsOk s d.body = true) (hmet : waitMet s d.body = true) :
    exec (.treadleWait d) s = .next (s.runNow d 0x76 (fun t => (t, doneOk))) := by
  change execTreadleWait d s = _
  rw [execTreadleWait, onDesc_turn s d 0x76 _ hdispatch, if_neg (by simp [hfields]), if_neg (by simp [hmet])]

theorem exec_treadleWait_of_unmet (s : State) (d : Desc) (hdispatch : s.canDispatch d 0x76 = true)
    (hfields : waitFieldsOk s d.body = true) (hunmet : waitMet s d.body = false) :
    exec (.treadleWait d) s = .next s := by
  change execTreadleWait d s = _
  rw [execTreadleWait, onDesc_turn s d 0x76 _ hdispatch, if_neg (by simp [hfields]), if_pos (by simp [hunmet])]

theorem exec_treadleSignal_of_earlierDone (s : State) (d : Desc) (hdispatch : s.canDispatch d 0x77 = true)
    (hfields : signalFieldsOk s d.body = true) (hearlier : s.earlierDone d = true) :
    exec (.treadleSignal d) s = .next (s.runNow d 0x77 (fun t =>
      (t.signalToken (fieldOf d.body 16 1) (fieldOf d.body 18 2) (fieldOf d.body 17 1)
        (BitVec.ofNat 32 (fieldOf d.body 20 4)), doneOk))) := by
  change execTreadleSignal d s = _
  rw [execTreadleSignal, onDesc_turn s d 0x77 _ hdispatch, if_neg (by simp [hfields]),
    if_neg (by simp [hearlier])]

theorem exec_treadleSignal_of_earlierOpen (s : State) (d : Desc) (hdispatch : s.canDispatch d 0x77 = true)
    (hfields : signalFieldsOk s d.body = true) (hearlier : s.earlierDone d = false) :
    exec (.treadleSignal d) s = .next s := by
  change execTreadleSignal d s = _
  rw [execTreadleSignal, onDesc_turn s d 0x77 _ hdispatch, if_neg (by simp [hfields]),
    if_pos (by simp [hearlier])]

theorem token_lt_of_signalFieldsOk {s : State} {b : BitVec 352} (h : signalFieldsOk s b = true) :
    fieldOf b 18 2 < 4096 := by
  simp only [signalFieldsOk, Bool.and_eq_true, decide_eq_true_eq] at h
  exact h.1.2

/-- Settles O29: one law for each form of the commands, and the comparison of tokens over the distance that the
wrap leaves. -/
theorem treadleBindsGrantsAndWaits : Obligations.TreadleBindsGrantsAndWaits := by
  unfold Obligations.TreadleBindsGrantsAndWaits
  refine ⟨?_, exec_treadleGrant, ?_, tokenMet_add_iff⟩
  · intro s d q ctl c t hdispatch hcontrol hreserved hused hdie
    have hchecked : s.BindChecked d := ⟨hdispatch, hcontrol, hreserved, hused, hdie⟩
    rw [exec_treadleBind]
    constructor
    · intro hunbind
      rw [execTreadleBind_of_unbind hchecked hunbind, runNow_of_engine s d 0x75 _ _ rfl]
    · intro hbind hroom
      rw [execTreadleBind_of_bind hchecked hbind hroom, runNow_of_engine s d 0x75 _ _ rfl]
  · intro s d hdispatch hfields
    constructor
    · intro hmet
      rw [exec_treadleWait_of_met s d hdispatch hfields hmet, runNow_of_engine s d 0x76 _ _ rfl]
    · exact exec_treadleWait_of_unmet s d hdispatch hfields

/-- Settles O30: the signal is one write of its token between dispatch and completion, neither of which touches a
token. -/
theorem signalsMoveTheirToken : Obligations.SignalsMoveTheirToken := by
  unfold Obligations.SignalsMoveTheirToken
  refine ⟨token_reset, ?_⟩
  intro s d die k v t w u hdispatch hfields
  refine ⟨fun hearlier => ?_, exec_treadleSignal_of_earlierOpen s d hdispatch hfields⟩
  have ht : ∀ i j, t.token i j = s.token i j := token_congr (handOver_tokens s d _)
  have hu : u = (t.signalToken die k (fieldOf d.body 17 1) v).finish d doneOk := by
    simp only [State.signalToken, ht, tokenKey, Nat.mul_comm die 4096, u, w]
  have huToken : ∀ i j, u.token i j = (t.signalToken die k (fieldOf d.body 17 1) v).token i j := by
    rw [hu]
    exact token_congr (finish_tokens ..)
  refine ⟨?_, ?_, fun i j hj hne => ?_⟩
  · rw [exec_treadleSignal_of_earlierDone s d hdispatch hfields hearlier, runNow_of_engine s d 0x77 _ _ rfl, hu]
  · rw [huToken, token_signalToken_same, ht]
  · rw [huToken, token_signalToken_other t die k _ i j v (token_lt_of_signalFieldsOk hfields) hj hne, ht]

end Sys2Proof.Machine
end

section
/-!
PROOF. O31: micro-batches are admitted and retired (R144, R145). Past its checks each command runs whole on dispatch.
That a retirement takes the oldest of several admissions is the model's choice (log 30).
-/

namespace Sys2Proof.Machine

open Sys2Proof

theorem exec_mbAdmit_of_fits (s : State) (d : Desc) (g : Seg) (n k : Nat) (hdispatch : s.canDispatch d 0x78 = true)
    (hcase : s.admitCase d.queue d.body = .admits g n k) (hfits : s.admitFits g = true) :
    exec (.mbAdmit d) s = .next (s.runNow d 0x78 (fun t =>
      let u : State := { t with segs := t.segs ++ [g] }
      (if g.segment = 0 ∧ 1 < n then u.count (0x78A1 + g.die) 0xA 1 else u, outcm stDone k 0))) := by
  change execMbAdmit d s = _
  rw [execMbAdmit, onDesc_turn s d 0x78 _ hdispatch, hcase]
  exact congrArg _ (if_neg (by simp [hfits]))

/-- The admission of the micro-batch and segment that an MB_RETIRE names, on its queue's die (R145). -/
def State.retires (s : State) (d : Desc) (g : Seg) : Bool :=
  g.die == (s.queue d.queue).die && g.mb == fieldOf d.body 16 4 && g.segment == fieldOf d.body 28 2

theorem exec_mbRetire_of_admitted (s : State) (d : Desc) (hdispatch : s.canDispatch d 0x79 = true)
    (h20 : fieldZero d.body 20 28 = true) (h30 : fieldZero d.body 30 60 = true)
    (hadmitted : s.segs.any (s.retires d) = true) :
    exec (.mbRetire d) s = .next (s.runNow d 0x79 (fun t =>
      ({ t with segs := t.segs.eraseP (s.retires d) }, doneOk))) := by
  change execMbRetire d s = _
  rw [execMbRetire, onDesc_turn s d 0x79 _ hdispatch]
  have hany : s.segs.any (fun g => g.die == (s.queue d.queue).die && g.mb == fieldOf d.body 16 4 &&
      g.segment == fieldOf d.body 28 2) = true := hadmitted
  exact congrArg _ (if_neg (by simp [h20, h30, hany]))

/-- Settles O31: past their checks both commands run whole on dispatch. -/
theorem microbatchesAreAdmittedAndRetired : Obligations.MicrobatchesAreAdmittedAndRetired := by
  unfold Obligations.MicrobatchesAreAdmittedAndRetired
  constructor
  · intro s d g n k hdispatch hcase hfits
    rw [exec_mbAdmit_of_fits s d g n k hdispatch hcase hfits, runNow_of_engine s d 0x78 _ _ rfl]
  · intro s d hit t hdispatch h20 h30 hadmitted
    rw [exec_mbRetire_of_admitted s d hdispatch h20 h30 hadmitted, runNow_of_engine s d 0x79 _ _ rfl]
    rfl

end Sys2Proof.Machine
end

section
/-!
PROOF. O32: what an update past its checks comes to while its engine has room, and when the outcome that it waits for
is held (R156, R172, R357). One law per fate of the update serves UPD_STAT and UPD_APPLY alike.
-/

namespace Sys2Proof.Machine

open Sys2Proof

/-! ### Updates at dispatch -/

theorem exec_updStat (s : State) (d : Desc) (hdispatch : s.canDispatch d 0x80 = true) :
    exec (.updStat d) s = .next (s.dispatchUpd d 0x80 none) :=
  onDesc_of_canDispatch s d 0x80 (fun s => s.dispatchUpd d 0x80 none) hdispatch

theorem exec_updApply (s : State) (d : Desc) (hdispatch : s.canDispatch d 0x81 = true) :
    exec (.updApply d) s = .next (s.dispatchUpd d 0x81 none) :=
  onDesc_of_canDispatch s d 0x81 (fun s => s.dispatchUpd d 0x81 none) hdispatch

theorem handOver_conf (s : State) (d : Desc) (e : Engine) : (s.handOver d e).conf = s.conf :=
  show (s.handOver d e).beside.conf = s.beside.conf by rw [handOver_beside]

/-- The update passes its checks, and its die's engine, which takes two, has room (R154, R156). -/
structure State.UpdAccepted (s : State) (d : Desc) (apply : Bool) : Prop where
  checks : s.updChecks d.queue apply d.body = none
  room : s.updLoad (s.queue d.queue).die < 2

section Accepted

variable {s : State} {d : Desc} {op : Byte} (h : s.UpdAccepted d (op == 0x81)) (stall : Option Nat)

include h

theorem dispatchUpd_of_accepted : s.dispatchUpd d op stall = s.updStart d op stall := by
  rw [State.dispatchUpd, h.checks]

theorem dispatchUpd_of_held {o : Outcome} (hheld : s.outcomeOf (updF d.body).step = some o) :
    s.dispatchUpd d op stall =
      s.runNow d op (fun t => t.updSettle d.queue (op == 0x81) (updF d.body) o stall) := by
  rw [dispatchUpd_of_accepted h, State.updStart, if_neg (Nat.not_le.2 h.room), hheld]

/-- An outcome that is not held but still can be is waited for at the engine, with the configuration of dispatch. -/
theorem dispatchUpd_of_pending (hpending : s.outcomeOf (updF d.body).step = none)
    (hpossible : s.outcomeGone (updF d.body).step = false) :
    s.dispatchUpd d op stall =
      { s.handOver d .update with outcomeWaits := (s.handOver d .update).outcomeWaits ++
          [{ queue := d.queue, seq := d.seq, opcode := op, body := d.body, conf := s.conf }] } := by
  rw [dispatchUpd_of_accepted h, State.updStart, if_neg (Nat.not_le.2 h.room), hpending, ← handOver_conf s d .update]
  exact if_neg (by simp [hpossible])

end Accepted

/-! ### Updates that wait -/

/-- The state without the waits of the descriptor of `w`. -/
def State.dropOutcomeWait (s : State) (w : OutcomeWait) : State :=
  { s with outcomeWaits := s.outcomeWaits.filter (fun y => !(y.queue == w.queue && y.seq == w.seq)) }

/-- The update goes on under the configuration that it was dispatched in, and completes (R357). -/
theorem updResume_of_held (s : State) (w : OutcomeWait) (o : Outcome) (stall : Option Nat)
    (hheld : s.outcomeOf (updF w.body).step = some o) :
    s.updResume w stall =
      let r := (s.dropOutcomeWait w).underConf w.conf (fun t =>
        t.updSettle w.queue (w.opcode == 0x81) (updF w.body) o stall)
      r.1.complete w.queue w.seq r.2 := by
  simp only [State.updResume, hheld, State.dropOutcomeWait]

theorem exec_barrierOutcomeHeld_of_update (s : State) (q n : BitVec 16) (w : OutcomeWait) (hready : s.ready = true)
    (hwait : s.outcomeWaits.find? (fun w => w.queue == q && w.seq == n) = some w) (hop : w.opcode ≠ 0x94) :
    exec (.barrierOutcomeHeld q n) s = .next (s.updResume w none) := by
  change execBarrierOutcomeHeld q n s = _
  rw [execBarrierOutcomeHeld, if_neg (by simp [hready]), hwait]
  exact congrArg _ (if_neg hop)

/-- Settles O32: the accepted update follows its outcome, for each of the two opcodes, and a waiting one goes on as
`State.updResume` says. -/
theorem updatesRunOnceTheirOutcomeIsHeld : Obligations.UpdatesRunOnceTheirOutcomeIsHeld := by
  unfold Obligations.UpdatesRunOnceTheirOutcomeIsHeld
  refine ⟨?_, ?_, ?_, ?_⟩
  · intro s d o hdispatch hchecks hroom hheld
    have haccepted : s.UpdAccepted d ((0x80 : Byte) == 0x81) := ⟨hchecks, hroom⟩
    rw [exec_updStat s d hdispatch, dispatchUpd_of_held haccepted none hheld]
    rfl
  · intro s d o hdispatch hchecks hroom hheld
    have haccepted : s.UpdAccepted d ((0x81 : Byte) == 0x81) := ⟨hchecks, hroom⟩
    rw [exec_updApply s d hdispatch, dispatchUpd_of_held haccepted none hheld]
    rfl
  · intro s d hdispatch hchecks hpending hpossible hroom
    have haccepted : s.UpdAccepted d ((0x81 : Byte) == 0x81) := ⟨hchecks, hroom⟩
    rw [exec_updApply s d hdispatch, dispatchUpd_of_pending haccepted none hpending hpossible]
  · intro s q n w o t r hready hwait hop hheld
    rw [exec_barrierOutcomeHeld_of_update s q n w hready hwait hop, updResume_of_held s w o none hheld]
    rfl

end Sys2Proof.Machine
end

section
/-!
PROOF. O33: temple contexts are opened, attached to and closed, and their alarms are cleared (R175, R176, R188, R190).
The checks that a command has passed are one structure; past them it runs whole on dispatch.
-/

namespace Sys2Proof.Machine

open Sys2Proof

/-- The context that a temple descriptor names in byte 16 (Table NUM-3). -/
abbrev State.namedCtx (s : State) (d : Desc) : Ctx := s.ctx (fieldOf d.body 16 1)

/-- A table or record that a descriptor may leave out breaks no lease check when it lies in the lease (R177). -/
theorem not_outside_of_optional {s : State} {q : BitVec 16} {a n : Nat} (h : a = 0 ∨ s.within q a n = true) :
    ¬(a ≠ 0 ∧ !s.within q a n) := by
  rintro ⟨hsome, hout⟩
  rcases h with hnone | hin
  · exact hsome hnone
  · simp [hin] at hout

/-! ### Opening (R175, R188) -/

theorem exec_templeOpen (d : Desc) (s : State) : exec (.templeOpen d) s = execTempleOpen d s := rfl

/-- The TEMPLE_OPEN has its reserved fields 0 and names a closed context of the 64 (R175, R176). -/
structure State.OpenChecked (s : State) (d : Desc) : Prop where
  dispatch : s.canDispatch d 0x90 = true
  reserved18 : fieldOf d.body 18 2 = 0
  reserved44 : fieldZero d.body 44 60 = true
  context : fieldOf d.body 16 1 ≤ 63
  closed : (s.namedCtx d).state = .closed

/-- PERCH mode gives neither layers nor a step, a tally table or a history record. -/
theorem execTempleOpen_of_perch {s : State} {d : Desc} (h : s.OpenChecked d) (hmode : fieldOf d.body 17 1 = 1)
    (hlayers : fieldOf d.body 20 4 = 0) (hstep : fieldOf d.body 24 8 = 0) (htally : fieldOf d.body 32 6 = 0)
    (hhist : fieldOf d.body 38 6 = 0) :
    execTempleOpen d s = .next (s.runNow d 0x90 (fun t => (t.setCtx (fieldOf d.body 16 1)
      { Ctx.init with state := .opened, perch := true, alarm := (t.namedCtx d).alarm }, doneOk))) := by
  rw [execTempleOpen, onDesc_turn s d 0x90 _ h.dispatch,
    if_neg (by simp [h.reserved18, h.reserved44, h.closed, hmode, hlayers, hstep, htally, hhist,
      Nat.not_lt.2 h.context]), if_pos hmode]

/-- A TRAIN context takes its tables within the lease of the queue that opens it (R177). -/
theorem execTempleOpen_of_train {s : State} {d : Desc} (h : s.OpenChecked d) (hmode : fieldOf d.body 17 1 = 0)
    (hsome : fieldOf d.body 20 4 ≠ 0) (hmax : fieldOf d.body 20 4 ≤ 65536) (halign : fieldOf d.body 38 6 % 16 = 0)
    (htally : s.within d.queue (fieldOf d.body 32 6) (256 * fieldOf d.body 20 4) = true)
    (hhist : fieldOf d.body 38 6 = 0 ∨
      s.within d.queue (fieldOf d.body 38 6) (histBytes (fieldOf d.body 20 4)) = true) :
    execTempleOpen d s = .next (s.runNow d 0x90 (fun t =>
      let r := t.openTrain d.queue (fieldOf d.body 16 1) (fieldOf d.body 20 4) (fieldOf d.body 24 8)
        (fieldOf d.body 32 6) (fieldOf d.body 38 6)
      (r.1, outcm stDone r.2 0))) := by
  rw [execTempleOpen, onDesc_turn s d 0x90 _ h.dispatch,
    if_neg (by simp [h.reserved18, h.reserved44, h.closed, hmode, halign, Nat.not_lt.2 h.context,
      Nat.not_lt.2 hmax]),
    if_neg (by simp [hmode]), if_neg hsome, if_neg (not_or.2 ⟨by simp [htally], not_outside_of_optional hhist⟩)]

/-! ### Attaching and detaching (R175) -/

theorem exec_templeAttach (d : Desc) (s : State) : exec (.templeAttach d) s = execTempleAttach d s := rfl

/-- The TEMPLE_ATTACH has its reserved fields 0 and names a context that is not closed (R176). -/
structure State.AttachChecked (s : State) (d : Desc) : Prop where
  dispatch : s.canDispatch d 0x91 = true
  context : fieldOf d.body 16 1 ≤ 63
  control : bitsOf (fieldOf d.body 17 1) 6 0 = 0
  reserved : fieldZero d.body 20 60 = true
  inUse : (s.namedCtx d).state ≠ .closed

/-- A queue of no context, or of the named one, belongs to the named one. -/
theorem execTempleAttach_of_attach {s : State} {d : Desc} (h : s.AttachChecked d)
    (hattach : bitOf (fieldOf d.body 17 1) 7 = false)
    (hunclaimed : Tab.find s.attached (fieldOf d.body 18 2) = none ∨
      Tab.find s.attached (fieldOf d.body 18 2) = some (fieldOf d.body 16 1)) :
    execTempleAttach d s = .next (s.runNow d 0x91 (fun t =>
      ({ t with attached := Tab.write t.attached (fieldOf d.body 18 2) (fieldOf d.body 16 1) }, doneOk))) := by
  rw [execTempleAttach, onDesc_turn s d 0x91 _ h.dispatch]
  rcases hunclaimed with hfree | hsame
  · simp [h.control, h.reserved, h.inUse, hattach, hfree, Nat.not_lt.2 h.context]
  · simp [h.control, h.reserved, h.inUse, hattach, hsame, Nat.not_lt.2 h.context]

theorem execTempleAttach_of_detach {s : State} {d : Desc} (h : s.AttachChecked d)
    (hdetach : bitOf (fieldOf d.body 17 1) 7 = true)
    (hmember : Tab.find s.attached (fieldOf d.body 18 2) = some (fieldOf d.body 16 1)) :
    execTempleAttach d s = .next (s.runNow d 0x91 (fun t =>
      ({ t with attached := Tab.remove t.attached (fieldOf d.body 18 2) }, doneOk))) := by
  rw [execTempleAttach, onDesc_turn s d 0x91 _ h.dispatch]
  simp [h.control, h.reserved, h.inUse, hdetach, hmember, Nat.not_lt.2 h.context]

/-! ### Closing (R176) and the alarm (R190) -/

/-- With no decision of its context waiting, the close detaches every queue and keeps the alarm alone. -/
theorem exec_templeClose_of_undecided (s : State) (d : Desc) (hdispatch : s.canDispatch d 0x95 = true)
    (hcontext : fieldOf d.body 16 1 ≤ 63) (hreserved : fieldZero d.body 17 60 = true)
    (hinUse : (s.namedCtx d).state ≠ .closed)
    (hundecided : s.outcomeWaits.any (fun w => w.decides (fieldOf d.body 16 1)) = false) :
    exec (.templeClose d) s = .next (s.runNow d 0x95 (fun t =>
      ({ t.setCtx (fieldOf d.body 16 1) { Ctx.init with alarm := (t.namedCtx d).alarm } with
          attached := t.attached.filter (fun e => e.2 ≠ fieldOf d.body 16 1) }, doneOk))) := by
  change execTempleClose d s = _
  rw [execTempleClose, onDesc_turn s d 0x95 _ hdispatch,
    if_neg (by simp [hreserved, hinUse, Nat.not_lt.2 hcontext]), if_neg (by simp [hundecided])]

theorem onCmd_of_draftUp (s : State) (f : State → State × DapResult) (h : s.power.draftUp = true) :
    s.onCmd f = .next { (f s).1 with draft := { (f s).1.draft with lastResult := (f s).2 } } := if_pos h

theorem templeAlarmClear_of_le (s : State) (v : Nat) (h : v ≤ 63) : s.templeAlarmClear v = (s.clearAlarm v, .ok) :=
  if_neg (Nat.not_lt.2 h)

theorem exec_templeAlarmClear_of_le (s : State) (v : Byte) (hup : s.power.draftUp = true) (hv : v.toNat ≤ 63) :
    exec (.templeAlarmClear v) s =
      .next { s.clearAlarm v.toNat with draft := { (s.clearAlarm v.toNat).draft with lastResult := .ok } } := by
  change s.onCmd (fun t => t.templeAlarmClear v.toNat) = _
  rw [onCmd_of_draftUp s _ hup, templeAlarmClear_of_le s v.toNat hv]

/-- Settles O33: one law for each form of the commands, run whole on the dispatch core. -/
theorem templeContextsOpenAttachAndClose : Obligations.TempleContextsOpenAttachAndClose := by
  unfold Obligations.TempleContextsOpenAttachAndClose
  refine ⟨?_, ?_, ?_, exec_templeAlarmClear_of_le⟩
  · intro s d k n t hdispatch h18 h44 hcontext hclosed
    have hchecked : s.OpenChecked d := ⟨hdispatch, h18, h44, hcontext, hclosed⟩
    rw [exec_templeOpen]
    constructor
    · intro hmode hlayers hstep htally hhist
      rw [execTempleOpen_of_perch hchecked hmode hlayers hstep htally hhist, runNow_of_engine s d 0x90 _ _ rfl]
    · intro hmode hsome hmax halign htally hhist
      rw [execTempleOpen_of_train hchecked hmode hsome hmax halign htally hhist, runNow_of_engine s d 0x90 _ _ rfl]
  · intro s d k ctl q t hdispatch hcontext hcontrol hreserved hinUse
    have hchecked : s.AttachChecked d := ⟨hdispatch, hcontext, hcontrol, hreserved, hinUse⟩
    rw [exec_templeAttach]
    constructor
    · intro hattach hunclaimed
      rw [execTempleAttach_of_attach hchecked hattach hunclaimed, runNow_of_engine s d 0x91 _ _ rfl]
    · intro hdetach hmember
      rw [execTempleAttach_of_detach hchecked hdetach hmember, runNow_of_engine s d 0x91 _ _ rfl]
  · intro s d k t hdispatch hcontext hreserved hinUse hundecided
    rw [exec_templeClose_of_undecided s d hdispatch hcontext hreserved hinUse hundecided,
      runNow_of_engine s d 0x95 _ _ rfl]

end Sys2Proof.Machine
end

section
/-!
PROOF. O34: a tally adds its operand's bins to its layer's table, a seal that nothing holds closes the step, and a
decision whose outcome is held settles (R178 to R190, R357). The tally's operand format stands in byte 17 (log 36).
-/

namespace Sys2Proof.Machine

open Sys2Proof

/-! ### Tally (R181) -/

theorem exec_templeTally (d : Desc) (s : State) : exec (.templeTally d) s = execTempleTally d s := rfl

/-- The TEMPLE_TALLY passes the checks of its own fields: it names a layer and the step of an open TRAIN context, and
an operand of format ACC64 (R181, R192). -/
structure State.TallyFieldsOk (s : State) (d : Desc) (o : Opf) : Prop where
  format : decodeOpf (fieldOf d.body 17 1) = some o
  wide : o.fmt = .acc64
  context : fieldOf d.body 16 1 ≤ 63
  reserved18 : fieldZero d.body 18 20 = true
  reserved38 : fieldZero d.body 38 60 = true
  train : (s.namedCtx d).perch = false
  opened : (s.namedCtx d).state = .opened
  layer : fieldOf d.body 20 4 < (s.namedCtx d).formats.length
  step : fieldOf d.body 24 8 = (s.namedCtx d).step
  align : fieldOf d.body 32 6 % 16 = 0

/-- The record of the operand that a TEMPLE_TALLY reads. -/
abbrev State.tallyRec (s : State) (d : Desc) : OpRec := s.readRec (fieldOf d.body 32 6)

/-- Its operand record is clean, from memory and not empty, and lies in the lease with its planes and the tally table
(R177). -/
structure State.TallyReadable (s : State) (d : Desc) (o : Opf) : Prop where
  clean : s.anyPoison (fieldOf d.body 32 6) 48 = false
  reserved : (s.tallyRec d).rsvd = true
  source : (s.tallyRec d).source = 0
  rows : (s.tallyRec d).rows ≠ 0
  cols : (s.tallyRec d).cols ≠ 0
  record : s.within d.queue (fieldOf d.body 32 6) 48 = true
  table : s.within d.queue (s.namedCtx d).tallyBase (256 * (s.namedCtx d).formats.length) = true
  mant : s.within d.queue (s.tallyRec d).mant ((s.tallyRec d).mantExtent o.fmt) = true
  scale : s.within d.queue (s.tallyRec d).scale ((s.tallyRec d).scaleExtent o) = true

/-- What a tally does to the state: the operand's mantissas are read and the layer's entry is the sum. -/
def State.runTally (s : State) (r : OpRec) (o : Opf) (base layer : Nat) : State × Outcm :=
  let t := s.tallyBins r o (s.readBins base layer)
  ((s.noteRead r.mant (r.mantExtent o.fmt)).writeMem (base + 256 * layer) ((t.1.map (fun b => toLe 8 b)).flatten),
    if t.2 then outcm stPoisonSrc 0 0 else doneOk)

theorem execTempleTally_of_room {s : State} {d : Desc} {o : Opf} (hdispatch : s.canDispatch d 0x92 = true)
    (hfields : s.TallyFieldsOk d o) (hreadable : s.TallyReadable d o)
    (hfree : s.objWrite (s.namedCtx d).tallyBase = .free) (hroom : s.updLoad (s.queue d.queue).die < 2) :
    execTempleTally d s = .next (s.runNow d 0x92 (fun t => t.runTally (s.tallyRec d) o (s.namedCtx d).tallyBase
      (fieldOf d.body 20 4))) := by
  rw [execTempleTally, onDesc_turn s d 0x92 _ hdispatch]
  simp only [hfields.format]
  rw [if_neg (by simp [hfields.wide, hfields.reserved18, hfields.reserved38, hfields.train, hfields.opened,
        hfields.step, hfields.align, Nat.not_lt.2 hfields.context, hfields.layer]),
    if_neg (by simp [hreadable.reserved, hreadable.source]), if_neg (by simp [hfree]),
    if_neg (by simp [hreadable.rows, hreadable.cols]),
    if_neg (by simp [hreadable.record, hreadable.table, hreadable.mant, hreadable.scale]),
    if_neg (by simp [hreadable.clean]), if_neg (by simp [hfree, Nat.not_le.2 hroom])]
  rfl

/-! ### Seal (R180) -/

theorem handOver_seals (s : State) (d : Desc) (e : Engine) : (s.handOver d e).seals = s.seals :=
  show (s.handOver d e).beside.seals = s.beside.seals by rw [handOver_beside]

theorem ctx_handOver (s : State) (d : Desc) (e : Engine) (k : Nat) : (s.handOver d e).ctx k = s.ctx k :=
  show (s.handOver d e).beside.ctx k = s.beside.ctx k by rw [handOver_beside]

/-- The state with the seal `w` accepted after those before it. -/
def State.addSeal (s : State) (w : SealWait) : State := { s with seals := s.seals ++ [w] }

theorem ctx_addSeal (s : State) (w : SealWait) (k : Nat) : (s.addSeal w).ctx k = s.ctx k := rfl

/-- The state without the seal of the descriptor of `w`. -/
def State.dropSeal (s : State) (w : SealWait) : State :=
  { s with seals := s.seals.filter (fun y => !(y.queue == w.queue && y.seq == w.seq)) }

theorem dropSeal_addSeal_of_none (s : State) (w : SealWait) (h : s.seals = []) :
    (s.addSeal w).dropSeal w = { s with seals := [] } := by
  simp [State.addSeal, State.dropSeal, h]

/-- A seal that waits for nothing freezes the flag of the step that its context is open at. -/
theorem trySeal_of_idle (s : State) (w : SealWait) (body : BitVec 352)
    (hidle : w.waitFor.any (fun x => s.runningAt x.1 x.2) = false)
    (hopened : (s.ctx (fieldOf body 16 1)).state = .opened)
    (hstep : (s.ctx (fieldOf body 16 1)).step = fieldOf body 24 8) :
    s.trySeal w body =
      ((s.dropSeal w).setCtx (fieldOf body 16 1) { s.ctx (fieldOf body 16 1) with state := .sealed }).complete
        w.queue w.seq (outcm stDone (if (s.ctx (fieldOf body 16 1)).flag then 1 else 0) 0) := by
  rw [State.trySeal, if_neg (by simp [hidle])]
  exact if_neg (not_or.2 ⟨not_not.2 hopened, not_not.2 hstep⟩)

/-- The TEMPLE_SEAL is not accepted yet, and names the step of an open TRAIN context (R176, R192). -/
structure State.SealChecked (s : State) (d : Desc) : Prop where
  dispatch : s.canDispatch d 0x93 = true
  new : s.seals.find? (fun w => w.queue == d.queue && w.seq == d.seq) = none
  context : fieldOf d.body 16 1 ≤ 63
  reserved17 : fieldZero d.body 17 24 = true
  reserved32 : fieldZero d.body 32 60 = true
  train : (s.namedCtx d).perch = false
  opened : (s.namedCtx d).state = .opened
  step : fieldOf d.body 24 8 = (s.namedCtx d).step

/-- A seal that passes its checks is accepted and tried at once, with the watched descriptors that it found running. -/
theorem exec_templeSeal_of_checked {s : State} {d : Desc} (h : s.SealChecked d) :
    exec (.templeSeal d) s =
      (let w : SealWait :=
        { queue := d.queue, seq := d.seq
          waitFor := s.watchedOpen (fieldOf d.body 16 1) (s.namedCtx d).step }
       .next (((s.handOver d .dispatch).addSeal w).trySeal w d.body)) := by
  change execTempleSeal d s = _
  simp only [execTempleSeal, h.new]
  rw [onDesc_turn s d 0x93 _ h.dispatch,
    if_neg (by simp [h.reserved17, h.reserved32, h.train, h.opened, h.step, Nat.not_lt.2 h.context])]
  rfl

/-! ### Decision (R183) -/

/-- The TEMPLE_DECIDE passes the checks of its own fields, and what it reads and writes lies in the lease (R177,
R192). -/
structure State.DecideChecked (s : State) (d : Desc) : Prop where
  dispatch : s.canDispatch d 0x94 = true
  context : fieldOf d.body 16 1 ≤ 63
  reserved17 : fieldZero d.body 17 24 = true
  reserved44 : fieldZero d.body 44 60 = true
  train : (s.namedCtx d).perch = false
  sealedStep : (s.namedCtx d).state = .sealed
  step : fieldOf d.body 24 8 = (s.namedCtx d).step
  align : fieldOf d.body 38 6 % 16 = 0
  tally : fieldOf d.body 32 6 = 0 ∨
    s.within d.queue (fieldOf d.body 32 6) (256 * (s.namedCtx d).formats.length) = true
  history : s.within d.queue (fieldOf d.body 38 6) (histBytes (s.namedCtx d).formats.length) = true
  table : s.within d.queue (s.namedCtx d).tallyBase (256 * (s.namedCtx d).formats.length) = true

theorem exec_templeDecide_of_held {s : State} {d : Desc} {o : Outcome} (h : s.DecideChecked d)
    (hfree : s.decideHeld d.body = false) (hheld : s.outcomeOf (fieldOf d.body 24 8) = some o) :
    exec (.templeDecide d) s = .next (s.runNow d 0x94 (fun t => t.settleDecide d.body o)) := by
  change execTempleDecide d s = _
  rw [execTempleDecide, onDesc_turn s d 0x94 _ h.dispatch,
    if_neg (by simp [h.reserved17, h.reserved44, h.train, h.sealedStep, h.step, h.align, Nat.not_lt.2 h.context]),
    if_neg (not_or.2 ⟨not_outside_of_optional h.tally, by simp [h.history, h.table]⟩)]
  simp only [hheld, hfree, Bool.false_eq_true, if_false]

/-- A decision that waited settles under the configuration that it was dispatched in, and completes (R357). -/
theorem decideResume_of_held (s : State) (w : OutcomeWait) (o : Outcome) (hfree : s.decideHeld w.body = false)
    (hheld : s.outcomeOf (fieldOf w.body 24 8) = some o) :
    s.decideResume w =
      let r := (s.dropOutcomeWait w).underConf w.conf (fun t => t.settleDecide w.body o)
      r.1.complete w.queue w.seq r.2 := by
  simp only [State.decideResume, hheld, hfree, Bool.false_eq_true, if_false, State.dropOutcomeWait]

theorem exec_barrierOutcomeHeld_of_decision (s : State) (q n : BitVec 16) (w : OutcomeWait) (hready : s.ready = true)
    (hwait : s.outcomeWaits.find? (fun w => w.queue == q && w.seq == n) = some w) (hop : w.opcode = 0x94) :
    exec (.barrierOutcomeHeld q n) s = .next (s.decideResume w) := by
  change execBarrierOutcomeHeld q n s = _
  rw [execBarrierOutcomeHeld, if_neg (by simp [hready]), hwait]
  exact congrArg _ (if_pos hop)

/-- Settles O34: the checked tally runs whole, the only seal is dropped from the list as it takes effect, and a
decision settles alike at dispatch and after a wait. -/
theorem templeStepsAreTalliedSealedAndDecided : Obligations.TempleStepsAreTalliedSealedAndDecided := by
  unfold Obligations.TempleStepsAreTalliedSealedAndDecided
  refine ⟨?_, ?_, ?_, ?_⟩
  · intro s d o k l a c r u t hdispatch hformat hcontext h18 h38 htrain hopened hwide hlayer hstep halign hclean
      hrsvd hsource hrows hcols hfree hroom hrecord htable hmant hscale
    have hfields : s.TallyFieldsOk d o :=
      ⟨hformat, hwide, hcontext, h18, h38, htrain, hopened, hlayer, hstep, halign⟩
    have hreadable : s.TallyReadable d o :=
      ⟨hclean, hrsvd, hsource, hrows, hcols, hrecord, htable, hmant, hscale⟩
    rw [exec_templeTally, execTempleTally_of_room hdispatch hfields hreadable hfree hroom,
      runNow_of_engine s d 0x92 _ _ rfl, State.runTally]
  · intro s d k c t hdispatch hnew hcontext h17 h32 htrain hopened hstep hnone hseals
    have hseals : t.seals = [] := (handOver_seals s d .dispatch).trans hseals
    have hctx : ∀ w, (t.addSeal w).ctx k = c := fun w => (ctx_addSeal t w k).trans (ctx_handOver s d .dispatch k)
    rw [exec_templeSeal_of_checked ⟨hdispatch, hnew, hcontext, h17, h32, htrain, hopened, hstep⟩]
    dsimp only
    rw [hnone, trySeal_of_idle _ _ _ rfl ((congrArg Ctx.state (hctx _)).trans hopened)
      ((congrArg Ctx.step (hctx _)).trans hstep.symm), ctx_addSeal, ctx_handOver, dropSeal_addSeal_of_none t _ hseals]
    rfl
  · intro s d o k c n tally hdispatch hcontext h17 h44 htrain hsealed hstep halign htally hhist htable hfree hheld
    exact exec_templeDecide_of_held
      ⟨hdispatch, hcontext, h17, h44, htrain, hsealed, hstep, halign, htally, hhist, htable⟩ hfree hheld
  · intro s q n w o t r hready hwait hop hheld hfree
    rw [exec_barrierOutcomeHeld_of_decision s q n w hready hwait hop, decideResume_of_held s w o hfree hheld]
    rfl

end Sys2Proof.Machine
end

section
/-!
PROOF. O16: copies and multicasts at dispatch (R203, R204, R206, R219, R220). Past the checks of its fields and of
its lease a transfer that moves bytes has one way to go: to the shuttle that its SH_CTL names. Both opcodes of a copy
share one law.
-/

namespace Sys2Proof.Machine

open Sys2Proof

/-! ### Copies (R203, R204, R206) -/

/-- The copy of opcode `op` has legal fields and bytes to move, and its local bytes lie in the lease of its queue. -/
structure State.CopyChecked (s : State) (d : Desc) (op : Byte) : Prop where
  fields : s.copyFieldsOk (s.queue d.queue).die op d.body = true
  rows : (copyShape op d.body).rows ≠ 0
  rowBytes : (copyShape op d.body).rowBytes ≠ 0
  leased : s.copyLeased d.queue op d.body = true

theorem dispatchCopy_of_checked {s : State} {d : Desc} {op : Byte} (h : s.CopyChecked d op) :
    s.dispatchCopy d op = s.handXfer d op (shuttleOf d.queue d.body) := by
  rw [State.dispatchCopy, if_neg (by simp [h.fields]), if_neg (not_or.2 ⟨h.rows, h.rowBytes⟩),
    if_neg (by simp [h.leased])]

theorem exec_shutCopy (s : State) (d : Desc) (hdispatch : s.canDispatch d 0x10 = true) :
    exec (.shutCopy d) s = .next (s.dispatchCopy d 0x10) :=
  onDesc_turn s d 0x10 (fun s => s.dispatchCopy d 0x10) hdispatch

theorem exec_shutCopy2d (s : State) (d : Desc) (hdispatch : s.canDispatch d 0x11 = true) :
    exec (.shutCopy2d d) s = .next (s.dispatchCopy d 0x11) :=
  onDesc_turn s d 0x11 (fun s => s.dispatchCopy d 0x11) hdispatch

/-! ### Multicasts (R219, R220) -/

/-- The SHUT_MCAST has legal fields, COUNT blocks to send, members to send them to, and its blocks, which stand from
address `a` on, lie in the lease of its queue. -/
structure State.McastChecked (s : State) (d : Desc) (a : Nat) : Prop where
  source : decodeAddr s (fieldOf d.body 24 8) = .here a
  shuttle : fieldBits d.body 16 2 0 ≤ 4
  reserved16 : fieldBits d.body 16 7 3 = 0
  nonempty : fieldOf d.body 20 4 ≠ 0
  align : fieldOf d.body 20 4 % 256 = 0
  bytes : fieldOf d.body 20 4 ≤ 65536
  stride : fieldOf d.body 20 4 ≤ fieldOf d.body 40 8
  count : fieldOf d.body 32 4 ≤ 65536
  reserved36 : fieldZero d.body 36 40 = true
  reserved48 : fieldZero d.body 48 60 = true
  blocks : fieldOf d.body 32 4 ≠ 0
  members : (s.members (s.queue d.queue).die (fieldOf d.body 17 1)).isEmpty = false
  leased : (List.range (fieldOf d.body 32 4)).all
    (fun i => s.within d.queue (a + i * fieldOf d.body 40 8) (fieldOf d.body 20 4)) = true

theorem exec_shutMcast_of_checked {s : State} {d : Desc} {a : Nat} (hdispatch : s.canDispatch d 0x12 = true)
    (h : s.McastChecked d a) :
    exec (.shutMcast d) s = .next (s.handXfer d 0x12 (shuttleOf d.queue d.body)) := by
  change execShutMcast d s = _
  rw [execShutMcast, onDesc_turn s d 0x12 _ hdispatch]
  simp only [h.source]
  rw [if_neg (by simp [h.reserved16, h.nonempty, h.align, h.reserved36, h.reserved48, Nat.not_lt.2 h.shuttle,
        Nat.not_lt.2 h.bytes, Nat.not_lt.2 h.stride, Nat.not_lt.2 h.count]),
    if_neg (by simp [h.blocks, h.members]), if_neg (by rw [h.leased]; decide)]

/-- Settles O16: past its checks a copy, of either opcode, and a multicast each go to their shuttle. -/
theorem copiesAreHandedToTheirShuttle : Obligations.CopiesAreHandedToTheirShuttle := by
  unfold Obligations.CopiesAreHandedToTheirShuttle
  refine ⟨?_, ?_, ?_⟩
  · intro s d hdispatch hfields hrows hrowBytes hleased
    rw [exec_shutCopy s d hdispatch, dispatchCopy_of_checked ⟨hfields, hrows, hrowBytes, hleased⟩]
  · intro s d hdispatch hfields hrows hrowBytes hleased
    rw [exec_shutCopy2d s d hdispatch, dispatchCopy_of_checked ⟨hfields, hrows, hrowBytes, hleased⟩]
  · intro s d a hdispatch hsource hshuttle h16 hnonempty halign hbytes hstride hcount h36 h48 hblocks hmembers hleased
    exact exec_shutMcast_of_checked hdispatch
      ⟨hsource, hshuttle, h16, hnonempty, halign, hbytes, hstride, hcount, h36, h48, hblocks, hmembers, hleased⟩

end Sys2Proof.Machine
end

section
/-!
PROOF. O18: rings are set and freed (R213, R214), queue limits and multicast groups are set (R211, R219), and the slot
at HEAD empties (R217). Past their checks the three commands run whole on the dispatch core.
-/

namespace Sys2Proof.Machine

open Sys2Proof

/-! ### Rings (R213, R214) -/

/-- A ring of `n` slots of `bytes` bytes from `base` on, all EMPTY, with no claim on it. -/
def Ring.empty (n bytes base : Nat) : Ring :=
  { configured := true, slots := n, slotBytes := bytes, base := base, head := 0, tail := 0,
    slotTab := List.replicate n .empty, claims := [], gone := [] }

/-- The CREEL_SET names slots that an unconfigured ring can take (R213). -/
structure State.RingFits (s : State) (d : Desc) : Prop where
  fewest : 3 ≤ fieldOf d.body 17 1
  most : fieldOf d.body 17 1 ≤ 16
  nonempty : 0 < fieldOf d.body 20 4
  bytes : fieldOf d.body 20 4 ≤ 4194304
  alignBytes : fieldOf d.body 20 4 % 64 = 0
  alignBase : fieldOf d.body 24 6 % 64 = 0
  store : inDieStore (s.queue d.queue).die (fieldOf d.body 24 6) (fieldOf d.body 17 1 * fieldOf d.body 20 4) = true
  unused : (s.ring (s.queue d.queue).die (fieldOf d.body 16 1)).configured = false

/-- The CREEL_SET leaves its size fields 0, and its ring is configured with every slot EMPTY and no claim that waits
(R214). -/
structure State.RingIdle (s : State) (d : Desc) : Prop where
  slots : fieldOf d.body 17 1 = 0
  bytes : fieldOf d.body 20 4 = 0
  base : fieldOf d.body 24 6 = 0
  used : (s.ring (s.queue d.queue).die (fieldOf d.body 16 1)).configured = true
  drained : (s.ring (s.queue d.queue).die (fieldOf d.body 16 1)).slotTab.all (fun x => x == .empty) = true
  released : (s.ring (s.queue d.queue).die (fieldOf d.body 16 1)).claims.all Claim.released = true

section Reserved

variable {s : State} {d : Desc} (hdispatch : s.canDispatch d 0x14 = true) (h19 : fieldOf d.body 19 1 = 0)
  (h30 : fieldZero d.body 30 60 = true)

include hdispatch h19 h30

theorem exec_creelSet_of_fits (hop : fieldOf d.body 18 1 = 0) (h : s.RingFits d) :
    exec (.creelSet d) s = .next (s.runNow d 0x14 (fun t =>
      (t.setRing (s.queue d.queue).die (fieldOf d.body 16 1)
        (Ring.empty (fieldOf d.body 17 1) (fieldOf d.body 20 4) (fieldOf d.body 24 6)), doneOk))) := by
  change execCreelSet d s = _
  rw [execCreelSet, onDesc_turn s d 0x14 _ hdispatch]
  simp only [hop]
  exact congrArg _ (if_neg (by simp [h19, h30, h.fewest, h.most, h.nonempty, h.bytes, h.alignBytes, h.alignBase,
    h.store, h.unused]))

theorem exec_creelSet_of_idle (hop : fieldOf d.body 18 1 = 1) (h : s.RingIdle d) :
    exec (.creelSet d) s = .next (s.runNow d 0x14 (fun t =>
      (t.setRing (s.queue d.queue).die (fieldOf d.body 16 1) Ring.init, doneOk))) := by
  change execCreelSet d s = _
  rw [execCreelSet, onDesc_turn s d 0x14 _ hdispatch]
  simp only [hop]
  exact congrArg _ (if_neg (by simp [h19, h30, h.slots, h.bytes, h.base, h.used, h.drained, h.released]))

end Reserved

/-! ### Queue limits (R211) -/

/-- A queue may set the limit of its own transfers, and of another queue's in use under its lease. -/
theorem exec_shutLimit_of_sameLease (s : State) (d : Desc) (q : BitVec 16)
    (hq : BitVec.ofNat 16 (fieldOf d.body 16 2) = q) (hdispatch : s.canDispatch d 0x15 = true)
    (h20 : fieldZero d.body 20 60 = true) (hnonzero : fieldOf d.body 18 2 ≠ 0) (hmost : fieldOf d.body 18 2 ≤ 256)
    (hsame : q = d.queue ∨ ((s.queue q).state ≠ .free ∧ (s.queue q).lease = (s.queue d.queue).lease)) :
    exec (.shutLimit d) s = .next (s.runNow d 0x15 (fun t =>
      (t.setQueue q { t.queue q with limit := fieldOf d.body 18 2 }, doneOk))) := by
  subst hq
  change execShutLimit d s = _
  rw [execShutLimit, onDesc_turn s d 0x15 _ hdispatch,
    if_neg (by simpa [h20, Nat.not_lt.2 hmost] using or_iff_not_imp_left.1 hsame), if_neg hnonzero]

/-! ### Multicast groups (R219) -/

/-- Loom `m` of the module takes group `g` from die `die`. -/
def State.joinGroup (s : State) (g die m : Nat) : State :=
  s.setLoom (m / 8) (m % 8) { s.loom (m / 8) (m % 8) with
    mcastHome := Tab.write (s.loom (m / 8) (m % 8)).mcastHome g die }

theorem foldl_joinGroup_mcast (g die : Nat) (ms : List Nat) (s : State) :
    (ms.foldl (fun t m => t.joinGroup g die m) s).mcast = s.mcast :=
  foldl_keeps (fun t : State => t.mcast = s.mcast) _ ms s rfl fun _ _ h => h

theorem handOver_mcast (s : State) (d : Desc) (e : Engine) : (s.handOver d e).mcast = s.mcast :=
  show (s.handOver d e).beside.mcast = s.beside.mcast by rw [handOver_beside]

/-- The looms that a MCAST_SET names and that its group has not yet. -/
def State.newMembers (s : State) (d : Desc) : List Nat :=
  (memberList d.body).filter (fun m => !(s.members (s.queue d.queue).die (fieldOf d.body 16 1)).contains m)

/-- The MCAST_SET adds looms of active dies to its group, none of which takes it from any die yet, while nothing is
being sent. -/
structure State.GroupChecked (s : State) (d : Desc) : Prop where
  dispatch : s.canDispatch d 0x13 = true
  adds : fieldOf d.body 17 1 = 0
  reserved18 : fieldZero d.body 18 24 = true
  reserved50 : fieldZero d.body 50 60 = true
  nonempty : memberList d.body ≠ []
  active : (memberList d.body).all (fun m => s.dieActive (m / 8)) = true
  homeless : (s.newMembers d).all
    (fun m => (Tab.find (s.loom (m / 8) (m % 8)).mcastHome (fieldOf d.body 16 1)).isNone) = true
  idle : s.mcastSends = []

/-- The looms `adds` join group `g` of die `die`, whose members are then `now`. -/
def State.growGroup (s : State) (g die : Nat) (adds now : List Nat) : State :=
  let t := adds.foldl (fun t m => t.joinGroup g die m) s
  { t with mcast := Tab.write t.mcast (groupKey die g) now }

/-- Adding looms that have no home for the group drops no member. -/
theorem exec_mcastSet_of_checked {s : State} {d : Desc} (h : s.GroupChecked d) :
    exec (.mcastSet d) s = .next (s.runNow d 0x13 (fun t =>
      (t.growGroup (fieldOf d.body 16 1) (s.queue d.queue).die (s.newMembers d)
        ((s.newMembers d).foldl insertNat (s.members (s.queue d.queue).die (fieldOf d.body 16 1))), doneOk))) := by
  have hhomeless : ∀ m ∈ s.newMembers d,
      Tab.find (s.loom (m / 8) (m % 8)).mcastHome (fieldOf d.body 16 1) = none := by
    simpa using h.homeless
  have hkept : (s.members (s.queue d.queue).die (fieldOf d.body 16 1)).filter (fun m => !([] : List Nat).contains m) =
      s.members (s.queue d.queue).die (fieldOf d.body 16 1) := by simp
  rw [← hkept]
  change execMcastSet d s = _
  rw [execMcastSet, onDesc_turn s d 0x13 _ h.dispatch, h.adds]
  refine congrArg _ ((if_neg ?legal).trans ((if_neg (by simp [h.nonempty])).trans (if_neg (by simp [h.idle]))))
  rintro (hop | h18 | h50 | hinactive | hclash)
  · cases hop
  · simp [h.reserved18] at h18
  · simp [h.reserved50] at h50
  · obtain ⟨m, hm, hdown⟩ := List.any_eq_true.1 hinactive
    simp [List.all_eq_true.1 h.active m hm] at hdown
  · obtain ⟨m, hm, hother⟩ := List.any_eq_true.1 hclash
    simp [hhomeless m hm] at hother

/-! ### The slot at HEAD (R217) -/

theorem exec_slotEmpty_of_draining (s : State) (die r : Nat) (hready : s.ready = true) (hr : r < 256)
    (hdraining : slotAt (s.ring die r) (s.ring die r).head = .draining) :
    exec (.slotEmpty die r) s = .next (s.leaveHead die r) := by
  change execSlotEmpty die r s = _
  rw [execSlotEmpty, if_pos ⟨hready, hr⟩, State.emptyHead]
  exact congrArg _ (if_pos hdraining)

/-- With no slot that left early, HEAD moves on by one slot, and its claim counts one less. -/
theorem Ring.advance_of_noneGone (g : Ring) (n : Nat) (h : g.gone = []) :
    g.advance n = { g with head := slotBeyond g 1, claims := dropClaim g.claims } := by
  cases n with
  | zero => rfl
  | succ n => simp [Ring.advance, h]

/-- Settles O18: past their checks the commands run whole on dispatch; a group's looms join it one by one, and none of
them touches the table of members. -/
theorem ringsGroupsAndLimitsAreSet : Obligations.RingsGroupsAndLimitsAreSet := by
  unfold Obligations.RingsGroupsAndLimitsAreSet
  refine ⟨?_, ?_, ?_, ?_, exec_slotEmpty_of_draining, ?_⟩
  · intro s d die n bytes base hdispatch hop h19 h30 hfewest hmost hnonempty hbytes halign hbase hstore hunused
    rw [exec_creelSet_of_fits hdispatch h19 h30 hop
        ⟨hfewest, hmost, hnonempty, hbytes, halign, hbase, hstore, hunused⟩,
      runNow_of_engine s d 0x14 .dispatch _ rfl]
    rfl
  · intro s d die g hdispatch hop h19 h30 hslots hbytes hbase hused hdrained hreleased
    rw [exec_creelSet_of_idle hdispatch h19 h30 hop ⟨hslots, hbytes, hbase, hused, hdrained, hreleased⟩,
      runNow_of_engine s d 0x14 .dispatch _ rfl]
  · intro s d q n t hdispatch h20 hnonzero hmost hsame
    rw [exec_shutLimit_of_sameLease s d q rfl hdispatch h20 hnonzero hmost hsame,
      runNow_of_engine s d 0x15 .dispatch _ rfl]
  · intro s d die g ms old adds t hdispatch hop h18 h50 hnonempty hactive hhomeless hidle
    have ht : t.mcast = s.mcast := (foldl_joinGroup_mcast g die adds _).trans (handOver_mcast s d .dispatch)
    rw [exec_mcastSet_of_checked ⟨hdispatch, hop, h18, h50, hnonempty, hactive, hhomeless, hidle⟩,
      runNow_of_engine s d 0x13 .dispatch _ rfl, ← ht]
    rfl
  · intro g n hgone
    rw [Ring.advance_of_noneGone g n hgone]
    exact ⟨rfl, rfl, rfl⟩

end Sys2Proof.Machine
end

section
/-!
PROOF. O35: the tier descriptors past their checks (R246 to R248), the end of a move (R239 to R242) and the accesses
to tier 2 that are late or stall (R245). An object moves by operations on memory and counters that `State.beside`
keeps, so its entry in the table is the one that the end of the move writes.
-/

namespace Sys2Proof.Machine

open Sys2Proof

/-! ### Ranges that are cleared or freshly backed -/

theorem clearRange_beside (s : State) (a n : Nat) : (s.clearRange a n).beside = s.beside := by
  unfold State.clearRange
  split
  · rfl
  · exact dropCopies_beside s (a / 64) ((a + n - 1) / 64)

theorem freshRange_beside (s : State) (a n : Nat) : (s.freshRange a n).beside = s.beside := by
  unfold State.freshRange
  split <;> rfl

theorem leases_of_beside {s t : State} (h : t.beside = s.beside) : t.leases = s.leases :=
  show t.beside.leases = s.beside.leases from congrArg State.leases h

/-! ### Objects are registered, freed and packed (R246 to R248) -/

/-- The object that a TIER_REGISTER of `n` bytes describes. -/
def State.registered (s : State) (d : Desc) (n : Nat) : TierObj :=
  { state := .residentT2, packed := fieldOf d.body 18 1 == 1, owner := (s.queue d.queue).lease
    opf := BitVec.ofNat 8 (fieldOf d.body 19 1), rows := fieldOf d.body 20 4, cols := fieldOf d.body 24 4
    size := n, sectors := 0, logical := 0, pins := [], movePins := [], backing := emptyMem, waiters := []
    byDevice := false, doomed := false }

theorem exec_tierRegister_of_fits {s : State} {d : Desc} {n : Nat} (hdispatch : s.canDispatch d 0xA0 = true)
    (hsize : registerSize (fieldOf d.body 19 1) (fieldOf d.body 20 4) (fieldOf d.body 24 4) (fieldOf d.body 32 8)
      = some n)
    (hobj : fieldOf d.body 16 2 ≤ 4095) (hkind : fieldOf d.body 18 1 ≤ 1) (h28 : fieldZero d.body 28 32 = true)
    (h40 : fieldZero d.body 40 60 = true) (hnew : Tab.find s.objects (fieldOf d.body 16 2) = none) (hn : n ≠ 0)
    (hrestoring : s.restoring = false)
    (hquota : fieldOf d.body 18 1 = 1 ∨ n / 65536 * frameCharge ≤ s.freeT2 (s.queue d.queue).lease) :
    exec (.tierRegister d) s = .next (s.runNow d 0xA0 (fun t =>
      let j := fieldOf d.body 16 2
      (((t.setObj j (s.registered d n)).clearRange (objAddr j) n).freshRange (objAddr j) n, doneOk))) := by
  change execTierRegister d s = _
  have hroom : ¬(fieldOf d.body 18 1 = 0 ∧ s.freeT2 (s.queue d.queue).lease < n / 65536 * frameCharge) := by
    omega
  simp only [execTierRegister, onDesc_turn s d 0xA0 _ hdispatch, hsize]
  rw [if_neg (by simp [h28, h40, hnew, hobj, hkind]), if_neg hn, if_neg (by simp [hrestoring]), if_neg hroom]
  rfl

theorem exec_tierFree_of_unpinned {s : State} {d : Desc} {o : TierObj} (hdispatch : s.canDispatch d 0xA1 = true)
    (hobj : Tab.find s.objects (fieldOf d.body 16 2) = some o) (h18 : fieldZero d.body 18 60 = true)
    (hresident : o.state = .residentT2) (hpins : o.pins = []) (howner : o.owner = (s.queue d.queue).lease) :
    exec (.tierFree d) s =
      .next (s.runNow d 0xA1 (fun t => (t.freeObj (fieldOf d.body 16 2) o.size, doneOk))) := by
  change execTierFree d s = _
  simp only [execTierFree, onDesc_turn s d 0xA1 _ hdispatch, hobj]
  rw [if_neg (by simp [h18, hresident, hpins, howner])]

theorem exec_tierPack_of_reserved {s : State} {d : Desc} {o : TierObj} {a : Nat}
    (hdispatch : s.canDispatch d 0xA4 = true) (hobj : Tab.find s.objects (fieldOf d.body 16 2) = some o)
    (hsource : decodeAddr s (fieldOf d.body 24 8) = .here a) (h18 : fieldZero d.body 18 24 = true)
    (h32 : fieldZero d.body 32 60 = true) (hresident : o.state = .residentT2) (hrestoring : s.restoring = false)
    (hwithin : s.within d.queue a o.size = true) (howner : o.owner = (s.queue d.queue).lease)
    (hreserved : o.packed = false) :
    exec (.tierPack d) s = .next (s.runNow d 0xA4 (fun u =>
      let j := fieldOf d.body 16 2
      let t := (u.noteRead a o.size).packFrom j a o.size
      let n := t.objSectors j o.size o.opf o.rows o.cols
      ((t.countEncode j o.size o.opf o.rows o.cols).setObj j { o with sectors := n, logical := o.frames },
        if u.anyPoison a o.size then outcm stPoisonSrc 0 0 else outcm stDone n 0))) := by
  change execTierPack d s = _
  simp only [execTierPack, onDesc_turn s d 0xA4 _ hdispatch, hobj, hsource, hreserved, Bool.not_false,
    Bool.true_or, if_true]
  rw [if_neg (by simp [h18, h32, hresident]), if_neg (by simp [hrestoring]), if_neg (by simp [hwithin, howner])]

/-! ### A promotion and an eviction at their turn (Table TIR-5) -/

theorem exec_tierPromote_of_legal {s : State} {d : Desc} {o : TierObj} (hdispatch : s.canDispatch d 0xA2 = true)
    (h18 : fieldZero d.body 18 60 = true) (hobj : fieldOf d.body 16 2 ≤ 4095)
    (hfind : Tab.find s.objects (fieldOf d.body 16 2) = some o) (hrestoring : s.restoring = false) :
    exec (.tierPromote d) s =
      .next ((s.handOver d .tier).tierAct d.queue d.seq 0xA2 (fieldOf d.body 16 2)) := by
  change execTierPromote d s = _
  rw [execTierPromote, onDesc_turn s d 0xA2 _ hdispatch, if_neg (by simp [h18, hfind, hobj]),
    if_neg (by simp [hrestoring])]

theorem exec_tierEvict_of_legal {s : State} {d : Desc} {o : TierObj} (hdispatch : s.canDispatch d 0xA3 = true)
    (h18 : fieldZero d.body 18 60 = true) (hobj : fieldOf d.body 16 2 ≤ 4095)
    (hfind : Tab.find s.objects (fieldOf d.body 16 2) = some o) :
    exec (.tierEvict d) s =
      .next ((s.handOver d .tier).tierAct d.queue d.seq 0xA3 (fieldOf d.body 16 2)) := by
  change execTierEvict d s = _
  rw [execTierEvict, onDesc_turn s d 0xA3 _ hdispatch, if_neg (by simp [h18, hfind, hobj])]

section Act
variable {s : State} {q seq : BitVec 16} {j : Nat} {o : TierObj}
variable (hfind : Tab.find s.objects j = some o)
include hfind

theorem tierAct_promote_residentT2 (hstate : o.state = .residentT2)
    (hroom : s.pinRoom (s.queue q).lease o.size = true) :
    s.tierAct q seq 0xA2 j = s.beginPromote j { o with
      waiters := o.waiters ++ [(q, seq, 0xA2)], pins := [(s.queue q).lease], movePins := [(s.queue q).lease] } := by
  simp [State.tierAct, hfind, hstate, hroom]

theorem tierAct_promote_pinned (hstate : o.state = .residentT1) (hpin : o.pins.contains (s.queue q).lease = true) :
    s.tierAct q seq 0xA2 j = s.complete q seq (outcm stDone bit31 0) := by
  simp only [State.tierAct, hfind, hstate, hpin, if_true]

theorem tierAct_evict_last (hstate : o.state = .residentT1) (hpin : o.pins.contains (s.queue q).lease = true)
    (hlast : o.pins.filter (fun p => p ≠ (s.queue q).lease) = []) :
    s.tierAct q seq 0xA3 j = s.beginDemote j { o with waiters := o.waiters ++ [(q, seq, 0xA3)] } false := by
  simp only [State.tierAct, hfind, hstate, hpin, hlast]
  rfl

theorem tierAct_evict_shared {p : Nat} {r : List Nat} (hstate : o.state = .residentT1)
    (hpin : o.pins.contains (s.queue q).lease = true)
    (hrest : o.pins.filter (fun p => p ≠ (s.queue q).lease) = p :: r) :
    s.tierAct q seq 0xA3 j = ((s.setObj j { o with pins := p :: r }).count 0x7909 2 1).complete q seq
      (pinnedDetail (r.length + 1)) := by
  simp only [State.tierAct, hfind, hstate, hpin, hrest]
  rfl

end Act

/-! ### The end of a move (R239 to R242) -/

theorem gatherObj_beside (s : State) (j n : Nat) : (s.gatherObj j n).beside = s.beside := by
  unfold State.gatherObj
  extract_lets lo hi s1 ours s2 lost s3
  have h1 : s1.beside = s.beside := drain_beside s lo hi true
  have h2 : s2.beside = s.beside :=
    (foldl_beside (fun t l => t.recallLine l) recallLine_beside ours s1).trans h1
  have h3 : s3.beside = s.beside :=
    (foldl_beside (fun t l => t.storePoison l 5 0xFF) (fun t l => storePoison_beside t l 5 0xFF) lost s2).trans h2
  exact ite_beside h2 ((settleLines_beside s3 lost).trans h3)

theorem countGranules_beside (s : State) (n : Nat) (w : Bool) : (s.countGranules n w).beside = s.beside :=
  foldl_beside _ (fun t _ => count_beside t _ _ _) _ s

theorem countEncode_beside (s : State) (j n : Nat) (opf : Byte) (rows cols : Nat) :
    (s.countEncode j n opf rows cols).beside = s.beside :=
  foldl_beside _ (fun t f => by simp only [count_beside]) _ s

theorem omitAll_beside (s : State) (j : Nat) (o : TierObj) : (s.omitAll j o).beside = s.beside :=
  ite_beside rfl (foldl_beside _ (fun t _ => omitFrame_beside t j o _) _ s)

theorem moveOver_beside (s : State) : s.moveOver.beside = s.beside :=
  (foldl_beside _ (fun t _ => pump_beside t _) _ _).trans (beginAll_beside s)

/-- An object in tier 2 whose owner is active stays as it is when its last pin drops. -/
theorem unpinned_residentT2 {s : State} {j : Nat} {o : TierObj} (hfind : Tab.find s.objects j = some o)
    (hstate : o.state = .residentT2) (howner : (s.lease o.owner).state = .active) : s.unpinned j = s := by
  simp [State.unpinned, hfind, hstate, howner]

/-- Object `o` after its demotion, with `n` sectors. -/
def TierObj.demoted (o : TierObj) (n : Nat) : TierObj :=
  { o with state := .residentT2, pins := [], waiters := [], sectors := n, logical := o.frames
           backing := emptyMem, byDevice := false }

/-- A demoted object whose owner is active is put into the table, and no waiter is left to change it again. -/
theorem demotionOver_objects {s t : State} (j n : Nat) (o : TierObj) (h : t.beside = s.beside)
    (howner : (s.lease o.owner).state = .active) :
    (((((((t.setObj j (o.demoted n)).noteFrames (objAddr j) o.size).freshRange (objAddr j) o.size).count
      0x7909 1 1).settleWaiters j [] 0xA3 doneOk).unpinned j).moveOver).objects
      = Tab.write s.objects j (o.demoted n) := by
  have hobjects : t.objects = s.objects := objects_of_beside h
  have hleases : t.leases = s.leases := leases_of_beside h
  generalize hu : (((t.setObj j (o.demoted n)).noteFrames (objAddr j) o.size).freshRange (objAddr j) o.size).count
    0x7909 1 1 = u
  have hbeside : u.beside = (t.setObj j (o.demoted n)).beside := by
    rw [← hu, count_beside, freshRange_beside, noteFrames_beside]
  have hu_objects : u.objects = Tab.write s.objects j (o.demoted n) := by
    rw [objects_of_beside hbeside, ← hobjects]
    rfl
  have hu_leases : u.leases = s.leases := (leases_of_beside hbeside).trans hleases
  have hfind : Tab.find u.objects j = some (o.demoted n) := by rw [hu_objects, Tab.find_write_same]
  have hlease : (u.lease (o.demoted n).owner).state = .active := by
    rw [State.lease, hu_leases]
    exact howner
  change ((u.unpinned j).moveOver).objects = _
  rw [unpinned_residentT2 hfind rfl hlease, objects_of_beside (moveOver_beside u), hu_objects]

/-- A demotion that nothing waits for ends with the object in tier 2, unpinned, and every other object as it was. -/
theorem moveEnds_demoting_objects {s : State} {j : Nat} {o : TierObj} (hfind : Tab.find s.objects j = some o)
    (hdoomed : o.doomed = false) (hstate : o.state = .demoting) (hreserved : o.packed = false)
    (hwaiters : o.waiters = []) (howner : (s.lease o.owner).state = .active) :
    ∃ n, (s.moveEnds j).objects = Tab.write s.objects j (o.demoted n) := by
  have hbefore : ((((s.gatherObj j o.size).countGranules o.size false).countEncode j o.size o.opf o.rows
      o.cols).omitAll j o).beside = s.beside := by
    rw [omitAll_beside, countEncode_beside, countGranules_beside, gatherObj_beside]
  simp only [State.moveEnds, hfind]
  rw [if_neg (by simp [hdoomed]), hstate, hwaiters]
  dsimp only
  rw [if_pos (by simp [hreserved])]
  exact ⟨_, demotionOver_objects j _ o hbefore howner⟩

theorem exec_moveEnds_of_ready {s : State} (j : Nat) (hready : s.ready = true) :
    exec (.moveEnds j) s = .next (s.moveEnds j) := if_pos hready

theorem moveEnds_promoting {s : State} {j : Nat} {o : TierObj} (hfind : Tab.find s.objects j = some o)
    (hdoomed : o.doomed = false) (hstate : o.state = .promoting) :
    s.moveEnds j =
      (let t := s.gatherObj j o.size
       let t := (t.countDecode j o (t.writtenFrames j o)).countGranules o.size true
       let t := (t.setObj j { o with state := .residentT1, waiters := [], movePins := [] }).count 0x7909 0 1
       (((t.freshRange (objAddr j) o.size).settleWaiters j o.waiters 0xA2 doneOk).unpinned j).moveOver) := by
  simp only [State.moveEnds, hfind, hdoomed, hstate]
  rfl

theorem exec_demotionRetry_of_unpinned {s : State} {j : Nat} {o : TierObj} (hready : s.ready = true)
    (hfind : Tab.find s.objects j = some o) (hstate : o.state = .residentT1) (hdevice : o.byDevice = true)
    (hpins : o.pins = []) : exec (.demotionRetry j) s = .next (s.beginDemote j o true) := by
  change execDemotionRetry j s = _
  simp only [execDemotionRetry, hfind]
  exact if_pos ⟨hready, hstate, hdevice, hpins⟩

/-! ### Late and stalled accesses (R245) -/

theorem exec_t2StallTimeoutExpiry_move {s : State} {j : Nat} {o : TierObj} (hready : s.ready = true)
    (hfind : Tab.find s.objects j = some o) (hstate : o.state = .demoting) :
    exec (.t2StallTimeoutExpiry (.move j)) s = .next ((s.moveFails j).count 0x7909 4 1) := by
  change execT2StallTimeoutExpiry (.move j) s = _
  rw [execT2StallTimeoutExpiry, if_neg (by simp [hready])]
  simp only [State.stallMove, hfind, hstate, or_true, if_true]

theorem moveFails_demoting {s : State} {j : Nat} {o : TierObj} (hfind : Tab.find s.objects j = some o)
    (hstate : o.state = .demoting) :
    s.moveFails j = (((s.setObj j { o with state := .residentT1, waiters := [], doomed := false }).count 0x7909 3
      1).settleWaiters j o.waiters 0xA3 (outcm stTierStall 0 0)).moveOver := by
  simp only [State.moveFails, hfind, hstate]

theorem exec_t2StallTimeoutExpiry_waiting {s : State} {a l : Nat} {f : Fill} (hready : s.ready = true)
    (hfill : s.coh.fill a l = some f) (htier : s.inTier2 (64 * l) = true)
    (hwaits : (Tab.read s.coh.waitq [] l).contains f.req = true) :
    exec (.t2StallTimeoutExpiry (.coreLoad a l)) s =
      .next ((((s.cohCount l 9 1).setCoh (s.coh.dequeue f.req)).answerPoison a l).count 0x7909 4 1) := by
  change execT2StallTimeoutExpiry (.coreLoad a l) s = _
  rw [execT2StallTimeoutExpiry, if_neg (by simp [hready])]
  simp only [State.stallRead, hfill, htier, hwaits, Bool.not_true, if_true]
  rfl

theorem exec_t2LateThresholdExpiry_of_ready {s : State} {hub : Nat} (c : LateCause) (n : Nat)
    (hready : s.ready = true) (hhub : hub < 8) :
    exec (.t2LateThresholdExpiry hub c n) s = .next ((s.count (hubCounter hub) 0xB 1).count (hubCounter hub)
      (match c with
        | .retrain => 0xC | .eccRetry => 0xD | .codecBacklog => 0xE | .controllerFault => 0xF) n) := by
  cases c <;> exact if_pos ⟨hready, hhub⟩

/-- Settles O35: one law for each form of the descriptors and of the events of a move; what the descriptors act on is
the object as it stood, since handing them over touches no object. -/
theorem tierObjectsAndTheirMoves : Obligations.TierObjectsAndTheirMoves := by
  unfold Obligations.TierObjectsAndTheirMoves
  refine ⟨?_, ?_, ?_, ?_, ?_, ?_, ?_, ?_, ?_, ?_⟩
  · intro s d n j kind x o t hdispatch hsize hj hkind h28 h40 hnew hn hrestoring hquota
    rw [exec_tierRegister_of_fits hdispatch hsize hj hkind h28 h40 hnew hn hrestoring hquota,
      runNow_of_engine s d 0xA0 _ _ rfl]
    rfl
  · intro s d o j t hdispatch hfind h18 hstate hpins howner
    rw [exec_tierFree_of_unpinned hdispatch hfind h18 hstate hpins howner, runNow_of_engine s d 0xA1 _ _ rfl]
  · intro s d o j t x hdispatch h18 hj hfind hrestoring
    rw [exec_tierPromote_of_legal hdispatch h18 hj hfind hrestoring]
    exact ⟨fun hstate hroom => congrArg Host.Outcome.next (tierAct_promote_residentT2 hfind hstate hroom),
      fun hstate hpin => congrArg Host.Outcome.next (tierAct_promote_pinned hfind hstate hpin)⟩
  · intro s d o j t x hdispatch h18 hj hfind hstate hpin
    rw [exec_tierEvict_of_legal hdispatch h18 hj hfind]
    exact ⟨fun hlast => congrArg Host.Outcome.next (tierAct_evict_last hfind hstate hpin hlast),
      fun p r hrest => congrArg Host.Outcome.next
        (tierAct_evict_shared (s := t) (q := d.queue) (seq := d.seq) hfind hstate hpin hrest)⟩
  · intro s d o a j u t n hdispatch hfind hsource h18 h32 hstate hrestoring hwithin howner hreserved
    rw [exec_tierPack_of_reserved hdispatch hfind hsource h18 h32 hstate hrestoring hwithin howner hreserved,
      runNow_of_engine s d 0xA4 _ _ rfl]
  · intro s j o hready hfind hdoomed
    rw [exec_moveEnds_of_ready j hready]
    refine ⟨fun hstate => congrArg Host.Outcome.next (moveEnds_promoting hfind hdoomed hstate), ?_⟩
    intro hstate hreserved hwaiters howner
    obtain ⟨n, hobjects⟩ := moveEnds_demoting_objects hfind hdoomed hstate hreserved hwaiters howner
    refine ⟨s.moveEnds j, o.demoted n, rfl, ?_, rfl, rfl, fun k hk => ?_⟩
    · rw [hobjects, Tab.find_write_same]
    · rw [hobjects, Tab.find_write_other _ _ _ _ hk]
  · intro s j o hready hfind hstate hdevice hpins
    exact exec_demotionRetry_of_unpinned hready hfind hstate hdevice hpins
  · intro s hub n c hready hhub
    exact exec_t2LateThresholdExpiry_of_ready c n hready hhub
  · intro s j o hready hfind hstate
    rw [exec_t2StallTimeoutExpiry_move hready hfind hstate, moveFails_demoting hfind hstate]
  · intro s a l f hready hfill htier hwaits
    exact exec_t2StallTimeoutExpiry_waiting hready hfill htier hwaits

end Sys2Proof.Machine
end

section
/-!
PROOF. O36: grants and releases of leases (R235 to R237). Both commands act on a reachable Draft; what a grant clears
and backs afresh is memory, which `State.beside` leaves out, so the table of leases is the old one with the new lease.
-/

namespace Sys2Proof.Machine

open Sys2Proof

/-! ### Grants and releases (R235 to R237) -/

/-- What a grant does to memory: both windows of the lease and the die stores of its dies are cleared, and what it
backs is backed afresh. -/
def State.clearedFor (s : State) (l : Lease) : State :=
  let t := (s.clearRange l.t1Base l.t1Bytes).clearRange l.t2Base l.t2Bytes
  let t := (t.freshRange l.t1Base l.t1Bytes).freshRange l.t2Base l.t2Bytes
  (bitList 26 l.dieMask.toNat).foldl (fun (s : State) d => s.clearRange (dieStore d) dieStoreBytes) t

theorem clearedFor_beside (s : State) (l : Lease) : (s.clearedFor l).beside = s.beside := by
  unfold State.clearedFor
  simp only [foldl_beside _ (fun t d => clearRange_beside t (dieStore d) dieStoreBytes), freshRange_beside,
    clearRange_beside]

theorem grantLease_of_ok (s : State) (n : Nat) (l : Lease) (h : s.grantCase = .ok (n, l)) :
    s.grantLease = { (s.clearedFor l).count 0x7909 5 1 with
      leases := Tab.write s.leases n l, grantSeq := l.grantSeq, leaseResult := leaseWord 0 n } := by
  rw [← leases_of_beside (clearedFor_beside s l)]
  simp only [State.grantLease, h]
  rfl

/-- A release that no reason forbids frees the lease; LEASE_RESULT names the reason in any case. -/
theorem releaseLease_eq (s t : State) (n : Nat) (h : t = if s.releaseReason n = 0 then s.freeLease n else s) :
    s.releaseLease n = { t with leaseResult := leaseWord (s.releaseReason n) n } := by
  rw [h]
  rfl

/-- What a command object answers, from the state and the result that its effect comes to. -/
theorem onCmd_eq_next {s t : State} {f : State → State × DapResult} {r : DapResult} (hup : s.power.draftUp = true)
    (hf : f s = (t, r)) : s.onCmd f = .next { t with draft := { t.draft with lastResult := r } } := by
  rw [onCmd_of_draftUp s f hup, hf]

theorem exec_leaseGrant {s t : State} (v : Byte) (hup : s.power.draftUp = true) (h : s.grantLease = t) :
    exec (.leaseGrant v) s = .next { t with draft := { t.draft with lastResult := .ok } } :=
  onCmd_eq_next (f := fun s => (s.grantLease, .ok)) hup (congrArg (·, DapResult.ok) h)

theorem exec_leaseRelease {s t : State} (n : BitVec 16) (hup : s.power.draftUp = true)
    (h : s.releaseLease n.toNat = t) :
    exec (.leaseRelease n) s = .next { t with draft := { t.draft with lastResult := .ok } } :=
  onCmd_eq_next (f := fun s => (s.releaseLease n.toNat, .ok)) hup (congrArg (·, DapResult.ok) h)

/-- Settles O36: both commands run on the reachable Draft; clearing touches no lease, so the table is the old one with
the granted lease written to it. -/
theorem leasesAreGrantedAndReleased : Obligations.LeasesAreGrantedAndReleased := by
  unfold Obligations.LeasesAreGrantedAndReleased
  constructor
  · intro s v n l t1 t2 t3 t hup hcase
    have hgrant := grantLease_of_ok s n l hcase
    rw [show s.clearedFor l = t3 from rfl] at hgrant
    clear_value t3
    exact exec_leaseGrant v hup hgrant
  · intro s n t hup
    have hrelease := releaseLease_eq s t n.toNat rfl
    clear_value t
    exact exec_leaseRelease n hup hrelease

end Sys2Proof.Machine
end

section
/-!
PROOF. O4, the property and its rules. `State.Canon` says that memory is in its canonical form, and one rule for each
construct of the model says how it goes through: a record update that keeps memory, a conditional, a fold, a pair,
and the answers of commands. What follows is one law `State.Canon.f` for each operation `f`, whose proof repeats the
shape of `f`: the chain `hs.f.g` is the sequence of operations, `.ite` a conditional, `split` a match.
-/

namespace Sys2Proof.Machine

open Sys2Proof

/-! ### The canonical form as a property of states and answers -/

/-- Memory is in its canonical form. -/
def State.Canon (s : State) : Prop := s.mem.wf = true

/-- The state that a command answers is canonical. -/
def Result.Canon (r : Result) : Prop := ∀ t, r = .next t → t.Canon

/-- The state that is answered, if any, is canonical. -/
def MaybeState.Canon (o : Option State) : Prop := ∀ t, o = some t → t.Canon

/-- The state that an admin command answers, if it is not refused, is canonical. -/
def AdminAnswer.Canon (r : Except Nat (State × Nat)) : Prop := ∀ x, r = .ok x → x.1.Canon

/-! ### How the property goes through the constructs of the model -/

theorem State.Canon.of_mem {s t : State} (hs : s.Canon) (h : t.mem = s.mem) : t.Canon :=
  (congrArg Mem.wf h).trans hs

/-- A state made from another with the same memory, whatever its other fields. -/
theorem State.Canon.update {s : State} (hs : s.Canon) {pending dies power module draft mailbox counters host
    msixPending queues leases leaseReq leaseResult grantSeq restoring objects frames looms heddles mcast mcastSends
    vecs cores xfers rings treadle readyOrder tokens stash segs outcomeWaits seals ctxs attached coh peruo journal
    commit repairs fw sec spdm hartsStopped coreSlots sent fresh} :
    (State.mk pending s.mem dies power module draft mailbox counters host msixPending queues leases leaseReq
      leaseResult grantSeq restoring objects frames looms heddles mcast mcastSends vecs cores xfers rings treadle
      readyOrder tokens stash segs outcomeWaits seals ctxs attached coh peruo journal commit repairs fw sec spdm
      hartsStopped coreSlots sent fresh).Canon := hs

theorem State.Canon.ite {c : Prop} [Decidable c] {s t : State} (hs : s.Canon) (ht : t.Canon) :
    (if c then s else t).Canon := by
  split
  · exact hs
  · exact ht

theorem State.Canon.ite_fst {α : Type _} {c : Prop} [Decidable c] {p q : State × α} (hp : p.1.Canon)
    (hq : q.1.Canon) : (if c then p else q).1.Canon := by
  split
  · exact hp
  · exact hq

theorem State.Canon.ite_snd {α : Type _} {c : Prop} [Decidable c] {p q : α × State} (hp : p.2.Canon)
    (hq : q.2.Canon) : (if c then p else q).2.Canon := by
  split
  · exact hp
  · exact hq

theorem State.Canon.ite_third {α β : Type _} {c : Prop} [Decidable c] {p q : α × β × State} (hp : p.2.2.Canon)
    (hq : q.2.2.Canon) : (if c then p else q).2.2.Canon := by
  split
  · exact hp
  · exact hq

theorem State.Canon.foldl {α : Type} {f : State → α → State} {s : State} {l : List α} (hs : s.Canon)
    (hf : ∀ t a, t.Canon → (f t a).Canon) : (l.foldl f s).Canon :=
  foldl_keeps State.Canon f l s hs hf

theorem State.Canon.foldl_fst {α β : Type _} {f : State × β → α → State × β} {p : State × β} {l : List α}
    (hp : p.1.Canon) (hf : ∀ q a, q.1.Canon → (f q a).1.Canon) : (l.foldl f p).1.Canon := by
  induction l generalizing p with
  | nil => exact hp
  | cons a r ih => exact ih (hf p a hp)

theorem Result.Canon.next {s : State} (hs : s.Canon) : Result.Canon (.next s) := by
  rintro t ⟨rfl⟩
  exact hs

theorem Result.Canon.ite {c : Prop} [Decidable c] {a b : Result} (ha : Result.Canon a) (hb : Result.Canon b) :
    Result.Canon (if c then a else b) := by
  split
  · exact ha
  · exact hb

theorem MaybeState.Canon.some {s : State} (hs : s.Canon) : MaybeState.Canon (some s) := by
  rintro t ⟨rfl⟩
  exact hs

theorem MaybeState.Canon.none : MaybeState.Canon none := fun _ h => absurd h (by simp)

theorem MaybeState.Canon.ite {c : Prop} [Decidable c] {a b : Option State} (ha : MaybeState.Canon a)
    (hb : MaybeState.Canon b) : MaybeState.Canon (if c then a else b) := by
  split
  · exact ha
  · exact hb

theorem AdminAnswer.Canon.ok {x : State × Nat} (hx : x.1.Canon) : AdminAnswer.Canon (.ok x) := by
  rintro y ⟨rfl⟩
  exact hx

theorem AdminAnswer.Canon.error {r : Nat} : AdminAnswer.Canon (.error r) := fun _ h => absurd h (by simp)

theorem AdminAnswer.Canon.ite {c : Prop} [Decidable c] {a b : Except Nat (State × Nat)} (ha : AdminAnswer.Canon a)
    (hb : AdminAnswer.Canon b) : AdminAnswer.Canon (if c then a else b) := by
  split
  · exact ha
  · exact hb

end Sys2Proof.Machine
end

section
/-!
PROOF. O4, the operations of state, memory, fabric and queues (R225 to R268, R292 to R297, R313 to R362).
-/

namespace Sys2Proof.Machine

open Sys2Proof

variable {s : State} {a agent line n : Nat} {r : Req} {q : BitVec 16} {d : Desc}

/-! ### Ops -/

theorem State.Canon.draw (hs : s.Canon) : s.draw.2.Canon := by
  unfold State.draw
  exact hs.update

theorem State.Canon.count (hs : s.Canon) {index sub : Nat} : (s.count index sub n).Canon := .ite hs hs.update

theorem State.Canon.clearCounters (hs : s.Canon) {lo hi : Nat} : (s.clearCounters lo hi).Canon := hs.update

theorem State.Canon.withConf (hs : s.Canon) {c : ConfPair} : (s.withConf c).Canon := hs.update

theorem State.Canon.underConf (hs : s.Canon) {Outcm : Type u_1} {c : ConfPair} {f : State → State × Outcm}
    (hf : ∀ (t : State), t.Canon → (f t).1.Canon) :
    (s.underConf c f).1.Canon := by
  unfold State.underConf
  exact (hf _ hs.withConf).withConf

theorem State.Canon.emit (hs : s.Canon) {e : Emit} : (s.emit e).Canon := hs.update

theorem State.Canon.msix (hs : s.Canon) {vector : Nat} : (s.msix vector).Canon :=
  .ite (.ite hs.update hs.emit.count) hs

theorem State.Canon.record (hs : s.Canon) {ty : Nat} {flags : Byte} {body : List Byte} :
    (s.record ty flags body).Canon := .ite hs (State.Canon.ite hs.count hs).count.update.count.count

theorem State.Canon.event (hs : s.Canon) {index sub source arg1 arg2 : Nat} :
    (s.event index sub source arg1 arg2).Canon := (State.Canon.ite hs.record hs).update.msix

theorem State.Canon.onCmd (hs : s.Canon) {f : State → State × DapResult}
    (hf : ∀ (t : State), t.Canon → (f t).1.Canon) :
    Result.Canon (s.onCmd f) :=
  .ite (.next (hf _ hs).update) (.next hs)

theorem State.Canon.setHost (hs : s.Canon) {h : HostIf} : (s.setHost h).Canon := hs.update

/-! ### Space -/

theorem State.Canon.dropCopies (hs : s.Canon) {lo hi : Nat} : (s.dropCopies lo hi).Canon :=
  hs.of_mem (dropCopies_mem _ _ _)

theorem State.Canon.storePoison (hs : s.Canon) {reason : Nat} : (s.storePoison line reason agent).Canon :=
  storePoison_wf s line reason agent hs

theorem State.Canon.settleLines (hs : s.Canon) {ls : List Nat} : (s.settleLines ls).Canon :=
  hs.of_mem (settleLines_mem _ _)

theorem State.Canon.noteRead (hs : s.Canon) : (s.noteRead a n).Canon := noteRead_wf _ _ _ hs

theorem State.Canon.noteFrames (hs : s.Canon) : (s.noteFrames a n).Canon := hs.of_mem (noteFrames_mem _ _ _)

theorem State.Canon.omitFrame (hs : s.Canon) {j : Nat} {o : TierObj} {off : Nat} : (s.omitFrame j o off).Canon :=
  omitFrame_wf s j o off hs

/-! ### Fabric -/

theorem State.Canon.cohCount (hs : s.Canon) {code : Nat} : (s.cohCount line code n).Canon :=
  hs.of_mem (cohCount_mem _ _ _ _)

theorem State.Canon.setCoh (hs : s.Canon) {c : Coh} : (s.setCoh c).Canon := hs.update

theorem State.Canon.putLine (hs : s.Canon) {bytes : List Byte} {full : Bool} : (s.putLine line bytes full).Canon :=
  putLine_wf s line bytes full hs

theorem State.Canon.poisonLine (hs : s.Canon) {why : Nat} : (s.poisonLine line why a).Canon :=
  poisonLine_wf _ _ _ _ hs

theorem State.Canon.answerPoison (hs : s.Canon) : (s.answerPoison agent line).Canon :=
  hs.of_mem (answerPoison_mem _ _ _)

theorem State.Canon.finishWb (hs : s.Canon) : (s.finishWb r).Canon := finishWb_wf _ _ hs

theorem State.Canon.openTxn (hs : s.Canon) : (s.openTxn r).Canon := hs.of_mem (openTxn_mem _ _)

theorem State.Canon.trapReq (hs : s.Canon) : (s.trapReq r).Canon := hs.of_mem (trapReq_mem _ _)

theorem State.Canon.beginAll (hs : s.Canon) : s.beginAll.Canon := beginAll_wf _ hs

theorem State.Canon.arrive (hs : s.Canon) : (s.arrive r).Canon := arrive_wf _ _ hs

theorem State.Canon.ask (hs : s.Canon) : (s.ask r).Canon := hs.setCoh.arrive

theorem State.Canon.advance (hs : s.Canon) {k : Nat} : (s.advance k).Canon := advance_wf _ _ hs

theorem State.Canon.storedIn (hs : s.Canon) {b : List Byte} : (s.storedIn agent line b).Canon := by
  unfold State.storedIn
  split
  · exact .ite hs.setCoh hs
  · exact hs

theorem State.Canon.snoopArrives (hs : s.Canon) {x : Snoop} : (s.snoopArrives x).Canon :=
  hs.of_mem (snoopArrives_mem _ _)

theorem State.Canon.answered (hs : s.Canon) {host : Bool} : (s.answered host a line).Canon := answered_wf _ _ _ _ hs

theorem State.Canon.farRuns (hs : s.Canon) {f : FarOp} {l : CacheLine} : (s.farRuns f l).Canon :=
  hs.of_mem (farRuns_mem _ _ _)

theorem State.Canon.grantArrives (hs : s.Canon) {g : Option Moesi × Bool × Bool × Bool} :
    (s.grantArrives agent line g).Canon := hs.of_mem (grantArrives_mem _ _ _ _)

theorem State.Canon.dataArrives (hs : s.Canon) {d : List Byte × Bool} : (s.dataArrives agent line d).Canon :=
  hs.of_mem (dataArrives_mem _ _ _ _)

theorem State.Canon.deliverMsg (hs : s.Canon) {m : CohMsg} : (s.deliverMsg m).Canon := deliverMsg_wf _ _ hs

theorem State.Canon.endDelay (hs : s.Canon) {x : Snoop} : (s.endDelay x).Canon := hs.of_mem (endDelay_mem _ _)

theorem State.Canon.hostReturns (hs : s.Canon) {x : Snoop} {data : Option (List Byte)} {keeps : Bool} :
    (s.hostReturns x data keeps).Canon := hostReturns_wf _ _ _ _ hs

theorem State.Canon.drain (hs : s.Canon) {lo hi : Nat} {host : Bool} : (s.drain lo hi host).Canon :=
  drain_wf _ _ _ _ hs

theorem State.Canon.stallRead (hs : s.Canon) : MaybeState.Canon (s.stallRead agent line) := by
  unfold State.stallRead
  extract_lets -underBinder +onlyGivenNames c away
  split
  · exact .none
  · refine .ite .none ?_
    extract_lets -underBinder +onlyGivenNames gone
    have hgone : gone.Canon := hs.cohCount
    refine .ite (.some hgone.setCoh.answerPoison) ?_
    split
    · exact .none
    · exact .ite .none (.ite (.some hgone.setCoh.answerPoison.advance)
          (.ite (.some hgone.setCoh.answerPoison.beginAll) .none))

/-! ### Memory -/

theorem State.Canon.recallLine (hs : s.Canon) : (s.recallLine line).Canon := recallLine_wf s line hs

theorem State.Canon.clearRange (hs : s.Canon) : (s.clearRange a n).Canon := clearRange_wf s a n hs

theorem State.Canon.freshRange (hs : s.Canon) : (s.freshRange a n).Canon := .ite hs hs.update

theorem State.Canon.storeBytes (hs : s.Canon) {bs : List Byte} : (s.storeBytes a bs).Canon := storeBytes_wf s a bs hs

theorem State.Canon.writeMem (hs : s.Canon) {bs : List Byte} : (s.writeMem a bs).Canon := writeMem_wf _ _ _ hs

theorem State.Canon.poisonRange (hs : s.Canon) {reason : Nat} : (s.poisonRange a n reason agent).Canon :=
  poisonRange_wf _ _ _ _ _ hs

/-! ### Queue -/

theorem State.Canon.setQueue (hs : s.Canon) {c : QCtx} : (s.setQueue q c).Canon := hs.update

theorem State.Canon.issueFlush (hs : s.Canon) : (s.issueFlush q).Canon := hs.of_mem (issueFlush_mem _ _)

theorem State.Canon.putRecord (hs : s.Canon) {r : CRec} {uncertain replayed : Bool} :
    (s.putRecord q r uncertain replayed).Canon := putRecord_wf _ _ _ _ _ hs

theorem State.Canon.pump (hs : s.Canon) : (s.pump q).Canon := pump_wf _ _ hs

theorem State.Canon.complete (hs : s.Canon) {n : BitVec 16} {o : Outcm} : (s.complete q n o).Canon :=
  complete_wf _ _ _ _ hs

theorem State.Canon.finish (hs : s.Canon) {o : Outcm} : (s.finish d o).Canon := hs.complete

theorem State.Canon.handOver (hs : s.Canon) {e : Engine} : (s.handOver d e).Canon := handOver_wf _ _ _ hs

theorem State.Canon.runNow (hs : s.Canon) {op : Byte} {f : State → State × Outcm}
    (hf : ∀ (t : State), t.Canon → (f t).1.Canon) :
    (s.runNow d op f).Canon :=
  (hf _ hs.handOver).finish

theorem State.Canon.onDesc (hs : s.Canon) {op : Byte} {f : State → State} (hf : ∀ (t : State), t.Canon → (f t).Canon)
    :
    Result.Canon (s.onDesc d op f) :=
  .ite (.next (hf _ hs)) (.next hs)

/-! ### Tensor -/

theorem State.Canon.writeRuns (hs : s.Canon) {run : List Byte} {bs : List (Option Byte)} :
    (s.writeRuns a run bs).Canon := by
  induction bs generalizing s a run with
  | nil => exact hs.writeMem
  | cons b r ih =>
    cases b with
    | none => exact ih hs.writeMem
    | some b => exact ih hs

theorem State.Canon.writeSkeins (hs : s.Canon) {p : OutPlane} {sk : SkeinOut} : (s.writeSkeins p sk).Canon :=
  (hs.foldl fun _ _ ht => ht.writeMem).foldl fun _ _ ht => .ite ht ht.writeRuns

theorem State.Canon.undefine (hs : s.Canon) {l : List (Nat × Nat)} : (s.undefine l).Canon :=
  hs.foldl fun _ _ ht => ht.update.storeBytes

theorem State.Canon.setCtx (hs : s.Canon) {c : Nat} {x : Ctx} : (s.setCtx c x).Canon := hs.update

theorem State.Canon.overflow (hs : s.Canon) {nar sat : Nat} : (s.overflow q n nar sat).Canon := by
  unfold State.overflow
  refine .ite hs ?_
  split
  · exact hs
  · exact .ite hs.count
        (.ite hs.count.count.setCtx (.ite hs.count.count.setCtx (.ite hs.count.count.count hs.count.count.count)))

theorem State.Canon.countFmt (hs : s.Canon) {c : FmtCounts} : (s.countFmt c).Canon :=
  hs.count.count.count.count.count.count.count

theorem State.Canon.countWatched (hs : s.Canon) {c : FmtCounts} : (s.countWatched q n c).Canon := hs.countFmt.overflow

end Sys2Proof.Machine
end

section
/-!
PROOF. O4, the engines of a tensor die: creel, looms, vector engines and treadle (R61 to R135, R196 to R224).
-/

namespace Sys2Proof.Machine

open Sys2Proof

variable {s : State} {die e h l limit r : Nat} {p : Pick} {d : Desc}

/-! ### Creel -/

theorem State.Canon.setRing (hs : s.Canon) {x : Ring} : (s.setRing die r x).Canon := hs.update

theorem State.Canon.setLoom (hs : s.Canon) {x : Loom} : (s.setLoom die l x).Canon := hs.update

theorem State.Canon.freshLooms (hs : s.Canon) : (s.freshLooms die).Canon :=
  hs.foldl fun _ _ ht => .ite ht.setLoom ht.update

theorem State.Canon.setVec (hs : s.Canon) {x : List VecJob} : (s.setVec die e x).Canon := hs.update

theorem State.Canon.giveSlot (hs : s.Canon) {c : Claim} {x : Drained} : (s.giveSlot die c x).Canon := by
  unfold State.giveSlot
  split
  · exact hs
  · split
    exacts [hs.setLoom, hs.setVec, hs]

theorem State.Canon.takeSlots (hs : s.Canon) {fuel : Nat} : (s.takeSlots die r fuel).Canon := by
  induction fuel generalizing s with
  | zero => exact hs
  | succ k ih =>
    unfold State.takeSlots
    extract_lets g
    split
    · exact hs
    · exact .ite (ih hs.giveSlot.setRing) hs

theorem State.Canon.settleRing (hs : s.Canon) : (s.settleRing die r).Canon := by
  unfold State.settleRing
  extract_lets s1 g
  have hs1 : s1.Canon := hs.takeSlots
  split
  · exact hs1
  · exact .ite hs1.setRing hs1

theorem State.Canon.settleDie (hs : s.Canon) : (s.settleDie die).Canon := hs.foldl fun _ _ ht => ht.settleRing

theorem State.Canon.claimSlots (hs : s.Canon) {q seq : BitVec 16} {n : Nat} : (s.claimSlots die r q seq n).Canon :=
  hs.setRing.settleRing

theorem State.Canon.releaseClaims (hs : s.Canon) {q seq : BitVec 16} : (s.releaseClaims die q seq).Canon :=
  hs.foldl fun _ _ ht => ht.setRing.settleRing

theorem State.Canon.leaveHead (hs : s.Canon) : (s.leaveHead die r).Canon := hs.setRing.settleRing

theorem State.Canon.emptyHead (hs : s.Canon) : (s.emptyHead die r).Canon := .ite hs.leaveHead hs

theorem State.Canon.fillSlot (hs : s.Canon) {k shuttle : Nat} {ok : Bool} : (s.fillSlot die r k shuttle ok).Canon :=
  .ite (State.Canon.ite hs hs.count).setRing.settleRing
      (.ite (State.Canon.ite hs hs.count).leaveHead (State.Canon.ite hs hs.count).setRing)

/-! ### Looms -/

theorem State.Canon.failChain (hs : s.Canon) {o : Outcm} : (s.failChain die l o).Canon := by
  unfold State.failChain
  extract_lets m
  split
  · exact hs
  · exact .ite hs hs.setLoom.count

theorem State.Canon.endUnrun (hs : s.Canon) {o : Outcm} : (s.endUnrun die l p o).Canon :=
  (State.Canon.ite (State.Canon.ite hs hs.failChain).setLoom (.ite hs hs.failChain)).complete

theorem State.Canon.endInTurn (hs : s.Canon) {o : Outcm} : (s.endInTurn die l p o).Canon :=
  .ite hs.setLoom hs.endUnrun

theorem State.Canon.admitPick (hs : s.Canon) : (s.admitPick die l p).Canon := .ite hs.setLoom hs.setLoom.claimSlots

theorem State.Canon.offerPick (hs : s.Canon) : MaybeState.Canon (s.offerPick die l p) := by
  unfold State.offerPick
  extract_lets -underBinder +onlyGivenNames f m
  refine .ite .none ?_
  split
  · exact .none
  · exact .some hs.complete
  · split
    · extract_lets -underBinder +onlyGivenNames bad unfit
      refine .ite (.some hs.complete) ?_
      extract_lets -underBinder +onlyGivenNames s1
      have hs1 : s1.Canon := hs.setLoom
      split
      · exact .some hs1.endInTurn
      · refine .ite (.some hs1.endInTurn) ?_
        split
        · exact .some hs1.endInTurn
        · exact .some hs1.admitPick
    · exact .some hs.complete

theorem State.Canon.handPick (hs : s.Canon) : (s.handPick die l p).Canon := by
  unfold State.handPick
  extract_lets m
  refine .ite hs.setLoom ?_
  split
  next t e =>
    have ht : t.Canon := hs.offerPick _ e
    exact ht
  · exact hs.setLoom

theorem State.Canon.dispatchPick (hs : s.Canon) {op : Byte} {bwd : Bool} : (s.dispatchPick d op bwd).Canon := by
  unfold State.dispatchPick
  extract_lets f die target
  clear_value target
  split
  · exact hs
  · exact .ite hs (.ite hs.finish (.ite hs.finish hs.handOver.handPick))

theorem State.Canon.acceptWaiting (hs : s.Canon) {cands : List Pick} : (s.acceptWaiting die l cands).Canon := by
  induction cands with
  | nil => exact hs
  | cons p r ih =>
    unfold State.acceptWaiting
    extract_lets m t
    have ht : t.Canon := hs.setLoom
    split
    next u e => exact ht.offerPick u e
    next => exact ih

theorem State.Canon.writeOutputs (hs : s.Canon) {f : PickF} {oy : Opf} {nt : Nat} {merge : List (List MergeCell)} :
    (s.writeOutputs p f oy nt limit merge).1.Canon := by
  unfold State.writeOutputs
  exact .foldl_fst hs fun _ _ ht => ht.writeSkeins.countWatched

theorem State.Canon.runPick (hs : s.Canon) : (s.runPick die l p).st.Canon := by
  unfold State.runPick
  extract_lets -underBinder +onlyGivenNames f m
  split
  · extract_lets -underBinder +onlyGivenNames t kTot ops passes k0 start scaleBad warps warpBad sizeBad fail
    have hfail : ∀ st row, (fail st row).st.Canon := fun _ _ => hs
    split
    · exact hfail _ _
    split
    · exact hfail _ _
    split
    · exact hfail _ _
    extract_lets -underBinder +onlyGivenNames merged warp bad
    split
    · exact hs.writeOutputs
    · exact hs
  · exact hs

theorem State.Canon.completePick (hs : s.Canon) : (s.completePick die l).Canon := by
  unfold State.completePick
  extract_lets -underBinder +onlyGivenNames m
  split
  · exact hs
  · extract_lets -underBinder +onlyGivenNames prior
    refine .ite hs ?_
    extract_lets -underBinder +onlyGivenNames f run s1 s2 ran loads s3 s4 m1 chain s5 failed s6 s7 s8 s9
    have h1 : s1.Canon := by
      unfold s1 run
      clear_value prior
      split
      · exact hs
      · exact hs.runPick
    have h2 : s2.Canon := .ite h1.count h1
    have h3 : s3.Canon := .ite h2.count h2
    have h4 : s4.Canon := .ite h3.count h3
    have h6 : s6.Canon := .ite h4.setLoom.failChain h4.setLoom
    have h7 : s7.Canon := .ite h6.count h6
    have h8 : s8.Canon := .ite h7.releaseClaims h7
    exact h8.complete.settleDie

theorem State.Canon.dropChain (hs : s.Canon) {q : BitVec 16} : (s.dropChain die l q).Canon := by
  unfold State.dropChain
  extract_lets m
  split
  · exact .ite hs.setLoom hs
  · exact hs

theorem State.Canon.execLoomSetMode (hs : s.Canon) : Result.Canon (execLoomSetMode d s) :=
  hs.onDesc fun _ ht => .ite ht.finish
      (.ite ht.finish (.ite ht (.ite ht.finish (.ite ht (ht.runNow fun _ hu => hu.foldl fun _ _ hv => hv.setLoom)))))

/-! ### Cycles -/

theorem State.Canon.setHeddle (hs : s.Canon) {x : List HeddleTile} : (s.setHeddle die h x).Canon := hs.update

theorem State.Canon.fillHeddle (hs : s.Canon) : (s.fillHeddle die h).Canon := by
  unfold State.fillHeddle
  extract_lets looms held want r
  have hr : r.1.Canon := by
    unfold r
    split
    · exact hs
    · exact hs.setLoom.count
  exact hr.setHeddle

theorem State.Canon.storeGrant (hs : s.Canon) {busy : Bool} : (s.storeGrant busy).2.Canon := by
  unfold State.storeGrant
  exact .ite_snd hs.draw hs

theorem State.Canon.emitHeddle (hs : s.Canon) {rows : List (Nat × Bool × Pick)} : (s.emitHeddle die h rows).Canon :=
  hs.setHeddle

theorem State.Canon.tickLoom (hs : s.Canon) {rows : List (Nat × Bool × Pick)} {busy : Bool} :
    (s.tickLoom die l rows busy).Canon := by
  unfold State.tickLoom
  extract_lets -underBinder +onlyGivenNames m n
  refine .ite hs.count ?_
  extract_lets -underBinder +onlyGivenNames given a b d g s1 m1 c s2 s3 s4
  have hgiven : ∀ weft (t : State) p, t.Canon → (given weft t p).2.Canon := by
    intro weft t p ht
    unfold given
    split
    · exact ht
    · exact .ite_snd ht ht.storeGrant
  have ha : a.2.Canon := hgiven _ _ _ hs
  have hb : b.2.Canon := hgiven _ _ _ ha
  have hd : d.2.Canon := hb.storeGrant
  have hs1 : s1.Canon := hd
  have hs2 : s2.Canon := by
    unfold s2
    clear_value c
    split
    exacts [hs1.count, hs1.count, hs1.count.count]
  have hs3 : s3.Canon := .ite hs2.count hs2
  have hs4 : s4.Canon := .ite hs3.count hs3
  exact hs4.setLoom

theorem State.Canon.tickHeddle (hs : s.Canon) {busy : Bool} : (s.tickHeddle die h busy).Canon :=
  hs.fillHeddle.tickLoom.tickLoom.emitHeddle

/-! ### Vector -/

theorem State.Canon.vecWrite (hs : s.Canon) {j : VecJob} {v : VecEnv} : (s.vecWrite die e j v limit).1.Canon := by
  unfold State.vecWrite
  split
  · exact hs
  · exact hs.writeSkeins.countWatched.count.count

theorem State.Canon.gatherWrite (hs : s.Canon) {j : VecJob} {v : VecEnv} :
    (s.gatherWrite die e j v limit).1.Canon := by
  unfold State.gatherWrite
  split
  · exact hs
  · exact hs.writeSkeins.countWatched.count.count

theorem State.Canon.argmaxWrite (hs : s.Canon) {v : VecEnv} : (s.argmaxWrite die e v limit).Canon :=
  (hs.foldl fun _ _ ht => .ite ht.writeMem.count ht.writeMem).count

theorem State.Canon.runVec (hs : s.Canon) {j : VecJob} : (s.runVec die e j).1.Canon := by
  unfold State.runVec
  split
  · exact hs
  · extract_lets -underBinder +onlyGivenNames f
    refine .ite_fst hs ?_
    extract_lets -underBinder +onlyGivenNames v rows bad limit r r1
    have hr : r.1.Canon := by
      unfold r
      split
      exacts [hs.gatherWrite, hs.argmaxWrite, hs.vecWrite]
    have hr1 : r1.1.Canon := .ite_fst hr.undefine hr
    clear_value bad
    split <;> exact hr1

theorem State.Canon.dispatchVec (hs : s.Canon) {o : VecOp} : (s.dispatchVec d o).Canon := by
  unfold State.dispatchVec
  extract_lets f die target
  clear_value target
  split
  · exact hs
  · refine .ite hs ?_
    extract_lets cfg
    refine .ite hs.finish (.ite hs.finish ?_)
    split
    · exact hs.finish
    · exact .ite hs (.ite hs.handOver.setVec hs.handOver.setVec.claimSlots)

theorem State.Canon.completeVec (hs : s.Canon) : (s.completeVec die e).Canon := by
  unfold State.completeVec
  split
  · exact hs
  · exact .ite hs (State.Canon.ite hs.runVec.setVec.count.releaseClaims hs.runVec.setVec.count).complete.settleDie

/-! ### Treadle -/

theorem State.Canon.signalToken (hs : s.Canon) {token mode : Nat} {inc : BitVec 32} :
    (s.signalToken die token mode inc).Canon := hs.update

theorem State.Canon.noteReady (hs : s.Canon) : (s.noteReady die).Canon := hs.update

theorem State.Canon.grantHead (hs : s.Canon) {q : Nat} : (s.grantHead die q).Canon := by
  unfold State.grantHead
  extract_lets k c
  split
  · exact hs
  · exact hs.setQueue.count.update

theorem State.Canon.grantTurn (hs : s.Canon) : (s.grantTurn die).Canon := by
  unfold State.grantTurn
  extract_lets s1
  have hs1 : s1.Canon := hs.noteReady
  split
  · exact hs1
  · extract_lets s2
    have hs2 : s2.Canon := hs1.grantHead
    split
    · exact hs2
    · exact hs2.grantHead

theorem State.Canon.execTreadleBind (hs : s.Canon) : Result.Canon (execTreadleBind d s) :=
  hs.onDesc fun _ ht => .ite ht.finish (ht.runNow fun _ hu => .ite_fst hu.update hu.update)

theorem State.Canon.execMbAdmit (hs : s.Canon) : Result.Canon (execMbAdmit d s) := by
  unfold Sys2Proof.Machine.execMbAdmit
  refine hs.onDesc fun t ht => ?_
  split
  · exact ht.finish
  · exact .ite ht (ht.runNow fun _ hu => .ite hu.update.count hu.update)

end Sys2Proof.Machine
end

section
/-!
PROOF. O4, updates, temple, links and collectives (R144 to R195, R302 to R340, R364 to R372).
-/

namespace Sys2Proof.Machine

open Sys2Proof

variable {s : State} {a k n p t : Nat} {q : BitVec 16} {f : UpdF} {stall : Option Nat} {d : Desc} {op : Byte}
    {r : OutRec} {es : List ExpRec} {w : CollWait}

/-! ### Update -/

theorem State.Canon.putGroup (hs : s.Canon) {gstep last : Nat} {inUpd : Bool} :
    (s.putGroup a gstep last inUpd).Canon := hs.writeMem

theorem State.Canon.putSum (hs : s.Canon) {x : XV} : (s.putSum a x).Canon := by
  unfold State.putSum
  extract_lets b s1
  have hs1 : s1.Canon := by
    unfold s1
    split
    · exact hs.writeMem
    · exact hs
  exact hs1.writeMem

theorem State.Canon.orthoPicks (hs : s.Canon) {die : Nat} : (s.orthoPicks die).Canon :=
  hs.foldl fun _ _ ht => ht.draw.draw.count.count

theorem State.Canon.runStat (hs : s.Canon) {g : GroupRec} : (s.runStat q g f stall).1.Canon := by
  unfold State.runStat
  extract_lets -underBinder +onlyGivenNames v u
  split
  · exact hs
  · refine .ite_fst hs ?_
    extract_lets -underBinder +onlyGivenNames all mk mmk m mm sum nar g2 w2 u2 s1 s2 u1 s3 _ _ s4
    have hs1 : s1.Canon := hs.writeMem
    have hs2 : s2.Canon := hs1.putSum.putSum.putSum
    have hu1 : ∀ (t : State) a, t.Canon → (u1 t a).Canon := fun _ _ ht => ht.writeMem
    have hs3 : s3.Canon := hu1 _ _ (hu1 _ _ (hu1 _ _ hs2))
    have hs4 : s4.Canon := .ite hs3.writeSkeins.countFmt.orthoPicks hs3
    exact hs4.count

theorem State.Canon.writeBobbins (hs : s.Canon) {v : UpdEnv} {sk : List ((Nat × Nat) × StSkein)} :
    (s.writeBobbins v sk).Canon := hs.foldl fun _ _ ht => ht.writeRuns

theorem State.Canon.runApply (hs : s.Canon) {g : GroupRec} : (s.runApply q g f stall).1.Canon := by
  unfold State.runApply
  extract_lets v tr v1 all bad os low stop stop1 limit mk mmk within gram ort wk mW mmW done nar plane s1 s2 s3 s4
      cnt held masked s5 s6 s7 s8
  have hs1 : s1.Canon := .ite hs hs.writeSkeins
  have hs2 : s2.Canon := .ite hs1 hs1.writeBobbins
  have hs3 : s3.Canon := .ite hs2.writeSkeins hs2
  have hs4 : s4.Canon := .ite hs3.writeSkeins hs3
  have hs5 : s5.Canon := hs4.countFmt.count
  have hs6 : s6.Canon := .ite hs5 hs5.count.count
  have hs7 : s7.Canon := .ite hs6.count hs6
  have hs8 : s8.Canon := .ite hs7.count.orthoPicks hs7
  exact .ite_fst hs8 (.ite_fst hs8 (.ite_fst hs8 (.ite_fst hs8 (.ite_fst hs8.putGroup.count hs8.putGroup.count))))

theorem State.Canon.frozenEnd (hs : s.Canon) {g : GroupRec} {real : Bool} : (s.frozenEnd g f real stall).1.Canon := by
  unfold State.frozenEnd
  split
  · exact .ite hs.putGroup hs
  · exact .ite hs.putGroup.count hs

theorem State.Canon.updSettle (hs : s.Canon) {apply : Bool} {o : Outcome} :
    (s.updSettle q apply f o stall).1.Canon := by
  unfold State.updSettle
  extract_lets g real
  refine .ite_fst hs.noteRead (.ite_fst hs.count.count ?_)
  exact .ite_fst hs.count
      (.ite_fst (.ite hs.count hs)
      (.ite_fst (.ite_fst hs hs.frozenEnd) (.ite_fst hs.runStat (.ite_fst hs (.ite_fst hs hs.putGroup.runApply)))))

theorem State.Canon.updStart (hs : s.Canon) : (s.updStart d op stall).Canon := by
  unfold State.updStart
  extract_lets f
  refine .ite hs ?_
  split
  · exact hs.runNow fun _ ht => ht.updSettle
  · exact .ite hs.finish hs.handOver.update

theorem State.Canon.dispatchUpd (hs : s.Canon) : (s.dispatchUpd d op stall).Canon := by
  unfold State.dispatchUpd
  split
  · exact hs.finish
  · exact hs.updStart

theorem State.Canon.updResume (hs : s.Canon) {w : OutcomeWait} : (s.updResume w stall).Canon := by
  unfold State.updResume
  extract_lets f drop
  have hdrop : ∀ (t : State), t.Canon → (drop t).Canon := fun _ ht => ht.update
  split
  · exact ((hdrop _ hs).underConf fun _ ht => ht.updSettle).complete
  · exact .ite (hdrop _ hs).complete hs

/-! ### Commit -/

theorem State.Canon.stepCommit (hs : s.Canon) {stamps : Nat} : (s.stepCommit a stamps).1.Canon := by
  unfold State.stepCommit
  exact .ite_fst hs.update.count (.ite_fst hs hs.record.update.count)

theorem State.Canon.execStepCommit (hs : s.Canon) {body stamps : BitVec 64} :
    Result.Canon (execStepCommit body stamps s) := hs.onCmd fun _ ht => ht.stepCommit

theorem State.Canon.groupRestore (hs : s.Canon) {first count : Nat} : (s.groupRestore first count a).1.Canon := by
  unfold State.groupRestore
  refine .ite_fst hs.count ?_
  extract_lets why
  split
  · exact hs.update.count
  · exact (hs.foldl fun _ _ ht => ht.putGroup).record.count

theorem State.Canon.execGroupRestore (hs : s.Canon) {first count : BitVec 32} {entries : BitVec 64} :
    Result.Canon (execGroupRestore first count entries s) := hs.onCmd fun _ ht => ht.groupRestore

theorem State.Canon.outcomeAdopt (hs : s.Canon) {o : Outcome} : (s.outcomeAdopt o).1.Canon := by
  unfold State.outcomeAdopt
  split
  · exact .ite_fst hs.count hs
  · exact hs.update.count

theorem State.Canon.execOutcomeAdopt (hs : s.Canon) {step : BitVec 64} {flag : Byte} {members : BitVec 32}
    {sum : BitVec 64} :
    Result.Canon (execOutcomeAdopt step flag members sum s) :=
  hs.onCmd fun _ ht => ht.outcomeAdopt

theorem State.Canon.commitRebase (hs : s.Canon) : (s.commitRebase t).1.Canon := by
  unfold State.commitRebase
  exact .ite_fst hs hs.record.update

theorem State.Canon.execCommitRebase (hs : s.Canon) {step : BitVec 64} : Result.Canon (execCommitRebase step s) :=
  hs.onCmd fun _ ht => ht.commitRebase

theorem State.Canon.boltNote (hs : s.Canon) {step digest label : Nat} : (s.boltNote step digest label).1.Canon := by
  unfold State.boltNote
  exact .ite_fst hs hs.record.update

theorem State.Canon.execBoltNote (hs : s.Canon) {step digest label : BitVec 64} :
    Result.Canon (execBoltNote step digest label s) := hs.onCmd fun _ ht => ht.boltNote

/-! ### Links -/

theorem State.Canon.setPeer (hs : s.Canon) {x : PeerSt} : (s.setPeer p x).Canon := hs.update

theorem State.Canon.setLane (hs : s.Canon) {x : Lane} : (s.setLane n x).Canon := hs.update

theorem State.Canon.drainLane (hs : s.Canon) : (s.drainLane n).Canon := hs.setLane.count.foldl fun _ _ ht => ht.emit

theorem State.Canon.setEth (hs : s.Canon) {x : EthPeer} : (s.setEth p x).Canon := hs.update

theorem State.Canon.sendPackets (hs : s.Canon) {l : List (BitVec 32 × List Byte)} : (s.sendPackets p l).Canon :=
  hs.foldl fun _ _ ht => ht.emit

theorem State.Canon.drainEth (hs : s.Canon) {x : EthPeer} : (s.drainEth p x).Canon := hs.setEth.sendPackets

theorem State.Canon.pushRec (hs : s.Canon) {lane : Nat} {h : XHdr} : (s.pushRec lane h r).Canon :=
  .ite hs.emit.drainEth.count hs.emit.setLane.drainLane

theorem State.Canon.sendNow (hs : s.Canon) {pod : Bool} {xtag : BitVec 12} : (s.sendNow p pod xtag t r).Canon := by
  unfold State.sendNow
  extract_lets pa
  split
  · exact hs
  · exact (State.Canon.ite hs.count hs).pushRec

theorem State.Canon.sendHello (hs : s.Canon) : (s.sendHello p).Canon := hs.update.sendNow

theorem State.Canon.sendRec (hs : s.Canon) {pod : Bool} {xtag : BitVec 12} : (s.sendRec p pod xtag t r).Canon :=
  .ite hs.sendNow (.ite hs.update hs.update.sendHello)

theorem State.Canon.releaseRecs (hs : s.Canon) : (s.releaseRecs p).Canon := hs.update.foldl fun _ _ ht => ht.sendNow

theorem State.Canon.sendXact (hs : s.Canon) {pod : Bool} {seq : BitVec 16} {kind off len : Nat} :
    (s.sendXact p pod q seq kind off len t r).Canon := hs.update.sendRec

/-! ### Alerts -/

theorem State.Canon.driveAlert (hs : s.Canon) : s.driveAlert.Canon := (State.Canon.ite hs.count hs).update

theorem State.Canon.setAlert (hs : s.Canon) {i : Nat} {on : Bool} : (s.setAlert i on).Canon := hs.update.driveAlert

/-! ### Temple -/

theorem State.Canon.openTrain (hs : s.Canon) {tally hist : Nat} : (s.openTrain q k n t tally hist).1.Canon := by
  unfold State.openTrain
  exact .ite_fst (State.Canon.ite hs hs.noteRead).setCtx (State.Canon.ite hs hs.noteRead).setCtx.count

theorem State.Canon.execTempleOpen (hs : s.Canon) : Result.Canon (execTempleOpen d s) :=
  hs.onDesc fun _ ht => .ite ht.finish
      (.ite (ht.runNow fun _ hu => hu.setCtx) (.ite ht.finish (.ite ht.finish (ht.runNow fun _ hu => hu.openTrain))))

theorem State.Canon.execTempleTally (hs : s.Canon) : Result.Canon (execTempleTally d s) := by
  unfold Sys2Proof.Machine.execTempleTally
  refine hs.onDesc fun t ht => ?_
  extract_lets k l a c
  split
  · exact ht.finish
  · exact .ite ht.finish
        (.ite ht.finish (.ite ht.finish
        (.ite ht.finish (.ite ht.finish (.ite ht.finish (.ite ht (ht.runNow fun _ hu => hu.noteRead.writeMem)))))))

theorem State.Canon.trySeal (hs : s.Canon) {w : SealWait} {body : BitVec 352} : (s.trySeal w body).Canon :=
  .ite hs (.ite hs.update.complete hs.update.setCtx.complete)

theorem State.Canon.execTempleSeal (hs : s.Canon) : Result.Canon (execTempleSeal d s) := by
  unfold Sys2Proof.Machine.execTempleSeal
  split
  · exact .next (.ite hs.trySeal hs)
  · exact hs.onDesc fun _ ht => .ite ht.finish ht.handOver.update.trySeal

theorem State.Canon.latchAlarm (hs : s.Canon) : (s.latchAlarm k).Canon := hs.setCtx.count.event.setAlert

theorem State.Canon.decideStep (hs : s.Canon) {wide : Bool} {tally out : Nat} :
    (s.decideStep k wide tally out).1.Canon := by
  unfold State.decideStep
  extract_lets c t n sc limit narrowest after layers formats moves c' latch s1 s2 b s3 s4 s5 s6 s7 s8 s9 detail
  have hs1 : s1.Canon := .ite hs hs.noteRead
  have hs2 : s2.Canon := hs1.setCtx
  have hs3 : s3.Canon := hs2.writeMem.writeMem
  have hs4 : s4.Canon := .ite hs3.count hs3
  have hs5 : s5.Canon := hs4.count.count
  have hs6 : s6.Canon := hs5.count
  have hs7 : s7.Canon := hs6.count.count
  have hs8 : s8.Canon := hs7.count
  have hs9 : s9.Canon := .ite hs8.latchAlarm hs8
  exact hs9

theorem State.Canon.settleDecide (hs : s.Canon) {body : BitVec 352} {o : Outcome} :
    (s.settleDecide body o).1.Canon := by
  unfold State.settleDecide
  exact .ite_fst hs (.ite_fst hs (.ite_fst hs.noteRead hs.decideStep))

theorem State.Canon.execTempleDecide (hs : s.Canon) : Result.Canon (execTempleDecide d s) := by
  unfold Sys2Proof.Machine.execTempleDecide
  refine hs.onDesc fun t ht => ?_
  extract_lets k c t1 tally out n
  refine .ite ht.finish (.ite ht.finish ?_)
  split
  · exact .ite ht (ht.runNow fun _ hu => hu.settleDecide)
  · exact .ite ht.finish ht.handOver.update

theorem State.Canon.decideResume (hs : s.Canon) {w : OutcomeWait} : (s.decideResume w).Canon := by
  unfold State.decideResume
  extract_lets t s'
  have hs' : s'.Canon := hs.update
  split
  · exact .ite hs (hs'.underConf fun _ ht => ht.settleDecide).complete
  · exact .ite hs'.complete hs

theorem State.Canon.execBarrierOutcomeHeld (hs : s.Canon) {seq : BitVec 16} :
    Result.Canon (execBarrierOutcomeHeld q seq s) := by
  unfold Sys2Proof.Machine.execBarrierOutcomeHeld
  refine .ite (.next hs) ?_
  split
  · exact .next hs
  · exact .next (.ite hs.decideResume hs.updResume)

theorem State.Canon.execTempleCountersClear (hs : s.Canon) {_value : Byte} :
    Result.Canon (execTempleCountersClear _value s) := hs.onCmd fun _ ht => ht.clearCounters

theorem State.Canon.clearAlarm (hs : s.Canon) : (s.clearAlarm k).Canon := (State.Canon.ite hs.setCtx hs).setAlert

theorem State.Canon.templeAlarmClear (hs : s.Canon) {v : Nat} : (s.templeAlarmClear v).1.Canon := by
  unfold State.templeAlarmClear
  exact .ite_fst hs hs.clearAlarm

theorem State.Canon.execTempleAlarmClear (hs : s.Canon) {value : Byte} :
    Result.Canon (execTempleAlarmClear value s) := hs.onCmd fun _ ht => ht.templeAlarmClear

/-! ### Collectives -/

theorem State.Canon.putMsg (hs : s.Canon) {m : CollMsg} : (s.putMsg m).Canon := hs.update

theorem State.Canon.dropMsgs (hs : s.Canon) {g : Nat} {c : BitVec 32} : (s.dropMsgs g c).Canon := hs.update

theorem State.Canon.poisonResult (hs : s.Canon) {ls : List Nat} : (s.poisonResult ls).Canon :=
  hs.foldl fun _ _ ht => ht.storePoison

theorem State.Canon.endAcc (hs : s.Canon) {f : RedF} {cfg : NumCfg} {rank : Nat} :
    (s.endAcc f cfg n rank es).1.Canon := by
  unfold State.endAcc
  split
  · extract_lets -underBinder +onlyGivenNames h val bad s1 dstBad
    have hs1 : s1.Canon := by
      unfold s1
      split
      · exact .ite hs hs.writeSkeins.countFmt.poisonResult
      · exact hs
    exact hs1
  · exact hs

theorem State.Canon.endU64 (hs : s.Canon) {f : RedF} : (s.endU64 f es).1.Canon := by
  unfold State.endU64
  exact .ite_fst hs hs.writeMem.poisonResult

theorem State.Canon.putAcc (hs : s.Canon) {k : OutSkein} : (s.putAcc a k).Canon := by
  unfold State.putAcc
  extract_lets s1
  have hs1 : s1.Canon := by
    unfold s1
    split
    · exact hs.writeMem
    · exact hs
  exact hs1.writeMem

theorem State.Canon.endStat (hs : s.Canon) {f : RedF} {rank : Nat} : (s.endStat f n rank es).1.Canon := by
  unfold State.endStat
  exact .ite_fst hs (hs.writeMem.foldl fun _ _ ht => ht.putAcc).poisonResult

theorem State.Canon.endGather (hs : s.Canon) {f : GatF} : (s.endGather f n es).1.Canon := by
  unfold State.endGather
  exact (hs.foldl fun _ _ ht => ht.writeMem).poisonResult

theorem State.Canon.endBarrier (hs : s.Canon) {f : BarF} {bs : List BarrierRec} : (s.endBarrier f bs).1.Canon := by
  unfold State.endBarrier
  exact .ite hs hs.update

theorem State.Canon.spoil (hs : s.Canon) : (s.spoil a n).Canon := .ite hs.draw.writeMem hs

theorem State.Canon.spoilColl (hs : s.Canon) : (s.spoilColl w).Canon := by
  unfold State.spoilColl
  split
  · exact hs
  · extract_lets n
    refine .ite ?_ (.ite hs.spoil hs)
    refine .ite hs.spoil (.ite hs.spoil ?_)
    split
    · exact (hs.foldl fun _ _ ht => ht.spoil).foldl fun _ _ ht => ht.spoil
    · exact hs

theorem State.Canon.endColl (hs : s.Canon) {o : Outcm} : (s.endColl w o).Canon := hs.update.dropMsgs.complete

theorem State.Canon.applyColl (hs : s.Canon) {rank : Nat} : (s.applyColl w n rank es).Canon := by
  unfold State.applyColl
  split
  · exact hs.endColl
  · split
    exacts [hs, hs.endColl,
      (State.Canon.ite_fst hs.endGather (.ite_fst hs.endU64 (.ite_fst hs.endStat hs.endAcc))).endColl]

theorem State.Canon.tellMembers (hs : s.Canon) {g : PGroup} {step : Nat} : (s.tellMembers w g step r).Canon :=
  hs.foldl fun _ _ ht => ht.sendXact

theorem State.Canon.pumpData (hs : s.Canon) {g : PGroup} : (s.pumpData w g).Canon := by
  unfold State.pumpData
  extract_lets -underBinder +onlyGivenNames gi c n
  refine .ite hs (.ite hs.endColl ?_)
  extract_lets -underBinder +onlyGivenNames own s1 es need
  have hs1 : s1.Canon := by
    unfold s1
    split
    · exact hs
    · exact hs.putMsg.tellMembers
  exact .ite hs1 hs1.applyColl

theorem State.Canon.pumpBarrier (hs : s.Canon) {g : PGroup} : (s.pumpBarrier w g).Canon := by
  unfold State.pumpBarrier
  extract_lets -underBinder +onlyGivenNames gi c f own
  refine .ite hs.endColl ?_
  extract_lets -underBinder +onlyGivenNames s1 bs
  have hs1 : s1.Canon := by
    unfold s1
    split
    · exact hs.putMsg.tellMembers
    · exact hs
  exact .ite hs1 hs1.endBarrier.endColl

theorem State.Canon.pumpColl (hs : s.Canon) : (s.pumpColl w).Canon := by
  unfold State.pumpColl
  extract_lets gi
  split
  · exact hs.endColl
  · refine .ite hs.endColl.count ?_
    split
    · exact (State.Canon.ite hs.spoilColl hs).endColl
    · exact .ite hs.pumpBarrier hs.pumpData

theorem State.Canon.pumpColls (hs : s.Canon) : s.pumpColls.Canon := hs.foldl fun _ _ ht => .ite ht.pumpColl ht

theorem State.Canon.startColl (hs : s.Canon) : (s.startColl d op).Canon := by
  unfold State.startColl
  extract_lets -underBinder +onlyGivenNames gi
  split
  · exact hs
  · extract_lets -underBinder +onlyGivenNames _ w s1 _ s2 _ s3 s4
    have hs1 : s1.Canon := hs.handOver.count
    have hs2 : s2.Canon := .ite hs1 hs1.update
    have hs3 : s3.Canon := hs2.update
    have hs4 : s4.Canon := .ite hs3 hs3.tellMembers
    exact hs4.pumpColl

theorem State.Canon.onColl (hs : s.Canon) {ok : Nat → Bool} {empty : Bool} {mem : Nat → Nat → Option Outcm} :
    Result.Canon (s.onColl d op ok empty mem) := by
  unfold State.onColl
  split
  · exact .next (.ite hs.pumpColl hs)
  · refine hs.onDesc fun t ht => ?_
    split
    · exact ht.finish
    · extract_lets n
      refine .ite ht.finish ?_
      split
      · exact ht.finish
      · exact ht.startColl

theorem State.Canon.execPruGroup (hs : s.Canon) : Result.Canon (execPruGroup d s) := by
  unfold Sys2Proof.Machine.execPruGroup
  refine hs.onDesc fun t ht => ?_
  extract_lets gi op pod n a known
  refine .ite ht.finish (.ite (.ite ht.finish (.ite ht (ht.runNow fun _ hu => hu.update))) ?_)
  exact .ite ht.finish (.ite ht.finish
      (.ite ht.finish (.ite ht.noteRead.finish (.ite ht.finish (ht.runNow fun _ hu => hu.noteRead.update)))))

end Sys2Proof.Machine
end

section
/-!
PROOF. O4, transfers, stash, aborts and the tiers (R136 to R140, R203 to R249, R296 to R300, R320). A failed
promotion is the one operation that writes cells kept beside memory: it writes them one by one, and so needs nothing of
them.
-/

namespace Sys2Proof.Machine

open Sys2Proof

variable {s : State} {core die fuel j l n size : Nat} {q seq : BitVec 16} {o : TierObj} {d : Desc} {op st : Byte}
    {x : Xfer} {m : McastSend} {all two : Bool}

/-! ### Rings -/

theorem State.Canon.sqDoorbell (hs : s.Canon) {w : BitVec 32} : (s.sqDoorbell q w).Canon :=
  .ite hs.count.count (.ite hs.count (.ite hs.count.setQueue hs.count.count))

theorem State.Canon.cqDoorbell (hs : s.Canon) {w : BitVec 32} : (s.cqDoorbell q w).Canon :=
  .ite hs.count.count (.ite hs.count.setQueue.pump hs.count.count)

theorem State.Canon.accept (hs : s.Canon) {b : List Byte} {p : Phase} : (s.accept q b p).Canon := hs.setQueue.count

theorem State.Canon.fetchReturn (hs : s.Canon) {f : FetchData} : (s.fetchReturn q f).Canon := by
  unfold State.fetchReturn
  extract_lets c r b s1 seq crc seqOk crcOk
  have hs1 : s1.Canon := .ite hs hs.noteRead
  exact .ite hs1.accept.pump (.ite (State.Canon.ite hs1.count (.ite hs1.count hs1)).accept.pump hs1.setQueue)

theorem State.Canon.execSqDb (hs : s.Canon) {width : Nat} {value : BitVec 32} :
    Result.Canon (execSqDb q width value s) := .ite (.next hs.sqDoorbell) (.next hs)

theorem State.Canon.execCqDb (hs : s.Canon) {width : Nat} {value : BitVec 32} :
    Result.Canon (execCqDb q width value s) := .ite (.next hs.cqDoorbell) (.next hs)

theorem State.Canon.execFlushReadReturn (hs : s.Canon) : Result.Canon (execFlushReadReturn q s) := by
  unfold Sys2Proof.Machine.execFlushReadReturn
  extract_lets c
  split
  · exact .next hs
  · exact .next hs.setQueue.count.pump

/-! ### Cores -/

theorem State.Canon.setCore (hs : s.Canon) {c : CtrlCore} : (s.setCore die core c).Canon := hs.update

theorem State.Canon.endProgram (hs : s.Canon) {o : Outcm} : (s.endProgram die core o).Canon :=
  .ite hs hs.setCore.complete

theorem State.Canon.execSeqLoad (hs : s.Canon) : Result.Canon (execSeqLoad d s) :=
  hs.onDesc fun _ ht => .ite ht.finish
      (.ite ht.finish (.ite ht.finish (ht.runNow fun _ hu => .ite_fst hu.noteRead hu.noteRead.setCore)))

theorem State.Canon.execTiSubmit (hs : s.Canon) {rd : BitVec 5} {rs1 rs2 : BitVec 64} :
    Result.Canon (execTiSubmit die core rd rs1 rs2 s) := by
  unfold Sys2Proof.Machine.execTiSubmit
  refine .ite (.next hs) ?_
  extract_lets c a q x refuse
  have hrefuse : Result.Canon refuse := .next hs.setCore
  refine .ite hrefuse ?_
  exact .ite (.next hs.endProgram)
      (.ite (.next hs.endProgram)
      (.ite (.next hs) (.ite (.next hs.endProgram) (.next hs.writeMem.sqDoorbell.count.setCore))))

theorem State.Canon.retireCore (hs : s.Canon) : (s.retireCore die core).Canon := by
  unfold State.retireCore
  extract_lets was s1 c s2
  have hs1 : s1.Canon := hs.endProgram
  have hs2 : s2.Canon := hs1.setCore
  refine .ite hs2 ?_
  split
  · exact hs2
  · exact hs2.endProgram.setCore

/-! ### Atomics -/

theorem State.Canon.atomicAt (hs : s.Canon) {a op width x compare : Nat} :
    (s.atomicAt a op width x compare).2.Canon := by
  unfold State.atomicAt
  exact hs.noteRead.writeMem

/-! ### Stash -/

theorem State.Canon.setStash (hs : s.Canon) {x : Stash} : (s.setStash l x).Canon := hs.update

theorem State.Canon.latchFull (hs : s.Canon) {st : Nat} : (s.latchFull l st).Canon := .ite hs hs.setStash.count

theorem State.Canon.placePut (hs : s.Canon) {b : BitVec 352} {st : Nat} : (s.placePut l b st n).1.Canon := by
  unfold State.placePut
  extract_lets -underBinder +onlyGivenNames elig x
  refine .ite_fst hs.count ?_
  extract_lets -underBinder +onlyGivenNames s1 x1
  have hs1 : s1.Canon := by
    unfold s1
    split
    · exact .ite hs.setStash hs
    · exact hs
  split
  · exact hs1
  · extract_lets -underBinder +onlyGivenNames s2
    have hs2 : s2.Canon := hs1.latchFull
    refine .ite_fst hs2.count ?_
    extract_lets -underBinder +onlyGivenNames x2
    split
    · exact hs2
    · extract_lets -underBinder +onlyGivenNames x3 s3
      have hs3 : s3.Canon := hs2.setStash.count
      split <;> exact hs3

theorem State.Canon.chargePut (hs : s.Canon) {b : BitVec 352} {st : Nat} {tier2 : Bool} :
    (s.chargePut l q seq b st n tier2).Canon := hs.setStash

theorem State.Canon.endPut (hs : s.Canon) {bytes : Option (List Byte)} : (s.endPut l q seq bytes).Canon := by
  unfold State.endPut
  extract_lets x mine
  split
  · exact hs.setStash.count
  · exact hs.setStash

theorem State.Canon.getCount (hs : s.Canon) {k : StashKey} {up release : Bool} : (s.getCount l k up release).Canon :=
  hs.setStash

theorem State.Canon.execStashDrop (hs : s.Canon) : Result.Canon (execStashDrop d s) :=
  hs.onDesc fun _ ht => .ite ht.finish (.ite ht.setStash (ht.setStash.runNow fun _ hu => hu))

/-! ### Shuttles -/

theorem State.Canon.updXfer (hs : s.Canon) {g : Xfer → Xfer} : (s.updXfer q seq g).Canon := hs.update

theorem State.Canon.failXfer (hs : s.Canon) {off : Nat} : (s.failXfer q seq st off).Canon := hs.updXfer

theorem State.Canon.issueTodo (hs : s.Canon) : (s.issueTodo q seq fuel).Canon := by
  induction fuel generalizing s with
  | zero => exact hs
  | succ k ih =>
    unfold State.issueTodo
    split
    · exact hs
    · split
      · exact hs
      · extract_lets rows
        split
        · exact hs
        · exact .ite hs.updXfer.failXfer (.ite hs (ih hs.updXfer.sendXact))

theorem State.Canon.issueReads (hs : s.Canon) : (s.issueReads q seq).Canon := by
  unfold State.issueReads
  split
  · exact hs
  · extract_lets rows s1 todo reads s2 s3
    have hs1 : s1.Canon := by
      unfold s1
      split
      · split
        · exact hs.failXfer
        · exact hs
      · exact hs
    have hs2 : s2.Canon := hs1.updXfer
    have hs3 : s3.Canon := hs2.foldl fun _ _ ht => ht.emit
    exact hs3.issueTodo

theorem State.Canon.issueWrites (hs : s.Canon) : (s.issueWrites q seq).Canon := by
  unfold State.issueWrites
  split
  · exact hs
  · refine .ite hs ?_
    extract_lets rows total stop cut s1 puts bus s2 s3
    have hs1 : s1.Canon := hs.updXfer
    have hs2 : s2.Canon := hs1.foldl fun _ _ ht => ht.emit
    have hs3 : s3.Canon := by
      unfold s3
      split
      · exact hs2.updXfer.emit
      · exact hs2
    exact hs3.updXfer.issueTodo

theorem State.Canon.issueSignal (hs : s.Canon) : (s.issueSignal q seq).Canon := by
  unfold State.issueSignal
  split
  · exact hs
  · extract_lets -underBinder +onlyGivenNames f
    refine .ite hs ?_
    extract_lets -underBinder +onlyGivenNames p s1
    have hs1 : s1.Canon := hs.updXfer
    refine .ite hs1 ?_
    split
    · exact hs1.failXfer
    · exact hs1.sendXact

theorem State.Canon.drive (hs : s.Canon) : (s.drive q seq).Canon := hs.issueTodo.issueWrites.issueSignal

theorem State.Canon.noteHold (hs : s.Canon) : (s.noteHold x).Canon := .ite hs.updXfer.count hs

theorem State.Canon.readDeliveries (hs : s.Canon) : (s.readDeliveries m fuel).1.Canon := by
  induction fuel generalizing s m with
  | zero => exact hs
  | succ k ih =>
    unfold State.readDeliveries
    exact .ite_fst (ih hs.noteRead) hs

theorem State.Canon.setSend (hs : s.Canon) : (s.setSend m).Canon := hs.update

theorem State.Canon.releaseSend (hs : s.Canon) {shuttle : Nat} : (s.releaseSend m shuttle fuel).1.Canon := by
  induction fuel generalizing s m with
  | zero => exact hs
  | succ k ih =>
    unfold State.releaseSend
    exact .ite_fst (ih hs.count.readDeliveries) hs.count.readDeliveries

theorem State.Canon.releaseHeld (hs : s.Canon) {shuttle : Nat} : (s.releaseHeld m shuttle).Canon :=
  hs.releaseSend.setSend

theorem State.Canon.issueAtomic (hs : s.Canon) : (s.issueAtomic x).Canon := by
  unfold State.issueAtomic
  extract_lets -underBinder +onlyGivenNames op width ref n bytes
  refine .ite hs.noteRead.failXfer ?_
  extract_lets -underBinder +onlyGivenNames s1
  have hs1 : s1.Canon := hs.noteRead
  split
  · exact .ite hs1.noteRead.failXfer (State.Canon.ite_snd hs1.atomicAt hs1.atomicAt).updXfer
  · extract_lets -underBinder +onlyGivenNames p
    split
    · exact hs1.failXfer
    · exact hs1.sendXact
  · exact hs1

theorem State.Canon.acceptXfer (hs : s.Canon) : (s.acceptXfer q seq).Canon := by
  unfold State.acceptXfer
  split
  · exact hs
  · refine .ite hs ?_
    extract_lets -underBinder +onlyGivenNames s1
    have hs1 : s1.Canon := hs.noteHold
    refine .ite hs1 ?_
    extract_lets -underBinder +onlyGivenNames go c
    have hgo : ∀ (t : State), t.Canon → (go t).Canon := fun _ ht => ht.updXfer
    split
    · exact .ite hs1 (.ite (hgo _ hs1.setRing).updXfer.failXfer (hgo _ hs1.setRing).updXfer.issueReads.drive)
    · exact .ite (hgo _ hs1.update).releaseHeld (.ite (hgo _ hs1).issueAtomic (hgo _ hs1).issueReads.drive)

theorem State.Canon.countXfer (hs : s.Canon) {rows : List XRow} : (s.countXfer x rows n).Canon := by
  unfold State.countXfer
  extract_lets k b path s1 shorts
  have hs1 : s1.Canon := hs.count.count.count
  clear_value path
  split
  exacts [hs1.count, hs1.count, hs1.count, hs1]

theorem State.Canon.retireXfer (hs : s.Canon) {o : Outcm} : (s.retireXfer x o).Canon := by
  unfold State.retireXfer
  extract_lets s1 s2
  have hs1 : s1.Canon := hs.update
  have hs2 : s2.Canon := by
    unfold s2
    split
    · exact hs1.fillSlot
    · exact hs1
  exact hs2.complete

theorem State.Canon.moveCopy (hs : s.Canon) : (s.moveCopy x).1.Canon := by
  unfold State.moveCopy
  extract_lets rows total stop shut fail limit data s1 s2 s3 l s4 s5
  have hs1 : s1.Canon := by
    refine hs.foldl fun t x ht => ?_
    split
    · exact .ite ht ht.noteRead
    · exact ht
  have hs2 : s2.Canon := by
    refine hs1.foldl fun t x ht => ?_
    split
    exacts [ht.writeMem, ht.foldl fun _ _ hu => hu.emit.count, ht]
  have hs3 : s3.Canon := by
    unfold s3
    clear_value stop
    split
    · exact .ite (hs2.foldl fun _ _ ht => ht.storePoison) hs2
    · exact hs2
  have hs4 : s4.Canon := .ite hs3.endPut (.ite hs3.getCount hs3)
  have hs5 : s5.Canon := .ite hs4.signalToken hs4
  exact hs5.countXfer

theorem State.Canon.endCopy (hs : s.Canon) : (s.endCopy x).Canon := hs.moveCopy.retireXfer

theorem State.Canon.endAtEpoch (hs : s.Canon) : (s.endAtEpoch x).Canon := hs.setHost.moveCopy.setHost.retireXfer

theorem State.Canon.endAtomic (hs : s.Canon) : (s.endAtomic x).Canon := by
  unfold State.endAtomic
  extract_lets width
  split
  exacts [hs.retireXfer, .ite hs.retireXfer hs.writeMem.retireXfer, hs.retireXfer]

theorem State.Canon.endMcast (hs : s.Canon) {o : Outcm} : (s.endMcast x m o).Canon := by
  unfold State.endMcast
  extract_lets s1 k s2 s3
  have hs1 : s1.Canon := hs.update
  have hs2 : s2.Canon := hs1.count.count
  have hs3 : s3.Canon := by
    unfold s3
    split
    exacts [hs2.count, hs2.count, hs2]
  exact hs3.retireXfer

theorem State.Canon.dropXacts (hs : s.Canon) : (s.dropXacts q seq).Canon := hs.update

theorem State.Canon.endXfer (hs : s.Canon) : (s.endXfer x).Canon := by
  unfold State.endXfer
  extract_lets s1
  have hs1 : s1.Canon := hs.dropXacts
  split
  · split
    · exact hs1.endMcast
    · exact hs1.retireXfer
  · exact hs1.endAtomic
  · exact hs1.endCopy

theorem State.Canon.completeXfer (hs : s.Canon) : (s.completeXfer q seq).Canon := by
  unfold State.completeXfer
  split
  · exact hs
  · exact .ite hs.endXfer hs

theorem State.Canon.handXfer (hs : s.Canon) {k : Nat} : (s.handXfer d op k).Canon := hs.handOver.update.acceptXfer

theorem State.Canon.dispatchCopy (hs : s.Canon) : (s.dispatchCopy d op).Canon :=
  .ite hs.finish (.ite hs.finish (.ite hs.finish hs.handXfer))

theorem State.Canon.execShutMcast (hs : s.Canon) : Result.Canon (execShutMcast d s) := by
  unfold Sys2Proof.Machine.execShutMcast
  refine hs.onDesc fun t ht => ?_
  extract_lets die bytes count stride
  split
  · exact .ite ht.finish (.ite ht.finish (.ite ht.finish ht.handXfer))
  · exact ht.finish

theorem State.Canon.deliver (hs : s.Canon) {shuttle loom : Nat} : (s.deliver m shuttle die loom).Canon := by
  unfold State.deliver
  extract_lets x
  split
  · exact hs
  · extract_lets f
    refine .ite hs ?_
    split
    · exact hs
    · exact .ite hs hs.setLoom.setSend.releaseHeld

theorem State.Canon.execMcastDelivery (hs : s.Canon) {loom : Nat} :
    Result.Canon (execMcastDelivery q seq die loom s) := by
  unfold Sys2Proof.Machine.execMcastDelivery
  split
  · exact .next hs
  · split
    · exact .ite (.next hs.deliver) (.next hs)
    · exact .next hs

theorem State.Canon.execMcastSet (hs : s.Canon) : Result.Canon (execMcastSet d s) := by
  unfold Sys2Proof.Machine.execMcastSet
  refine hs.onDesc fun t ht => ?_
  exact .ite ht.finish (.ite ht.finish
      (.ite ht (ht.runNow fun _ hu => ((hu.foldl fun _ _ hv => hv.setLoom).foldl fun _ _ hv => hv.setLoom).update)))

theorem State.Canon.execShutLimit (hs : s.Canon) : Result.Canon (execShutLimit d s) :=
  hs.onDesc fun _ ht => .ite ht.finish (.ite ht.finish (ht.runNow fun _ hu => hu.setQueue))

theorem State.Canon.actPut (hs : s.Canon) : (s.actPut d).Canon := by
  unfold State.actPut
  extract_lets c n r
  have hr : r.1.Canon := hs.placePut
  split
  exacts [hr.runNow fun _ ht => ht, hr.chargePut.handXfer, hr.setStash.setQueue]

theorem State.Canon.execStashPut (hs : s.Canon) : Result.Canon (execStashPut d s) :=
  hs.onDesc fun _ ht => .ite ht.finish
      (.ite ht (.ite ht.finish (.ite ht (.ite ht.finish (.ite ht.finish (.ite ht.finish (.ite ht ht.actPut)))))))

theorem State.Canon.execStashGet (hs : s.Canon) : Result.Canon (execStashGet d s) := by
  unfold Sys2Proof.Machine.execStashGet
  refine hs.onDesc fun t ht => ?_
  extract_lets c n e sizeOff
  refine .ite ht.finish (.ite ht (.ite ht.finish (.ite ht.finish (.ite ht.finish ?_))))
  clear_value e
  split
  · exact ht.runNow fun _ hu => hu.count
  · exact ht.getCount.handXfer

theorem State.Canon.retryPuts (hs : s.Canon) {ws : List StashWait} : (s.retryPuts l ws).Canon := by
  unfold State.retryPuts
  refine hs.foldl fun t x ht => ?_
  extract_lets x1 n gone
  have hgone : ∀ (t : State), t.Canon → (gone t).Canon := fun _ hu => hu.setStash
  refine .ite (hgone _ ht).complete ?_
  split
  · exact ht
  · exact (hgone _ ht).chargePut.handXfer

theorem State.Canon.peerReadEnds (hs : s.Canon) {r : RemoteData} : (s.peerReadEnds q seq r).Canon := by
  unfold State.peerReadEnds
  split
  · exact hs
  · split
    · exact hs.updXfer.drive
    · exact .ite hs.updXfer hs

theorem State.Canon.execPeerTimeout (hs : s.Canon) : Result.Canon (execPeerTimeout q seq s) := by
  unfold Sys2Proof.Machine.execPeerTimeout
  split
  · exact .next hs
  · exact .ite (.next hs) (.ite (.next hs.count.updXfer.failXfer) (.next hs.count.peerReadEnds))

/-! ### Aborts -/

theorem State.Canon.failPass (hs : s.Canon) {bwd : Bool} {body : BitVec 352} {o : Outcm} :
    (s.failPass die l q bwd body o).Canon := by
  unfold State.failPass
  extract_lets f m
  refine .ite hs ?_
  split
  · exact .ite hs.setLoom.failChain.setLoom.settleDie hs.setLoom.failChain
  · exact hs

theorem State.Canon.cutPick (hs : s.Canon) : (s.cutPick die l q seq st all).Canon := by
  unfold State.cutPick
  extract_lets m mine
  split
  · exact hs
  · exact .ite hs (.ite hs.setLoom.releaseClaims.endUnrun.settleDie
        hs.setLoom.releaseClaims.failPass.complete.settleDie)

theorem State.Canon.cutVec (hs : s.Canon) {e : Nat} : (s.cutVec die e q seq st all).Canon := by
  unfold State.cutVec
  extract_lets mine
  split
  · exact hs
  · exact .ite hs hs.setVec.releaseClaims.complete.settleDie

theorem State.Canon.cutXfer (hs : s.Canon) : (s.cutXfer x st).Canon := by
  unfold State.cutXfer
  split
  · split
    · exact hs.endMcast
    · exact hs.retireXfer
  · extract_lets rows total k moved off s1
    have hk : k.2.Canon := hs.draw
    have hs1 : s1.Canon := hk.failXfer
    split
    · exact .ite hs1.dropXacts.endAtEpoch hs1.endXfer
    · exact hs1

theorem State.Canon.cutShuttle (hs : s.Canon) : (s.cutShuttle q seq st all).Canon := by
  unfold State.cutShuttle
  split
  · exact hs
  · exact .ite (State.Canon.ite hs.endPut (.ite hs.getCount hs)).retireXfer (.ite hs hs.cutXfer)

theorem State.Canon.dropWaits (hs : s.Canon) : (s.dropWaits q seq).Canon := (State.Canon.ite hs.setStash hs).update

theorem State.Canon.cutOne (hs : s.Canon) {f : Fetched} : (s.cutOne q st all f).Canon := by
  unfold State.cutOne
  extract_lets die o
  split
  · exact hs
  · exact (State.Canon.ite hs.failPass hs).dropWaits.complete
  · split
    · exact hs.cutPick
    · exact hs.cutVec
    · exact hs.cutShuttle
    · split
      · exact hs.endProgram
      · exact hs
    · split
      · exact (State.Canon.ite hs.spoilColl hs).endColl
      · exact hs.complete
    · exact .ite hs hs.dropWaits.complete
    · exact hs.dropWaits.complete

theorem State.Canon.cutPending (hs : s.Canon) {f : Fetched} : (s.cutPending q f).Canon := by
  unfold State.cutPending
  split
  exacts [.ite hs hs.cutOne, hs, hs.cutOne]

theorem State.Canon.cutQueue (hs : s.Canon) : (s.cutQueue q st all).Canon := hs.foldl fun _ _ ht => ht.cutOne

/-! ### Dies -/

theorem State.Canon.watchForecasts (hs : s.Canon) {f : State → State} (hf : ∀ (t : State), t.Canon → (f t).Canon) :
    (s.watchForecasts f).Canon := (hf _ hs).foldl fun _ _ ht => ht.event

theorem State.Canon.roleRecord (hs : s.Canon) {kind a b : Nat} : (s.roleRecord kind a b).Canon := hs.record.update

theorem State.Canon.setDieState (hs : s.Canon) {d st : Nat} : (s.setDieState d st).Canon :=
  hs.watchForecasts fun _ ht => ht.roleRecord.update.event

/-! ### Spindle -/

theorem State.Canon.countEncode (hs : s.Canon) {opf : Byte} {rows cols : Nat} :
    (s.countEncode j size opf rows cols).Canon := hs.foldl fun _ _ ht => ht.count.count.count.count

theorem State.Canon.countDecode (hs : s.Canon) {fs : List Nat} : (s.countDecode j o fs).Canon :=
  hs.foldl fun _ _ ht => ht.count.count

theorem State.Canon.countGranules (hs : s.Canon) {w : Bool} : (s.countGranules size w).Canon :=
  hs.foldl fun _ _ ht => ht.count

/-! ### Tiers -/

theorem State.Canon.setObj (hs : s.Canon) : (s.setObj j o).Canon := hs.update

theorem State.Canon.gatherObj (hs : s.Canon) : (s.gatherObj j size).Canon := by
  unfold State.gatherObj
  extract_lets lo hi s1 ours s2
  have hs1 : s1.Canon := hs.drain
  have hs2 : s2.Canon := (hs1.foldl fun _ _ ht => ht.recallLine).dropCopies
  exact .ite hs2 (hs2.foldl fun _ _ ht => ht.storePoison).settleLines

theorem State.Canon.beginPromote (hs : s.Canon) : (s.beginPromote j o).Canon := hs.gatherObj.setObj

theorem State.Canon.beginDemote (hs : s.Canon) {byDevice : Bool} : (s.beginDemote j o byDevice).Canon :=
  hs.gatherObj.setObj

theorem State.Canon.restoreFrames (hs : s.Canon) : (s.restoreFrames j o).Canon := by
  unfold State.restoreFrames
  extract_lets fs s1 cells
  obtain ⟨hcells, hpoison⟩ := (Mem.wf_iff s1.mem).1 hs.clearRange
  exact (Mem.wf_iff _).2
    ⟨foldl_keeps (fun m => cellsWf m = true) _ _ _ hcells fun m c hm => cellsWf_put m c.1 c.2 hm,
      risingNats_insertAll _ _ hpoison⟩

theorem State.Canon.freeObj (hs : s.Canon) : (s.freeObj j size).Canon := hs.clearRange.update

theorem State.Canon.tierAct (hs : s.Canon) : (s.tierAct q seq op j).Canon := by
  unfold State.tierAct
  extract_lets x
  split
  · exact hs.complete
  · extract_lets wait
    split
    · split
      exacts [.ite hs.beginPromote hs.complete, .ite hs.setObj (.ite hs.setObj hs.complete), .ite hs.complete
        (.ite hs.setObj.complete hs.complete), hs.setObj]
    · split
      exacts [hs.complete, hs.setObj, .ite hs.complete (.ite hs.beginDemote hs.setObj.count.complete), .ite hs.setObj
        hs.complete]

theorem State.Canon.settleWaiters (hs : s.Canon) {ws : List (BitVec 16 × BitVec 16 × Byte)} {out : Outcm} :
    (s.settleWaiters j ws op out).Canon := (hs.foldl fun _ _ ht => ht.complete).foldl fun _ _ ht => ht.tierAct

theorem State.Canon.unpinned (hs : s.Canon) : (s.unpinned j).Canon := by
  unfold State.unpinned
  split
  · exact hs
  · exact .ite hs (.ite (hs.freeObj.foldl fun _ _ ht => ht.complete) (.ite hs.beginDemote hs))

theorem State.Canon.omitAll (hs : s.Canon) : (s.omitAll j o).Canon := .ite hs (hs.foldl fun _ _ ht => ht.omitFrame)

theorem State.Canon.moveOver (hs : s.Canon) : s.moveOver.Canon := hs.beginAll.foldl fun _ _ ht => ht.pump

theorem State.Canon.moveEnds (hs : s.Canon) : (s.moveEnds j).Canon := by
  unfold State.moveEnds
  split
  · exact hs
  · refine .ite hs ?_
    split
    · exact hs.gatherObj.countDecode.countGranules.setObj.count.freshRange.settleWaiters.unpinned.moveOver
    · extract_lets s1 n s2 fits
      have hs1 : s1.Canon := hs.gatherObj.countGranules
      have hs2 : s2.Canon := hs1.countEncode
      split
      · exact hs2.omitAll.setObj.noteFrames.freshRange.count.settleWaiters.unpinned.moveOver
      · exact .ite hs2.restoreFrames.setObj.count.settleWaiters.unpinned.moveOver
            hs2.setObj.count.settleWaiters.moveOver
    · exact hs

theorem State.Canon.moveFails (hs : s.Canon) : (s.moveFails j).Canon := by
  unfold State.moveFails
  extract_lets stall
  split
  · exact hs
  · split
    exacts [((hs.setObj.count.foldl fun _ _ ht => ht.complete).foldl fun _ _ ht => ht.complete).unpinned.moveOver,
      hs.setObj.count.settleWaiters.moveOver, hs]

theorem State.Canon.execTierFree (hs : s.Canon) : Result.Canon (execTierFree d s) := by
  unfold Sys2Proof.Machine.execTierFree
  refine hs.onDesc fun t ht => ?_
  extract_lets j
  split
  · exact ht.finish
  · exact .ite ht.finish (ht.runNow fun _ hu => hu.freeObj)

theorem State.Canon.execTierRegister (hs : s.Canon) : Result.Canon (execTierRegister d s) := by
  unfold Sys2Proof.Machine.execTierRegister
  refine hs.onDesc fun t ht => ?_
  extract_lets j kind opf rows cols x size
  clear_value size
  split
  · exact ht.finish
  · exact .ite ht.finish
        (.ite ht.finish (.ite ht (.ite ht.finish (ht.runNow fun _ hu => hu.setObj.clearRange.freshRange))))

theorem State.Canon.packFrom (hs : s.Canon) {src : Nat} : (s.packFrom j src n).Canon :=
  hs.clearRange.storeBytes.noteFrames.freshRange.foldl fun _ _ ht => ht.storePoison

theorem State.Canon.execTierPack (hs : s.Canon) : Result.Canon (execTierPack d s) := by
  unfold Sys2Proof.Machine.execTierPack
  refine hs.onDesc fun t ht => ?_
  extract_lets j x
  split
  · exact .ite ht.finish
        (.ite ht (.ite ht.finish
        (ht.runNow fun _ hu => .ite_fst hu.noteRead.packFrom.countEncode.setObj hu.noteRead.count)))
  · exact ht.finish

theorem State.Canon.execDemotionRetry (hs : s.Canon) {obj : Nat} : Result.Canon (execDemotionRetry obj s) := by
  unfold Sys2Proof.Machine.execDemotionRetry
  split
  · exact .ite (.next hs.beginDemote) (.next hs)
  · exact .next hs

theorem State.Canon.stallDelivery (hs : s.Canon) {i : Nat} : MaybeState.Canon (s.stallDelivery m i) :=
  .ite .none (.some hs.setSend)

theorem State.Canon.stallDesc (hs : s.Canon) {element : Nat} : MaybeState.Canon (s.stallDesc q seq element) := by
  unfold State.stallDesc
  extract_lets stall
  split
  · exact .ite (.some hs.updResume) (.ite (.some hs.update.complete) .none)
  · split
    · exact .ite (.some hs.endColl) .none
    · split
      · exact .none
      · exact .ite .none (.ite (.some hs.dispatchUpd) (.ite (.some hs.handOver.finish) .none))

theorem State.Canon.stallMove (hs : s.Canon) : MaybeState.Canon (s.stallMove j) := by
  unfold State.stallMove
  split
  · exact .ite (.some hs.moveFails) .none
  · exact .none

theorem State.Canon.stallXfer (hs : s.Canon) {off : Nat} : MaybeState.Canon (s.stallXfer q seq off) := by
  unfold State.stallXfer
  split
  · exact .none
  · refine .ite .none ?_
    split
    · exact hs.stallDelivery
    · exact .some hs.failXfer

theorem State.Canon.execT2StallTimeoutExpiry (hs : s.Canon) {issuer : T2Issuer} :
    Result.Canon (execT2StallTimeoutExpiry issuer s) := by
  unfold Sys2Proof.Machine.execT2StallTimeoutExpiry
  refine .ite (.next hs) ?_
  extract_lets stalled
  have hstalled : MaybeState.Canon stalled := by
    unfold stalled
    cases issuer
    · exact hs.stallXfer
    · exact hs.stallDesc
    · exact hs.stallMove
    · exact hs.stallRead
  refine .next ?_
  clear_value stalled
  cases stalled with
  | none => exact hs
  | some t => exact (hstalled t rfl).count

theorem State.Canon.grantLease (hs : s.Canon) : s.grantLease.Canon := by
  unfold State.grantLease
  split
  · exact hs.count.update
  · exact (hs.clearRange.clearRange.freshRange.freshRange.foldl fun _ _ ht => ht.clearRange).count.update

theorem State.Canon.dropRegions (hs : s.Canon) : (s.dropRegions n).Canon := hs.update

theorem State.Canon.freeLease (hs : s.Canon) : (s.freeLease n).Canon :=
  (hs.dropRegions.foldl fun _ _ ht => ht.freeObj).update.clearRange.clearRange.update

theorem State.Canon.releaseLease (hs : s.Canon) : (s.releaseLease n).Canon := (State.Canon.ite hs.freeLease hs).update

theorem State.Canon.execLeaseGrant (hs : s.Canon) {_value : Byte} : Result.Canon (execLeaseGrant _value s) :=
  hs.onCmd fun _ ht => ht.grantLease

theorem State.Canon.execLeaseRelease (hs : s.Canon) {lease : BitVec 16} : Result.Canon (execLeaseRelease lease s) :=
  hs.onCmd fun _ ht => ht.releaseLease

theorem State.Canon.revokeLease (hs : s.Canon) : (s.revokeLease n).Canon := by
  unfold State.revokeLease
  extract_lets l s1 s2 qs s3 pinned owned s4 s5
  have hs1 : s1.Canon := hs.update
  have hs2 : s2.Canon := hs1.dropRegions.count.event
  have hs3 : s3.Canon := hs2.foldl fun _ _ ht => (ht.foldl fun _ _ hu => hu.cutPending).setQueue
  have hs4 : s4.Canon := hs3.update
  have hs5 : s5.Canon := hs4.foldl fun _ _ ht => ht.unpinned
  exact .ite hs5 hs5.freeLease

theorem State.Canon.fitStash (hs : s.Canon) {tier2 : Bool} {quota : Nat} : (s.fitStash n tier2 quota fuel).Canon := by
  induction fuel generalizing s with
  | zero => exact hs
  | succ k ih =>
    unfold State.fitStash
    extract_lets x
    refine .ite hs ?_
    split
    · exact hs
    · exact ih hs.setStash

theorem State.Canon.setStashQuota (hs : s.Canon) {v : Nat} : (s.setStashQuota n two v).Canon := hs.update

theorem State.Canon.cutStashQuota (hs : s.Canon) : (s.cutStashQuota two n).Canon :=
  .ite hs hs.setStashQuota.count.event.fitStash

theorem State.Canon.cutLease (hs : s.Canon) : (s.cutLease two n).Canon := .ite hs hs.revokeLease

theorem State.Canon.restoreTier (hs : s.Canon) : (s.restoreTier two).Canon :=
  (hs.foldl fun _ _ ht => ht.cutStashQuota).foldl fun _ _ ht => ht.cutLease

theorem State.Canon.restoreLedger (hs : s.Canon) : s.restoreLedger.Canon :=
  .ite hs (hs.restoreTier.restoreTier.foldl fun _ _ ht => ht.moveFails).update

theorem State.Canon.dropStashOn (hs : s.Canon) : s.dropStashOn.Canon :=
  hs.foldl fun _ _ ht => ht.foldl fun _ _ hu => .ite hu.draw.setStash hu.draw

theorem State.Canon.retireHub (hs : s.Canon) {k : Nat} : (s.retireHub k).Canon :=
  hs.setDieState.update.update.dropStashOn.update

theorem State.Canon.execTirCountersClear (hs : s.Canon) {_value : Byte} :
    Result.Canon (execTirCountersClear _value s) := hs.onCmd fun _ ht => ht.clearCounters

end Sys2Proof.Machine
end

section
/-!
PROOF. O4, agents of the fabric, the host interface, the journal and the peers (R250 to R301, R303 to R335, R376 to
R422).
-/

namespace Sys2Proof.Machine

open Sys2Proof

variable {s : State} {a agent k line n p : Nat} {_value : Byte} {q : BitVec 16} {b : AdminBlock} {h : XHdr}

/-! ### Coherence -/

theorem State.Canon.coreAsks (hs : s.Canon) {r : Req} : (s.coreAsks r).Canon := .ite hs.trapReq hs.ask

theorem State.Canon.execUpg (hs : s.Canon) {x : ByteAt} : Result.Canon (execUpg agent x s) := by
  unfold Sys2Proof.Machine.execUpg
  split
  · exact .ite (.next hs.coreAsks) (.next hs)
  · exact .next hs

theorem State.Canon.evict (hs : s.Canon) {l : CacheLine} {k : ReqKind} : (s.evict l k).Canon := hs.setCoh.arrive

theorem State.Canon.execWb (hs : s.Canon) {x : StoredLine} : Result.Canon (execWb agent x s) := by
  unfold Sys2Proof.Machine.execWb
  refine .ite (.next hs) ?_
  extract_lets t
  have ht : t.Canon := hs.storedIn
  split
  · exact .ite (.next ht.evict) (.ite (.next ht.evict) (.next hs))
  · exact .next hs

theorem State.Canon.execCln (hs : s.Canon) : Result.Canon (execCln agent line s) := by
  unfold Sys2Proof.Machine.execCln
  split
  · exact .ite (.next hs.evict) (.next hs)
  · exact .next hs

theorem State.Canon.snooped (hs : s.Canon) {k : SnoopKind} {f : StoredLine} : (s.snooped k agent f).Canon := by
  unfold State.snooped
  split
  · exact hs
  · exact hs.storedIn.snoopArrives

theorem State.Canon.execLrSnoopDelayExpiry (hs : s.Canon) : Result.Canon (execLrSnoopDelayExpiry agent line s) := by
  unfold Sys2Proof.Machine.execLrSnoopDelayExpiry
  split
  · exact .next hs
  · exact .next hs.endDelay

theorem State.Canon.deliverIf (hs : s.Canon) {m : CohMsg} : (s.deliverIf m).Canon := .ite hs.deliverMsg hs

theorem State.Canon.execGrant (hs : s.Canon) : Result.Canon (execGrant agent line s) := by
  unfold Sys2Proof.Machine.execGrant
  split
  · exact .next hs
  · exact .next hs.grantArrives

theorem State.Canon.execData (hs : s.Canon) : Result.Canon (execData agent line s) := by
  unfold Sys2Proof.Machine.execData
  split
  · exact .next hs
  · exact .next hs.dataArrives

theorem State.Canon.execCxlCacheResponse (hs : s.Canon) {hostData : Option (List Byte)} :
    Result.Canon (execCxlCacheResponse line hostData s) := by
  unfold Sys2Proof.Machine.execCxlCacheResponse
  split
  · exact .next hs
  · refine .ite (.next hs) ?_
    split
    · exact .next hs.putLine.setCoh.advance
    · exact .next hs.setCoh.advance

theorem State.Canon.hostSnoops (hs : s.Canon) {k : ReqKind} : (s.hostSnoops k line).Canon :=
  .ite hs.drain.count.count.emit (.ite hs.drain.count hs.drain.count.openTxn.advance)

theorem State.Canon.execBirsp (hs : s.Canon) {hostData : Option (List Byte)} {keeps : Bool} :
    Result.Canon (execBirsp line hostData keeps s) := by
  unfold Sys2Proof.Machine.execBirsp
  split
  · exact .next hs
  · exact .next hs.hostReturns

theorem State.Canon.saveFromSharer (hs : s.Canon) {sh : List Nat} : (s.saveFromSharer line sh).Canon := by
  unfold State.saveFromSharer
  extract_lets held s1
  have hs1 : s1.Canon := by
    unfold s1
    split
    · exact hs.putLine
    · exact hs
  exact hs1.setCoh

theorem State.Canon.settleEntry (hs : s.Canon) {why : Nat} : (s.settleEntry line a why).Canon :=
  .ite (.ite hs.saveFromSharer (.ite (State.Canon.ite hs.count hs).setCoh hs.poisonLine)) (.ite hs.setCoh hs)

theorem State.Canon.sinkAnswers (hs : s.Canon) : (s.sinkAnswers a).Canon := hs.foldl fun _ _ ht => ht.deliverIf

theorem State.Canon.dropTxnsOf (hs : s.Canon) : (s.dropTxnsOf a).Canon :=
  hs.foldl fun _ _ ht => .ite ht.setCoh.beginAll ht.setCoh.advance

theorem State.Canon.dropWaitsOf (hs : s.Canon) : (s.dropWaitsOf a).Canon := hs.update.foldl fun _ _ ht => ht.finishWb

theorem State.Canon.unwaitAgent (hs : s.Canon) : (s.unwaitAgent a).Canon := hs.foldl fun _ _ ht => ht.answered

theorem State.Canon.reclaim (hs : s.Canon) : (s.reclaim a).Canon :=
  (hs.sinkAnswers.dropWaitsOf.foldl fun _ _ ht => .ite ht.cohCount.settleEntry.cohCount
      ht.cohCount.settleEntry).dropTxnsOf.setCoh.unwaitAgent.beginAll

theorem State.Canon.privTimeout (hs : s.Canon) : (s.privTimeout line).Canon := by
  unfold State.privTimeout
  split
  · exact hs
  · split
    · exact hs
    · exact hs.cohCount.settleEntry.setCoh.answered

theorem State.Canon.purgeLines (hs : s.Canon) {p : Nat → Bool} : (s.purgeLines p).Canon :=
  (hs.setCoh.foldl fun _ _ ht => ht.cohCount.answerPoison).foldl fun _ _ ht => ht.cohCount.setCoh

theorem State.Canon.purgeHub (hs : s.Canon) {before : List Nat} : (s.purgeHub before k).Canon :=
  hs.purgeLines.beginAll

theorem State.Canon.settleHost (hs : s.Canon) : s.settleHost.Canon :=
  (hs.foldl fun _ _ ht => .ite ht.settleEntry.count
      ht.settleEntry).count.purgeLines.dropWaitsOf.dropTxnsOf.setCoh.unwaitAgent.beginAll

theorem State.Canon.probeDir (hs : s.Canon) {v : Nat} : (s.probeDir v).Canon := hs.update

theorem State.Canon.execDirProbeAddr (hs : s.Canon) {value : BitVec 64} : Result.Canon (execDirProbeAddr value s) :=
  hs.onCmd fun _ ht => ht.probeDir

theorem State.Canon.execCohCountersClear (hs : s.Canon) : Result.Canon (execCohCountersClear _value s) :=
  hs.onCmd fun _ ht => ht.clearCounters

/-! ### Host -/

theorem State.Canon.readPieces (hs : s.Canon) {ps : List (Nat × Nat × Option Nat)} : (s.readPieces ps).1.Canon := by
  unfold State.readPieces
  refine .foldl_fst hs fun r p hr => ?_
  split
  · exact hr
  · exact hr.noteRead

theorem State.Canon.inboundWrite (hs : s.Canon) {d : List (Option Byte)} {poison : Bool} :
    (s.inboundWrite a d poison).Canon := by
  unfold State.inboundWrite
  refine .ite hs (.ite hs.poisonRange (.ite hs.writeMem ?_))
  refine hs.foldl fun t x ht => ?_
  split
  · exact ht.writeMem
  · exact ht

theorem State.Canon.barStore (hs : s.Canon) {ps : List (Nat × Nat × Option Nat)} {data : List Byte} {poison : Bool} :
    (s.barStore ps data poison).Canon := by
  unfold State.barStore
  refine hs.foldl fun t x ht => ?_
  split
  · exact ht.inboundWrite
  · exact ht

theorem State.Canon.execMemwr (hs : s.Canon) {offset : Nat} {mask : BitVec 64} {data : List Byte} {poison : Bool} :
    Result.Canon (execMemwr offset mask data poison s) := by
  unfold Sys2Proof.Machine.execMemwr
  refine .ite (.next hs) ?_
  extract_lets ps
  refine .ite (.next hs) ?_
  refine .next ?_
  refine .emit ?_
  refine hs.foldl fun t x ht => ?_
  split
  · exact ht.inboundWrite
  · exact ht.count

theorem State.Canon.execConfigurationRequest (hs : s.Canon) {r : CfgRequest} :
    Result.Canon (execConfigurationRequest r s) := by
  unfold Sys2Proof.Machine.execConfigurationRequest
  refine .ite (.next (.ite hs hs.emit)) ?_
  split
  · exact .next hs.emit
  · exact .next (State.Canon.ite hs.setHost hs).emit

theorem State.Canon.cutHostEnds (hs : s.Canon) : (s.cutHostEnds q).Canon := hs.foldl fun _ _ ht => ht.cutOne

theorem State.Canon.orphan (hs : s.Canon) : (s.orphan q).Canon := .ite hs hs.setQueue.count

theorem State.Canon.hostLeaves (hs : s.Canon) {st : AttachState} : (s.hostLeaves st).Canon :=
  (hs.update.count.event.settleHost.foldl fun _ _ ht => ht.orphan).foldl fun _ _ ht => ht.cutHostEnds

theorem State.Canon.perstCounts (hs : s.Canon) {lowNs : Nat} : (perstCounts s lowNs).2.Canon := by
  unfold Sys2Proof.Machine.perstCounts
  exact .ite_snd hs (.ite_snd hs hs.draw)

theorem State.Canon.epochChange (hs : s.Canon) {c : EpochCause} : (s.epochChange c).Canon := by
  unfold State.epochChange
  refine .ite hs ?_
  extract_lets down
  have hdown : ∀ (t : State), t.Canon → (down t).Canon := fun _ ht => ht.setHost
  split
  exacts [.ite (hdown _ hs.perstCounts.count.hostLeaves).setHost hs.perstCounts, .ite (hdown _ hs.hostLeaves) hs,
    .ite (hdown _ hs.hostLeaves) hs, .ite hs.hostLeaves hs]

theorem State.Canon.setAdmin (hs : s.Canon) {a : Admin} : (s.setAdmin b a).Canon := hs.setHost

theorem State.Canon.adminEnd (hs : s.Canon) {result value : Nat} : (s.adminEnd b result value).Canon := hs.setAdmin

theorem State.Canon.onAdmin (hs : s.Canon) {f : State → Admin → Except Nat (State × Nat)}
    (hf : ∀ (t : State) a, t.Canon → AdminAnswer.Canon (f t a)) :
    Result.Canon (s.onAdmin b f) := by
  unfold State.onAdmin
  refine .ite (.next hs) ?_
  split
  next => exact .next hs.adminEnd
  next x e => exact .next (hf _ _ hs x e).adminEnd

theorem State.Canon.createQueue (hs : s.Canon) {a : Admin} : AdminAnswer.Canon (s.createQueue b a) := by
  unfold State.createQueue
  extract_lets l depth fieldsOk
  refine .ite .error (.ite .error (.ite .error (.ite .error ?_)))
  split
  · exact .error
  · refine .ite .error ?_
    split
    · exact .error
    · exact .ok hs.setQueue

theorem State.Canon.execCreate (hs : s.Canon) : Result.Canon (execCreate b s) :=
  hs.onAdmin fun _ _ ht => ht.createQueue

theorem State.Canon.destroyQueue (hs : s.Canon) {a : Admin} : AdminAnswer.Canon (s.destroyQueue b a) := by
  unfold State.destroyQueue
  extract_lets q c s1 s2 s3
  have hs1 : s1.Canon := hs.foldl fun _ _ ht => ht.dropChain
  clear_value s1
  have hs2 : s2.Canon := hs1.update
  have hs3 : s3.Canon := .ite hs2.freeLease hs2
  refine .ite .error (.ite (.ok hs) (.ite .error ?_))
  exact .ok hs3

theorem State.Canon.execDestroy (hs : s.Canon) : Result.Canon (execDestroy b s) :=
  hs.onAdmin fun _ _ ht => ht.destroyQueue

theorem State.Canon.replay (hs : s.Canon) {held : List CRec} {uncertain : Nat} : (s.replay q held uncertain).Canon :=
  hs.foldl fun _ _ ht => ht.putRecord

theorem State.Canon.reattachQueue (hs : s.Canon) {a : Admin} : AdminAnswer.Canon (s.reattachQueue b a) := by
  unfold State.reattachQueue
  extract_lets q c sq cq
  refine .ite .error (.ite .error (.ite .error ?_))
  split
  · exact .error
  · exact .ok (State.Canon.ite hs.setQueue.replay.issueFlush hs.setQueue.replay).pump

theorem State.Canon.execReattach (hs : s.Canon) : Result.Canon (execReattach b s) :=
  hs.onAdmin fun _ _ ht => ht.reattachQueue

theorem State.Canon.attachHost (hs : s.Canon) {a : Admin} : AdminAnswer.Canon (s.attachHost a) :=
  .ite .error (.ite .error (.ok hs.setHost))

theorem State.Canon.execAttach (hs : s.Canon) : Result.Canon (execAttach b s) :=
  hs.onAdmin fun _ _ ht => ht.attachHost

theorem State.Canon.registerRegion (hs : s.Canon) {a : Admin} : AdminAnswer.Canon (s.registerRegion b a) := by
  unfold State.registerRegion
  extract_lets l r t n bad
  refine .ite .error (.ite .error (.ite .error (.ite .error (.ite .error ?_))))
  split
  · exact .error
  · exact .ok hs.setHost

theorem State.Canon.execRegionRegister (hs : s.Canon) : Result.Canon (execRegionRegister b s) :=
  hs.onAdmin fun _ _ ht => ht.registerRegion

theorem State.Canon.releaseRegion (hs : s.Canon) {a : Admin} : AdminAnswer.Canon (s.releaseRegion b a) :=
  .ite .error (.ite .error (.ite .error (.ok hs.setHost)))

theorem State.Canon.execRegionRelease (hs : s.Canon) : Result.Canon (execRegionRelease b s) :=
  hs.onAdmin fun _ _ ht => ht.releaseRegion

theorem State.Canon.execBadCommand (hs : s.Canon) {code : Byte} : Result.Canon (execBadCommand b code s) :=
  .ite (.next hs) (hs.onAdmin fun _ _ _ => .error)

theorem State.Canon.adminWrite (hs : s.Canon) {code : Byte} : Result.Canon (s.adminWrite b code) := by
  unfold State.adminWrite
  split
  exacts [hs.execCreate, hs.execDestroy, hs.execReattach, hs.execAttach, hs.execRegionRegister, hs.execRegionRelease,
    hs.execBadCommand]

theorem State.Canon.abortQueue (hs : s.Canon) : (s.abortQueue q).Canon :=
  .ite hs (.ite hs.cutQueue hs.cutQueue.setQueue.pump)

theorem State.Canon.execQueueAbort (hs : s.Canon) : Result.Canon (execQueueAbort q s) :=
  hs.onCmd fun _ ht => ht.abortQueue

theorem State.Canon.execHstCountersClear (hs : s.Canon) : Result.Canon (execHstCountersClear _value s) :=
  hs.onCmd fun _ ht => ht.clearCounters

/-! ### Trust -/

theorem State.Canon.blowTo (hs : s.Canon) {i v : Nat} : (s.blowTo i v).Canon := hs.update.count

theorem State.Canon.topUp (hs : s.Canon) : s.topUp.Canon := hs.foldl fun _ _ ht => ht.blowTo

theorem State.Canon.rom (hs : s.Canon) {recorded : Nat} : (s.rom recorded).1.Canon := by
  unfold State.rom
  extract_lets s1 copies pick reject
  have hs1 : s1.Canon := hs.topUp
  have hreject : ∀ (t : State) n, t.Canon → (reject t n).Canon := fun _ _ ht => ht.count
  clear_value s1 pick reject
  split
  · exact hreject _ _ hs1
  · refine .ite_fst hs1 ?_
    extract_lets s2
    have hs2 : s2.Canon := .ite hs1 (hreject _ _ hs1)
    exact hs2.update

theorem State.Canon.keepValue (hs : s.Canon) {index sub : Nat} {v : List Byte} : (s.keepValue index sub v).Canon :=
  hs.record

theorem State.Canon.setKey (hs : s.Canon) {owner : Bool} {key : List Byte} : (s.setKey owner key).Canon :=
  (State.Canon.ite hs.keepValue.keepValue hs.keepValue.keepValue.keepValue).update.count

theorem State.Canon.endSessions (hs : s.Canon) {p : Session → Bool} : (s.endSessions p).Canon := hs.update

theorem State.Canon.endKeySessions (hs : s.Canon) {owner : Bool} : (s.endKeySessions owner).Canon :=
  hs.endSessions.count

theorem State.Canon.writeKey (hs : s.Canon) {owner : Bool} {key : List Byte} : (s.writeKey owner key).1.Canon := by
  unfold State.writeKey
  split
  · exact hs.setKey.endKeySessions
  · exact hs

theorem State.Canon.ownerRelease (hs : s.Canon) {value : Byte} : (s.ownerRelease value).1.Canon := by
  unfold State.ownerRelease
  exact .ite_fst hs hs.blowTo.keepValue.keepValue.keepValue.update.endSessions

theorem State.Canon.execOwnerRelease (hs : s.Canon) {value : Byte} : Result.Canon (execOwnerRelease value s) :=
  hs.onCmd fun _ ht => ht.ownerRelease

/-! ### Firmware -/

theorem State.Canon.fwImage (hs : s.Canon) {offset : Nat} {last : Bool} {b : List Byte} :
    (s.fwImage offset last b).1.Canon := by
  unfold State.fwImage
  split
  · exact hs
  · exact hs.update

theorem State.Canon.fwRecord (hs : s.Canon) {what v : Nat} : (s.fwRecord what a v).Canon := hs.record

theorem State.Canon.setCheck (hs : s.Canon) {c : Nat} : (s.setCheck c).Canon := hs.update

theorem State.Canon.fwInstall (hs : s.Canon) : s.fwInstall.1.Canon := by
  unfold State.fwInstall
  exact .ite_fst hs.setCheck.count (.ite_fst hs.setCheck hs.update.setCheck.fwRecord)

theorem State.Canon.execFwInstall (hs : s.Canon) : Result.Canon (execFwInstall _value s) :=
  hs.onCmd fun _ ht => ht.fwInstall

theorem State.Canon.switchover (hs : s.Canon) : s.switchover.Canon := by
  unfold State.switchover
  split
  · exact hs.setDieState.setDieState
  · exact hs

theorem State.Canon.loadDie (hs : s.Canon) {d : Nat} : (s.loadDie k d).Canon := hs.update.fwRecord

theorem State.Canon.moveDies (hs : s.Canon) {l : List Nat} : (s.moveDies k l).Canon :=
  hs.foldl fun _ _ ht => ht.loadDie.count

theorem State.Canon.remeasure (hs : s.Canon) : (s.remeasure k).Canon := hs.rom

theorem State.Canon.burnSvn (hs : s.Canon) {svn : Nat} : (s.burnSvn svn).Canon :=
  .ite hs hs.update.fwRecord.blowTo.event

theorem State.Canon.rollBack (hs : s.Canon) {f : Nat} {moved : List Nat} : (s.rollBack k f moved).Canon := by
  unfold State.rollBack
  extract_lets m s1 s2 s3
  have hs1 : s1.Canon := hs.foldl fun _ _ ht => ht.loadDie
  have hs2 : s2.Canon := .ite hs1 hs1.remeasure
  have hs3 : s3.Canon := .ite hs2 hs2.switchover
  exact hs3.event

theorem State.Canon.fwActivate (hs : s.Canon) {failing : Option Nat} : (s.fwActivate failing).1.Canon := by
  unfold State.fwActivate
  extract_lets -underBinder +onlyGivenNames old k
  split
  · exact hs.setCheck
  · refine .ite_fst hs.setCheck (.ite_fst hs ?_)
    extract_lets -underBinder +onlyGivenNames mg order moved s1 s2 s3
    have hs1 : s1.Canon := hs.moveDies
    have hs2 : s2.Canon := .ite hs1.switchover hs1
    have hs3 : s3.Canon := .ite hs2.remeasure hs2
    exact .ite_fst hs3.rollBack hs3.update.burnSvn

theorem State.Canon.execFwActivate (hs : s.Canon) {failing : Option Nat} :
    Result.Canon (execFwActivate _value failing s) := hs.onCmd fun _ ht => ht.fwActivate

/-! ### Journal -/

theorem State.Canon.failNand (hs : s.Canon) : (s.failNand k).Canon := .ite hs hs.update.setDieState

theorem State.Canon.checkNands (hs : s.Canon) : s.checkNands.Canon := hs.foldl fun _ _ ht => .ite ht.failNand ht

theorem State.Canon.lifetimeRecord (hs : s.Canon) : s.lifetimeRecord.Canon := hs.record

theorem State.Canon.execWearLevelRelocation (hs : s.Canon) {die : Nat} :
    Result.Canon (execWearLevelRelocation die s) := by
  unfold Sys2Proof.Machine.execWearLevelRelocation
  refine .ite (.next hs) ?_
  extract_lets n
  split
  · exact .next hs
  · exact .next hs.record.update.count

/-! ### Peers -/

theorem State.Canon.failXact (hs : s.Canon) {x : Xact} {st : Byte} : (s.failXact x st).Canon := by
  unfold State.failXact
  refine .ite hs ?_
  extract_lets _ s1
  have hs1 : s1.Canon := hs.update
  split
  · exact hs1.failXfer
  · exact hs1.complete

theorem State.Canon.failPeer (hs : s.Canon) {st : Byte} : (s.failPeer p st).Canon :=
  (hs.update.foldl fun _ _ ht => ht.failXact).pumpColls

theorem State.Canon.markLost (hs : s.Canon) : (s.markLost p).Canon := hs.setPeer.count.failPeer

theorem State.Canon.declareLost (hs : s.Canon) : (s.declareLost p).Canon :=
  .ite (hs.setPeer.foldl fun _ _ ht => ht.sendNow).markLost hs

theorem State.Canon.noteStranger (hs : s.Canon) {t : Nat} : (s.noteStranger h t).Canon := .ite hs.count hs

theorem State.Canon.respond (hs : s.Canon) {t : Nat} {pod : Bool} {r : OutRec} : (s.respond h t pod r).Canon :=
  hs.sendNow

theorem State.Canon.onRecord (hs : s.Canon) {t : Nat} {pod : Bool} {f : State → State}
    (hf : ∀ (t : State), t.Canon → (f t).Canon) :
    Result.Canon (s.onRecord h t pod f) := by
  unfold State.onRecord
  refine .ite (.next hs) ?_
  split
  exacts [.next hs.noteStranger, .next hs.count.respond, .next (hf _ hs)]

theorem State.Canon.execPut (hs : s.Canon) {r : PutRec} : Result.Canon (execPut h r s) := by
  unfold Sys2Proof.Machine.execPut
  refine hs.onRecord fun t ht => ?_
  split
  · exact ht.respond
  · split
    exacts [ht, ht.respond, ht.writeMem.poisonResult.respond]

theorem State.Canon.cacheAtomic (hs : s.Canon) {src : Nat} {tag : BitVec 12} {r : OutRec} :
    (s.cacheAtomic src tag r).Canon := hs.update

theorem State.Canon.execAtom (hs : s.Canon) {r : AtomRec} : Result.Canon (execAtom h r s) := by
  unfold Sys2Proof.Machine.execAtom
  refine hs.onRecord fun t ht => ?_
  extract_lets refuse
  have hrefuse : ∀ (t : State) st, t.Canon → (refuse t st).Canon := fun _ _ hu => hu.respond
  split
  · exact ht.count.respond
  · refine .ite (hrefuse _ _ ht) (.ite (hrefuse _ _ ht) ?_)
    split
    exacts [ht, hrefuse _ _ ht, .ite (hrefuse _ _ ht.noteRead)
      (State.Canon.ite_snd ht.atomicAt ht.atomicAt).cacheAtomic.respond]

theorem State.Canon.refuseColl (hs : s.Canon) {x : Xact} {st : Byte} {detail : BitVec 32} :
    (s.refuseColl x st detail).Canon := by
  unfold State.refuseColl
  split
  · exact hs.endColl
  · exact hs

theorem State.Canon.takeRsp (hs : s.Canon) {x : Xact} {r : RspRec} : (s.takeRsp x r).Canon := by
  unfold State.takeRsp
  refine .ite (.ite hs hs.refuseColl) ?_
  extract_lets _ s1
  have hs1 : s1.Canon := hs.update
  split
  · exact hs1.complete
  · exact (State.Canon.ite hs1.failXfer (.ite hs1.updXfer (.ite hs1.updXfer hs1))).drive

theorem State.Canon.execRsp (hs : s.Canon) {r : RspRec} : Result.Canon (execRsp h r s) := by
  unfold Sys2Proof.Machine.execRsp
  extract_lets t
  refine .ite (.next hs) (.ite (.next hs.noteStranger) ?_)
  split
  · exact .next hs
  · exact .next hs.takeRsp

theorem State.Canon.pumpGroup (hs : s.Canon) {g : Nat} : (s.pumpGroup g).Canon :=
  hs.foldl fun _ _ ht => .ite ht.pumpColl ht

theorem State.Canon.takeHello (hs : s.Canon) {r : HelloRec} : (s.takeHello p r).Canon :=
  .ite (State.Canon.ite hs.update hs.sendNow).setPeer.event.failPeer
      (State.Canon.ite hs.update hs.sendNow).releaseRecs

theorem State.Canon.exclude (hs : s.Canon) : s.exclude.Canon := hs.setPeer.pumpColls.foldl fun _ _ ht => ht.failPeer

theorem State.Canon.execPeerDown (hs : s.Canon) {lost : Nat} {view : BitVec 32} :
    Result.Canon (execPeerDown h lost view s) :=
  .ite (.next hs) (.ite (.next hs.count)
      (.ite (.next hs) (.ite (.next hs.exclude) (.ite (.next hs.markLost) (.next hs)))))

theorem State.Canon.execPruAtomic (hs : s.Canon) {d : Desc} : Result.Canon (execPruAtomic d s) :=
  hs.onDesc fun _ ht => .ite ht.finish (.ite ht.finish (.ite ht.finish (.ite ht ht.handXfer)))

theorem State.Canon.execPruSignal (hs : s.Canon) {d : Desc} : Result.Canon (execPruSignal d s) := by
  unfold Sys2Proof.Machine.execPruSignal
  refine hs.onDesc fun t ht => ?_
  extract_lets scope peer die mode token inc p t1
  refine .ite ht.finish (.ite ht (.ite (ht.runNow fun _ hu => hu.signalToken) ?_))
  split
  · exact ht.finish
  · exact .ite ht ht.handOver.sendXact

theorem State.Canon.execPruRegion (hs : s.Canon) {d : Desc} : Result.Canon (execPruRegion d s) := by
  unfold Sys2Proof.Machine.execPruRegion
  refine hs.onDesc fun t ht => ?_
  exact .ite ht.finish (.ite (.ite ht.finish (ht.runNow fun _ hu => hu.update))
      (.ite ht.finish (.ite ht.finish (.ite ht.finish (ht.runNow fun _ hu => hu.update)))))

/-! ### Lanes -/

theorem State.Canon.moveRecs (hs : s.Canon) : (s.moveRecs n).Canon := by
  unfold State.moveRecs
  extract_lets x s1
  have hs1 : s1.Canon := hs.setLane
  refine hs1.foldl fun t x ht => ?_
  extract_lets pa
  split
  · exact ht
  · exact ht.pushRec

theorem State.Canon.loseUnreachable (hs : s.Canon) : s.loseUnreachable.Canon :=
  hs.foldl fun _ _ ht => .ite ht.declareLost ht

theorem State.Canon.setLaneRole (hs : s.Canon) {x : Lane} : (s.setLaneRole n x).Canon :=
  hs.watchForecasts fun _ ht => ht.roleRecord.setLane.event

theorem State.Canon.useSpare (hs : s.Canon) : s.useSpare.Canon := hs.update

theorem State.Canon.failLane (hs : s.Canon) : (s.failLane n).Canon := by
  unfold State.failLane
  extract_lets -underBinder +onlyGivenNames x served
  refine .ite hs ?_
  extract_lets -underBinder +onlyGivenNames carried s1 s2 s3
  have hs1 : s1.Canon := hs.setLaneRole.count
  have hs2 : s2.Canon := .ite hs1.useSpare hs1
  have hs3 : s3.Canon := by
    refine .ite hs2 ?_
    split
    · exact hs2
    · exact (State.Canon.ite hs2.useSpare hs2).setLaneRole.count
  exact hs3.moveRecs.loseUnreachable

theorem State.Canon.forceRetrain (hs : s.Canon) : (s.forceRetrain n).Canon :=
  .ite hs.setLane.count.failLane hs.setLane.count

theorem State.Canon.laneUp (hs : s.Canon) : (s.laneUp n).Canon := by
  unfold State.laneUp
  extract_lets x eth s1 s2 s3
  have hs1 : s1.Canon := hs.setLane
  have hs2 : s2.Canon := by
    unfold s2
    split
    · exact hs1.emit
    · exact hs1
  have hs3 : s3.Canon := .ite hs2 hs2.drainLane
  split
  · split
    · exact (State.Canon.ite hs3.update hs3).sendHello
    · exact hs3
  · exact hs3

theorem State.Canon.execLaneMarker (hs : s.Canon) {lane pod linkDie laneNo : Nat} {credits : List Nat} :
    Result.Canon (execLaneMarker lane pod linkDie laneNo credits s) :=
  .ite (.next hs) (.ite (.next hs.setLane.event.moveRecs.loseUnreachable)
      (.ite (.next hs.setLane.drainLane) (.next hs)))

theorem State.Canon.askReplay (hs : s.Canon) : (s.askReplay n).Canon := .ite hs hs.setLane.emit

theorem State.Canon.dropBlock (hs : s.Canon) : (s.dropBlock n).Canon :=
  .ite hs.setLane.count.failLane hs.setLane.count.askReplay

theorem State.Canon.takeNak (hs : s.Canon) {a : BitVec 12} : (s.takeNak n a).Canon := by
  unfold State.takeNak
  extract_lets y
  split
  · exact hs.setLane
  · exact .ite hs.setLane.count.forceRetrain hs.setLane.count.emit

theorem State.Canon.countFlit (hs : s.Canon) {die : Nat} {f : Flit} : (s.countFlit die f).Canon := by
  unfold State.countFlit
  split
  exacts [hs, hs, hs.count.count, hs.count.count]

theorem State.Canon.takeHeader (hs : s.Canon) {f : Flit} : (s.takeHeader n f).Canon :=
  .ite hs.setLane.takeNak hs.setLane.setLane

theorem State.Canon.takeFlit (hs : s.Canon) {f : Flit} : (s.takeFlit n f).Canon := by
  unfold State.takeFlit
  extract_lets s1 x
  have hs1 : s1.Canon := hs.takeHeader
  split
  exacts [hs1, hs1.askReplay, .ite hs1.setLane.countFlit (.ite hs1.askReplay hs1)]

theorem State.Canon.execFlitReceive (hs : s.Canon) {lane : Nat} {b : Block} :
    Result.Canon (execFlitReceive lane b s) := by
  unfold Sys2Proof.Machine.execFlitReceive
  refine .ite (.next hs) ?_
  exact .ite (.next hs.count.dropBlock)
      (.ite (.next hs.count.count.dropBlock)
      (.ite (.next hs.count.count.dropBlock) (.next hs.count.takeFlit.drainLane)))

theorem State.Canon.ethResend (hs : s.Canon) : (s.ethResend p).Canon := .ite hs hs.count.sendPackets

theorem State.Canon.ethAcked (hs : s.Canon) {k : EthPacket} : (s.ethAcked p k).Canon :=
  .ite (State.Canon.ite hs.count hs).drainEth.ethResend (State.Canon.ite hs.count hs).drainEth

theorem State.Canon.sendAck (hs : s.Canon) {nak ce : Bool} : (s.sendAck p nak ce).Canon := hs.emit

theorem State.Canon.takePacket (hs : s.Canon) {l : List (List Byte)} : (s.takePacket l).Canon :=
  hs.foldl fun _ _ ht => .ite ht.count (.ite ht.count ht.countFlit)

theorem State.Canon.ethTake (hs : s.Canon) {k : EthPacket} : (s.ethTake p k).Canon :=
  .ite hs (.ite hs.setEth.takePacket.sendAck hs.sendAck)

theorem State.Canon.onDatagram (hs : s.Canon) {frame : List Byte} {port : Nat} {f : State → Datagram → State}
    (hf : ∀ (t : State) a1, t.Canon → (f t a1).Canon) :
    Result.Canon (s.onDatagram frame port f) := by
  unfold State.onDatagram
  refine .ite (.next hs) ?_
  split
  · exact .next hs
  · exact .ite (.next hs) (.ite (.next hs.count) (.next (hf _ _ hs)))

theorem State.Canon.takeEth (hs : s.Canon) {k : EthPacket} : (s.takeEth k).Canon :=
  .ite hs (.ite hs.count hs.ethAcked.ethTake)

theorem State.Canon.takeFar (hs : s.Canon) {p : FarDatagram} : (s.takeFar p).Canon := by
  unfold State.takeFar
  split
  · exact hs.count
  · exact .ite hs.count hs.writeMem

end Sys2Proof.Machine
end

section
/-!
PROOF. O4, power, parts that leave service, the Draft and its sessions (R102, R341 to R363, R402 to R444).
-/

namespace Sys2Proof.Machine

open Sys2Proof

variable {s : State} {d k req step t : Nat} {_value p1 p2 : Byte} {env : StartEnv} {b msg v : List Byte}
    {num : BitVec 32} {role : Role} {o : ObjId} {x : Session}

/-! ### Power -/

theorem State.Canon.setPower (hs : s.Canon) {p : Power} : (s.setPower p).Canon := hs.update

theorem State.Canon.losePower {m : PowerMode} : (s.losePower m).Canon :=
  State.Canon.of_mem (s := State.reset) reset_mem_wf rfl

theorem State.Canon.powerFail {c : Nat} {m : PowerMode} : (s.powerFail c m).Canon := State.Canon.losePower

theorem State.Canon.setRoots (hs : s.Canon) {v : BitVec 2} : (s.setRoots v).Canon := hs.setPower.setAlert

theorem State.Canon.switchRoot (hs : s.Canon) : s.switchRoot.Canon := hs.setPower.count.event

theorem State.Canon.noClock : s.noClock.Canon := State.Canon.losePower.setPower.setAlert

theorem State.Canon.loseRoot (hs : s.Canon) : (s.loseRoot k).Canon :=
  .ite State.Canon.noClock (State.Canon.ite hs.switchRoot hs).setRoots

theorem State.Canon.execRootSwitch (hs : s.Canon) : Result.Canon (execRootSwitch _value s) :=
  hs.onCmd fun _ ht => .ite_fst ht.switchRoot ht

theorem State.Canon.mgmtFails (hs : s.Canon) : s.mgmtFails.Canon := by
  unfold State.mgmtFails
  split
  exacts [hs.setDieState.setDieState.loseRoot, State.Canon.noClock, hs]

theorem State.Canon.setInput (hs : s.Canon) {mv : Nat} : (s.setInput mv).Canon := hs.setPower

theorem State.Canon.filtered (hs : s.Canon) {n lo hi : Nat} : (s.filtered n lo hi).2.Canon := by
  unfold State.filtered
  exact .ite_snd hs (.ite_snd hs hs.draw)

theorem State.Canon.execPwrfailN (hs : s.Canon) {src : PwrFailSource} : Result.Canon (execPwrfailN src s) := by
  unfold Sys2Proof.Machine.execPwrfailN
  refine .ite (.next hs) ?_
  split
  exacts [.ite (.next State.Canon.powerFail) (.next hs), .ite (.next State.Canon.powerFail) (.next hs), .ite
    (.next State.Canon.powerFail) (.next hs.filtered)]

theorem State.Canon.execLossOfInput (hs : s.Canon) : Result.Canon (execLossOfInput s) := by
  unfold Sys2Proof.Machine.execLossOfInput
  split
  exacts [.next State.Canon.powerFail, .next State.Canon.powerFail, .next hs]

theorem State.Canon.stageFails (hs : s.Canon) : (s.stageFails k).Canon :=
  .ite State.Canon.powerFail (hs.watchForecasts fun _ ht => ht.roleRecord.setPower.count.event).setAlert

theorem State.Canon.raiseExcursion (hs : s.Canon) {i code : Nat} {was : Bool} : (s.raiseExcursion i code was).Canon :=
  .ite (State.Canon.ite hs hs.count).setAlert (State.Canon.ite hs hs.count).setAlert.event

theorem State.Canon.execCoolantExcursion (hs : s.Canon) {e : CoolantEvent} :
    Result.Canon (execCoolantExcursion e s) := by
  unfold Sys2Proof.Machine.execCoolantExcursion
  extract_lets m
  refine .ite (.next hs) ?_
  split
  exacts [.ite (.next hs) (.next hs.update.raiseExcursion.count), .ite (.next hs)
    (.next hs.update.raiseExcursion.count), .ite (.next hs.update.setAlert) (.next hs)]

theorem State.Canon.execAirExcursion (hs : s.Canon) {e : AirEvent} : Result.Canon (execAirExcursion e s) := by
  unfold Sys2Proof.Machine.execAirExcursion
  extract_lets m
  refine .ite (.next hs) ?_
  split
  · exact .ite (.next hs) (.next hs.update.raiseExcursion)
  · exact .ite (.next hs.update.setAlert) (.next hs)

theorem State.Canon.halt (hs : s.Canon) : s.halt.Canon := hs.setPower.setAlert

theorem State.Canon.sense (hs : s.Canon) : s.sense.Canon := hs.update

theorem State.Canon.startStages (hs : s.Canon) : s.startStages.Canon := hs.draw.setInput.sense.setAlert

theorem State.Canon.startRoots (hs : s.Canon) : (s.startRoots env).Canon := hs.setPower.setRoots

theorem State.Canon.startRom (hs : s.Canon) : (s.startRom env).1.Canon := by
  unfold State.startRom
  exact .ite_fst (.ite hs hs.count)
      (.ite_fst (State.Canon.ite hs hs.count).blowTo.rom.update (State.Canon.ite hs hs.count).blowTo.rom)

theorem State.Canon.stepIn (hs : s.Canon) {lo n : Nat} : (s.stepIn d lo n).1.Canon := by
  unfold State.stepIn
  split
  · exact hs
  · exact .ite hs.update.setDieState.freshLooms hs.update.setDieState.update

theorem State.Canon.failLinkDie (hs : s.Canon) : (s.failLinkDie k).Canon := hs.foldl fun _ _ ht => ht.failLane

theorem State.Canon.selfTestFails (hs : s.Canon) : (s.selfTestFails d).Canon := by
  unfold State.selfTestFails
  refine .ite hs ?_
  extract_lets was s1
  have hs1 : s1.Canon := hs.count
  refine .ite (.ite hs1.setDieState.stepIn hs1.setDieState) (.ite hs1.retireHub ?_)
  refine .ite (.ite hs1.setDieState.retireHub hs1.setDieState) (.ite (.ite hs1.setDieState.stepIn hs1.setDieState) ?_)
  exact .ite hs1.setDieState.failLinkDie
      (.ite hs1.setDieState.setHost (.ite (.ite hs1.mgmtFails hs1.setDieState.loseRoot) hs1.failNand))

theorem State.Canon.startRest (hs : s.Canon) : (s.startRest env).Canon := by
  unfold State.startRest
  extract_lets -underBinder +onlyGivenNames _ s1
  have hs1 : s1.Canon := hs.setPower
  refine .ite hs1.halt ?_
  extract_lets -underBinder +onlyGivenNames s2 s3
  have hs2 : s2.Canon := hs1.foldl fun _ _ ht => ht.freshLooms
  have hs3 : s3.Canon := hs2.foldl fun _ _ ht => ht.selfTestFails
  exact .ite hs3 (hs3.setPower.foldl fun _ _ ht => .ite ht.laneUp ht).event

theorem State.Canon.startFrom4 (hs : s.Canon) : (s.startFrom4 env).Canon :=
  .ite hs.startRom.startRest hs.startRom.halt

theorem State.Canon.startFrom3 (hs : s.Canon) : (s.startFrom3 env).Canon :=
  .ite hs.update.startRoots.halt hs.update.startRoots.startFrom4

theorem State.Canon.coldStart (hs : s.Canon) : (s.coldStart env).Canon :=
  .ite hs.setPower.startStages.halt hs.setPower.startStages.startFrom3

theorem State.Canon.holdReset {c : Nat} : (s.holdReset c).Canon := State.Canon.losePower.update

theorem State.Canon.execMrstN (hs : s.Canon) {lowMs : Nat} : Result.Canon (execMrstN lowMs s) := by
  unfold Sys2Proof.Machine.execMrstN
  split
  · exact .ite (.next State.Canon.holdReset.update) (.next hs.filtered)
  · exact .ite (.next State.Canon.holdReset.update) (.next hs.filtered)
  · exact .ite (.next State.Canon.holdReset.update) (.next hs.filtered)
  · exact .ite (.next hs.filtered.setPower) (.next hs.filtered)
  · exact .next hs

theorem State.Canon.moduleReset (hs : s.Canon) {value : Byte} : (s.moduleReset value).1.Canon := by
  unfold State.moduleReset
  exact .ite_fst hs.setPower hs

theorem State.Canon.execModuleReset (hs : s.Canon) {value : Byte} : Result.Canon (execModuleReset value s) :=
  hs.onCmd fun _ ht => ht.moduleReset

theorem State.Canon.warmStart (hs : s.Canon) : (s.warmStart env).Canon :=
  .ite hs.update.sense.setPower.setAlert.halt
      (.ite hs.update.sense.setPower.setAlert.startFrom3 hs.update.sense.setPower.setAlert.setRoots.startFrom4)

/-! ### Deaths -/

theorem State.Canon.loseHub (hs : s.Canon) : (s.loseHub k).Canon := hs.retireHub.purgeHub

theorem State.Canon.cutDead (hs : s.Canon) {q : BitVec 16} {f : Fetched} : (s.cutDead q f).Canon := by
  unfold State.cutDead
  extract_lets l mine
  split
  · exact hs
  · exact hs.dropWaits.complete
  · split
    · exact (State.Canon.ite hs.endPut (.ite hs.getCount hs)).update.dropWaits.complete
    · split
      · exact hs.endColl
      · exact hs.complete
    · exact hs.dropWaits.complete

theorem State.Canon.cutDeadQueue (hs : s.Canon) {q : BitVec 16} : (s.cutDeadQueue q).Canon :=
  hs.foldl fun _ _ ht => ht.cutDead

theorem State.Canon.leaveGroups (hs : s.Canon) : (s.leaveGroups d).Canon := by
  unfold State.leaveGroups
  extract_lets stay s1
  have hs1 : s1.Canon := hs.update
  refine hs1.foldl fun t x ht => ?_
  split
  · exact ht.releaseHeld
  · exact ht

theorem State.Canon.clearDie (hs : s.Canon) : (s.clearDie d).Canon := hs.update.clearRange.leaveGroups

theorem State.Canon.rebind (hs : s.Canon) {q x : Nat} : (s.rebind q x).Canon := hs.setQueue.update

theorem State.Canon.setMask (hs : s.Canon) {n m : Nat} : (s.setMask n m).Canon := hs.update

theorem State.Canon.moveToSpare (hs : s.Canon) {x : Nat} : (s.moveToSpare d x).Canon :=
  (hs.clearRange.foldl fun _ _ ht => ht.setMask).foldl fun _ _ ht => ht.rebind

theorem State.Canon.moveToRest (hs : s.Canon) : (s.moveToRest d).Canon := by
  unfold State.moveToRest
  extract_lets ls s1 s2
  have hs1 : s1.Canon := hs.foldl fun _ _ ht => ht.setMask
  have hs2 : s2.Canon := by
    refine hs1.foldl fun t x ht => ?_
    split
    · exact ht
    · exact ht.rebind.event
  exact hs2.foldl fun _ _ ht => ht.revokeLease

theorem State.Canon.tensorDies (hs : s.Canon) : (s.tensorDies d).Canon := by
  unfold State.tensorDies
  extract_lets -underBinder +onlyGivenNames qs was s1
  have hs1 : s1.Canon := hs.setDieState
  refine .ite hs1 ?_
  extract_lets -underBinder +onlyGivenNames r s2 s3
  have hr : r.1.Canon := hs1.stepIn
  have hs2 : s2.Canon := hr.foldl fun _ _ ht => ht.cutDeadQueue
  have hs3 : s3.Canon := hs2.clearDie
  split
  · exact hs3.moveToSpare
  · exact hs3.moveToRest

theorem State.Canon.coreDies (hs : s.Canon) : (s.coreDies d).Canon :=
  .ite hs.setDieState (State.Canon.ite hs.setDieState.update.stepIn.update hs.setDieState.update.stepIn).event

theorem State.Canon.hostDies (hs : s.Canon) : s.hostDies.Canon := by
  unfold State.hostDies
  extract_lets s1 _ s2
  have h2 : s2.Canon := hs.setDieState.setHost
  exact h2.hostLeaves

theorem State.Canon.mgmtDies (hs : s.Canon) : (s.mgmtDies d).Canon := .ite hs.mgmtFails hs.setDieState.loseRoot

theorem State.Canon.buryAgent (hs : s.Canon) {a : Nat} : (s.buryAgent a).Canon := hs.setCoh.reclaim

theorem State.Canon.agentDies (hs : s.Canon) {a : Nat} : (s.agentDies a).Canon :=
  .ite hs (.ite hs.tensorDies.buryAgent
      (.ite hs.coreDies.buryAgent
      (.ite hs.setDieState.failLinkDie.buryAgent (.ite hs.hostDies.setCoh hs.mgmtDies.setCoh))))

theorem State.Canon.answerForHolder (hs : s.Canon) {line : Nat} {t : Txn} : (s.answerForHolder line t).Canon :=
  hs.setCoh.advance.count.emit

theorem State.Canon.execSnoopDeadlineMiss (hs : s.Canon) {agent line : Nat} :
    Result.Canon (execSnoopDeadlineMiss agent line s) := by
  unfold Sys2Proof.Machine.execSnoopDeadlineMiss
  split
  · exact .next hs
  · exact .ite (.next hs) (.next (.ite hs.answerForHolder hs.answerForHolder.agentDies))

theorem State.Canon.execControlCoreRetire (hs : s.Canon) {die core : Nat} :
    Result.Canon (execControlCoreRetire die core s) :=
  .ite (.next hs) (.next (.ite hs.roleRecord.retireCore.event hs.roleRecord.retireCore.event.agentDies))

/-! ### Spdm -/

theorem State.Canon.spdmNonce (hs : s.Canon) : s.spdmNonce.2.Canon := by
  unfold State.spdmNonce
  exact hs.update

theorem State.Canon.setConn (hs : s.Canon) {c : Spdm} : (s.setConn t c).Canon := hs.update

theorem State.Canon.countSign (hs : s.Canon) : s.countSign.Canon := hs.count

theorem State.Canon.spdmVersion (hs : s.Canon) : (s.spdmVersion t msg).1.Canon := by
  unfold State.spdmVersion
  exact hs.setConn

theorem State.Canon.spdmCapabilities (hs : s.Canon) : (s.spdmCapabilities t msg).1.Canon := by
  unfold State.spdmCapabilities
  exact .ite_fst hs (.ite_fst hs hs.setConn)

theorem State.Canon.spdmAlgorithms (hs : s.Canon) : (s.spdmAlgorithms t msg b).1.Canon := by
  unfold State.spdmAlgorithms
  exact .ite_fst hs (.ite_fst hs hs.setConn)

theorem State.Canon.spdmDigests (hs : s.Canon) : (s.spdmDigests t msg).1.Canon := by
  unfold State.spdmDigests
  exact .ite_fst hs hs.setConn

theorem State.Canon.spdmCertificate (hs : s.Canon) : (s.spdmCertificate t msg p1 p2 b).1.Canon := by
  unfold State.spdmCertificate
  exact .ite_fst hs (.ite_fst hs hs.setConn)

theorem State.Canon.spdmChallenge (hs : s.Canon) : (s.spdmChallenge t msg p1 p2 b).1.Canon := by
  unfold State.spdmChallenge
  exact .ite_fst hs (.ite_fst hs hs.spdmNonce.setConn.countSign)

theorem State.Canon.spdmMeasurements (hs : s.Canon) : (s.spdmMeasurements t msg p1 p2 b).1.Canon := by
  unfold State.spdmMeasurements
  exact .ite_fst hs (.ite_fst hs (.ite_fst hs.spdmNonce.setConn.countSign hs.spdmNonce.setConn))

theorem State.Canon.spdmPlain (hs : s.Canon) {version code : Byte} :
    (s.spdmPlain t version code p1 p2 b).1.Canon := by
  unfold State.spdmPlain
  extract_lets msg
  refine .ite_fst hs.spdmVersion (.ite_fst hs ?_)
  split
  exacts [hs.spdmCapabilities, hs.spdmAlgorithms, hs.spdmDigests, hs.spdmCertificate, hs.spdmChallenge,
    hs.spdmMeasurements, hs]

theorem State.Canon.largeOut (hs : s.Canon) {r : List Byte} : (s.largeOut t r).1.Canon := by
  unfold State.largeOut
  exact .ite_fst hs hs.setConn

theorem State.Canon.spdmChunkGet (hs : s.Canon) : (s.spdmChunkGet t p2 b).1.Canon := by
  unfold State.spdmChunkGet
  exact .ite_fst hs (.ite_fst hs hs.setConn)

theorem State.Canon.spdmChunkSend (hs : s.Canon) : (s.spdmChunkSend t p1 p2 b).1.Canon := by
  unfold State.spdmChunkSend
  exact .ite_fst hs (.ite_fst hs.setConn
      (.ite_fst hs.setConn (.ite_fst hs.setConn.spdmPlain hs.setConn.spdmPlain.largeOut)))

theorem State.Canon.spdmRequest (hs : s.Canon) {version code : Byte} :
    (s.spdmRequest t version code p1 p2 b).1.Canon := by
  unfold State.spdmRequest
  extract_lets s1 chunk _ r wrong
  have hs1 : s1.Canon := hs.count
  have hr : r.1.Canon := .ite_fst hs1 (.ite_fst hs1.spdmChunkSend (.ite_fst hs1.spdmChunkGet hs1.spdmPlain.largeOut))
  exact .ite hr.count hr

theorem State.Canon.spdmOver (hs : s.Canon) {code : Byte} {m : SpdmMsg} : Result.Canon (s.spdmOver code m) :=
  .ite (.next hs.spdmRequest.emit) (.next hs)

/-! ### Arm -/

theorem State.Canon.configDefaults (hs : s.Canon) : (s.configDefaults num).1.Canon := by
  unfold State.configDefaults
  exact .ite_fst hs hs.update

theorem State.Canon.reuseLanes (hs : s.Canon) {old : State} : (s.reuseLanes old).Canon :=
  hs.foldl fun _ _ ht => .ite ht ht.setLane.moveRecs

theorem State.Canon.newView (hs : s.Canon) : s.newView.Canon := hs.update.foldl fun _ _ ht => ht.sendHello

theorem State.Canon.reconfigured (hs : s.Canon) {old : State} : (s.reconfigured old).Canon :=
  (State.Canon.ite hs.reuseLanes hs.reuseLanes.newView).driveAlert

theorem State.Canon.armRecord (hs : s.Canon) {flags : Byte} {epoch : Nat} {v : Tab (List Byte)} :
    (s.armRecord flags epoch step v).Canon := hs.record

theorem State.Canon.armStop (hs : s.Canon) {r : DapResult} : (s.armStop r).2.2.Canon := by
  unfold State.armStop
  exact hs

theorem State.Canon.armChecked (hs : s.Canon) {stepped : Bool} {f : State → Nat → ArmEnd}
    (hf : ∀ (t : State) a1, t.Canon → (f t a1).2.2.Canon) :
    (s.armChecked stepped req f).2.2.Canon := by
  unfold State.armChecked
  refine .ite_third hs.armStop ?_
  split
  · exact hs.count
  · exact .ite_third hs.armStop (hf _ _ hs.count)

theorem State.Canon.armAtOnce (hs : s.Canon) : (s.armAtOnce req).2.2.Canon := by
  unfold State.armAtOnce
  exact .ite_third hs.armStop (hs.armChecked fun _ _ ht => ht.armRecord.update.reconfigured)

theorem State.Canon.armStepped (hs : s.Canon) {by_ : BitVec 32} : (s.armStepped by_ req step).2.2.Canon := by
  unfold State.armStepped
  exact .ite_third hs.armStop (.ite_third hs.armStop (hs.armChecked fun _ _ ht => ht.armRecord.update))

theorem State.Canon.armCancel (hs : s.Canon) : (s.armCancel num role).2.2.Canon := by
  unfold State.armCancel
  split
  · exact hs.armStop
  · exact .ite_third hs.armStop (.ite_third hs.armStop hs.armRecord.update)

theorem State.Canon.armOf (hs : s.Canon) {atStep cancel : Bool} :
    (s.armOf num role atStep cancel req step).2.2.Canon := by
  unfold State.armOf
  exact .ite_third hs.armCancel (.ite_third hs.armStop (.ite_third hs.armStepped hs.armAtOnce))

theorem State.Canon.switchTo (hs : s.Canon) {p : PendingArm} : (s.switchTo p).Canon :=
  hs.record.update.reconfigured.count

theorem State.Canon.setStep (hs : s.Canon) {q : BitVec 16} : (s.setStep q step).Canon := by
  unfold State.setStep
  extract_lets s1 _ s2
  have hs1 : s1.Canon := by
    unfold s1
    split
    · exact hs
    · exact hs.switchTo
  have hs2 : s2.Canon := hs1.setQueue
  exact hs2.update

theorem State.Canon.execQctlStep (hs : s.Canon) {d : Desc} : Result.Canon (execQctlStep d s) :=
  .ite (.next hs) (hs.onDesc fun _ ht => .ite ht.finish (ht.runNow fun _ hu => hu.setStep))

/-! ### Backward -/

theorem State.Canon.attnOutcm (hs : s.Canon) {st : Byte} {row : Nat} : (s.attnOutcm st row).1.Canon := by
  unfold State.attnOutcm
  exact hs.draw

theorem State.Canon.runAttn (hs : s.Canon) {d : Desc} {die : Nat} {f : AttnF} {r : AttnRec} {oi os oo : Opf} :
    (s.runAttn d die f r oi os oo).1.Canon := by
  unfold State.runAttn
  extract_lets -underBinder +onlyGivenNames cfg view env scaleBad
  refine .ite_fst hs.attnOutcm ?_
  extract_lets -underBinder +onlyGivenNames ps sat plane badQ badK outs imgs s1 _ s2 b s3 narRow
  have hs1 : s1.Canon := hs.foldl fun _ _ ht => ht.writeSkeins.countWatched
  have hs2 : s2.Canon := hs1.countWatched
  have hs3 : s3.Canon := hs2.count.count
  clear_value narRow badQ
  split
  exacts [hs3.attnOutcm, hs3.attnOutcm, hs3.attnOutcm, hs3]

theorem State.Canon.attnEnds (hs : s.Canon) {d : Desc} {st : Byte} : (s.attnEnds d st).Canon :=
  .ite hs.finish hs.attnOutcm.finish

theorem State.Canon.execBwdAttn (hs : s.Canon) {d : Desc} : Result.Canon (execBwdAttn d s) := by
  unfold Sys2Proof.Machine.execBwdAttn
  refine hs.onDesc fun t ht => ?_
  extract_lets die f
  split
  · refine .ite ht.attnEnds ?_
    split
    · exact ht.attnEnds
    · exact ht.runNow fun _ hu => hu.runAttn
  · exact ht.attnEnds

/-! ### CounterClears -/

theorem State.Canon.clearIndices (hs : s.Canon) {lo hi : Nat} : Result.Canon (s.clearIndices lo hi) :=
  hs.onCmd fun _ ht => ht.clearCounters

theorem State.Canon.execFmtCountersClear (hs : s.Canon) : Result.Canon (execFmtCountersClear _value s) :=
  hs.clearIndices

theorem State.Canon.execLoomCountersClear (hs : s.Canon) : Result.Canon (execLoomCountersClear _value s) :=
  hs.clearIndices

theorem State.Canon.execVecCountersClear (hs : s.Canon) : Result.Canon (execVecCountersClear _value s) :=
  hs.clearIndices

theorem State.Canon.execReedCountersClear (hs : s.Canon) : Result.Canon (execReedCountersClear _value s) :=
  hs.clearIndices

theorem State.Canon.execBwdCountersClear (hs : s.Canon) : Result.Canon (execBwdCountersClear _value s) :=
  hs.clearIndices

theorem State.Canon.execUpdCountersClear (hs : s.Canon) : Result.Canon (execUpdCountersClear _value s) :=
  hs.clearIndices

theorem State.Canon.execStrCountersClear (hs : s.Canon) : Result.Canon (execStrCountersClear _value s) :=
  hs.clearIndices

theorem State.Canon.execPruCountersClear (hs : s.Canon) : Result.Canon (execPruCountersClear _value s) :=
  hs.clearIndices

theorem State.Canon.execDftCountersClear (hs : s.Canon) : Result.Canon (execDftCountersClear _value s) :=
  hs.clearIndices

theorem State.Canon.execRecCountersClear (hs : s.Canon) : Result.Canon (execRecCountersClear _value s) :=
  hs.clearIndices

theorem State.Canon.execSecCountersClear (hs : s.Canon) : Result.Canon (execSecCountersClear _value s) :=
  hs.clearIndices

theorem State.Canon.execPwrCountersClear (hs : s.Canon) : Result.Canon (execPwrCountersClear _value s) :=
  hs.clearIndices

theorem State.Canon.execModCountersClear (hs : s.Canon) : Result.Canon (execModCountersClear _value s) :=
  hs.clearIndices

/-! ### Dap -/

theorem State.Canon.dapStop (hs : s.Canon) {r : DapResult} : (s.dapStop r).2.2.Canon := by
  unfold State.dapStop
  exact hs

theorem State.Canon.dapRead (hs : s.Canon) : (s.dapRead role b).2.2.Canon := by
  unfold State.dapRead
  extract_lets o
  split
  · exact hs.dapStop
  · exact .ite_third hs.dapStop (.ite_third hs.dapStop hs)

theorem State.Canon.dapDescribe (hs : s.Canon) : (s.dapDescribe role b).2.2.Canon := by
  unfold State.dapDescribe
  extract_lets o
  split
  · exact hs.dapStop
  · exact hs

theorem State.Canon.dapEnumerate (hs : s.Canon) : (s.dapEnumerate b).2.2.Canon := by
  unfold State.dapEnumerate
  exact hs

theorem State.Canon.dapStagedList (hs : s.Canon) : (s.dapStagedList b).2.2.Canon := by
  unfold State.dapStagedList
  exact hs

theorem State.Canon.dapEvents (hs : s.Canon) : (s.dapEvents b).2.2.Canon := by
  unfold State.dapEvents
  exact hs

theorem State.Canon.runAs (hs : s.Canon) {f : State → Result} (hf : ∀ (t : State), t.Canon → Result.Canon (f t)) :
    (s.runAs f).1.Canon := by
  unfold State.runAs
  split
  next t e =>
    have ht : t.Canon := hf _ hs _ e
    exact ht
  · exact hs

theorem State.Canon.cmdObject (hs : s.Canon) : (s.cmdObject num o v).1.Canon := by
  unfold State.cmdObject
  extract_lets b w u64 u32 u16
  split
  · exact hs.configDefaults
  · exact hs.runAs fun _ ht => ht.execLeaseGrant
  · exact hs.runAs fun _ ht => ht.execLeaseRelease
  · exact hs.runAs fun _ ht => ht.execTempleAlarmClear
  · exact hs.runAs fun _ ht => ht.execQueueAbort
  · exact hs.runAs fun _ ht => ht.execStepCommit
  · exact hs.runAs fun _ ht => ht.execGroupRestore
  · exact hs.runAs fun _ ht => ht.execOutcomeAdopt
  · exact hs.runAs fun _ ht => ht.execCommitRebase
  · exact hs.runAs fun _ ht => ht.execFwInstall
  · exact hs.runAs fun _ ht => ht.execFwActivate
  · exact hs.runAs fun _ ht => ht.execBoltNote
  · exact hs.runAs fun _ ht => ht.execOwnerRelease

theorem State.Canon.cmdControl (hs : s.Canon) : (s.cmdControl o v).1.Canon := by
  unfold State.cmdControl
  extract_lets b
  split
  · exact hs.runAs fun _ ht => ht.execModuleReset
  · exact hs.runAs fun _ ht => ht.execRootSwitch
  · exact hs.runAs fun _ ht => ht.execFmtCountersClear
  · exact hs.runAs fun _ ht => ht.execLoomCountersClear
  · exact hs.runAs fun _ ht => ht.execVecCountersClear
  · exact hs.runAs fun _ ht => ht.execReedCountersClear
  · exact hs.runAs fun _ ht => ht.execBwdCountersClear
  · exact hs.runAs fun _ ht => ht.execUpdCountersClear
  · exact hs.runAs fun _ ht => ht.execTempleCountersClear
  · exact hs.runAs fun _ ht => ht.execStrCountersClear
  · exact hs.runAs fun _ ht => ht.execTirCountersClear
  · exact hs.runAs fun _ ht => ht.execCohCountersClear
  · exact hs.runAs fun _ ht => ht.execHstCountersClear
  · exact hs.runAs fun _ ht => ht.execPruCountersClear
  · exact hs.runAs fun _ ht => ht.execDftCountersClear
  · exact hs.runAs fun _ ht => ht.execRecCountersClear
  · exact hs.runAs fun _ ht => ht.execSecCountersClear
  · exact hs.runAs fun _ ht => ht.execPwrCountersClear
  · exact hs.runAs fun _ ht => ht.execModCountersClear

theorem State.Canon.writeNow (hs : s.Canon) : (s.writeNow o v).1.Canon := by
  unfold State.writeNow
  exact .ite_fst hs.update (hs.runAs fun _ ht => ht.execDirProbeAddr)

theorem State.Canon.stageValue (hs : s.Canon) {r : ObjRow} : (s.stageValue num o r v).1.Canon := by
  unfold State.stageValue
  exact .ite_fst hs (.ite_fst hs hs.update)

theorem State.Canon.stageSegment (hs : s.Canon) {r : ObjRow} {off : Nat} {last : Bool} :
    (s.stageSegment num o r off last v).1.Canon := by
  unfold State.stageSegment
  extract_lets d done
  split
  · exact hs
  · exact .ite_fst hs (.ite_fst hs.update hs.update)

theorem State.Canon.writeObject (hs : s.Canon) {r : ObjRow} : (s.writeObject num o r v).1.Canon := by
  unfold State.writeObject
  exact .ite_fst hs.stageValue (.ite_fst hs.writeNow (.ite_fst hs.writeKey (.ite_fst hs.cmdObject hs.cmdControl)))

theorem State.Canon.dapWrite (hs : s.Canon) : (s.dapWrite num role b).2.2.Canon := by
  unfold State.dapWrite
  extract_lets o off last v ends
  have hends : ∀ x, x.1.Canon → (ends x).2.2.Canon := fun _ hx => hx
  split
  · exact hs.dapStop
  · exact .ite_third hs.dapStop (.ite_third (.ite_third (hends _ hs.stageSegment) (hends _ hs.fwImage))
      (.ite_third hs.dapStop (.ite_third hs.dapStop (hends _ hs.writeObject))))

theorem State.Canon.dapDiscard (hs : s.Canon) : (s.dapDiscard num role).2.2.Canon := by
  unfold State.dapDiscard
  exact .ite_third hs.update hs.dapStop

theorem State.Canon.dapArm (hs : s.Canon) : (s.dapArm num role b).2.2.Canon := by
  unfold State.dapArm
  exact hs.armOf

theorem State.Canon.dapTunnel (hs : s.Canon) {t : Transport} : (s.dapTunnel t b).2.2.Canon := by
  unfold State.dapTunnel
  exact hs.spdmRequest

theorem State.Canon.dapRun (hs : s.Canon) {mtype : Nat} : (s.dapRun x mtype b).2.2.Canon := by
  unfold State.dapRun
  refine .ite_third hs.dapStop ?_
  split
  exacts [hs.endSessions, hs.dapRead, hs.dapWrite, hs.dapDescribe, hs.dapEnumerate, hs.dapArm, hs.dapDiscard,
    hs.dapStagedList, hs.dapEvents, hs.dapTunnel]

theorem State.Canon.setSession (hs : s.Canon) : (s.setSession x).Canon := hs.update

theorem State.Canon.dapRespond (hs : s.Canon) {k : Kept} {keep : Bool} : (s.dapRespond x k keep).1.Canon := by
  unfold State.dapRespond
  exact hs.setSession

theorem State.Canon.dapAccepted (hs : s.Canon) : (s.dapAccepted x b).1.Canon := by
  unfold State.dapAccepted
  extract_lets id mtype body x s1
  have hs1 : s1.Canon := hs.setSession
  split
  · exact hs1.count.dapRespond
  · exact (State.Canon.ite_third hs1.dapRun hs1.count.dapStop).dapRespond

theorem State.Canon.openFails (hs : s.Canon) {key : List Byte} {r : DapResult} : (s.openFails key b r).1.Canon := by
  unfold State.openFails
  exact hs.draw

theorem State.Canon.openSession (hs : s.Canon) {t : Transport} {owner : Bool} :
    (s.openSession t owner role b).1.Canon := by
  unfold State.openSession
  exact .ite_fst hs.count.openFails (.ite_fst hs.openFails hs.update.count)

theorem State.Canon.dapOpen (hs : s.Canon) {t : Transport} : (s.dapOpen t b).1.Canon := by
  unfold State.dapOpen
  extract_lets body key
  refine .ite_fst hs ?_
  split
  · exact hs.count
  · exact .ite_fst hs.count hs.openSession

theorem State.Canon.dapIdentify (hs : s.Canon) : (s.dapIdentify b).1.Canon := by
  unfold State.dapIdentify
  exact .ite_fst hs.count hs.count

theorem State.Canon.dapHandle (hs : s.Canon) {t : Transport} {multicast : Bool} :
    (s.dapHandle t multicast b).1.Canon := by
  unfold State.dapHandle
  extract_lets mtype s1
  have hs1 : s1.Canon := hs.count
  refine .ite_fst hs1.dapIdentify (.ite_fst hs1 (.ite_fst hs1.count (.ite_fst hs1.dapOpen ?_)))
  split
  · exact hs1.count
  · exact .ite_fst hs1.count (.ite_fst hs1.count (.ite_fst hs1.count hs1.dapAccepted))

theorem State.Canon.dapOver (hs : s.Canon) {t : Transport} {multicast : Bool} : (s.dapOver t multicast b).Canon := by
  unfold State.dapOver
  refine .ite hs ?_
  extract_lets r
  have hr : r.1.Canon := hs.dapHandle
  split
  · exact hr
  · exact hr.emit

theorem State.Canon.setMailbox (hs : s.Canon) {m : Mailbox} : (s.setMailbox m).Canon := hs.update

theorem State.Canon.doorbell (hs : s.Canon) {value : Nat} : (s.doorbell value).Canon := by
  unfold State.doorbell
  extract_lets -underBinder +onlyGivenNames m n
  refine .ite hs.count ?_
  extract_lets -underBinder +onlyGivenNames b r _ t
  have hr : r.1.Canon := hs.update.dapHandle
  have ht : t.Canon := hr.setMailbox
  split
  · exact ht
  · exact ht.setMailbox

theorem State.Canon.fillRequest (hs : s.Canon) {i : Nat} : (s.fillRequest i b).Canon := hs.setMailbox

theorem State.Canon.execMbxDoorbell (hs : s.Canon) {value : BitVec 32} : Result.Canon (execMbxDoorbell value s) :=
  .ite (.next hs.doorbell) (.next hs)

theorem State.Canon.execMbxAck (hs : s.Canon) {value : BitVec 32} : Result.Canon (execMbxAck value s) :=
  .ite (.next hs.setMailbox) (.next hs)

theorem State.Canon.onDap (hs : s.Canon) {m : DapMsg} {mtype : Byte} : Result.Canon (s.onDap m mtype) := by
  unfold State.onDap
  extract_lets b
  split
  exacts [.ite (.next hs.dapOver) (.next hs), .ite (.next hs.dapOver) (.next hs), .ite
    (.next hs.fillRequest.doorbell) (.next hs)]

end Sys2Proof.Machine
end

section
/-!
PROOF. O4, the reed, registers, repairs, the dispatch of descriptors and the tick (R106 to R128, R280 to R300, R345,
R380 to R393, R427).
-/

namespace Sys2Proof.Machine

open Sys2Proof

variable {s : State} {agent die line offset width : Nat} {v : List Byte} {op : AtomicOp}

/-! ### Reed -/

theorem State.Canon.countPasses (hs : s.Canon) {l : List ReedPass} : (s.countPasses die l).Canon :=
  hs.foldl fun _ _ ht => ht.count.count

theorem State.Canon.writeDense (hs : s.Canon) {f : Fmt} {base size : Nat} {codes : List (Nat × Nat)} :
    (s.writeDense f base size codes).Canon := by
  unfold State.writeDense
  extract_lets put t
  split
  · exact hs.writeRuns
  · exact hs

theorem State.Canon.writeReedPlane (hs : s.Canon) {v : ReedEnv} {pl : Nat} {bad : List Bool} {sk : SkeinOut} :
    (s.writeReedPlane v pl bad sk).Canon := (hs.foldl fun _ _ ht => ht.writeMem).writeDense

theorem State.Canon.runReed (hs : s.Canon) {d : Desc} {v : ReedEnv} {cfg : NumCfg} :
    (s.runReed d die v cfg).1.Canon := by
  unfold State.runReed
  refine .ite_fst hs ?_
  extract_lets rd bad planes vals good wrapped idx blocks live ntaps rows k t t1 _ t2 t3 t4 t5 passes t6 t7 t8 t9 t10
      nar
  have ht : t.Canon := hs.foldl fun _ _ ht => ht.writeReedPlane
  have ht1 : t1.Canon := ht.foldl fun _ _ hu => hu.countWatched
  have ht2 : t2.Canon := ht1.countWatched
  have ht3 : t3.Canon := ht2.foldl fun _ _ hu => .ite hu.writeMem.count hu.writeMem
  have ht4 : t4.Canon := ht3.count
  have ht5 : t5.Canon := ht4.count
  have ht6 : t6.Canon := ht5.count.countPasses
  have ht7 : t7.Canon := ht6.count
  have ht8 : t8.Canon := ht7.count
  have ht9 : t9.Canon := ht8.count
  have ht10 : t10.Canon := .ite ht9.undefine ht9
  split <;> exact ht10

theorem State.Canon.execReedConv (hs : s.Canon) {d : Desc} : Result.Canon (execReedConv d s) := by
  unfold Sys2Proof.Machine.execReedConv
  refine hs.onDesc fun t ht => ?_
  extract_lets die cfg f
  split
  · split
    · exact (State.Canon.ite ht.count ht).finish
    · exact ht.runNow fun _ hu => hu.runReed
  · exact ht.finish
  · exact ht.finish

/-! ### Registers -/

theorem State.Canon.adminStore (hs : s.Canon) {blk : AdminBlock} {i : Nat} : Result.Canon (s.adminStore blk i v) :=
  .ite hs.setAdmin.adminWrite (.next hs.setAdmin)

theorem State.Canon.doorbellWrite (hs : s.Canon) {v : BitVec 32} : Result.Canon (s.doorbellWrite offset width v) :=
  .ite hs.execSqDb (.ite hs.execCqDb (.next hs))

theorem State.Canon.sendPending (hs : s.Canon) : s.sendPending.Canon := hs.update.foldl fun _ _ ht => ht.msix

theorem State.Canon.storeRegs (hs : s.Canon) : (s.storeRegs offset v).Canon := hs.setHost.sendPending

theorem State.Canon.globalWrite (hs : s.Canon) {i : Nat} : (s.globalWrite i v).Canon := .ite hs.setHost hs

theorem State.Canon.mailboxWrite (hs : s.Canon) {i : Nat} : Result.Canon (s.mailboxWrite i width v) :=
  .ite hs.execMbxDoorbell (.ite hs.execMbxAck (.ite (.ite (.next hs.fillRequest) (.next hs)) (.next hs)))

theorem State.Canon.mapWrite (hs : s.Canon) {sp : RegSpace} {value : BitVec 64} :
    Result.Canon (s.mapWrite sp offset width value) := by
  unfold State.mapWrite
  extract_lets v host blk
  refine .ite hs.doorbellWrite (.ite (.next hs) (.ite (.next (.ite hs.globalWrite hs)) ?_))
  exact .ite hs.adminStore
      (.ite (.next (.ite hs.storeRegs hs)) (.ite (.next (.ite hs.storeRegs hs)) (.ite hs.mailboxWrite (.next hs))))

theorem State.Canon.execRegisterWrite (hs : s.Canon) {sp : RegSpace} {value : BitVec 64} :
    Result.Canon (execRegisterWrite sp offset width value s) := .ite hs.mapWrite (.next hs)

theorem State.Canon.mctpAnswer (hs : s.Canon) {code completion : Byte} {data : List Byte} :
    (s.mctpAnswer code completion data).Canon := hs.emit

/-! ### Repair -/

theorem State.Canon.repairRecord (hs : s.Canon) {done channel bank row : Nat} :
    (s.repairRecord done die channel bank row).Canon := hs.record

theorem State.Canon.poisonT2 (hs : s.Canon) : (s.poisonT2 line).Canon := by
  unfold State.poisonT2
  extract_lets -underBinder +onlyGivenNames f
  refine .ite ?_ (.ite hs.draw.poisonRange hs.draw.poisonRange)
  extract_lets -underBinder +onlyGivenNames s1
  have hs1 : s1.Canon := by
    unfold s1
    split
    · exact hs.count
    · exact hs
  exact hs1.poisonRange

theorem State.Canon.poisonRow (hs : s.Canon) {ls : List Nat} : (s.poisonRow ls).Canon :=
  hs.foldl fun _ _ ht => .ite ht.poisonT2 ht.poisonRange

theorem State.Canon.poisonStash (hs : s.Canon) {tier2 : Bool} : (s.poisonStash tier2).Canon :=
  hs.foldl fun _ _ ht => ht.foldl fun _ _ hu => .ite hu (.ite hu.draw hu.draw.setStash)

theorem State.Canon.rowRepair (hs : s.Canon) {channel bank row : Nat} {bad : List Nat} :
    (s.rowRepair die channel bank row bad).Canon := by
  unfold State.rowRepair
  extract_lets k used s1 s2
  have hs1 : s1.Canon := hs.repairRecord.poisonRow
  have hs2 : s2.Canon := .ite hs1 hs1.poisonStash
  exact .ite hs2 (hs2.watchForecasts fun _ ht => ht.update.repairRecord.count)

/-! ### Spans -/

theorem State.Canon.controlWrite (hs : s.Canon) {mask : BitVec 64} {data : List Byte} :
    Result.Canon (s.controlWrite line mask data) := by
  unfold State.controlWrite
  refine foldl_keeps Result.Canon _ _ _ (.next hs) fun r a hr => ?_
  split
  next t => exact (hr t rfl).execRegisterWrite
  next => exact hr

theorem State.Canon.controlAtomic (hs : s.Canon) : Result.Canon (s.controlAtomic agent line offset op) := by
  unfold State.controlAtomic
  extract_lets old mask
  split
  next t e => exact .next (hs.controlWrite t e).emit
  next => exact hs.controlWrite

theorem State.Canon.farAsks (hs : s.Canon) {k : ReqKind} : (s.farAsks k agent line offset op).Canon := hs.setCoh.ask

theorem State.Canon.farAtomic (hs : s.Canon) : (s.farAtomic agent line offset op).Canon := by
  unfold State.farAtomic
  split
  · exact hs.farAsks
  · refine .ite hs.farAsks ?_
    extract_lets may
    clear_value may
    split
    exacts [hs, hs.trapReq, (State.Canon.ite hs.setCoh hs).farRuns]

theorem State.Canon.sendAtomic (hs : s.Canon) : (s.sendAtomic agent line offset op).Canon :=
  .ite hs.trapReq (.ite (.ite hs.arrive hs.ask) (.ite hs.emit hs.farAtomic))

theorem State.Canon.execAtomN (hs : s.Canon) : Result.Canon (execAtomN agent line offset op s) :=
  .ite (.next hs) (.ite (.ite hs.controlAtomic (.next hs)) (.ite (.next hs.sendAtomic) (.next hs)))

/-! ### Tick -/

theorem State.Canon.tickVec (hs : s.Canon) {e : Nat} {busy : Bool} : (s.tickVec die e busy).Canon := by
  unfold State.tickVec
  extract_lets n l
  split
  · exact hs.count
  · exact .ite hs.count (.ite hs.storeGrant.count hs.storeGrant.setVec.count)

theorem State.Canon.tickShuttle (hs : s.Canon) {k : Nat} {busy : Bool} : (s.tickShuttle die k busy).Canon := by
  unfold State.tickShuttle
  extract_lets next flying capacity alone tally s1 s2 s3 s4 s5
  have htally : ∀ (t : State) code on, t.Canon → (tally t code on).Canon := fun _ _ _ ht => .ite ht.count ht
  have hs1 : s1.Canon := htally _ _ _ hs
  have hs2 : s2.Canon := htally _ _ _ hs1
  have hs3 : s3.Canon := htally _ _ _ hs2
  have hs4 : s4.Canon := htally _ _ _ hs3
  have hs5 : s5.Canon := htally _ _ _ hs4
  exact .ite hs5 (htally _ _ _ hs5.storeGrant)

theorem State.Canon.tickTreadle (hs : s.Canon) {idle : Bool} : (s.tickTreadle die idle).Canon := by
  unfold State.tickTreadle
  extract_lets s1 heads
  have hs1 : s1.Canon := hs.noteReady
  clear_value heads
  split
  · exact hs1
  · exact .ite hs1.count hs1

theorem State.Canon.tickDie (hs : s.Canon) : (s.tickDie die).Canon := by
  unfold State.tickDie
  extract_lets idle busy s1 s2 s3
  have hs1 : s1.Canon := hs.foldl fun _ _ ht => ht.tickHeddle
  have hs2 : s2.Canon := hs1.foldl fun _ _ ht => ht.tickVec
  have hs3 : s3.Canon := hs2.foldl fun _ _ ht => ht.tickShuttle
  exact .ite hs3.tickTreadle hs3

theorem State.Canon.tickPacing (hs : s.Canon) : s.tickPacing.Canon := by
  unfold State.tickPacing
  split
  · exact hs
  · exact .ite hs.count hs

theorem State.Canon.tickLanes (hs : s.Canon) : s.tickLanes.Canon := hs.foldl fun _ _ ht => ht.count

theorem State.Canon.tickHubs (hs : s.Canon) : s.tickHubs.Canon := hs.foldl fun _ _ ht => ht.cohCount

theorem State.Canon.tickUpdates (hs : s.Canon) : s.tickUpdates.Canon := hs.count

theorem State.Canon.tick (hs : s.Canon) : s.tick.Canon :=
  .ite hs (State.Canon.ite
      (hs.restoreLedger.pumpColls.foldl fun _ _ ht => ht.tickDie).tickUpdates.tickLanes.tickHubs.tickPacing
      hs).setPower

end Sys2Proof.Machine
end

section
/-!
PROOF. O4: every step keeps memory canonical, since each of the 248 commands and the tick do.
-/

namespace Sys2Proof.Machine

open Sys2Proof

variable {s : State}

/-- Every command keeps memory canonical, each by the law of what it runs. -/
theorem State.Canon.exec (hs : s.Canon) {i : Instr} : Result.Canon (exec i s) := by
  unfold Sys2Proof.Machine.exec
  cases i with
  | qctlNop => exact hs.onDesc fun _ ht => .ite ht.finish (ht.runNow fun _ hu => hu)
  | qctlStep => exact hs.execQctlStep
  | qctlFlush => exact hs.onDesc fun _ ht => .ite ht.finish ht.handOver.pump
  | sqDb => exact hs.execSqDb
  | cqDb => exact hs.execCqDb
  | descriptorFetch => exact .ite (.next hs.fetchReturn) (.next hs)
  | dbRetryExpiry => exact .ite (.next hs.setQueue.count) (.next hs)
  | flushReadReturn => exact hs.execFlushReadReturn
  | shutCopy => exact hs.onDesc fun _ ht => ht.dispatchCopy
  | shutCopy2d => exact hs.onDesc fun _ ht => ht.dispatchCopy
  | transferAccept => exact .ite (.next hs.acceptXfer) (.next hs)
  | transferComplete => exact .ite (.next hs.completeXfer) (.next hs)
  | shutMcast => exact hs.execShutMcast
  | mcastDelivery => exact hs.execMcastDelivery
  | mcastSet => exact hs.execMcastSet
  | creelSet => exact hs.onDesc fun _ ht => .ite ht.finish (ht.runNow fun _ hu => hu.setRing)
  | shutLimit => exact hs.execShutLimit
  | slotEmpty => exact .ite (.next hs.emptyHead) (.next hs)
  | loomPick => exact .next hs.dispatchPick
  | pickAccept => exact .ite (.next hs.acceptWaiting) (.next hs)
  | pickComplete => exact .ite (.next hs.completePick) (.next hs)
  | loomChainDrop => exact hs.onDesc fun _ ht => .ite ht.finish (.ite ht (ht.runNow fun _ hu => hu.dropChain))
  | loomSetMode => exact hs.execLoomSetMode
  | vecEw2 => exact .next hs.dispatchVec
  | vecEw1 => exact .next hs.dispatchVec
  | vecFma => exact .next hs.dispatchVec
  | vecReduce => exact .next hs.dispatchVec
  | vecArgmax => exact .next hs.dispatchVec
  | vecRequant => exact .next hs.dispatchVec
  | vecConvert => exact .next hs.dispatchVec
  | vecCurve => exact .next hs.dispatchVec
  | vecGather => exact .next hs.dispatchVec
  | vecInstructionComplete => exact .ite (.next hs.completeVec) (.next hs)
  | seqLoad => exact hs.execSeqLoad
  | seqStart => exact hs.onDesc fun _ ht => .ite ht.finish (.ite ht.finish ht.handOver.setCore)
  | seqStop => exact hs.onDesc fun _ ht => .ite ht.finish (ht.runNow fun _ hu => hu.endProgram)
  | ecall => exact .ite (.next hs.endProgram) (.next hs)
  | seqAccessFault => exact .ite (.next hs.endProgram) (.next hs)
  | tiSubmit => exact hs.execTiSubmit
  | tiWait => exact .ite (.next hs.setCore) (.next hs)
  | tiPoll => exact .ite (.next hs.setCore) (.next hs)
  | tiStep => exact .ite (.next hs.setCore) (.next hs)
  | tiFence => exact .ite (.next hs.setCore) (.next hs)
  | controlCoreRetire => exact hs.execControlCoreRetire
  | reedConv => exact hs.execReedConv
  | bwdPick => exact .next hs.dispatchPick
  | bwdAttn => exact hs.execBwdAttn
  | stashPut => exact hs.execStashPut
  | stashRoomFreed => exact .ite (.next hs.retryPuts) (.next hs)
  | stashFullWaitExpiry => exact .ite (.next hs.setStash.count.complete) (.next hs)
  | stashGet => exact hs.execStashGet
  | stashDrop => exact hs.execStashDrop
  | treadleBind => exact hs.execTreadleBind
  | treadleGrant => exact .ite (.next hs.grantTurn) (.next hs)
  | treadleWait => exact hs.onDesc fun _ ht => .ite ht.finish (.ite ht (ht.runNow fun _ hu => hu))
  | treadleSignal => exact hs.onDesc fun _ ht => .ite ht.finish (.ite ht (ht.runNow fun _ hu => hu.signalToken))
  | mbAdmit => exact hs.execMbAdmit
  | mbRetire => exact hs.onDesc fun _ ht => .ite ht.finish (ht.runNow fun _ hu => hu.update)
  | updStat => exact hs.onDesc fun _ ht => ht.dispatchUpd
  | updApply => exact hs.onDesc fun _ ht => ht.dispatchUpd
  | barrierOutcomeHeld => exact hs.execBarrierOutcomeHeld
  | templeOpen => exact hs.execTempleOpen
  | templeAttach => exact hs.onDesc fun _ ht => .ite ht.finish (ht.runNow fun _ hu => hu.update)
  | templeTally => exact hs.execTempleTally
  | templeSeal => exact hs.execTempleSeal
  | templeDecide => exact hs.execTempleDecide
  | templeClose => exact hs.onDesc fun _ ht => .ite ht.finish (.ite ht (ht.runNow fun _ hu => hu.setCtx.update))
  | tierRegister => exact hs.execTierRegister
  | tierFree => exact hs.execTierFree
  | tierPromote => exact hs.onDesc fun _ ht => .ite ht.finish (.ite ht ht.handOver.tierAct)
  | tierEvict => exact hs.onDesc fun _ ht => .ite ht.finish ht.handOver.tierAct
  | tierPack => exact hs.execTierPack
  | moveEnds => exact .ite (.next hs.moveEnds) (.next hs)
  | t2LateThresholdExpiry => exact .ite (.next hs.count.count) (.next hs)
  | t2StallTimeoutExpiry => exact hs.execT2StallTimeoutExpiry
  | demotionRetry => exact hs.execDemotionRetry
  | hubRetire => exact .ite (.next hs.loseHub) (.next hs)
  | leaseGrant => exact hs.execLeaseGrant
  | leaseRelease => exact hs.execLeaseRelease
  | pruPut => exact hs.onDesc fun _ ht => .ite ht.finish (.ite ht.finish (.ite ht.finish ht.handXfer))
  | pruAtomic => exact hs.execPruAtomic
  | pruSignal => exact hs.execPruSignal
  | pruGroup => exact hs.execPruGroup
  | pruReduce => exact hs.onColl
  | pruGather => exact hs.onColl
  | pruBarrier => exact hs.onColl
  | pruRegion => exact hs.execPruRegion
  | laneTrained => exact .ite (.next hs.laneUp) (.next hs)
  | laneMarker => exact hs.execLaneMarker
  | flitReceive => exact hs.execFlitReceive
  | nak => exact .ite (.next hs.takeNak.drainLane) (.next hs)
  | laneFail => exact .ite (.next hs.failLane) (.next hs)
  | put => exact hs.execPut
  | get => exact hs.onRecord fun _ ht => .ite ht.respond (.ite ht.respond ht.noteRead.respond)
  | atom => exact hs.execAtom
  | signal => exact hs.onRecord fun _ ht => .ite ht.respond ht.signalToken.respond
  | rsp => exact hs.execRsp
  | coll => exact hs.onRecord fun _ ht => .ite ht ht.putMsg.pumpGroup
  | exp => exact hs.onRecord fun _ ht => .ite ht ht.putMsg.pumpGroup
  | barrier => exact hs.onRecord fun _ ht => .ite ht ht.putMsg.pumpGroup
  | hello => exact .ite (.next hs) (.ite (.next hs.noteStranger) (.ite (.next hs) (.next hs.takeHello)))
  | peerDown => exact hs.execPeerDown
  | xactTimeoutExpiry => exact .ite (.next hs.declareLost) (.next hs)
  | ethFrameReceive => exact hs.onDatagram fun _ _ ht => ht.takeEth
  | ethRtoExpiry => exact .ite (.next hs.ethResend) (.next hs)
  | farDatagramReceive => exact hs.onDatagram fun _ _ ht => ht.takeFar
  | rdS => exact .ite (.next hs.coreAsks) (.next hs)
  | rdX => exact .ite (.next hs.coreAsks) (.next hs)
  | upg => exact hs.execUpg
  | rdNc => exact .ite (.next hs.setCoh) (.ite (.next hs.arrive) (.next hs))
  | wrNc => exact .ite hs.controlWrite (.ite (.next hs.arrive) (.next hs))
  | wb => exact hs.execWb
  | cln => exact hs.execCln
  | atomN => exact hs.execAtomN
  | snpS => exact .next hs.snooped
  | snpX => exact .next hs.snooped
  | snpCur => exact .next hs.snooped
  | snpInv => exact .next hs.snooped
  | lrSnoopDelayExpiry => exact hs.execLrSnoopDelayExpiry
  | rspI => exact .next hs.deliverIf
  | rspS => exact .next hs.deliverIf
  | rspO => exact .next hs.deliverIf
  | rspFwd => exact .next hs.deliverIf
  | grant => exact hs.execGrant
  | ack => exact .next hs.deliverIf
  | wbAck => exact .next hs.deliverIf
  | data => exact hs.execData
  | agentSnoopLimitExpiry => exact .ite (.next hs.agentDies) (.next hs)
  | agentDead => exact .ite (.next hs.agentDies) (.next hs)
  | privSnoopTimeoutExpiry => exact .ite (.next hs.privTimeout) (.next hs)
  | snpdata => exact .ite (.next hs.hostSnoops) (.next hs)
  | snpinv => exact .ite (.next hs.hostSnoops) (.next hs)
  | snpcur => exact .ite (.next hs.hostSnoops) (.next hs)
  | snoopDeadlineMiss => exact hs.execSnoopDeadlineMiss
  | birsp => exact hs.execBirsp
  | memrd => exact .ite (.next hs) (.ite (.next hs.count.emit) (.next hs.readPieces.emit))
  | memwr => exact hs.execMemwr
  | bar2Read => exact .ite (.next hs) (.ite (.next hs.count.emit) (.next hs.readPieces.emit))
  | bar2Write => exact .ite (.next hs) (.ite (.next hs) (.next (State.Canon.ite hs.count hs).barStore))
  | peerTimeout => exact hs.execPeerTimeout
  | hostEpochChange => exact .next hs.epochChange
  | portReady => exact .ite (.next hs.setHost) (.next hs)
  | create => exact hs.execCreate
  | destroy => exact hs.execDestroy
  | reattach => exact hs.execReattach
  | attach => exact hs.execAttach
  | regionRegister => exact hs.execRegionRegister
  | regionRelease => exact hs.execRegionRelease
  | registerWrite => exact hs.execRegisterWrite
  | queueAbort => exact hs.execQueueAbort
  | identify => exact hs.onDap
  | sessionOpen => exact hs.onDap
  | sessionClose => exact hs.onDap
  | sessionIdleTimeout => exact .ite (.next hs.endSessions.count) (.next hs)
  | read => exact hs.onDap
  | write => exact hs.onDap
  | describe => exact hs.onDap
  | enumerate => exact hs.onDap
  | arm => exact hs.onDap
  | armAtStep => exact hs.onDap
  | armCancel => exact hs.onDap
  | discard => exact hs.onDap
  | stagedList => exact hs.onDap
  | eventRead => exact hs.onDap
  | spdmTunnel => exact hs.onDap
  | mbxDoorbell => exact hs.execMbxDoorbell
  | mbxAck => exact hs.execMbxAck
  | neighborSolicitation => exact .ite (.next hs.emit) (.next hs)
  | echoRequest => exact .ite (.next hs.emit) (.next hs)
  | setEndpointId => exact .ite (.next hs) (.ite (.next hs.mctpAnswer) (.next hs.update.mctpAnswer))
  | getEndpointId => exact .ite (.next hs.mctpAnswer) (.next hs)
  | getMctpVersionSupport => exact .ite (.next hs) (.ite (.next hs.mctpAnswer) (.next hs.mctpAnswer))
  | getMessageTypeSupport => exact .ite (.next hs.mctpAnswer) (.next hs)
  | getVendorDefinedMessageSupport => exact .ite (.next hs) (.ite (.next hs.mctpAnswer) (.next hs.mctpAnswer))
  | getVersion => exact hs.spdmOver
  | getCapabilities => exact hs.spdmOver
  | negotiateAlgorithms => exact hs.spdmOver
  | getDigests => exact hs.spdmOver
  | getCertificate => exact hs.spdmOver
  | challenge => exact hs.spdmOver
  | getMeasurements => exact hs.spdmOver
  | chunkSend => exact hs.spdmOver
  | chunkGet => exact hs.spdmOver
  | spdmUnsupportedRequest => exact hs.spdmOver
  | fmtCountersClear => exact hs.execFmtCountersClear
  | loomCountersClear => exact hs.execLoomCountersClear
  | vecCountersClear => exact hs.execVecCountersClear
  | reedCountersClear => exact hs.execReedCountersClear
  | bwdCountersClear => exact hs.execBwdCountersClear
  | updCountersClear => exact hs.execUpdCountersClear
  | templeCountersClear => exact hs.execTempleCountersClear
  | templeAlarmClear => exact hs.execTempleAlarmClear
  | strCountersClear => exact hs.execStrCountersClear
  | tirCountersClear => exact hs.execTirCountersClear
  | cohCountersClear => exact hs.execCohCountersClear
  | dirProbeAddr => exact hs.execDirProbeAddr
  | hstCountersClear => exact hs.execHstCountersClear
  | pruCountersClear => exact hs.execPruCountersClear
  | configDefaults => exact hs.onCmd fun _ ht => .ite_fst ht.configDefaults ht
  | dftCountersClear => exact hs.execDftCountersClear
  | stepCommit => exact hs.execStepCommit
  | groupRestore => exact hs.execGroupRestore
  | outcomeAdopt => exact hs.execOutcomeAdopt
  | commitRebase => exact hs.execCommitRebase
  | boltNote => exact hs.execBoltNote
  | fwImage => exact hs.onCmd fun _ ht => ht.fwImage
  | fwInstall => exact hs.execFwInstall
  | fwActivate => exact hs.execFwActivate
  | recCountersClear => exact hs.execRecCountersClear
  | ownerKey => exact hs.onCmd fun _ ht => ht.writeKey
  | operatorKey => exact hs.onCmd fun _ ht => ht.writeKey
  | ownerRelease => exact hs.execOwnerRelease
  | secCountersClear => exact hs.execSecCountersClear
  | moduleReset => exact hs.execModuleReset
  | rootSwitch => exact hs.execRootSwitch
  | pwrCountersClear => exact hs.execPwrCountersClear
  | modCountersClear => exact hs.execModCountersClear
  | journalPageProgrammed => exact .next (hs.count.update.watchForecasts fun _ ht => ht.checkNands)
  | checkpoint => exact .ite (.next hs) (.next hs.record.update)
  | lifetime => exact .ite (.next (hs.watchForecasts fun _ ht => ht.update.lifetimeRecord)) (.next hs)
  | nandDieFail => exact .ite (.next hs.failNand) (.next hs)
  | wearLevelRelocation => exact hs.execWearLevelRelocation
  | rowRepair => exact .ite (.next hs.rowRepair) (.next hs)
  | mgmtSwitchover => exact .ite (.next hs.mgmtFails) (.next hs)
  | noManagementDie => exact .ite (.next State.Canon.noClock) (.next hs)
  | rootLossOfLock => exact .ite (.next hs.loseRoot) (.next hs)
  | pwrfailN => exact hs.execPwrfailN
  | inputLow => exact .ite (.next hs.setInput.count.event) (.next hs)
  | inputHighBand => exact .ite (.next hs.setInput.event) (.next hs)
  | overvoltageShutdown => exact .ite (.next State.Canon.powerFail) (.next hs)
  | stageFailure => exact .ite (.next hs.stageFails) (.next hs)
  | pacingEngage => exact .ite (.next hs.setPower) (.next hs)
  | pacingAdjust => exact .ite (.next hs) (.ite (.next hs.setPower) (.ite (.next hs) (.next hs.setPower)))
  | thermalShutdown => exact .ite (.next State.Canon.powerFail) (.next hs)
  | holdupLow => exact .ite (.next hs.setPower.count.event.setAlert) (.next hs)
  | coldStart => exact .ite (.next hs.coldStart) (.next hs)
  | mrstN => exact hs.execMrstN
  | warmStart => exact .ite (.next hs.warmStart) (.ite (.next State.Canon.holdReset.warmStart) (.next hs))
  | coolantExcursion => exact hs.execCoolantExcursion
  | airExcursion => exact hs.execAirExcursion
  | lossOfInput => exact hs.execLossOfInput
  | standbyRootLock => exact .ite (.next hs.setRoots) (.next hs)
  | hartStart => exact .ite (.next hs.update) (.next hs)
  | configurationRequest => exact hs.execConfigurationRequest
  | cxlCacheResponse => exact hs.execCxlCacheResponse
  | peerReadCompletion => exact .ite (.next hs.peerReadEnds) (.next hs)
  | unknownMtype => exact hs.onDap
  | badCommand => exact hs.execBadCommand

/-- A step is a tick or the front command, run on the state with the rest of the queue. -/
theorem State.Canon.step (hs : s.Canon) : Result.Canon (step s) := by
  unfold Sys2Proof.Machine.step
  split
  · exact .next hs.tick
  · exact hs.update.exec

/-- Settles O4: a state that a step answers is canonical, whichever step it was. -/
theorem stepKeepsMemoryCanonical : Obligations.StepKeepsMemoryCanonical := by
  unfold Obligations.StepKeepsMemoryCanonical
  exact fun s t hs hstep => State.Canon.step (s := s) hs t hstep

end Sys2Proof.Machine
end

section
/-!
PROOF. O6, the property and its rules (R413). `s.Blown x₀` says that no anti-rollback counter of `s` lies below
that of `x₀`, the trust state at the start of the step, and one rule for each construct of the model says how it
goes through: a record update that keeps the trust state, a conditional, a fold, a pair, and the answers of
commands. What follows is one law `State.Blown.f` for each operation `f`, whose proof repeats the shape of `f`.
Memory, the fabric and the queues need no such proofs, as they keep `State.beside`; of all operations `blowTo` alone
writes a fuse.
-/

namespace Sys2Proof.Machine

open Sys2Proof

variable {x₀ : Sec}

/-! ### The fuses as a property of states and answers -/

/-- No anti-rollback counter of either management die lies below that of `x`. -/
def State.Blown (x : Sec) (s : State) : Prop :=
  ∀ i, x.fuses0.getD i 0 ≤ s.sec.fuses0.getD i 0 ∧ x.fuses1.getD i 0 ≤ s.sec.fuses1.getD i 0

/-- The command answers a state, whatever the state before it, and that state is past `x`. -/
def Result.Blown (x : Sec) (r : Result) : Prop := ∃ t, r = .next t ∧ t.Blown x

/-- The state that is answered, if any, is past `x`. -/
def MaybeState.Blown (x : Sec) (o : Option State) : Prop := ∀ t, o = some t → t.Blown x

/-- The state that an admin command answers, if it is not refused, is past `x`. -/
def AdminAnswer.Blown (x : Sec) (r : Except Nat (State × Nat)) : Prop := ∀ y, r = .ok y → y.1.Blown x

/-! ### How the property goes through the constructs of the model -/

/-- A state whose fuses are as they were, whatever the rest of its trust state. -/
theorem State.Blown.of_fuses {s t : State} (hs : s.Blown x₀) (h₀ : t.sec.fuses0 = s.sec.fuses0)
    (h₁ : t.sec.fuses1 = s.sec.fuses1) : t.Blown x₀ := by
  unfold State.Blown
  rw [h₀, h₁]
  exact hs

theorem State.Blown.of_beside {s t : State} (hs : s.Blown x₀) (h : t.beside = s.beside) :
    t.Blown x₀ :=
  have hsec : t.beside.sec = s.beside.sec := congrArg State.sec h
  hs.of_fuses (congrArg Sec.fuses0 hsec) (congrArg Sec.fuses1 hsec)

/-- A state made from another with the same trust state, whatever its other fields. -/
theorem State.Blown.update {s : State} (hs : s.Blown x₀) {pending mem dies power module draft mailbox counters
    host msixPending queues leases leaseReq leaseResult grantSeq restoring objects frames looms heddles mcast mcastSends
    vecs cores xfers rings treadle readyOrder tokens stash segs outcomeWaits seals ctxs attached coh peruo journal
    commit repairs fw spdm hartsStopped coreSlots sent fresh} :
    (State.mk pending mem dies power module draft mailbox counters host msixPending queues leases leaseReq
      leaseResult grantSeq restoring objects frames looms heddles mcast mcastSends vecs cores xfers rings treadle
      readyOrder tokens stash segs outcomeWaits seals ctxs attached coh peruo journal commit repairs fw s.sec spdm
      hartsStopped coreSlots sent fresh).Blown x₀ := hs

theorem State.Blown.ite {c : Prop} [Decidable c] {s t : State} (hs : s.Blown x₀) (ht : t.Blown x₀) :
    (if c then s else t).Blown x₀ := by
  split
  · exact hs
  · exact ht

theorem State.Blown.ite_fst {α : Type _} {c : Prop} [Decidable c] {p q : State × α} (hp : p.1.Blown x₀)
    (hq : q.1.Blown x₀) : (if c then p else q).1.Blown x₀ := by
  split
  · exact hp
  · exact hq

theorem State.Blown.ite_snd {α : Type _} {c : Prop} [Decidable c] {p q : α × State} (hp : p.2.Blown x₀)
    (hq : q.2.Blown x₀) : (if c then p else q).2.Blown x₀ := by
  split
  · exact hp
  · exact hq

theorem State.Blown.ite_third {α β : Type _} {c : Prop} [Decidable c] {p q : α × β × State} (hp : p.2.2.Blown x₀)
    (hq : q.2.2.Blown x₀) : (if c then p else q).2.2.Blown x₀ := by
  split
  · exact hp
  · exact hq

theorem State.Blown.foldl {α : Type} {f : State → α → State} {s : State} {l : List α} (hs : s.Blown x₀)
    (hf : ∀ t a, t.Blown x₀ → (f t a).Blown x₀) : (l.foldl f s).Blown x₀ :=
  foldl_keeps (·.Blown x₀) f l s hs hf

theorem State.Blown.foldl_fst {α β : Type _} {f : State × β → α → State × β} {p : State × β} {l : List α}
    (hp : p.1.Blown x₀) (hf : ∀ q a, q.1.Blown x₀ → (f q a).1.Blown x₀) : (l.foldl f p).1.Blown x₀ := by
  induction l generalizing p with
  | nil => exact hp
  | cons a r ih => exact ih (hf p a hp)

theorem Result.Blown.next {s : State} (hs : s.Blown x₀) : Result.Blown x₀ (.next s) := ⟨s, rfl, hs⟩

theorem Result.Blown.of_eq_next {r : Result} {t : State} (hr : Result.Blown x₀ r) (h : r = .next t) : t.Blown x₀ := by
  obtain ⟨u, hu, hblown⟩ := hr
  cases hu.symm.trans h
  exact hblown

theorem Result.Blown.ite {c : Prop} [Decidable c] {a b : Result} (ha : Result.Blown x₀ a) (hb : Result.Blown x₀ b) :
    Result.Blown x₀ (if c then a else b) := by
  split
  · exact ha
  · exact hb

theorem MaybeState.Blown.some {s : State} (hs : s.Blown x₀) : MaybeState.Blown x₀ (some s) := by
  rintro t ⟨rfl⟩
  exact hs

theorem MaybeState.Blown.none : MaybeState.Blown x₀ none := fun _ h => absurd h (by simp)

theorem MaybeState.Blown.ite {c : Prop} [Decidable c] {a b : Option State} (ha : MaybeState.Blown x₀ a)
    (hb : MaybeState.Blown x₀ b) : MaybeState.Blown x₀ (if c then a else b) := by
  split
  · exact ha
  · exact hb

theorem AdminAnswer.Blown.ok {x : State × Nat} (hx : x.1.Blown x₀) : AdminAnswer.Blown x₀ (.ok x) := by
  rintro y ⟨rfl⟩
  exact hx

theorem AdminAnswer.Blown.error {r : Nat} : AdminAnswer.Blown x₀ (.error r) := fun _ h => absurd h (by simp)

theorem AdminAnswer.Blown.ite {c : Prop} [Decidable c] {a b : Except Nat (State × Nat)} (ha : AdminAnswer.Blown x₀ a)
    (hb : AdminAnswer.Blown x₀ b) : AdminAnswer.Blown x₀ (if c then a else b) := by
  split
  · exact ha
  · exact hb

end Sys2Proof.Machine
end

section
/-!
PROOF. O6, the operations of state, memory, fabric and queues (R225 to R268, R292 to R297, R313 to R362).
-/

namespace Sys2Proof.Machine

open Sys2Proof

variable {x₀ : Sec} {s : State} {a agent line n : Nat} {r : Req} {q : BitVec 16} {d : Desc}

/-! ### Ops -/

theorem State.Blown.draw (hs : s.Blown x₀) : s.draw.2.Blown x₀ := by
  unfold State.draw
  exact hs.update

theorem State.Blown.count (hs : s.Blown x₀) {index sub : Nat} : (s.count index sub n).Blown x₀ := .ite hs hs.update

theorem State.Blown.clearCounters (hs : s.Blown x₀) {lo hi : Nat} : (s.clearCounters lo hi).Blown x₀ := hs.update

theorem State.Blown.withConf (hs : s.Blown x₀) {c : ConfPair} : (s.withConf c).Blown x₀ := hs.update

theorem State.Blown.underConf (hs : s.Blown x₀) {Outcm : Type u_1} {c : ConfPair} {f : State → State × Outcm}
    (hf : ∀ (t : State), t.Blown x₀ → (f t).1.Blown x₀) :
    (s.underConf c f).1.Blown x₀ := by
  unfold State.underConf
  exact (hf _ hs.withConf).withConf

theorem State.Blown.emit (hs : s.Blown x₀) {e : Emit} : (s.emit e).Blown x₀ := hs.update

theorem State.Blown.msix (hs : s.Blown x₀) {vector : Nat} : (s.msix vector).Blown x₀ :=
  .ite (.ite hs.update hs.emit.count) hs

theorem State.Blown.record (hs : s.Blown x₀) {ty : Nat} {flags : Byte} {body : List Byte} :
    (s.record ty flags body).Blown x₀ := .ite hs (State.Blown.ite hs.count hs).count.update.count.count

theorem State.Blown.event (hs : s.Blown x₀) {index sub source arg1 arg2 : Nat} :
    (s.event index sub source arg1 arg2).Blown x₀ := (State.Blown.ite hs.record hs).update.msix

theorem State.Blown.onCmd (hs : s.Blown x₀) {f : State → State × DapResult}
    (hf : ∀ (t : State), t.Blown x₀ → (f t).1.Blown x₀) :
    Result.Blown x₀ (s.onCmd f) :=
  .ite (.next (hf _ hs).update) (.next hs)

theorem State.Blown.setHost (hs : s.Blown x₀) {h : HostIf} : (s.setHost h).Blown x₀ := hs.update

/-! ### Space -/

theorem State.Blown.dropCopies (hs : s.Blown x₀) {lo hi : Nat} : (s.dropCopies lo hi).Blown x₀ :=
  hs.of_beside (dropCopies_beside ..)

theorem State.Blown.storePoison (hs : s.Blown x₀) {reason : Nat} : (s.storePoison line reason agent).Blown x₀ :=
  hs.of_beside (storePoison_beside ..)

theorem State.Blown.settleLines (hs : s.Blown x₀) {ls : List Nat} : (s.settleLines ls).Blown x₀ :=
  hs.of_beside (settleLines_beside ..)

theorem State.Blown.noteRead (hs : s.Blown x₀) : (s.noteRead a n).Blown x₀ := hs.of_beside (noteRead_beside ..)

theorem State.Blown.noteFrames (hs : s.Blown x₀) : (s.noteFrames a n).Blown x₀ := hs.of_beside (noteFrames_beside ..)

theorem State.Blown.omitFrame (hs : s.Blown x₀) {j : Nat} {o : TierObj} {off : Nat} :
    (s.omitFrame j o off).Blown x₀ :=
  hs.of_beside (omitFrame_beside ..)

/-! ### Fabric -/

theorem State.Blown.cohCount (hs : s.Blown x₀) {code : Nat} : (s.cohCount line code n).Blown x₀ :=
  hs.of_beside (cohCount_beside ..)

theorem State.Blown.setCoh (hs : s.Blown x₀) {c : Coh} : (s.setCoh c).Blown x₀ := hs.update

theorem State.Blown.putLine (hs : s.Blown x₀) {bytes : List Byte} {full : Bool} :
    (s.putLine line bytes full).Blown x₀ :=
  hs.of_beside (putLine_beside ..)

theorem State.Blown.poisonLine (hs : s.Blown x₀) {why : Nat} : (s.poisonLine line why a).Blown x₀ :=
  hs.of_beside (poisonLine_beside ..)

theorem State.Blown.answerPoison (hs : s.Blown x₀) : (s.answerPoison agent line).Blown x₀ :=
  hs.of_beside (answerPoison_beside ..)

theorem State.Blown.finishWb (hs : s.Blown x₀) : (s.finishWb r).Blown x₀ := hs.of_beside (finishWb_beside ..)

theorem State.Blown.openTxn (hs : s.Blown x₀) : (s.openTxn r).Blown x₀ := hs.of_beside (openTxn_beside ..)

theorem State.Blown.trapReq (hs : s.Blown x₀) : (s.trapReq r).Blown x₀ := hs.of_beside (trapReq_beside ..)

theorem State.Blown.beginAll (hs : s.Blown x₀) : s.beginAll.Blown x₀ := hs.of_beside (beginAll_beside ..)

theorem State.Blown.arrive (hs : s.Blown x₀) : (s.arrive r).Blown x₀ := hs.of_beside (arrive_beside ..)

theorem State.Blown.ask (hs : s.Blown x₀) : (s.ask r).Blown x₀ := hs.setCoh.arrive

theorem State.Blown.advance (hs : s.Blown x₀) {k : Nat} : (s.advance k).Blown x₀ := hs.of_beside (advance_beside ..)

theorem State.Blown.storedIn (hs : s.Blown x₀) {b : List Byte} : (s.storedIn agent line b).Blown x₀ := by
  unfold State.storedIn
  split
  · exact .ite hs.setCoh hs
  · exact hs

theorem State.Blown.snoopArrives (hs : s.Blown x₀) {x : Snoop} : (s.snoopArrives x).Blown x₀ :=
  hs.of_beside (snoopArrives_beside ..)

theorem State.Blown.answered (hs : s.Blown x₀) {host : Bool} :
    (s.answered host a line).Blown x₀ := hs.of_beside (answered_beside ..)

theorem State.Blown.farRuns (hs : s.Blown x₀) {f : FarOp} {l : CacheLine} : (s.farRuns f l).Blown x₀ :=
  hs.of_beside (farRuns_beside ..)

theorem State.Blown.grantArrives (hs : s.Blown x₀) {g : Option Moesi × Bool × Bool × Bool} :
    (s.grantArrives agent line g).Blown x₀ := by
  unfold State.grantArrives
  extract_lets s1
  have hs1 : s1.Blown x₀ := hs.setCoh
  split
  · exact hs1
  · exact hs1.setCoh.of_beside (settleFill_beside ..)

theorem State.Blown.dataArrives (hs : s.Blown x₀) {d : List Byte × Bool} :
    (s.dataArrives agent line d).Blown x₀ := by
  unfold State.dataArrives
  extract_lets s1
  have hs1 : s1.Blown x₀ := hs.setCoh
  split
  · exact .ite hs1.emit hs1
  · exact hs1.setCoh.of_beside (settleFill_beside ..)

theorem State.Blown.deliverMsg (hs : s.Blown x₀) {m : CohMsg} :
    (s.deliverMsg m).Blown x₀ := hs.of_beside (deliverMsg_beside ..)

theorem State.Blown.endDelay (hs : s.Blown x₀) {x : Snoop} : (s.endDelay x).Blown x₀ := hs.setCoh

theorem State.Blown.hostReturns (hs : s.Blown x₀) {x : Snoop} {data : Option (List Byte)} {keeps : Bool} :
    (s.hostReturns x data keeps).Blown x₀ := hs.of_beside (hostReturns_beside ..)

theorem State.Blown.drain (hs : s.Blown x₀) {lo hi : Nat} {host : Bool} : (s.drain lo hi host).Blown x₀ :=
  hs.of_beside (drain_beside ..)

theorem State.Blown.stallRead (hs : s.Blown x₀) : MaybeState.Blown x₀ (s.stallRead agent line) := by
  unfold State.stallRead
  extract_lets -underBinder +onlyGivenNames c away
  split
  · exact .none
  · refine .ite .none ?_
    extract_lets -underBinder +onlyGivenNames gone
    have hgone : gone.Blown x₀ := hs.cohCount
    refine .ite (.some hgone.setCoh.answerPoison) ?_
    split
    · exact .none
    · exact .ite .none (.ite (.some hgone.setCoh.answerPoison.advance)
          (.ite (.some hgone.setCoh.answerPoison.beginAll) .none))

/-! ### Memory -/

theorem State.Blown.recallLine (hs : s.Blown x₀) : (s.recallLine line).Blown x₀ := hs.of_beside (recallLine_beside ..)

theorem State.Blown.clearRange (hs : s.Blown x₀) : (s.clearRange a n).Blown x₀ := hs.of_beside (clearRange_beside ..)

theorem State.Blown.freshRange (hs : s.Blown x₀) : (s.freshRange a n).Blown x₀ := .ite hs hs.update

theorem State.Blown.storeBytes (hs : s.Blown x₀) {bs : List Byte} :
    (s.storeBytes a bs).Blown x₀ := hs.of_beside (storeBytes_beside ..)

theorem State.Blown.writeMem (hs : s.Blown x₀) {bs : List Byte} :
    (s.writeMem a bs).Blown x₀ := hs.of_beside (writeMem_beside ..)

theorem State.Blown.poisonRange (hs : s.Blown x₀) {reason : Nat} : (s.poisonRange a n reason agent).Blown x₀ :=
  hs.of_beside (poisonRange_beside ..)

/-! ### Queue -/

theorem State.Blown.setQueue (hs : s.Blown x₀) {c : QCtx} : (s.setQueue q c).Blown x₀ := hs.update

theorem State.Blown.issueFlush (hs : s.Blown x₀) : (s.issueFlush q).Blown x₀ := hs.of_beside (issueFlush_beside ..)

theorem State.Blown.putRecord (hs : s.Blown x₀) {r : CRec} {uncertain replayed : Bool} :
    (s.putRecord q r uncertain replayed).Blown x₀ := hs.of_beside (putRecord_beside ..)

theorem State.Blown.pump (hs : s.Blown x₀) : (s.pump q).Blown x₀ := hs.of_beside (pump_beside ..)

theorem State.Blown.complete (hs : s.Blown x₀) {n : BitVec 16} {o : Outcm} : (s.complete q n o).Blown x₀ :=
  hs.of_beside (complete_beside ..)

theorem State.Blown.finish (hs : s.Blown x₀) {o : Outcm} : (s.finish d o).Blown x₀ := hs.complete

theorem State.Blown.handOver (hs : s.Blown x₀) {e : Engine} :
    (s.handOver d e).Blown x₀ := hs.of_beside (handOver_beside ..)

theorem State.Blown.runNow (hs : s.Blown x₀) {op : Byte} {f : State → State × Outcm}
    (hf : ∀ (t : State), t.Blown x₀ → (f t).1.Blown x₀) :
    (s.runNow d op f).Blown x₀ :=
  (hf _ hs.handOver).finish

theorem State.Blown.onDesc (hs : s.Blown x₀) {op : Byte} {f : State → State}
    (hf : ∀ (t : State), t.Blown x₀ → (f t).Blown x₀)
    :
    Result.Blown x₀ (s.onDesc d op f) :=
  .ite (.next (hf _ hs)) (.next hs)

/-! ### Tensor -/

theorem State.Blown.writeRuns (hs : s.Blown x₀) {run : List Byte} {bs : List (Option Byte)} :
    (s.writeRuns a run bs).Blown x₀ := by
  induction bs generalizing s a run with
  | nil => exact hs.writeMem
  | cons b r ih =>
    cases b with
    | none => exact ih hs.writeMem
    | some b => exact ih hs

theorem State.Blown.writeSkeins (hs : s.Blown x₀) {p : OutPlane} {sk : SkeinOut} : (s.writeSkeins p sk).Blown x₀ :=
  (hs.foldl fun _ _ ht => ht.writeMem).foldl fun _ _ ht => .ite ht ht.writeRuns

theorem State.Blown.undefine (hs : s.Blown x₀) {l : List (Nat × Nat)} : (s.undefine l).Blown x₀ :=
  hs.foldl fun _ _ ht => ht.update.storeBytes

theorem State.Blown.setCtx (hs : s.Blown x₀) {c : Nat} {x : Ctx} : (s.setCtx c x).Blown x₀ := hs.update

theorem State.Blown.overflow (hs : s.Blown x₀) {nar sat : Nat} : (s.overflow q n nar sat).Blown x₀ := by
  unfold State.overflow
  refine .ite hs ?_
  split
  · exact hs
  · exact .ite hs.count
        (.ite hs.count.count.setCtx (.ite hs.count.count.setCtx (.ite hs.count.count.count hs.count.count.count)))

theorem State.Blown.countFmt (hs : s.Blown x₀) {c : FmtCounts} : (s.countFmt c).Blown x₀ :=
  hs.count.count.count.count.count.count.count

theorem State.Blown.countWatched (hs : s.Blown x₀) {c : FmtCounts} :
    (s.countWatched q n c).Blown x₀ := hs.countFmt.overflow

end Sys2Proof.Machine
end

section
/-!
PROOF. O6, the engines of a tensor die: creel, looms, vector engines and treadle (R61 to R135, R196 to R224).
-/

namespace Sys2Proof.Machine

open Sys2Proof

variable {x₀ : Sec} {s : State} {die e h l limit r : Nat} {p : Pick} {d : Desc}

/-! ### Creel -/

theorem State.Blown.setRing (hs : s.Blown x₀) {x : Ring} : (s.setRing die r x).Blown x₀ := hs.update

theorem State.Blown.setLoom (hs : s.Blown x₀) {x : Loom} : (s.setLoom die l x).Blown x₀ := hs.update

theorem State.Blown.freshLooms (hs : s.Blown x₀) : (s.freshLooms die).Blown x₀ :=
  hs.foldl fun _ _ ht => .ite ht.setLoom ht.update

theorem State.Blown.setVec (hs : s.Blown x₀) {x : List VecJob} : (s.setVec die e x).Blown x₀ := hs.update

theorem State.Blown.giveSlot (hs : s.Blown x₀) {c : Claim} {x : Drained} : (s.giveSlot die c x).Blown x₀ := by
  unfold State.giveSlot
  split
  · exact hs
  · split
    exacts [hs.setLoom, hs.setVec, hs]

theorem State.Blown.takeSlots (hs : s.Blown x₀) {fuel : Nat} : (s.takeSlots die r fuel).Blown x₀ := by
  induction fuel generalizing s with
  | zero => exact hs
  | succ k ih =>
    unfold State.takeSlots
    extract_lets g
    split
    · exact hs
    · exact .ite (ih hs.giveSlot.setRing) hs

theorem State.Blown.settleRing (hs : s.Blown x₀) : (s.settleRing die r).Blown x₀ := by
  unfold State.settleRing
  extract_lets s1 g
  have hs1 : s1.Blown x₀ := hs.takeSlots
  split
  · exact hs1
  · exact .ite hs1.setRing hs1

theorem State.Blown.settleDie (hs : s.Blown x₀) : (s.settleDie die).Blown x₀ := hs.foldl fun _ _ ht => ht.settleRing

theorem State.Blown.claimSlots (hs : s.Blown x₀) {q seq : BitVec 16} {n : Nat} :
    (s.claimSlots die r q seq n).Blown x₀ :=
  hs.setRing.settleRing

theorem State.Blown.releaseClaims (hs : s.Blown x₀) {q seq : BitVec 16} : (s.releaseClaims die q seq).Blown x₀ :=
  hs.foldl fun _ _ ht => ht.setRing.settleRing

theorem State.Blown.leaveHead (hs : s.Blown x₀) : (s.leaveHead die r).Blown x₀ := hs.setRing.settleRing

theorem State.Blown.emptyHead (hs : s.Blown x₀) : (s.emptyHead die r).Blown x₀ := .ite hs.leaveHead hs

theorem State.Blown.fillSlot (hs : s.Blown x₀) {k shuttle : Nat} {ok : Bool} :
    (s.fillSlot die r k shuttle ok).Blown x₀ :=
  .ite (State.Blown.ite hs hs.count).setRing.settleRing
      (.ite (State.Blown.ite hs hs.count).leaveHead (State.Blown.ite hs hs.count).setRing)

/-! ### Looms -/

theorem State.Blown.failChain (hs : s.Blown x₀) {o : Outcm} : (s.failChain die l o).Blown x₀ := by
  unfold State.failChain
  extract_lets m
  split
  · exact hs
  · exact .ite hs hs.setLoom.count

theorem State.Blown.endUnrun (hs : s.Blown x₀) {o : Outcm} : (s.endUnrun die l p o).Blown x₀ :=
  (State.Blown.ite (State.Blown.ite hs hs.failChain).setLoom (.ite hs hs.failChain)).complete

theorem State.Blown.endInTurn (hs : s.Blown x₀) {o : Outcm} : (s.endInTurn die l p o).Blown x₀ :=
  .ite hs.setLoom hs.endUnrun

theorem State.Blown.admitPick (hs : s.Blown x₀) :
    (s.admitPick die l p).Blown x₀ := .ite hs.setLoom hs.setLoom.claimSlots

theorem State.Blown.offerPick (hs : s.Blown x₀) : MaybeState.Blown x₀ (s.offerPick die l p) := by
  unfold State.offerPick
  extract_lets -underBinder +onlyGivenNames f m
  refine .ite .none ?_
  split
  · exact .none
  · exact .some hs.complete
  · split
    · extract_lets -underBinder +onlyGivenNames bad unfit
      refine .ite (.some hs.complete) ?_
      extract_lets -underBinder +onlyGivenNames s1
      have hs1 : s1.Blown x₀ := hs.setLoom
      split
      · exact .some hs1.endInTurn
      · refine .ite (.some hs1.endInTurn) ?_
        split
        · exact .some hs1.endInTurn
        · exact .some hs1.admitPick
    · exact .some hs.complete

theorem State.Blown.handPick (hs : s.Blown x₀) : (s.handPick die l p).Blown x₀ := by
  unfold State.handPick
  extract_lets m
  refine .ite hs.setLoom ?_
  split
  next t e =>
    have ht : t.Blown x₀ := hs.offerPick _ e
    exact ht
  · exact hs.setLoom

theorem State.Blown.dispatchPick (hs : s.Blown x₀) {op : Byte} {bwd : Bool} : (s.dispatchPick d op bwd).Blown x₀ := by
  unfold State.dispatchPick
  extract_lets f die target
  clear_value target
  split
  · exact hs
  · exact .ite hs (.ite hs.finish (.ite hs.finish hs.handOver.handPick))

theorem State.Blown.acceptWaiting (hs : s.Blown x₀) {cands : List Pick} : (s.acceptWaiting die l cands).Blown x₀ := by
  induction cands with
  | nil => exact hs
  | cons p r ih =>
    unfold State.acceptWaiting
    extract_lets m t
    have ht : t.Blown x₀ := hs.setLoom
    split
    next u e => exact ht.offerPick u e
    next => exact ih

theorem State.Blown.writeOutputs (hs : s.Blown x₀) {f : PickF} {oy : Opf} {nt : Nat} {merge : List (List MergeCell)} :
    (s.writeOutputs p f oy nt limit merge).1.Blown x₀ := by
  unfold State.writeOutputs
  exact .foldl_fst hs fun _ _ ht => ht.writeSkeins.countWatched

theorem State.Blown.runPick (hs : s.Blown x₀) : (s.runPick die l p).st.Blown x₀ := by
  unfold State.runPick
  extract_lets -underBinder +onlyGivenNames f m
  split
  · extract_lets -underBinder +onlyGivenNames t kTot ops passes k0 start scaleBad warps warpBad sizeBad fail
    have hfail : ∀ st row, (fail st row).st.Blown x₀ := fun _ _ => hs
    split
    · exact hfail _ _
    split
    · exact hfail _ _
    split
    · exact hfail _ _
    extract_lets -underBinder +onlyGivenNames merged warp bad
    split
    · exact hs.writeOutputs
    · exact hs
  · exact hs

theorem State.Blown.completePick (hs : s.Blown x₀) : (s.completePick die l).Blown x₀ := by
  unfold State.completePick
  extract_lets -underBinder +onlyGivenNames m
  split
  · exact hs
  · extract_lets -underBinder +onlyGivenNames prior
    refine .ite hs ?_
    extract_lets -underBinder +onlyGivenNames f run s1 s2 ran loads s3 s4 m1 chain s5 failed s6 s7 s8 s9
    have h1 : s1.Blown x₀ := by
      unfold s1 run
      clear_value prior
      split
      · exact hs
      · exact hs.runPick
    have h2 : s2.Blown x₀ := .ite h1.count h1
    have h3 : s3.Blown x₀ := .ite h2.count h2
    have h4 : s4.Blown x₀ := .ite h3.count h3
    have h6 : s6.Blown x₀ := .ite h4.setLoom.failChain h4.setLoom
    have h7 : s7.Blown x₀ := .ite h6.count h6
    have h8 : s8.Blown x₀ := .ite h7.releaseClaims h7
    exact h8.complete.settleDie

theorem State.Blown.dropChain (hs : s.Blown x₀) {q : BitVec 16} : (s.dropChain die l q).Blown x₀ := by
  unfold State.dropChain
  extract_lets m
  split
  · exact .ite hs.setLoom hs
  · exact hs

theorem State.Blown.execLoomSetMode (hs : s.Blown x₀) : Result.Blown x₀ (execLoomSetMode d s) :=
  hs.onDesc fun _ ht => .ite ht.finish
      (.ite ht.finish (.ite ht (.ite ht.finish (.ite ht (ht.runNow fun _ hu => hu.foldl fun _ _ hv => hv.setLoom)))))

/-! ### Cycles -/

theorem State.Blown.setHeddle (hs : s.Blown x₀) {x : List HeddleTile} : (s.setHeddle die h x).Blown x₀ := hs.update

theorem State.Blown.fillHeddle (hs : s.Blown x₀) : (s.fillHeddle die h).Blown x₀ := by
  unfold State.fillHeddle
  extract_lets looms held want r
  have hr : r.1.Blown x₀ := by
    unfold r
    split
    · exact hs
    · exact hs.setLoom.count
  exact hr.setHeddle

theorem State.Blown.storeGrant (hs : s.Blown x₀) {busy : Bool} : (s.storeGrant busy).2.Blown x₀ := by
  unfold State.storeGrant
  exact .ite_snd hs.draw hs

theorem State.Blown.emitHeddle (hs : s.Blown x₀) {rows : List (Nat × Bool × Pick)} :
    (s.emitHeddle die h rows).Blown x₀ :=
  hs.setHeddle

theorem State.Blown.tickLoom (hs : s.Blown x₀) {rows : List (Nat × Bool × Pick)} {busy : Bool} :
    (s.tickLoom die l rows busy).Blown x₀ := by
  unfold State.tickLoom
  extract_lets -underBinder +onlyGivenNames m n
  refine .ite hs.count ?_
  extract_lets -underBinder +onlyGivenNames given a b d g s1 m1 c s2 s3 s4
  have hgiven : ∀ weft (t : State) p, t.Blown x₀ → (given weft t p).2.Blown x₀ := by
    intro weft t p ht
    unfold given
    split
    · exact ht
    · exact .ite_snd ht ht.storeGrant
  have ha : a.2.Blown x₀ := hgiven _ _ _ hs
  have hb : b.2.Blown x₀ := hgiven _ _ _ ha
  have hd : d.2.Blown x₀ := hb.storeGrant
  have hs1 : s1.Blown x₀ := hd
  have hs2 : s2.Blown x₀ := by
    unfold s2
    clear_value c
    split
    exacts [hs1.count, hs1.count, hs1.count.count]
  have hs3 : s3.Blown x₀ := .ite hs2.count hs2
  have hs4 : s4.Blown x₀ := .ite hs3.count hs3
  exact hs4.setLoom

theorem State.Blown.tickHeddle (hs : s.Blown x₀) {busy : Bool} : (s.tickHeddle die h busy).Blown x₀ :=
  hs.fillHeddle.tickLoom.tickLoom.emitHeddle

/-! ### Vector -/

theorem State.Blown.vecWrite (hs : s.Blown x₀) {j : VecJob} {v : VecEnv} :
    (s.vecWrite die e j v limit).1.Blown x₀ := by
  unfold State.vecWrite
  split
  · exact hs
  · exact hs.writeSkeins.countWatched.count.count

theorem State.Blown.gatherWrite (hs : s.Blown x₀) {j : VecJob} {v : VecEnv} :
    (s.gatherWrite die e j v limit).1.Blown x₀ := by
  unfold State.gatherWrite
  split
  · exact hs
  · exact hs.writeSkeins.countWatched.count.count

theorem State.Blown.argmaxWrite (hs : s.Blown x₀) {v : VecEnv} : (s.argmaxWrite die e v limit).Blown x₀ :=
  (hs.foldl fun _ _ ht => .ite ht.writeMem.count ht.writeMem).count

theorem State.Blown.runVec (hs : s.Blown x₀) {j : VecJob} : (s.runVec die e j).1.Blown x₀ := by
  unfold State.runVec
  split
  · exact hs
  · extract_lets -underBinder +onlyGivenNames f
    refine .ite_fst hs ?_
    extract_lets -underBinder +onlyGivenNames v rows bad limit r r1
    have hr : r.1.Blown x₀ := by
      unfold r
      split
      exacts [hs.gatherWrite, hs.argmaxWrite, hs.vecWrite]
    have hr1 : r1.1.Blown x₀ := .ite_fst hr.undefine hr
    clear_value bad
    split <;> exact hr1

theorem State.Blown.dispatchVec (hs : s.Blown x₀) {o : VecOp} : (s.dispatchVec d o).Blown x₀ := by
  unfold State.dispatchVec
  extract_lets f die target
  clear_value target
  split
  · exact hs
  · refine .ite hs ?_
    extract_lets cfg
    refine .ite hs.finish (.ite hs.finish ?_)
    split
    · exact hs.finish
    · exact .ite hs (.ite hs.handOver.setVec hs.handOver.setVec.claimSlots)

theorem State.Blown.completeVec (hs : s.Blown x₀) : (s.completeVec die e).Blown x₀ := by
  unfold State.completeVec
  split
  · exact hs
  · exact .ite hs (State.Blown.ite hs.runVec.setVec.count.releaseClaims hs.runVec.setVec.count).complete.settleDie

/-! ### Treadle -/

theorem State.Blown.signalToken (hs : s.Blown x₀) {token mode : Nat} {inc : BitVec 32} :
    (s.signalToken die token mode inc).Blown x₀ := hs.update

theorem State.Blown.noteReady (hs : s.Blown x₀) : (s.noteReady die).Blown x₀ := hs.update

theorem State.Blown.grantHead (hs : s.Blown x₀) {q : Nat} : (s.grantHead die q).Blown x₀ := by
  unfold State.grantHead
  extract_lets k c
  split
  · exact hs
  · exact hs.setQueue.count.update

theorem State.Blown.grantTurn (hs : s.Blown x₀) : (s.grantTurn die).Blown x₀ := by
  unfold State.grantTurn
  extract_lets s1
  have hs1 : s1.Blown x₀ := hs.noteReady
  split
  · exact hs1
  · extract_lets s2
    have hs2 : s2.Blown x₀ := hs1.grantHead
    split
    · exact hs2
    · exact hs2.grantHead

theorem State.Blown.execTreadleBind (hs : s.Blown x₀) : Result.Blown x₀ (execTreadleBind d s) :=
  hs.onDesc fun _ ht => .ite ht.finish (ht.runNow fun _ hu => .ite_fst hu.update hu.update)

theorem State.Blown.execMbAdmit (hs : s.Blown x₀) : Result.Blown x₀ (execMbAdmit d s) := by
  unfold Sys2Proof.Machine.execMbAdmit
  refine hs.onDesc fun t ht => ?_
  split
  · exact ht.finish
  · exact .ite ht (ht.runNow fun _ hu => .ite hu.update.count hu.update)

end Sys2Proof.Machine
end

section
/-!
PROOF. O6, updates, temple, links and collectives (R144 to R195, R302 to R340, R364 to R372).
-/

namespace Sys2Proof.Machine

open Sys2Proof

variable {x₀ : Sec} {s : State} {a k n p t : Nat} {q : BitVec 16} {f : UpdF} {stall : Option Nat} {d : Desc} {op : Byte}
    {r : OutRec} {es : List ExpRec} {w : CollWait}

/-! ### Update -/

theorem State.Blown.putGroup (hs : s.Blown x₀) {gstep last : Nat} {inUpd : Bool} :
    (s.putGroup a gstep last inUpd).Blown x₀ := hs.writeMem

theorem State.Blown.putSum (hs : s.Blown x₀) {x : XV} : (s.putSum a x).Blown x₀ := by
  unfold State.putSum
  extract_lets b s1
  have hs1 : s1.Blown x₀ := by
    unfold s1
    split
    · exact hs.writeMem
    · exact hs
  exact hs1.writeMem

theorem State.Blown.orthoPicks (hs : s.Blown x₀) {die : Nat} : (s.orthoPicks die).Blown x₀ :=
  hs.foldl fun _ _ ht => ht.draw.draw.count.count

theorem State.Blown.runStat (hs : s.Blown x₀) {g : GroupRec} : (s.runStat q g f stall).1.Blown x₀ := by
  unfold State.runStat
  extract_lets -underBinder +onlyGivenNames v u
  split
  · exact hs
  · refine .ite_fst hs ?_
    extract_lets -underBinder +onlyGivenNames all mk mmk m mm sum nar g2 w2 u2 s1 s2 u1 s3 _ _ s4
    have hs1 : s1.Blown x₀ := hs.writeMem
    have hs2 : s2.Blown x₀ := hs1.putSum.putSum.putSum
    have hu1 : ∀ (t : State) a, t.Blown x₀ → (u1 t a).Blown x₀ := fun _ _ ht => ht.writeMem
    have hs3 : s3.Blown x₀ := hu1 _ _ (hu1 _ _ (hu1 _ _ hs2))
    have hs4 : s4.Blown x₀ := .ite hs3.writeSkeins.countFmt.orthoPicks hs3
    exact hs4.count

theorem State.Blown.writeBobbins (hs : s.Blown x₀) {v : UpdEnv} {sk : List ((Nat × Nat) × StSkein)} :
    (s.writeBobbins v sk).Blown x₀ := hs.foldl fun _ _ ht => ht.writeRuns

theorem State.Blown.runApply (hs : s.Blown x₀) {g : GroupRec} : (s.runApply q g f stall).1.Blown x₀ := by
  unfold State.runApply
  extract_lets v tr v1 all bad os low stop stop1 limit mk mmk within gram ort wk mW mmW done nar plane s1 s2 s3 s4
      cnt held masked s5 s6 s7 s8
  have hs1 : s1.Blown x₀ := .ite hs hs.writeSkeins
  have hs2 : s2.Blown x₀ := .ite hs1 hs1.writeBobbins
  have hs3 : s3.Blown x₀ := .ite hs2.writeSkeins hs2
  have hs4 : s4.Blown x₀ := .ite hs3.writeSkeins hs3
  have hs5 : s5.Blown x₀ := hs4.countFmt.count
  have hs6 : s6.Blown x₀ := .ite hs5 hs5.count.count
  have hs7 : s7.Blown x₀ := .ite hs6.count hs6
  have hs8 : s8.Blown x₀ := .ite hs7.count.orthoPicks hs7
  exact .ite_fst hs8 (.ite_fst hs8 (.ite_fst hs8 (.ite_fst hs8 (.ite_fst hs8.putGroup.count hs8.putGroup.count))))

theorem State.Blown.frozenEnd (hs : s.Blown x₀) {g : GroupRec} {real : Bool} :
    (s.frozenEnd g f real stall).1.Blown x₀ := by
  unfold State.frozenEnd
  split
  · exact .ite hs.putGroup hs
  · exact .ite hs.putGroup.count hs

theorem State.Blown.updSettle (hs : s.Blown x₀) {apply : Bool} {o : Outcome} :
    (s.updSettle q apply f o stall).1.Blown x₀ := by
  unfold State.updSettle
  extract_lets g real
  refine .ite_fst hs.noteRead (.ite_fst hs.count.count ?_)
  exact .ite_fst hs.count
      (.ite_fst (.ite hs.count hs)
      (.ite_fst (.ite_fst hs hs.frozenEnd) (.ite_fst hs.runStat (.ite_fst hs (.ite_fst hs hs.putGroup.runApply)))))

theorem State.Blown.updStart (hs : s.Blown x₀) : (s.updStart d op stall).Blown x₀ := by
  unfold State.updStart
  extract_lets f
  refine .ite hs ?_
  split
  · exact hs.runNow fun _ ht => ht.updSettle
  · exact .ite hs.finish hs.handOver.update

theorem State.Blown.dispatchUpd (hs : s.Blown x₀) : (s.dispatchUpd d op stall).Blown x₀ := by
  unfold State.dispatchUpd
  split
  · exact hs.finish
  · exact hs.updStart

theorem State.Blown.updResume (hs : s.Blown x₀) {w : OutcomeWait} : (s.updResume w stall).Blown x₀ := by
  unfold State.updResume
  extract_lets f drop
  have hdrop : ∀ (t : State), t.Blown x₀ → (drop t).Blown x₀ := fun _ ht => ht.update
  split
  · exact ((hdrop _ hs).underConf fun _ ht => ht.updSettle).complete
  · exact .ite (hdrop _ hs).complete hs

/-! ### Commit -/

theorem State.Blown.stepCommit (hs : s.Blown x₀) {stamps : Nat} : (s.stepCommit a stamps).1.Blown x₀ := by
  unfold State.stepCommit
  exact .ite_fst hs.update.count (.ite_fst hs hs.record.update.count)

theorem State.Blown.execStepCommit (hs : s.Blown x₀) {body stamps : BitVec 64} :
    Result.Blown x₀ (execStepCommit body stamps s) := hs.onCmd fun _ ht => ht.stepCommit

theorem State.Blown.groupRestore (hs : s.Blown x₀) {first count : Nat} :
    (s.groupRestore first count a).1.Blown x₀ := by
  unfold State.groupRestore
  refine .ite_fst hs.count ?_
  extract_lets why
  split
  · exact hs.update.count
  · exact (hs.foldl fun _ _ ht => ht.putGroup).record.count

theorem State.Blown.execGroupRestore (hs : s.Blown x₀) {first count : BitVec 32} {entries : BitVec 64} :
    Result.Blown x₀ (execGroupRestore first count entries s) := hs.onCmd fun _ ht => ht.groupRestore

theorem State.Blown.outcomeAdopt (hs : s.Blown x₀) {o : Outcome} : (s.outcomeAdopt o).1.Blown x₀ := by
  unfold State.outcomeAdopt
  split
  · exact .ite_fst hs.count hs
  · exact hs.update.count

theorem State.Blown.execOutcomeAdopt (hs : s.Blown x₀) {step : BitVec 64} {flag : Byte} {members : BitVec 32}
    {sum : BitVec 64} :
    Result.Blown x₀ (execOutcomeAdopt step flag members sum s) :=
  hs.onCmd fun _ ht => ht.outcomeAdopt

theorem State.Blown.commitRebase (hs : s.Blown x₀) : (s.commitRebase t).1.Blown x₀ := by
  unfold State.commitRebase
  exact .ite_fst hs hs.record.update

theorem State.Blown.execCommitRebase (hs : s.Blown x₀) {step : BitVec 64} :
    Result.Blown x₀ (execCommitRebase step s) :=
  hs.onCmd fun _ ht => ht.commitRebase

theorem State.Blown.boltNote (hs : s.Blown x₀) {step digest label : Nat} :
    (s.boltNote step digest label).1.Blown x₀ := by
  unfold State.boltNote
  exact .ite_fst hs hs.record.update

theorem State.Blown.execBoltNote (hs : s.Blown x₀) {step digest label : BitVec 64} :
    Result.Blown x₀ (execBoltNote step digest label s) := hs.onCmd fun _ ht => ht.boltNote

/-! ### Links -/

theorem State.Blown.setPeer (hs : s.Blown x₀) {x : PeerSt} : (s.setPeer p x).Blown x₀ := hs.update

theorem State.Blown.setLane (hs : s.Blown x₀) {x : Lane} : (s.setLane n x).Blown x₀ := hs.update

theorem State.Blown.drainLane (hs : s.Blown x₀) :
    (s.drainLane n).Blown x₀ := hs.setLane.count.foldl fun _ _ ht => ht.emit

theorem State.Blown.setEth (hs : s.Blown x₀) {x : EthPeer} : (s.setEth p x).Blown x₀ := hs.update

theorem State.Blown.sendPackets (hs : s.Blown x₀) {l : List (BitVec 32 × List Byte)} : (s.sendPackets p l).Blown x₀ :=
  hs.foldl fun _ _ ht => ht.emit

theorem State.Blown.drainEth (hs : s.Blown x₀) {x : EthPeer} : (s.drainEth p x).Blown x₀ := hs.setEth.sendPackets

theorem State.Blown.pushRec (hs : s.Blown x₀) {lane : Nat} {h : XHdr} : (s.pushRec lane h r).Blown x₀ :=
  .ite hs.emit.drainEth.count hs.emit.setLane.drainLane

theorem State.Blown.sendNow (hs : s.Blown x₀) {pod : Bool} {xtag : BitVec 12} :
    (s.sendNow p pod xtag t r).Blown x₀ := by
  unfold State.sendNow
  extract_lets pa
  split
  · exact hs
  · exact (State.Blown.ite hs.count hs).pushRec

theorem State.Blown.sendHello (hs : s.Blown x₀) : (s.sendHello p).Blown x₀ := hs.update.sendNow

theorem State.Blown.sendRec (hs : s.Blown x₀) {pod : Bool} {xtag : BitVec 12} : (s.sendRec p pod xtag t r).Blown x₀ :=
  .ite hs.sendNow (.ite hs.update hs.update.sendHello)

theorem State.Blown.releaseRecs (hs : s.Blown x₀) :
    (s.releaseRecs p).Blown x₀ := hs.update.foldl fun _ _ ht => ht.sendNow

theorem State.Blown.sendXact (hs : s.Blown x₀) {pod : Bool} {seq : BitVec 16} {kind off len : Nat} :
    (s.sendXact p pod q seq kind off len t r).Blown x₀ := hs.update.sendRec

/-! ### Alerts -/

theorem State.Blown.driveAlert (hs : s.Blown x₀) : s.driveAlert.Blown x₀ := (State.Blown.ite hs.count hs).update

theorem State.Blown.setAlert (hs : s.Blown x₀) {i : Nat} {on : Bool} :
    (s.setAlert i on).Blown x₀ := hs.update.driveAlert

/-! ### Temple -/

theorem State.Blown.openTrain (hs : s.Blown x₀) {tally hist : Nat} : (s.openTrain q k n t tally hist).1.Blown x₀ := by
  unfold State.openTrain
  exact .ite_fst (State.Blown.ite hs hs.noteRead).setCtx (State.Blown.ite hs hs.noteRead).setCtx.count

theorem State.Blown.execTempleOpen (hs : s.Blown x₀) : Result.Blown x₀ (execTempleOpen d s) :=
  hs.onDesc fun _ ht => .ite ht.finish
      (.ite (ht.runNow fun _ hu => hu.setCtx) (.ite ht.finish (.ite ht.finish (ht.runNow fun _ hu => hu.openTrain))))

theorem State.Blown.execTempleTally (hs : s.Blown x₀) : Result.Blown x₀ (execTempleTally d s) := by
  unfold Sys2Proof.Machine.execTempleTally
  refine hs.onDesc fun t ht => ?_
  extract_lets k l a c
  split
  · exact ht.finish
  · exact .ite ht.finish
        (.ite ht.finish (.ite ht.finish
        (.ite ht.finish (.ite ht.finish (.ite ht.finish (.ite ht (ht.runNow fun _ hu => hu.noteRead.writeMem)))))))

theorem State.Blown.trySeal (hs : s.Blown x₀) {w : SealWait} {body : BitVec 352} : (s.trySeal w body).Blown x₀ :=
  .ite hs (.ite hs.update.complete hs.update.setCtx.complete)

theorem State.Blown.execTempleSeal (hs : s.Blown x₀) : Result.Blown x₀ (execTempleSeal d s) := by
  unfold Sys2Proof.Machine.execTempleSeal
  split
  · exact .next (.ite hs.trySeal hs)
  · exact hs.onDesc fun _ ht => .ite ht.finish ht.handOver.update.trySeal

theorem State.Blown.latchAlarm (hs : s.Blown x₀) : (s.latchAlarm k).Blown x₀ := hs.setCtx.count.event.setAlert

theorem State.Blown.decideStep (hs : s.Blown x₀) {wide : Bool} {tally out : Nat} :
    (s.decideStep k wide tally out).1.Blown x₀ := by
  unfold State.decideStep
  extract_lets c t n sc limit narrowest after layers formats moves c' latch s1 s2 b s3 s4 s5 s6 s7 s8 s9 detail
  have hs1 : s1.Blown x₀ := .ite hs hs.noteRead
  have hs2 : s2.Blown x₀ := hs1.setCtx
  have hs3 : s3.Blown x₀ := hs2.writeMem.writeMem
  have hs4 : s4.Blown x₀ := .ite hs3.count hs3
  have hs5 : s5.Blown x₀ := hs4.count.count
  have hs6 : s6.Blown x₀ := hs5.count
  have hs7 : s7.Blown x₀ := hs6.count.count
  have hs8 : s8.Blown x₀ := hs7.count
  have hs9 : s9.Blown x₀ := .ite hs8.latchAlarm hs8
  exact hs9

theorem State.Blown.settleDecide (hs : s.Blown x₀) {body : BitVec 352} {o : Outcome} :
    (s.settleDecide body o).1.Blown x₀ := by
  unfold State.settleDecide
  exact .ite_fst hs (.ite_fst hs (.ite_fst hs.noteRead hs.decideStep))

theorem State.Blown.execTempleDecide (hs : s.Blown x₀) : Result.Blown x₀ (execTempleDecide d s) := by
  unfold Sys2Proof.Machine.execTempleDecide
  refine hs.onDesc fun t ht => ?_
  extract_lets k c t1 tally out n
  refine .ite ht.finish (.ite ht.finish ?_)
  split
  · exact .ite ht (ht.runNow fun _ hu => hu.settleDecide)
  · exact .ite ht.finish ht.handOver.update

theorem State.Blown.decideResume (hs : s.Blown x₀) {w : OutcomeWait} : (s.decideResume w).Blown x₀ := by
  unfold State.decideResume
  extract_lets t s'
  have hs' : s'.Blown x₀ := hs.update
  split
  · exact .ite hs (hs'.underConf fun _ ht => ht.settleDecide).complete
  · exact .ite hs'.complete hs

theorem State.Blown.execBarrierOutcomeHeld (hs : s.Blown x₀) {seq : BitVec 16} :
    Result.Blown x₀ (execBarrierOutcomeHeld q seq s) := by
  unfold Sys2Proof.Machine.execBarrierOutcomeHeld
  refine .ite (.next hs) ?_
  split
  · exact .next hs
  · exact .next (.ite hs.decideResume hs.updResume)

theorem State.Blown.execTempleCountersClear (hs : s.Blown x₀) {_value : Byte} :
    Result.Blown x₀ (execTempleCountersClear _value s) := hs.onCmd fun _ ht => ht.clearCounters

theorem State.Blown.clearAlarm (hs : s.Blown x₀) :
    (s.clearAlarm k).Blown x₀ := (State.Blown.ite hs.setCtx hs).setAlert

theorem State.Blown.templeAlarmClear (hs : s.Blown x₀) {v : Nat} : (s.templeAlarmClear v).1.Blown x₀ := by
  unfold State.templeAlarmClear
  exact .ite_fst hs hs.clearAlarm

theorem State.Blown.execTempleAlarmClear (hs : s.Blown x₀) {value : Byte} :
    Result.Blown x₀ (execTempleAlarmClear value s) := hs.onCmd fun _ ht => ht.templeAlarmClear

/-! ### Collectives -/

theorem State.Blown.putMsg (hs : s.Blown x₀) {m : CollMsg} : (s.putMsg m).Blown x₀ := hs.update

theorem State.Blown.dropMsgs (hs : s.Blown x₀) {g : Nat} {c : BitVec 32} : (s.dropMsgs g c).Blown x₀ := hs.update

theorem State.Blown.poisonResult (hs : s.Blown x₀) {ls : List Nat} : (s.poisonResult ls).Blown x₀ :=
  hs.foldl fun _ _ ht => ht.storePoison

theorem State.Blown.endAcc (hs : s.Blown x₀) {f : RedF} {cfg : NumCfg} {rank : Nat} :
    (s.endAcc f cfg n rank es).1.Blown x₀ := by
  unfold State.endAcc
  split
  · extract_lets -underBinder +onlyGivenNames h val bad s1 dstBad
    have hs1 : s1.Blown x₀ := by
      unfold s1
      split
      · exact .ite hs hs.writeSkeins.countFmt.poisonResult
      · exact hs
    exact hs1
  · exact hs

theorem State.Blown.endU64 (hs : s.Blown x₀) {f : RedF} : (s.endU64 f es).1.Blown x₀ := by
  unfold State.endU64
  exact .ite_fst hs hs.writeMem.poisonResult

theorem State.Blown.putAcc (hs : s.Blown x₀) {k : OutSkein} : (s.putAcc a k).Blown x₀ := by
  unfold State.putAcc
  extract_lets s1
  have hs1 : s1.Blown x₀ := by
    unfold s1
    split
    · exact hs.writeMem
    · exact hs
  exact hs1.writeMem

theorem State.Blown.endStat (hs : s.Blown x₀) {f : RedF} {rank : Nat} : (s.endStat f n rank es).1.Blown x₀ := by
  unfold State.endStat
  exact .ite_fst hs (hs.writeMem.foldl fun _ _ ht => ht.putAcc).poisonResult

theorem State.Blown.endGather (hs : s.Blown x₀) {f : GatF} : (s.endGather f n es).1.Blown x₀ := by
  unfold State.endGather
  exact (hs.foldl fun _ _ ht => ht.writeMem).poisonResult

theorem State.Blown.endBarrier (hs : s.Blown x₀) {f : BarF} {bs : List BarrierRec} :
    (s.endBarrier f bs).1.Blown x₀ := by
  unfold State.endBarrier
  exact .ite hs hs.update

theorem State.Blown.spoil (hs : s.Blown x₀) : (s.spoil a n).Blown x₀ := .ite hs.draw.writeMem hs

theorem State.Blown.spoilColl (hs : s.Blown x₀) : (s.spoilColl w).Blown x₀ := by
  unfold State.spoilColl
  split
  · exact hs
  · extract_lets n
    refine .ite ?_ (.ite hs.spoil hs)
    refine .ite hs.spoil (.ite hs.spoil ?_)
    split
    · exact (hs.foldl fun _ _ ht => ht.spoil).foldl fun _ _ ht => ht.spoil
    · exact hs

theorem State.Blown.endColl (hs : s.Blown x₀) {o : Outcm} : (s.endColl w o).Blown x₀ := hs.update.dropMsgs.complete

theorem State.Blown.applyColl (hs : s.Blown x₀) {rank : Nat} : (s.applyColl w n rank es).Blown x₀ := by
  unfold State.applyColl
  split
  · exact hs.endColl
  · split
    exacts [hs, hs.endColl,
      (State.Blown.ite_fst hs.endGather (.ite_fst hs.endU64 (.ite_fst hs.endStat hs.endAcc))).endColl]

theorem State.Blown.tellMembers (hs : s.Blown x₀) {g : PGroup} {step : Nat} : (s.tellMembers w g step r).Blown x₀ :=
  hs.foldl fun _ _ ht => ht.sendXact

theorem State.Blown.pumpData (hs : s.Blown x₀) {g : PGroup} : (s.pumpData w g).Blown x₀ := by
  unfold State.pumpData
  extract_lets -underBinder +onlyGivenNames gi c n
  refine .ite hs (.ite hs.endColl ?_)
  extract_lets -underBinder +onlyGivenNames own s1 es need
  have hs1 : s1.Blown x₀ := by
    unfold s1
    split
    · exact hs
    · exact hs.putMsg.tellMembers
  exact .ite hs1 hs1.applyColl

theorem State.Blown.pumpBarrier (hs : s.Blown x₀) {g : PGroup} : (s.pumpBarrier w g).Blown x₀ := by
  unfold State.pumpBarrier
  extract_lets -underBinder +onlyGivenNames gi c f own
  refine .ite hs.endColl ?_
  extract_lets -underBinder +onlyGivenNames s1 bs
  have hs1 : s1.Blown x₀ := by
    unfold s1
    split
    · exact hs.putMsg.tellMembers
    · exact hs
  exact .ite hs1 hs1.endBarrier.endColl

theorem State.Blown.pumpColl (hs : s.Blown x₀) : (s.pumpColl w).Blown x₀ := by
  unfold State.pumpColl
  extract_lets gi
  split
  · exact hs.endColl
  · refine .ite hs.endColl.count ?_
    split
    · exact (State.Blown.ite hs.spoilColl hs).endColl
    · exact .ite hs.pumpBarrier hs.pumpData

theorem State.Blown.pumpColls (hs : s.Blown x₀) : s.pumpColls.Blown x₀ := hs.foldl fun _ _ ht => .ite ht.pumpColl ht

theorem State.Blown.startColl (hs : s.Blown x₀) : (s.startColl d op).Blown x₀ := by
  unfold State.startColl
  extract_lets -underBinder +onlyGivenNames gi
  split
  · exact hs
  · extract_lets -underBinder +onlyGivenNames _ w s1 _ s2 _ s3 s4
    have hs1 : s1.Blown x₀ := hs.handOver.count
    have hs2 : s2.Blown x₀ := .ite hs1 hs1.update
    have hs3 : s3.Blown x₀ := hs2.update
    have hs4 : s4.Blown x₀ := .ite hs3 hs3.tellMembers
    exact hs4.pumpColl

theorem State.Blown.onColl (hs : s.Blown x₀) {ok : Nat → Bool} {empty : Bool} {mem : Nat → Nat → Option Outcm} :
    Result.Blown x₀ (s.onColl d op ok empty mem) := by
  unfold State.onColl
  split
  · exact .next (.ite hs.pumpColl hs)
  · refine hs.onDesc fun t ht => ?_
    split
    · exact ht.finish
    · extract_lets n
      refine .ite ht.finish ?_
      split
      · exact ht.finish
      · exact ht.startColl

theorem State.Blown.execPruGroup (hs : s.Blown x₀) : Result.Blown x₀ (execPruGroup d s) := by
  unfold Sys2Proof.Machine.execPruGroup
  refine hs.onDesc fun t ht => ?_
  extract_lets gi op pod n a known
  refine .ite ht.finish (.ite (.ite ht.finish (.ite ht (ht.runNow fun _ hu => hu.update))) ?_)
  exact .ite ht.finish (.ite ht.finish
      (.ite ht.finish (.ite ht.noteRead.finish (.ite ht.finish (ht.runNow fun _ hu => hu.noteRead.update)))))

end Sys2Proof.Machine
end

section
/-!
PROOF. O6, transfers, stash, aborts and the tiers (R136 to R140, R203 to R249, R296 to R300, R320).
-/

namespace Sys2Proof.Machine

open Sys2Proof

variable {x₀ : Sec} {s : State} {core die fuel j l n size : Nat} {q seq : BitVec 16} {o : TierObj} {d : Desc}
  {op st : Byte}
    {x : Xfer} {m : McastSend} {all two : Bool}

/-! ### Rings -/

theorem State.Blown.sqDoorbell (hs : s.Blown x₀) {w : BitVec 32} : (s.sqDoorbell q w).Blown x₀ :=
  .ite hs.count.count (.ite hs.count (.ite hs.count.setQueue hs.count.count))

theorem State.Blown.cqDoorbell (hs : s.Blown x₀) {w : BitVec 32} : (s.cqDoorbell q w).Blown x₀ :=
  .ite hs.count.count (.ite hs.count.setQueue.pump hs.count.count)

theorem State.Blown.accept (hs : s.Blown x₀) {b : List Byte} {p : Phase} :
    (s.accept q b p).Blown x₀ := hs.setQueue.count

theorem State.Blown.fetchReturn (hs : s.Blown x₀) {f : FetchData} : (s.fetchReturn q f).Blown x₀ := by
  unfold State.fetchReturn
  extract_lets c r b s1 seq crc seqOk crcOk
  have hs1 : s1.Blown x₀ := .ite hs hs.noteRead
  exact .ite hs1.accept.pump (.ite (State.Blown.ite hs1.count (.ite hs1.count hs1)).accept.pump hs1.setQueue)

theorem State.Blown.execSqDb (hs : s.Blown x₀) {width : Nat} {value : BitVec 32} :
    Result.Blown x₀ (execSqDb q width value s) := .ite (.next hs.sqDoorbell) (.next hs)

theorem State.Blown.execCqDb (hs : s.Blown x₀) {width : Nat} {value : BitVec 32} :
    Result.Blown x₀ (execCqDb q width value s) := .ite (.next hs.cqDoorbell) (.next hs)

theorem State.Blown.execFlushReadReturn (hs : s.Blown x₀) : Result.Blown x₀ (execFlushReadReturn q s) := by
  unfold Sys2Proof.Machine.execFlushReadReturn
  extract_lets c
  split
  · exact .next hs
  · exact .next hs.setQueue.count.pump

/-! ### Cores -/

theorem State.Blown.setCore (hs : s.Blown x₀) {c : CtrlCore} : (s.setCore die core c).Blown x₀ := hs.update

theorem State.Blown.endProgram (hs : s.Blown x₀) {o : Outcm} : (s.endProgram die core o).Blown x₀ :=
  .ite hs hs.setCore.complete

theorem State.Blown.execSeqLoad (hs : s.Blown x₀) : Result.Blown x₀ (execSeqLoad d s) :=
  hs.onDesc fun _ ht => .ite ht.finish
      (.ite ht.finish (.ite ht.finish (ht.runNow fun _ hu => .ite_fst hu.noteRead hu.noteRead.setCore)))

theorem State.Blown.execTiSubmit (hs : s.Blown x₀) {rd : BitVec 5} {rs1 rs2 : BitVec 64} :
    Result.Blown x₀ (execTiSubmit die core rd rs1 rs2 s) := by
  unfold Sys2Proof.Machine.execTiSubmit
  refine .ite (.next hs) ?_
  extract_lets c a q x refuse
  have hrefuse : Result.Blown x₀ refuse := .next hs.setCore
  refine .ite hrefuse ?_
  exact .ite (.next hs.endProgram)
      (.ite (.next hs.endProgram)
      (.ite (.next hs) (.ite (.next hs.endProgram) (.next hs.writeMem.sqDoorbell.count.setCore))))

theorem State.Blown.retireCore (hs : s.Blown x₀) : (s.retireCore die core).Blown x₀ := by
  unfold State.retireCore
  extract_lets was s1 c s2
  have hs1 : s1.Blown x₀ := hs.endProgram
  have hs2 : s2.Blown x₀ := hs1.setCore
  refine .ite hs2 ?_
  split
  · exact hs2
  · exact hs2.endProgram.setCore

/-! ### Atomics -/

theorem State.Blown.atomicAt (hs : s.Blown x₀) {a op width x compare : Nat} :
    (s.atomicAt a op width x compare).2.Blown x₀ := by
  unfold State.atomicAt
  exact hs.noteRead.writeMem

/-! ### Stash -/

theorem State.Blown.setStash (hs : s.Blown x₀) {x : Stash} : (s.setStash l x).Blown x₀ := hs.update

theorem State.Blown.latchFull (hs : s.Blown x₀) {st : Nat} : (s.latchFull l st).Blown x₀ := .ite hs hs.setStash.count

theorem State.Blown.placePut (hs : s.Blown x₀) {b : BitVec 352} {st : Nat} : (s.placePut l b st n).1.Blown x₀ := by
  unfold State.placePut
  extract_lets -underBinder +onlyGivenNames elig x
  refine .ite_fst hs.count ?_
  extract_lets -underBinder +onlyGivenNames s1 x1
  have hs1 : s1.Blown x₀ := by
    unfold s1
    split
    · exact .ite hs.setStash hs
    · exact hs
  split
  · exact hs1
  · extract_lets -underBinder +onlyGivenNames s2
    have hs2 : s2.Blown x₀ := hs1.latchFull
    refine .ite_fst hs2.count ?_
    extract_lets -underBinder +onlyGivenNames x2
    split
    · exact hs2
    · extract_lets -underBinder +onlyGivenNames x3 s3
      have hs3 : s3.Blown x₀ := hs2.setStash.count
      split <;> exact hs3

theorem State.Blown.chargePut (hs : s.Blown x₀) {b : BitVec 352} {st : Nat} {tier2 : Bool} :
    (s.chargePut l q seq b st n tier2).Blown x₀ := hs.setStash

theorem State.Blown.endPut (hs : s.Blown x₀) {bytes : Option (List Byte)} : (s.endPut l q seq bytes).Blown x₀ := by
  unfold State.endPut
  extract_lets x mine
  split
  · exact hs.setStash.count
  · exact hs.setStash

theorem State.Blown.getCount (hs : s.Blown x₀) {k : StashKey} {up release : Bool} :
    (s.getCount l k up release).Blown x₀ :=
  hs.setStash

theorem State.Blown.execStashDrop (hs : s.Blown x₀) : Result.Blown x₀ (execStashDrop d s) :=
  hs.onDesc fun _ ht => .ite ht.finish (.ite ht.setStash (ht.setStash.runNow fun _ hu => hu))

/-! ### Shuttles -/

theorem State.Blown.updXfer (hs : s.Blown x₀) {g : Xfer → Xfer} : (s.updXfer q seq g).Blown x₀ := hs.update

theorem State.Blown.failXfer (hs : s.Blown x₀) {off : Nat} : (s.failXfer q seq st off).Blown x₀ := hs.updXfer

theorem State.Blown.issueTodo (hs : s.Blown x₀) : (s.issueTodo q seq fuel).Blown x₀ := by
  induction fuel generalizing s with
  | zero => exact hs
  | succ k ih =>
    unfold State.issueTodo
    split
    · exact hs
    · split
      · exact hs
      · extract_lets rows
        split
        · exact hs
        · exact .ite hs.updXfer.failXfer (.ite hs (ih hs.updXfer.sendXact))

theorem State.Blown.issueReads (hs : s.Blown x₀) : (s.issueReads q seq).Blown x₀ := by
  unfold State.issueReads
  split
  · exact hs
  · extract_lets rows s1 todo reads s2 s3
    have hs1 : s1.Blown x₀ := by
      unfold s1
      split
      · split
        · exact hs.failXfer
        · exact hs
      · exact hs
    have hs2 : s2.Blown x₀ := hs1.updXfer
    have hs3 : s3.Blown x₀ := hs2.foldl fun _ _ ht => ht.emit
    exact hs3.issueTodo

theorem State.Blown.issueWrites (hs : s.Blown x₀) : (s.issueWrites q seq).Blown x₀ := by
  unfold State.issueWrites
  split
  · exact hs
  · refine .ite hs ?_
    extract_lets rows total stop cut s1 puts bus s2 s3
    have hs1 : s1.Blown x₀ := hs.updXfer
    have hs2 : s2.Blown x₀ := hs1.foldl fun _ _ ht => ht.emit
    have hs3 : s3.Blown x₀ := by
      unfold s3
      split
      · exact hs2.updXfer.emit
      · exact hs2
    exact hs3.updXfer.issueTodo

theorem State.Blown.issueSignal (hs : s.Blown x₀) : (s.issueSignal q seq).Blown x₀ := by
  unfold State.issueSignal
  split
  · exact hs
  · extract_lets -underBinder +onlyGivenNames f
    refine .ite hs ?_
    extract_lets -underBinder +onlyGivenNames p s1
    have hs1 : s1.Blown x₀ := hs.updXfer
    refine .ite hs1 ?_
    split
    · exact hs1.failXfer
    · exact hs1.sendXact

theorem State.Blown.drive (hs : s.Blown x₀) : (s.drive q seq).Blown x₀ := hs.issueTodo.issueWrites.issueSignal

theorem State.Blown.noteHold (hs : s.Blown x₀) : (s.noteHold x).Blown x₀ := .ite hs.updXfer.count hs

theorem State.Blown.readDeliveries (hs : s.Blown x₀) : (s.readDeliveries m fuel).1.Blown x₀ := by
  induction fuel generalizing s m with
  | zero => exact hs
  | succ k ih =>
    unfold State.readDeliveries
    exact .ite_fst (ih hs.noteRead) hs

theorem State.Blown.setSend (hs : s.Blown x₀) : (s.setSend m).Blown x₀ := hs.update

theorem State.Blown.releaseSend (hs : s.Blown x₀) {shuttle : Nat} : (s.releaseSend m shuttle fuel).1.Blown x₀ := by
  induction fuel generalizing s m with
  | zero => exact hs
  | succ k ih =>
    unfold State.releaseSend
    exact .ite_fst (ih hs.count.readDeliveries) hs.count.readDeliveries

theorem State.Blown.releaseHeld (hs : s.Blown x₀) {shuttle : Nat} : (s.releaseHeld m shuttle).Blown x₀ :=
  hs.releaseSend.setSend

theorem State.Blown.issueAtomic (hs : s.Blown x₀) : (s.issueAtomic x).Blown x₀ := by
  unfold State.issueAtomic
  extract_lets -underBinder +onlyGivenNames op width ref n bytes
  refine .ite hs.noteRead.failXfer ?_
  extract_lets -underBinder +onlyGivenNames s1
  have hs1 : s1.Blown x₀ := hs.noteRead
  split
  · exact .ite hs1.noteRead.failXfer (State.Blown.ite_snd hs1.atomicAt hs1.atomicAt).updXfer
  · extract_lets -underBinder +onlyGivenNames p
    split
    · exact hs1.failXfer
    · exact hs1.sendXact
  · exact hs1

theorem State.Blown.acceptXfer (hs : s.Blown x₀) : (s.acceptXfer q seq).Blown x₀ := by
  unfold State.acceptXfer
  split
  · exact hs
  · refine .ite hs ?_
    extract_lets -underBinder +onlyGivenNames s1
    have hs1 : s1.Blown x₀ := hs.noteHold
    refine .ite hs1 ?_
    extract_lets -underBinder +onlyGivenNames go c
    have hgo : ∀ (t : State), t.Blown x₀ → (go t).Blown x₀ := fun _ ht => ht.updXfer
    split
    · exact .ite hs1 (.ite (hgo _ hs1.setRing).updXfer.failXfer (hgo _ hs1.setRing).updXfer.issueReads.drive)
    · exact .ite (hgo _ hs1.update).releaseHeld (.ite (hgo _ hs1).issueAtomic (hgo _ hs1).issueReads.drive)

theorem State.Blown.countXfer (hs : s.Blown x₀) {rows : List XRow} : (s.countXfer x rows n).Blown x₀ := by
  unfold State.countXfer
  extract_lets k b path s1 shorts
  have hs1 : s1.Blown x₀ := hs.count.count.count
  clear_value path
  split
  exacts [hs1.count, hs1.count, hs1.count, hs1]

theorem State.Blown.retireXfer (hs : s.Blown x₀) {o : Outcm} : (s.retireXfer x o).Blown x₀ := by
  unfold State.retireXfer
  extract_lets s1 s2
  have hs1 : s1.Blown x₀ := hs.update
  have hs2 : s2.Blown x₀ := by
    unfold s2
    split
    · exact hs1.fillSlot
    · exact hs1
  exact hs2.complete

theorem State.Blown.moveCopy (hs : s.Blown x₀) : (s.moveCopy x).1.Blown x₀ := by
  unfold State.moveCopy
  extract_lets rows total stop shut fail limit data s1 s2 s3 l s4 s5
  have hs1 : s1.Blown x₀ := by
    refine hs.foldl fun t x ht => ?_
    split
    · exact .ite ht ht.noteRead
    · exact ht
  have hs2 : s2.Blown x₀ := by
    refine hs1.foldl fun t x ht => ?_
    split
    exacts [ht.writeMem, ht.foldl fun _ _ hu => hu.emit.count, ht]
  have hs3 : s3.Blown x₀ := by
    unfold s3
    clear_value stop
    split
    · exact .ite (hs2.foldl fun _ _ ht => ht.storePoison) hs2
    · exact hs2
  have hs4 : s4.Blown x₀ := .ite hs3.endPut (.ite hs3.getCount hs3)
  have hs5 : s5.Blown x₀ := .ite hs4.signalToken hs4
  exact hs5.countXfer

theorem State.Blown.endCopy (hs : s.Blown x₀) : (s.endCopy x).Blown x₀ := hs.moveCopy.retireXfer

theorem State.Blown.endAtEpoch (hs : s.Blown x₀) : (s.endAtEpoch x).Blown x₀ := hs.setHost.moveCopy.setHost.retireXfer

theorem State.Blown.endAtomic (hs : s.Blown x₀) : (s.endAtomic x).Blown x₀ := by
  unfold State.endAtomic
  extract_lets width
  split
  exacts [hs.retireXfer, .ite hs.retireXfer hs.writeMem.retireXfer, hs.retireXfer]

theorem State.Blown.endMcast (hs : s.Blown x₀) {o : Outcm} : (s.endMcast x m o).Blown x₀ := by
  unfold State.endMcast
  extract_lets s1 k s2 s3
  have hs1 : s1.Blown x₀ := hs.update
  have hs2 : s2.Blown x₀ := hs1.count.count
  have hs3 : s3.Blown x₀ := by
    unfold s3
    split
    exacts [hs2.count, hs2.count, hs2]
  exact hs3.retireXfer

theorem State.Blown.dropXacts (hs : s.Blown x₀) : (s.dropXacts q seq).Blown x₀ := hs.update

theorem State.Blown.endXfer (hs : s.Blown x₀) : (s.endXfer x).Blown x₀ := by
  unfold State.endXfer
  extract_lets s1
  have hs1 : s1.Blown x₀ := hs.dropXacts
  split
  · split
    · exact hs1.endMcast
    · exact hs1.retireXfer
  · exact hs1.endAtomic
  · exact hs1.endCopy

theorem State.Blown.completeXfer (hs : s.Blown x₀) : (s.completeXfer q seq).Blown x₀ := by
  unfold State.completeXfer
  split
  · exact hs
  · exact .ite hs.endXfer hs

theorem State.Blown.handXfer (hs : s.Blown x₀) {k : Nat} :
    (s.handXfer d op k).Blown x₀ := hs.handOver.update.acceptXfer

theorem State.Blown.dispatchCopy (hs : s.Blown x₀) : (s.dispatchCopy d op).Blown x₀ :=
  .ite hs.finish (.ite hs.finish (.ite hs.finish hs.handXfer))

theorem State.Blown.execShutMcast (hs : s.Blown x₀) : Result.Blown x₀ (execShutMcast d s) := by
  unfold Sys2Proof.Machine.execShutMcast
  refine hs.onDesc fun t ht => ?_
  extract_lets die bytes count stride
  split
  · exact .ite ht.finish (.ite ht.finish (.ite ht.finish ht.handXfer))
  · exact ht.finish

theorem State.Blown.deliver (hs : s.Blown x₀) {shuttle loom : Nat} : (s.deliver m shuttle die loom).Blown x₀ := by
  unfold State.deliver
  extract_lets x
  split
  · exact hs
  · extract_lets f
    refine .ite hs ?_
    split
    · exact hs
    · exact .ite hs hs.setLoom.setSend.releaseHeld

theorem State.Blown.execMcastDelivery (hs : s.Blown x₀) {loom : Nat} :
    Result.Blown x₀ (execMcastDelivery q seq die loom s) := by
  unfold Sys2Proof.Machine.execMcastDelivery
  split
  · exact .next hs
  · split
    · exact .ite (.next hs.deliver) (.next hs)
    · exact .next hs

theorem State.Blown.execMcastSet (hs : s.Blown x₀) : Result.Blown x₀ (execMcastSet d s) := by
  unfold Sys2Proof.Machine.execMcastSet
  refine hs.onDesc fun t ht => ?_
  exact .ite ht.finish (.ite ht.finish
      (.ite ht (ht.runNow fun _ hu => ((hu.foldl fun _ _ hv => hv.setLoom).foldl fun _ _ hv => hv.setLoom).update)))

theorem State.Blown.execShutLimit (hs : s.Blown x₀) : Result.Blown x₀ (execShutLimit d s) :=
  hs.onDesc fun _ ht => .ite ht.finish (.ite ht.finish (ht.runNow fun _ hu => hu.setQueue))

theorem State.Blown.actPut (hs : s.Blown x₀) : (s.actPut d).Blown x₀ := by
  unfold State.actPut
  extract_lets c n r
  have hr : r.1.Blown x₀ := hs.placePut
  split
  exacts [hr.runNow fun _ ht => ht, hr.chargePut.handXfer, hr.setStash.setQueue]

theorem State.Blown.execStashPut (hs : s.Blown x₀) : Result.Blown x₀ (execStashPut d s) :=
  hs.onDesc fun _ ht => .ite ht.finish
      (.ite ht (.ite ht.finish (.ite ht (.ite ht.finish (.ite ht.finish (.ite ht.finish (.ite ht ht.actPut)))))))

theorem State.Blown.execStashGet (hs : s.Blown x₀) : Result.Blown x₀ (execStashGet d s) := by
  unfold Sys2Proof.Machine.execStashGet
  refine hs.onDesc fun t ht => ?_
  extract_lets c n e sizeOff
  refine .ite ht.finish (.ite ht (.ite ht.finish (.ite ht.finish (.ite ht.finish ?_))))
  clear_value e
  split
  · exact ht.runNow fun _ hu => hu.count
  · exact ht.getCount.handXfer

theorem State.Blown.retryPuts (hs : s.Blown x₀) {ws : List StashWait} : (s.retryPuts l ws).Blown x₀ := by
  unfold State.retryPuts
  refine hs.foldl fun t x ht => ?_
  extract_lets x1 n gone
  have hgone : ∀ (t : State), t.Blown x₀ → (gone t).Blown x₀ := fun _ hu => hu.setStash
  refine .ite (hgone _ ht).complete ?_
  split
  · exact ht
  · exact (hgone _ ht).chargePut.handXfer

theorem State.Blown.peerReadEnds (hs : s.Blown x₀) {r : RemoteData} : (s.peerReadEnds q seq r).Blown x₀ := by
  unfold State.peerReadEnds
  split
  · exact hs
  · split
    · exact hs.updXfer.drive
    · exact .ite hs.updXfer hs

theorem State.Blown.execPeerTimeout (hs : s.Blown x₀) : Result.Blown x₀ (execPeerTimeout q seq s) := by
  unfold Sys2Proof.Machine.execPeerTimeout
  split
  · exact .next hs
  · exact .ite (.next hs) (.ite (.next hs.count.updXfer.failXfer) (.next hs.count.peerReadEnds))

/-! ### Aborts -/

theorem State.Blown.failPass (hs : s.Blown x₀) {bwd : Bool} {body : BitVec 352} {o : Outcm} :
    (s.failPass die l q bwd body o).Blown x₀ := by
  unfold State.failPass
  extract_lets f m
  refine .ite hs ?_
  split
  · exact .ite hs.setLoom.failChain.setLoom.settleDie hs.setLoom.failChain
  · exact hs

theorem State.Blown.cutPick (hs : s.Blown x₀) : (s.cutPick die l q seq st all).Blown x₀ := by
  unfold State.cutPick
  extract_lets m mine
  split
  · exact hs
  · exact .ite hs (.ite hs.setLoom.releaseClaims.endUnrun.settleDie
        hs.setLoom.releaseClaims.failPass.complete.settleDie)

theorem State.Blown.cutVec (hs : s.Blown x₀) {e : Nat} : (s.cutVec die e q seq st all).Blown x₀ := by
  unfold State.cutVec
  extract_lets mine
  split
  · exact hs
  · exact .ite hs hs.setVec.releaseClaims.complete.settleDie

theorem State.Blown.cutXfer (hs : s.Blown x₀) : (s.cutXfer x st).Blown x₀ := by
  unfold State.cutXfer
  split
  · split
    · exact hs.endMcast
    · exact hs.retireXfer
  · extract_lets rows total k moved off s1
    have hk : k.2.Blown x₀ := hs.draw
    have hs1 : s1.Blown x₀ := hk.failXfer
    split
    · exact .ite hs1.dropXacts.endAtEpoch hs1.endXfer
    · exact hs1

theorem State.Blown.cutShuttle (hs : s.Blown x₀) : (s.cutShuttle q seq st all).Blown x₀ := by
  unfold State.cutShuttle
  split
  · exact hs
  · exact .ite (State.Blown.ite hs.endPut (.ite hs.getCount hs)).retireXfer (.ite hs hs.cutXfer)

theorem State.Blown.dropWaits (hs : s.Blown x₀) :
    (s.dropWaits q seq).Blown x₀ := (State.Blown.ite hs.setStash hs).update

theorem State.Blown.cutOne (hs : s.Blown x₀) {f : Fetched} : (s.cutOne q st all f).Blown x₀ := by
  unfold State.cutOne
  extract_lets die o
  split
  · exact hs
  · exact (State.Blown.ite hs.failPass hs).dropWaits.complete
  · split
    · exact hs.cutPick
    · exact hs.cutVec
    · exact hs.cutShuttle
    · split
      · exact hs.endProgram
      · exact hs
    · split
      · exact (State.Blown.ite hs.spoilColl hs).endColl
      · exact hs.complete
    · exact .ite hs hs.dropWaits.complete
    · exact hs.dropWaits.complete

theorem State.Blown.cutPending (hs : s.Blown x₀) {f : Fetched} : (s.cutPending q f).Blown x₀ := by
  unfold State.cutPending
  split
  exacts [.ite hs hs.cutOne, hs, hs.cutOne]

theorem State.Blown.cutQueue (hs : s.Blown x₀) : (s.cutQueue q st all).Blown x₀ := hs.foldl fun _ _ ht => ht.cutOne

/-! ### Dies -/

theorem State.Blown.watchForecasts (hs : s.Blown x₀) {f : State → State}
    (hf : ∀ (t : State), t.Blown x₀ → (f t).Blown x₀) :
    (s.watchForecasts f).Blown x₀ := (hf _ hs).foldl fun _ _ ht => ht.event

theorem State.Blown.roleRecord (hs : s.Blown x₀) {kind a b : Nat} :
    (s.roleRecord kind a b).Blown x₀ := hs.record.update

theorem State.Blown.setDieState (hs : s.Blown x₀) {d st : Nat} : (s.setDieState d st).Blown x₀ :=
  hs.watchForecasts fun _ ht => ht.roleRecord.update.event

/-! ### Spindle -/

theorem State.Blown.countEncode (hs : s.Blown x₀) {opf : Byte} {rows cols : Nat} :
    (s.countEncode j size opf rows cols).Blown x₀ := hs.foldl fun _ _ ht => ht.count.count.count.count

theorem State.Blown.countDecode (hs : s.Blown x₀) {fs : List Nat} : (s.countDecode j o fs).Blown x₀ :=
  hs.foldl fun _ _ ht => ht.count.count

theorem State.Blown.countGranules (hs : s.Blown x₀) {w : Bool} : (s.countGranules size w).Blown x₀ :=
  hs.foldl fun _ _ ht => ht.count

/-! ### Tiers -/

theorem State.Blown.setObj (hs : s.Blown x₀) : (s.setObj j o).Blown x₀ := hs.update

theorem State.Blown.gatherObj (hs : s.Blown x₀) : (s.gatherObj j size).Blown x₀ := by
  unfold State.gatherObj
  extract_lets lo hi s1 ours s2
  have hs1 : s1.Blown x₀ := hs.drain
  have hs2 : s2.Blown x₀ := (hs1.foldl fun _ _ ht => ht.recallLine).dropCopies
  exact .ite hs2 (hs2.foldl fun _ _ ht => ht.storePoison).settleLines

theorem State.Blown.beginPromote (hs : s.Blown x₀) : (s.beginPromote j o).Blown x₀ := hs.gatherObj.setObj

theorem State.Blown.beginDemote (hs : s.Blown x₀) {byDevice : Bool} : (s.beginDemote j o byDevice).Blown x₀ :=
  hs.gatherObj.setObj

theorem State.Blown.restoreFrames (hs : s.Blown x₀) : (s.restoreFrames j o).Blown x₀ := hs.clearRange.update

theorem State.Blown.freeObj (hs : s.Blown x₀) : (s.freeObj j size).Blown x₀ := hs.clearRange.update

theorem State.Blown.tierAct (hs : s.Blown x₀) : (s.tierAct q seq op j).Blown x₀ := by
  unfold State.tierAct
  extract_lets x
  split
  · exact hs.complete
  · extract_lets wait
    split
    · split
      exacts [.ite hs.beginPromote hs.complete, .ite hs.setObj (.ite hs.setObj hs.complete), .ite hs.complete
        (.ite hs.setObj.complete hs.complete), hs.setObj]
    · split
      exacts [hs.complete, hs.setObj, .ite hs.complete (.ite hs.beginDemote hs.setObj.count.complete), .ite hs.setObj
        hs.complete]

theorem State.Blown.settleWaiters (hs : s.Blown x₀) {ws : List (BitVec 16 × BitVec 16 × Byte)} {out : Outcm} :
    (s.settleWaiters j ws op out).Blown x₀ := (hs.foldl fun _ _ ht => ht.complete).foldl fun _ _ ht => ht.tierAct

theorem State.Blown.unpinned (hs : s.Blown x₀) : (s.unpinned j).Blown x₀ := by
  unfold State.unpinned
  split
  · exact hs
  · exact .ite hs (.ite (hs.freeObj.foldl fun _ _ ht => ht.complete) (.ite hs.beginDemote hs))

theorem State.Blown.omitAll (hs : s.Blown x₀) :
    (s.omitAll j o).Blown x₀ := .ite hs (hs.foldl fun _ _ ht => ht.omitFrame)

theorem State.Blown.moveOver (hs : s.Blown x₀) : s.moveOver.Blown x₀ := hs.beginAll.foldl fun _ _ ht => ht.pump

theorem State.Blown.moveEnds (hs : s.Blown x₀) : (s.moveEnds j).Blown x₀ := by
  unfold State.moveEnds
  split
  · exact hs
  · refine .ite hs ?_
    split
    · exact hs.gatherObj.countDecode.countGranules.setObj.count.freshRange.settleWaiters.unpinned.moveOver
    · extract_lets s1 n s2 fits
      have hs1 : s1.Blown x₀ := hs.gatherObj.countGranules
      have hs2 : s2.Blown x₀ := hs1.countEncode
      split
      · exact hs2.omitAll.setObj.noteFrames.freshRange.count.settleWaiters.unpinned.moveOver
      · exact .ite hs2.restoreFrames.setObj.count.settleWaiters.unpinned.moveOver
            hs2.setObj.count.settleWaiters.moveOver
    · exact hs

theorem State.Blown.moveFails (hs : s.Blown x₀) : (s.moveFails j).Blown x₀ := by
  unfold State.moveFails
  extract_lets stall
  split
  · exact hs
  · split
    exacts [((hs.setObj.count.foldl fun _ _ ht => ht.complete).foldl fun _ _ ht => ht.complete).unpinned.moveOver,
      hs.setObj.count.settleWaiters.moveOver, hs]

theorem State.Blown.execTierFree (hs : s.Blown x₀) : Result.Blown x₀ (execTierFree d s) := by
  unfold Sys2Proof.Machine.execTierFree
  refine hs.onDesc fun t ht => ?_
  extract_lets j
  split
  · exact ht.finish
  · exact .ite ht.finish (ht.runNow fun _ hu => hu.freeObj)

theorem State.Blown.execTierRegister (hs : s.Blown x₀) : Result.Blown x₀ (execTierRegister d s) := by
  unfold Sys2Proof.Machine.execTierRegister
  refine hs.onDesc fun t ht => ?_
  extract_lets j kind opf rows cols x size
  clear_value size
  split
  · exact ht.finish
  · exact .ite ht.finish
        (.ite ht.finish (.ite ht (.ite ht.finish (ht.runNow fun _ hu => hu.setObj.clearRange.freshRange))))

theorem State.Blown.packFrom (hs : s.Blown x₀) {src : Nat} : (s.packFrom j src n).Blown x₀ :=
  hs.clearRange.storeBytes.noteFrames.freshRange.foldl fun _ _ ht => ht.storePoison

theorem State.Blown.execTierPack (hs : s.Blown x₀) : Result.Blown x₀ (execTierPack d s) := by
  unfold Sys2Proof.Machine.execTierPack
  refine hs.onDesc fun t ht => ?_
  extract_lets j x
  split
  · exact .ite ht.finish
        (.ite ht (.ite ht.finish
        (ht.runNow fun _ hu => .ite_fst hu.noteRead.packFrom.countEncode.setObj hu.noteRead.count)))
  · exact ht.finish

theorem State.Blown.execDemotionRetry (hs : s.Blown x₀) {obj : Nat} : Result.Blown x₀ (execDemotionRetry obj s) := by
  unfold Sys2Proof.Machine.execDemotionRetry
  split
  · exact .ite (.next hs.beginDemote) (.next hs)
  · exact .next hs

theorem State.Blown.stallDelivery (hs : s.Blown x₀) {i : Nat} : MaybeState.Blown x₀ (s.stallDelivery m i) :=
  .ite .none (.some hs.setSend)

theorem State.Blown.stallDesc (hs : s.Blown x₀) {element : Nat} :
    MaybeState.Blown x₀ (s.stallDesc q seq element) := by
  unfold State.stallDesc
  extract_lets stall
  split
  · exact .ite (.some hs.updResume) (.ite (.some hs.update.complete) .none)
  · split
    · exact .ite (.some hs.endColl) .none
    · split
      · exact .none
      · exact .ite .none (.ite (.some hs.dispatchUpd) (.ite (.some hs.handOver.finish) .none))

theorem State.Blown.stallMove (hs : s.Blown x₀) : MaybeState.Blown x₀ (s.stallMove j) := by
  unfold State.stallMove
  split
  · exact .ite (.some hs.moveFails) .none
  · exact .none

theorem State.Blown.stallXfer (hs : s.Blown x₀) {off : Nat} : MaybeState.Blown x₀ (s.stallXfer q seq off) := by
  unfold State.stallXfer
  split
  · exact .none
  · refine .ite .none ?_
    split
    · exact hs.stallDelivery
    · exact .some hs.failXfer

theorem State.Blown.execT2StallTimeoutExpiry (hs : s.Blown x₀) {issuer : T2Issuer} :
    Result.Blown x₀ (execT2StallTimeoutExpiry issuer s) := by
  unfold Sys2Proof.Machine.execT2StallTimeoutExpiry
  refine .ite (.next hs) ?_
  extract_lets stalled
  have hstalled : MaybeState.Blown x₀ stalled := by
    unfold stalled
    cases issuer
    · exact hs.stallXfer
    · exact hs.stallDesc
    · exact hs.stallMove
    · exact hs.stallRead
  refine .next ?_
  clear_value stalled
  cases stalled with
  | none => exact hs
  | some t => exact (hstalled t rfl).count

theorem State.Blown.grantLease (hs : s.Blown x₀) : s.grantLease.Blown x₀ := by
  unfold State.grantLease
  split
  · exact hs.count.update
  · exact (hs.clearRange.clearRange.freshRange.freshRange.foldl fun _ _ ht => ht.clearRange).count.update

theorem State.Blown.dropRegions (hs : s.Blown x₀) : (s.dropRegions n).Blown x₀ := hs.update

theorem State.Blown.freeLease (hs : s.Blown x₀) : (s.freeLease n).Blown x₀ :=
  (hs.dropRegions.foldl fun _ _ ht => ht.freeObj).update.clearRange.clearRange.update

theorem State.Blown.releaseLease (hs : s.Blown x₀) :
    (s.releaseLease n).Blown x₀ := (State.Blown.ite hs.freeLease hs).update

theorem State.Blown.execLeaseGrant (hs : s.Blown x₀) {_value : Byte} : Result.Blown x₀ (execLeaseGrant _value s) :=
  hs.onCmd fun _ ht => ht.grantLease

theorem State.Blown.execLeaseRelease (hs : s.Blown x₀) {lease : BitVec 16} :
    Result.Blown x₀ (execLeaseRelease lease s) :=
  hs.onCmd fun _ ht => ht.releaseLease

theorem State.Blown.revokeLease (hs : s.Blown x₀) : (s.revokeLease n).Blown x₀ := by
  unfold State.revokeLease
  extract_lets l s1 s2 qs s3 pinned owned s4 s5
  have hs1 : s1.Blown x₀ := hs.update
  have hs2 : s2.Blown x₀ := hs1.dropRegions.count.event
  have hs3 : s3.Blown x₀ := hs2.foldl fun _ _ ht => (ht.foldl fun _ _ hu => hu.cutPending).setQueue
  have hs4 : s4.Blown x₀ := hs3.update
  have hs5 : s5.Blown x₀ := hs4.foldl fun _ _ ht => ht.unpinned
  exact .ite hs5 hs5.freeLease

theorem State.Blown.fitStash (hs : s.Blown x₀) {tier2 : Bool} {quota : Nat} :
    (s.fitStash n tier2 quota fuel).Blown x₀ := by
  induction fuel generalizing s with
  | zero => exact hs
  | succ k ih =>
    unfold State.fitStash
    extract_lets x
    refine .ite hs ?_
    split
    · exact hs
    · exact ih hs.setStash

theorem State.Blown.setStashQuota (hs : s.Blown x₀) {v : Nat} : (s.setStashQuota n two v).Blown x₀ := hs.update

theorem State.Blown.cutStashQuota (hs : s.Blown x₀) : (s.cutStashQuota two n).Blown x₀ :=
  .ite hs hs.setStashQuota.count.event.fitStash

theorem State.Blown.cutLease (hs : s.Blown x₀) : (s.cutLease two n).Blown x₀ := .ite hs hs.revokeLease

theorem State.Blown.restoreTier (hs : s.Blown x₀) : (s.restoreTier two).Blown x₀ :=
  (hs.foldl fun _ _ ht => ht.cutStashQuota).foldl fun _ _ ht => ht.cutLease

theorem State.Blown.restoreLedger (hs : s.Blown x₀) : s.restoreLedger.Blown x₀ :=
  .ite hs (hs.restoreTier.restoreTier.foldl fun _ _ ht => ht.moveFails).update

theorem State.Blown.dropStashOn (hs : s.Blown x₀) : s.dropStashOn.Blown x₀ :=
  hs.foldl fun _ _ ht => ht.foldl fun _ _ hu => .ite hu.draw.setStash hu.draw

theorem State.Blown.retireHub (hs : s.Blown x₀) {k : Nat} : (s.retireHub k).Blown x₀ :=
  hs.setDieState.update.update.dropStashOn.update

theorem State.Blown.execTirCountersClear (hs : s.Blown x₀) {_value : Byte} :
    Result.Blown x₀ (execTirCountersClear _value s) := hs.onCmd fun _ ht => ht.clearCounters

end Sys2Proof.Machine
end

section
/-!
PROOF. O6, agents of the fabric, the host interface, the journal and the peers (R250 to R301, R303 to R335, R376 to
R422).
-/

namespace Sys2Proof.Machine

open Sys2Proof

variable {x₀ : Sec} {s : State} {a agent k line n p : Nat} {_value : Byte} {q : BitVec 16} {b : AdminBlock} {h : XHdr}

/-! ### Coherence -/

theorem State.Blown.coreAsks (hs : s.Blown x₀) {r : Req} : (s.coreAsks r).Blown x₀ := .ite hs.trapReq hs.ask

theorem State.Blown.execUpg (hs : s.Blown x₀) {x : ByteAt} : Result.Blown x₀ (execUpg agent x s) := by
  unfold Sys2Proof.Machine.execUpg
  split
  · exact .ite (.next hs.coreAsks) (.next hs)
  · exact .next hs

theorem State.Blown.evict (hs : s.Blown x₀) {l : CacheLine} {k : ReqKind} : (s.evict l k).Blown x₀ := hs.setCoh.arrive

theorem State.Blown.execWb (hs : s.Blown x₀) {x : StoredLine} : Result.Blown x₀ (execWb agent x s) := by
  unfold Sys2Proof.Machine.execWb
  refine .ite (.next hs) ?_
  extract_lets t
  have ht : t.Blown x₀ := hs.storedIn
  split
  · exact .ite (.next ht.evict) (.ite (.next ht.evict) (.next hs))
  · exact .next hs

theorem State.Blown.execCln (hs : s.Blown x₀) : Result.Blown x₀ (execCln agent line s) := by
  unfold Sys2Proof.Machine.execCln
  split
  · exact .ite (.next hs.evict) (.next hs)
  · exact .next hs

theorem State.Blown.snooped (hs : s.Blown x₀) {k : SnoopKind} {f : StoredLine} : (s.snooped k agent f).Blown x₀ := by
  unfold State.snooped
  split
  · exact hs
  · exact hs.storedIn.snoopArrives

theorem State.Blown.execLrSnoopDelayExpiry (hs : s.Blown x₀) :
    Result.Blown x₀ (execLrSnoopDelayExpiry agent line s) := by
  unfold Sys2Proof.Machine.execLrSnoopDelayExpiry
  split
  · exact .next hs
  · exact .next hs.endDelay

theorem State.Blown.deliverIf (hs : s.Blown x₀) {m : CohMsg} : (s.deliverIf m).Blown x₀ := .ite hs.deliverMsg hs

theorem State.Blown.execGrant (hs : s.Blown x₀) : Result.Blown x₀ (execGrant agent line s) := by
  unfold Sys2Proof.Machine.execGrant
  split
  · exact .next hs
  · exact .next hs.grantArrives

theorem State.Blown.execData (hs : s.Blown x₀) : Result.Blown x₀ (execData agent line s) := by
  unfold Sys2Proof.Machine.execData
  split
  · exact .next hs
  · exact .next hs.dataArrives

theorem State.Blown.execCxlCacheResponse (hs : s.Blown x₀) {hostData : Option (List Byte)} :
    Result.Blown x₀ (execCxlCacheResponse line hostData s) := by
  unfold Sys2Proof.Machine.execCxlCacheResponse
  split
  · exact .next hs
  · refine .ite (.next hs) ?_
    split
    · exact .next hs.putLine.setCoh.advance
    · exact .next hs.setCoh.advance

theorem State.Blown.hostSnoops (hs : s.Blown x₀) {k : ReqKind} : (s.hostSnoops k line).Blown x₀ :=
  .ite hs.drain.count.count.emit (.ite hs.drain.count hs.drain.count.openTxn.advance)

theorem State.Blown.execBirsp (hs : s.Blown x₀) {hostData : Option (List Byte)} {keeps : Bool} :
    Result.Blown x₀ (execBirsp line hostData keeps s) := by
  unfold Sys2Proof.Machine.execBirsp
  split
  · exact .next hs
  · exact .next hs.hostReturns

theorem State.Blown.saveFromSharer (hs : s.Blown x₀) {sh : List Nat} : (s.saveFromSharer line sh).Blown x₀ := by
  unfold State.saveFromSharer
  extract_lets held s1
  have hs1 : s1.Blown x₀ := by
    unfold s1
    split
    · exact hs.putLine
    · exact hs
  exact hs1.setCoh

theorem State.Blown.settleEntry (hs : s.Blown x₀) {why : Nat} : (s.settleEntry line a why).Blown x₀ :=
  .ite (.ite hs.saveFromSharer (.ite (State.Blown.ite hs.count hs).setCoh hs.poisonLine)) (.ite hs.setCoh hs)

theorem State.Blown.sinkAnswers (hs : s.Blown x₀) : (s.sinkAnswers a).Blown x₀ := hs.foldl fun _ _ ht => ht.deliverIf

theorem State.Blown.dropTxnsOf (hs : s.Blown x₀) : (s.dropTxnsOf a).Blown x₀ :=
  hs.foldl fun _ _ ht => .ite ht.setCoh.beginAll ht.setCoh.advance

theorem State.Blown.dropWaitsOf (hs : s.Blown x₀) :
    (s.dropWaitsOf a).Blown x₀ := hs.update.foldl fun _ _ ht => ht.finishWb

theorem State.Blown.unwaitAgent (hs : s.Blown x₀) : (s.unwaitAgent a).Blown x₀ := hs.foldl fun _ _ ht => ht.answered

theorem State.Blown.reclaim (hs : s.Blown x₀) : (s.reclaim a).Blown x₀ :=
  (hs.sinkAnswers.dropWaitsOf.foldl fun _ _ ht => .ite ht.cohCount.settleEntry.cohCount
      ht.cohCount.settleEntry).dropTxnsOf.setCoh.unwaitAgent.beginAll

theorem State.Blown.privTimeout (hs : s.Blown x₀) : (s.privTimeout line).Blown x₀ := by
  unfold State.privTimeout
  split
  · exact hs
  · split
    · exact hs
    · exact hs.cohCount.settleEntry.setCoh.answered

theorem State.Blown.purgeLines (hs : s.Blown x₀) {p : Nat → Bool} : (s.purgeLines p).Blown x₀ :=
  (hs.setCoh.foldl fun _ _ ht => ht.cohCount.answerPoison).foldl fun _ _ ht => ht.cohCount.setCoh

theorem State.Blown.purgeHub (hs : s.Blown x₀) {before : List Nat} : (s.purgeHub before k).Blown x₀ :=
  hs.purgeLines.beginAll

theorem State.Blown.settleHost (hs : s.Blown x₀) : s.settleHost.Blown x₀ :=
  (hs.foldl fun _ _ ht => .ite ht.settleEntry.count
      ht.settleEntry).count.purgeLines.dropWaitsOf.dropTxnsOf.setCoh.unwaitAgent.beginAll

theorem State.Blown.probeDir (hs : s.Blown x₀) {v : Nat} : (s.probeDir v).Blown x₀ := hs.update

theorem State.Blown.execDirProbeAddr (hs : s.Blown x₀) {value : BitVec 64} :
    Result.Blown x₀ (execDirProbeAddr value s) :=
  hs.onCmd fun _ ht => ht.probeDir

theorem State.Blown.execCohCountersClear (hs : s.Blown x₀) : Result.Blown x₀ (execCohCountersClear _value s) :=
  hs.onCmd fun _ ht => ht.clearCounters

/-! ### Host -/

theorem State.Blown.readPieces (hs : s.Blown x₀) {ps : List (Nat × Nat × Option Nat)} :
    (s.readPieces ps).1.Blown x₀ := by
  unfold State.readPieces
  refine .foldl_fst hs fun r p hr => ?_
  split
  · exact hr
  · exact hr.noteRead

theorem State.Blown.inboundWrite (hs : s.Blown x₀) {d : List (Option Byte)} {poison : Bool} :
    (s.inboundWrite a d poison).Blown x₀ := by
  unfold State.inboundWrite
  refine .ite hs (.ite hs.poisonRange (.ite hs.writeMem ?_))
  refine hs.foldl fun t x ht => ?_
  split
  · exact ht.writeMem
  · exact ht

theorem State.Blown.barStore (hs : s.Blown x₀) {ps : List (Nat × Nat × Option Nat)} {data : List Byte} {poison : Bool} :
    (s.barStore ps data poison).Blown x₀ := by
  unfold State.barStore
  refine hs.foldl fun t x ht => ?_
  split
  · exact ht.inboundWrite
  · exact ht

theorem State.Blown.execMemwr (hs : s.Blown x₀) {offset : Nat} {mask : BitVec 64} {data : List Byte} {poison : Bool} :
    Result.Blown x₀ (execMemwr offset mask data poison s) := by
  unfold Sys2Proof.Machine.execMemwr
  refine .ite (.next hs) ?_
  extract_lets ps
  refine .ite (.next hs) ?_
  refine .next ?_
  refine .emit ?_
  refine hs.foldl fun t x ht => ?_
  split
  · exact ht.inboundWrite
  · exact ht.count

theorem State.Blown.execConfigurationRequest (hs : s.Blown x₀) {r : CfgRequest} :
    Result.Blown x₀ (execConfigurationRequest r s) := by
  unfold Sys2Proof.Machine.execConfigurationRequest
  refine .ite (.next (.ite hs hs.emit)) ?_
  split
  · exact .next hs.emit
  · exact .next (State.Blown.ite hs.setHost hs).emit

theorem State.Blown.cutHostEnds (hs : s.Blown x₀) : (s.cutHostEnds q).Blown x₀ := hs.foldl fun _ _ ht => ht.cutOne

theorem State.Blown.orphan (hs : s.Blown x₀) : (s.orphan q).Blown x₀ := .ite hs hs.setQueue.count

theorem State.Blown.hostLeaves (hs : s.Blown x₀) {st : AttachState} : (s.hostLeaves st).Blown x₀ :=
  (hs.update.count.event.settleHost.foldl fun _ _ ht => ht.orphan).foldl fun _ _ ht => ht.cutHostEnds

theorem State.Blown.perstCounts (hs : s.Blown x₀) {lowNs : Nat} : (perstCounts s lowNs).2.Blown x₀ := by
  unfold Sys2Proof.Machine.perstCounts
  exact .ite_snd hs (.ite_snd hs hs.draw)

theorem State.Blown.epochChange (hs : s.Blown x₀) {c : EpochCause} : (s.epochChange c).Blown x₀ := by
  unfold State.epochChange
  refine .ite hs ?_
  extract_lets down
  have hdown : ∀ (t : State), t.Blown x₀ → (down t).Blown x₀ := fun _ ht => ht.setHost
  split
  exacts [.ite (hdown _ hs.perstCounts.count.hostLeaves).setHost hs.perstCounts, .ite (hdown _ hs.hostLeaves) hs,
    .ite (hdown _ hs.hostLeaves) hs, .ite hs.hostLeaves hs]

theorem State.Blown.setAdmin (hs : s.Blown x₀) {a : Admin} : (s.setAdmin b a).Blown x₀ := hs.setHost

theorem State.Blown.adminEnd (hs : s.Blown x₀) {result value : Nat} :
    (s.adminEnd b result value).Blown x₀ := hs.setAdmin

theorem State.Blown.onAdmin (hs : s.Blown x₀) {f : State → Admin → Except Nat (State × Nat)}
    (hf : ∀ (t : State) a, t.Blown x₀ → AdminAnswer.Blown x₀ (f t a)) :
    Result.Blown x₀ (s.onAdmin b f) := by
  unfold State.onAdmin
  refine .ite (.next hs) ?_
  split
  next => exact .next hs.adminEnd
  next x e => exact .next (hf _ _ hs x e).adminEnd

theorem State.Blown.createQueue (hs : s.Blown x₀) {a : Admin} : AdminAnswer.Blown x₀ (s.createQueue b a) := by
  unfold State.createQueue
  extract_lets l depth fieldsOk
  refine .ite .error (.ite .error (.ite .error (.ite .error ?_)))
  split
  · exact .error
  · refine .ite .error ?_
    split
    · exact .error
    · exact .ok hs.setQueue

theorem State.Blown.execCreate (hs : s.Blown x₀) : Result.Blown x₀ (execCreate b s) :=
  hs.onAdmin fun _ _ ht => ht.createQueue

theorem State.Blown.destroyQueue (hs : s.Blown x₀) {a : Admin} : AdminAnswer.Blown x₀ (s.destroyQueue b a) := by
  unfold State.destroyQueue
  extract_lets q c s1 s2 s3
  have hs1 : s1.Blown x₀ := hs.foldl fun _ _ ht => ht.dropChain
  clear_value s1
  have hs2 : s2.Blown x₀ := hs1.update
  have hs3 : s3.Blown x₀ := .ite hs2.freeLease hs2
  refine .ite .error (.ite (.ok hs) (.ite .error ?_))
  exact .ok hs3

theorem State.Blown.execDestroy (hs : s.Blown x₀) : Result.Blown x₀ (execDestroy b s) :=
  hs.onAdmin fun _ _ ht => ht.destroyQueue

theorem State.Blown.replay (hs : s.Blown x₀) {held : List CRec} {uncertain : Nat} :
    (s.replay q held uncertain).Blown x₀ :=
  hs.foldl fun _ _ ht => ht.putRecord

theorem State.Blown.reattachQueue (hs : s.Blown x₀) {a : Admin} : AdminAnswer.Blown x₀ (s.reattachQueue b a) := by
  unfold State.reattachQueue
  extract_lets q c sq cq
  refine .ite .error (.ite .error (.ite .error ?_))
  split
  · exact .error
  · exact .ok (State.Blown.ite hs.setQueue.replay.issueFlush hs.setQueue.replay).pump

theorem State.Blown.execReattach (hs : s.Blown x₀) : Result.Blown x₀ (execReattach b s) :=
  hs.onAdmin fun _ _ ht => ht.reattachQueue

theorem State.Blown.attachHost (hs : s.Blown x₀) {a : Admin} : AdminAnswer.Blown x₀ (s.attachHost a) :=
  .ite .error (.ite .error (.ok hs.setHost))

theorem State.Blown.execAttach (hs : s.Blown x₀) : Result.Blown x₀ (execAttach b s) :=
  hs.onAdmin fun _ _ ht => ht.attachHost

theorem State.Blown.registerRegion (hs : s.Blown x₀) {a : Admin} : AdminAnswer.Blown x₀ (s.registerRegion b a) := by
  unfold State.registerRegion
  extract_lets l r t n bad
  refine .ite .error (.ite .error (.ite .error (.ite .error (.ite .error ?_))))
  split
  · exact .error
  · exact .ok hs.setHost

theorem State.Blown.execRegionRegister (hs : s.Blown x₀) : Result.Blown x₀ (execRegionRegister b s) :=
  hs.onAdmin fun _ _ ht => ht.registerRegion

theorem State.Blown.releaseRegion (hs : s.Blown x₀) {a : Admin} : AdminAnswer.Blown x₀ (s.releaseRegion b a) :=
  .ite .error (.ite .error (.ite .error (.ok hs.setHost)))

theorem State.Blown.execRegionRelease (hs : s.Blown x₀) : Result.Blown x₀ (execRegionRelease b s) :=
  hs.onAdmin fun _ _ ht => ht.releaseRegion

theorem State.Blown.execBadCommand (hs : s.Blown x₀) {code : Byte} : Result.Blown x₀ (execBadCommand b code s) :=
  .ite (.next hs) (hs.onAdmin fun _ _ _ => .error)

theorem State.Blown.adminWrite (hs : s.Blown x₀) {code : Byte} : Result.Blown x₀ (s.adminWrite b code) := by
  unfold State.adminWrite
  split
  exacts [hs.execCreate, hs.execDestroy, hs.execReattach, hs.execAttach, hs.execRegionRegister, hs.execRegionRelease,
    hs.execBadCommand]

theorem State.Blown.abortQueue (hs : s.Blown x₀) : (s.abortQueue q).Blown x₀ :=
  .ite hs (.ite hs.cutQueue hs.cutQueue.setQueue.pump)

theorem State.Blown.execQueueAbort (hs : s.Blown x₀) : Result.Blown x₀ (execQueueAbort q s) :=
  hs.onCmd fun _ ht => ht.abortQueue

theorem State.Blown.execHstCountersClear (hs : s.Blown x₀) : Result.Blown x₀ (execHstCountersClear _value s) :=
  hs.onCmd fun _ ht => ht.clearCounters

/-! ### Trust -/

/-- Fuses are only blown: a counter rises to the larger of what is asked and what it reads. -/
theorem getD_le_getD_set_max (l : List Nat) (i v k : Nat) : l.getD k 0 ≤ (l.set i (max v (l.getD i 0))).getD k 0 := by
  rcases eq_or_ne i k with rfl | hne
  · by_cases hlt : i < l.length
    · simp [hlt]
    · simp [Nat.not_lt.1 hlt]
  · simp [List.getD_eq_getElem?_getD, List.getElem?_set_ne hne]

theorem State.Blown.blowTo (hs : s.Blown x₀) {i v : Nat} : (s.blowTo i v).Blown x₀ := by
  unfold State.blowTo
  extract_lets up f0 f1 n
  have hup : ∀ (c : Nat) (l : List Nat) (j : Nat), l.getD j 0 ≤ (up c l).getD j 0 := by
    intro c l j
    unfold up
    split
    · exact getD_le_getD_set_max l i v j
    · exact le_rfl
  refine State.Blown.count fun j => ?_
  obtain ⟨h₀, h₁⟩ := hs j
  exact ⟨h₀.trans (hup 0 _ j), h₁.trans (hup 1 _ j)⟩

theorem State.Blown.topUp (hs : s.Blown x₀) : s.topUp.Blown x₀ := hs.foldl fun _ _ ht => ht.blowTo

theorem State.Blown.rom (hs : s.Blown x₀) {recorded : Nat} : (s.rom recorded).1.Blown x₀ := by
  unfold State.rom
  extract_lets s1 copies pick reject
  have hs1 : s1.Blown x₀ := hs.topUp
  have hreject : ∀ (t : State) n, t.Blown x₀ → (reject t n).Blown x₀ := fun _ _ ht => ht.count
  clear_value s1 pick reject
  split
  · exact hreject _ _ hs1
  · refine .ite_fst hs1 ?_
    extract_lets s2
    have hs2 : s2.Blown x₀ := .ite hs1 (hreject _ _ hs1)
    exact hs2.of_fuses rfl rfl

theorem State.Blown.keepValue (hs : s.Blown x₀) {index sub : Nat} {v : List Byte} :
    (s.keepValue index sub v).Blown x₀ :=
  hs.record

theorem State.Blown.setKey (hs : s.Blown x₀) {owner : Bool} {key : List Byte} :
    (s.setKey owner key).Blown x₀ := by
  unfold State.setKey
  extract_lets -underBinder +onlyGivenNames old new
  refine State.Blown.count (hs.of_fuses ?_ ?_) <;> cases owner <;> rfl

theorem State.Blown.endSessions (hs : s.Blown x₀) {p : Session → Bool} : (s.endSessions p).Blown x₀ := hs.update

theorem State.Blown.endKeySessions (hs : s.Blown x₀) {owner : Bool} : (s.endKeySessions owner).Blown x₀ :=
  hs.endSessions.count

theorem State.Blown.writeKey (hs : s.Blown x₀) {owner : Bool} {key : List Byte} :
    (s.writeKey owner key).1.Blown x₀ := by
  unfold State.writeKey
  split
  · exact hs.setKey.endKeySessions
  · exact hs

theorem State.Blown.ownerRelease (hs : s.Blown x₀) {value : Byte} :
    (s.ownerRelease value).1.Blown x₀ := by
  unfold State.ownerRelease
  refine .ite_fst hs ?_
  extract_lets s1 w s2
  have hs2 : s2.Blown x₀ := hs.blowTo.keepValue.keepValue.keepValue
  exact State.Blown.endSessions (p := fun _ => true) (hs2.of_fuses rfl rfl)

theorem State.Blown.execOwnerRelease (hs : s.Blown x₀) {value : Byte} : Result.Blown x₀ (execOwnerRelease value s) :=
  hs.onCmd fun _ ht => ht.ownerRelease

/-! ### Firmware -/

theorem State.Blown.fwImage (hs : s.Blown x₀) {offset : Nat} {last : Bool} {b : List Byte} :
    (s.fwImage offset last b).1.Blown x₀ := by
  unfold State.fwImage
  split
  · exact hs
  · exact hs.update

theorem State.Blown.fwRecord (hs : s.Blown x₀) {what v : Nat} : (s.fwRecord what a v).Blown x₀ := hs.record

theorem State.Blown.setCheck (hs : s.Blown x₀) {c : Nat} : (s.setCheck c).Blown x₀ := hs.of_fuses rfl rfl

theorem State.Blown.fwInstall (hs : s.Blown x₀) : s.fwInstall.1.Blown x₀ := by
  unfold State.fwInstall
  exact .ite_fst hs.setCheck.count (.ite_fst hs.setCheck hs.update.setCheck.fwRecord)

theorem State.Blown.execFwInstall (hs : s.Blown x₀) : Result.Blown x₀ (execFwInstall _value s) :=
  hs.onCmd fun _ ht => ht.fwInstall

theorem State.Blown.switchover (hs : s.Blown x₀) : s.switchover.Blown x₀ := by
  unfold State.switchover
  split
  · exact hs.setDieState.setDieState
  · exact hs

theorem State.Blown.loadDie (hs : s.Blown x₀) {d : Nat} : (s.loadDie k d).Blown x₀ := hs.update.fwRecord

theorem State.Blown.moveDies (hs : s.Blown x₀) {l : List Nat} : (s.moveDies k l).Blown x₀ :=
  hs.foldl fun _ _ ht => ht.loadDie.count

theorem State.Blown.remeasure (hs : s.Blown x₀) : (s.remeasure k).Blown x₀ := hs.rom

theorem State.Blown.burnSvn (hs : s.Blown x₀) {svn : Nat} : (s.burnSvn svn).Blown x₀ :=
  .ite hs hs.update.fwRecord.blowTo.event

theorem State.Blown.rollBack (hs : s.Blown x₀) {f : Nat} {moved : List Nat} : (s.rollBack k f moved).Blown x₀ := by
  unfold State.rollBack
  extract_lets m s1 s2 s3
  have hs1 : s1.Blown x₀ := hs.foldl fun _ _ ht => ht.loadDie
  have hs2 : s2.Blown x₀ := .ite hs1 hs1.remeasure
  have hs3 : s3.Blown x₀ := .ite hs2 hs2.switchover
  exact hs3.event

theorem State.Blown.fwActivate (hs : s.Blown x₀) {failing : Option Nat} : (s.fwActivate failing).1.Blown x₀ := by
  unfold State.fwActivate
  extract_lets -underBinder +onlyGivenNames old k
  split
  · exact hs.setCheck
  · refine .ite_fst hs.setCheck (.ite_fst hs ?_)
    extract_lets -underBinder +onlyGivenNames mg order moved s1 s2 s3
    have hs1 : s1.Blown x₀ := hs.moveDies
    have hs2 : s2.Blown x₀ := .ite hs1.switchover hs1
    have hs3 : s3.Blown x₀ := .ite hs2.remeasure hs2
    exact .ite_fst hs3.rollBack hs3.update.burnSvn

theorem State.Blown.execFwActivate (hs : s.Blown x₀) {failing : Option Nat} :
    Result.Blown x₀ (execFwActivate _value failing s) := hs.onCmd fun _ ht => ht.fwActivate

/-! ### Journal -/

theorem State.Blown.failNand (hs : s.Blown x₀) : (s.failNand k).Blown x₀ := .ite hs hs.update.setDieState

theorem State.Blown.checkNands (hs : s.Blown x₀) : s.checkNands.Blown x₀ := hs.foldl fun _ _ ht => .ite ht.failNand ht

theorem State.Blown.lifetimeRecord (hs : s.Blown x₀) : s.lifetimeRecord.Blown x₀ := hs.record

theorem State.Blown.execWearLevelRelocation (hs : s.Blown x₀) {die : Nat} :
    Result.Blown x₀ (execWearLevelRelocation die s) := by
  unfold Sys2Proof.Machine.execWearLevelRelocation
  refine .ite (.next hs) ?_
  extract_lets n
  split
  · exact .next hs
  · exact .next hs.record.update.count

/-! ### Peers -/

theorem State.Blown.failXact (hs : s.Blown x₀) {x : Xact} {st : Byte} : (s.failXact x st).Blown x₀ := by
  unfold State.failXact
  refine .ite hs ?_
  extract_lets _ s1
  have hs1 : s1.Blown x₀ := hs.update
  split
  · exact hs1.failXfer
  · exact hs1.complete

theorem State.Blown.failPeer (hs : s.Blown x₀) {st : Byte} : (s.failPeer p st).Blown x₀ :=
  (hs.update.foldl fun _ _ ht => ht.failXact).pumpColls

theorem State.Blown.markLost (hs : s.Blown x₀) : (s.markLost p).Blown x₀ := hs.setPeer.count.failPeer

theorem State.Blown.declareLost (hs : s.Blown x₀) : (s.declareLost p).Blown x₀ :=
  .ite (hs.setPeer.foldl fun _ _ ht => ht.sendNow).markLost hs

theorem State.Blown.noteStranger (hs : s.Blown x₀) {t : Nat} : (s.noteStranger h t).Blown x₀ := .ite hs.count hs

theorem State.Blown.respond (hs : s.Blown x₀) {t : Nat} {pod : Bool} {r : OutRec} : (s.respond h t pod r).Blown x₀ :=
  hs.sendNow

theorem State.Blown.onRecord (hs : s.Blown x₀) {t : Nat} {pod : Bool} {f : State → State}
    (hf : ∀ (t : State), t.Blown x₀ → (f t).Blown x₀) :
    Result.Blown x₀ (s.onRecord h t pod f) := by
  unfold State.onRecord
  refine .ite (.next hs) ?_
  split
  exacts [.next hs.noteStranger, .next hs.count.respond, .next (hf _ hs)]

theorem State.Blown.execPut (hs : s.Blown x₀) {r : PutRec} : Result.Blown x₀ (execPut h r s) := by
  unfold Sys2Proof.Machine.execPut
  refine hs.onRecord fun t ht => ?_
  split
  · exact ht.respond
  · split
    exacts [ht, ht.respond, ht.writeMem.poisonResult.respond]

theorem State.Blown.cacheAtomic (hs : s.Blown x₀) {src : Nat} {tag : BitVec 12} {r : OutRec} :
    (s.cacheAtomic src tag r).Blown x₀ := hs.update

theorem State.Blown.execAtom (hs : s.Blown x₀) {r : AtomRec} : Result.Blown x₀ (execAtom h r s) := by
  unfold Sys2Proof.Machine.execAtom
  refine hs.onRecord fun t ht => ?_
  extract_lets refuse
  have hrefuse : ∀ (t : State) st, t.Blown x₀ → (refuse t st).Blown x₀ := fun _ _ hu => hu.respond
  split
  · exact ht.count.respond
  · refine .ite (hrefuse _ _ ht) (.ite (hrefuse _ _ ht) ?_)
    split
    exacts [ht, hrefuse _ _ ht, .ite (hrefuse _ _ ht.noteRead)
      (State.Blown.ite_snd ht.atomicAt ht.atomicAt).cacheAtomic.respond]

theorem State.Blown.refuseColl (hs : s.Blown x₀) {x : Xact} {st : Byte} {detail : BitVec 32} :
    (s.refuseColl x st detail).Blown x₀ := by
  unfold State.refuseColl
  split
  · exact hs.endColl
  · exact hs

theorem State.Blown.takeRsp (hs : s.Blown x₀) {x : Xact} {r : RspRec} : (s.takeRsp x r).Blown x₀ := by
  unfold State.takeRsp
  refine .ite (.ite hs hs.refuseColl) ?_
  extract_lets _ s1
  have hs1 : s1.Blown x₀ := hs.update
  split
  · exact hs1.complete
  · exact (State.Blown.ite hs1.failXfer (.ite hs1.updXfer (.ite hs1.updXfer hs1))).drive

theorem State.Blown.execRsp (hs : s.Blown x₀) {r : RspRec} : Result.Blown x₀ (execRsp h r s) := by
  unfold Sys2Proof.Machine.execRsp
  extract_lets t
  refine .ite (.next hs) (.ite (.next hs.noteStranger) ?_)
  split
  · exact .next hs
  · exact .next hs.takeRsp

theorem State.Blown.pumpGroup (hs : s.Blown x₀) {g : Nat} : (s.pumpGroup g).Blown x₀ :=
  hs.foldl fun _ _ ht => .ite ht.pumpColl ht

theorem State.Blown.takeHello (hs : s.Blown x₀) {r : HelloRec} : (s.takeHello p r).Blown x₀ :=
  .ite (State.Blown.ite hs.update hs.sendNow).setPeer.event.failPeer
      (State.Blown.ite hs.update hs.sendNow).releaseRecs

theorem State.Blown.exclude (hs : s.Blown x₀) :
    s.exclude.Blown x₀ := hs.setPeer.pumpColls.foldl fun _ _ ht => ht.failPeer

theorem State.Blown.execPeerDown (hs : s.Blown x₀) {lost : Nat} {view : BitVec 32} :
    Result.Blown x₀ (execPeerDown h lost view s) :=
  .ite (.next hs) (.ite (.next hs.count)
      (.ite (.next hs) (.ite (.next hs.exclude) (.ite (.next hs.markLost) (.next hs)))))

theorem State.Blown.execPruAtomic (hs : s.Blown x₀) {d : Desc} : Result.Blown x₀ (execPruAtomic d s) :=
  hs.onDesc fun _ ht => .ite ht.finish (.ite ht.finish (.ite ht.finish (.ite ht ht.handXfer)))

theorem State.Blown.execPruSignal (hs : s.Blown x₀) {d : Desc} : Result.Blown x₀ (execPruSignal d s) := by
  unfold Sys2Proof.Machine.execPruSignal
  refine hs.onDesc fun t ht => ?_
  extract_lets scope peer die mode token inc p t1
  refine .ite ht.finish (.ite ht (.ite (ht.runNow fun _ hu => hu.signalToken) ?_))
  split
  · exact ht.finish
  · exact .ite ht ht.handOver.sendXact

theorem State.Blown.execPruRegion (hs : s.Blown x₀) {d : Desc} : Result.Blown x₀ (execPruRegion d s) := by
  unfold Sys2Proof.Machine.execPruRegion
  refine hs.onDesc fun t ht => ?_
  exact .ite ht.finish (.ite (.ite ht.finish (ht.runNow fun _ hu => hu.update))
      (.ite ht.finish (.ite ht.finish (.ite ht.finish (ht.runNow fun _ hu => hu.update)))))

/-! ### Lanes -/

theorem State.Blown.moveRecs (hs : s.Blown x₀) : (s.moveRecs n).Blown x₀ := by
  unfold State.moveRecs
  extract_lets x s1
  have hs1 : s1.Blown x₀ := hs.setLane
  refine hs1.foldl fun t x ht => ?_
  extract_lets pa
  split
  · exact ht
  · exact ht.pushRec

theorem State.Blown.loseUnreachable (hs : s.Blown x₀) : s.loseUnreachable.Blown x₀ :=
  hs.foldl fun _ _ ht => .ite ht.declareLost ht

theorem State.Blown.setLaneRole (hs : s.Blown x₀) {x : Lane} : (s.setLaneRole n x).Blown x₀ :=
  hs.watchForecasts fun _ ht => ht.roleRecord.setLane.event

theorem State.Blown.useSpare (hs : s.Blown x₀) : s.useSpare.Blown x₀ := hs.update

theorem State.Blown.failLane (hs : s.Blown x₀) : (s.failLane n).Blown x₀ := by
  unfold State.failLane
  extract_lets -underBinder +onlyGivenNames x served
  refine .ite hs ?_
  extract_lets -underBinder +onlyGivenNames carried s1 s2 s3
  have hs1 : s1.Blown x₀ := hs.setLaneRole.count
  have hs2 : s2.Blown x₀ := .ite hs1.useSpare hs1
  have hs3 : s3.Blown x₀ := by
    refine .ite hs2 ?_
    split
    · exact hs2
    · exact (State.Blown.ite hs2.useSpare hs2).setLaneRole.count
  exact hs3.moveRecs.loseUnreachable

theorem State.Blown.forceRetrain (hs : s.Blown x₀) : (s.forceRetrain n).Blown x₀ :=
  .ite hs.setLane.count.failLane hs.setLane.count

theorem State.Blown.laneUp (hs : s.Blown x₀) : (s.laneUp n).Blown x₀ := by
  unfold State.laneUp
  extract_lets x eth s1 s2 s3
  have hs1 : s1.Blown x₀ := hs.setLane
  have hs2 : s2.Blown x₀ := by
    unfold s2
    split
    · exact hs1.emit
    · exact hs1
  have hs3 : s3.Blown x₀ := .ite hs2 hs2.drainLane
  split
  · split
    · exact (State.Blown.ite hs3.update hs3).sendHello
    · exact hs3
  · exact hs3

theorem State.Blown.execLaneMarker (hs : s.Blown x₀) {lane pod linkDie laneNo : Nat} {credits : List Nat} :
    Result.Blown x₀ (execLaneMarker lane pod linkDie laneNo credits s) :=
  .ite (.next hs) (.ite (.next hs.setLane.event.moveRecs.loseUnreachable)
      (.ite (.next hs.setLane.drainLane) (.next hs)))

theorem State.Blown.askReplay (hs : s.Blown x₀) : (s.askReplay n).Blown x₀ := .ite hs hs.setLane.emit

theorem State.Blown.dropBlock (hs : s.Blown x₀) : (s.dropBlock n).Blown x₀ :=
  .ite hs.setLane.count.failLane hs.setLane.count.askReplay

theorem State.Blown.takeNak (hs : s.Blown x₀) {a : BitVec 12} : (s.takeNak n a).Blown x₀ := by
  unfold State.takeNak
  extract_lets y
  split
  · exact hs.setLane
  · exact .ite hs.setLane.count.forceRetrain hs.setLane.count.emit

theorem State.Blown.countFlit (hs : s.Blown x₀) {die : Nat} {f : Flit} : (s.countFlit die f).Blown x₀ := by
  unfold State.countFlit
  split
  exacts [hs, hs, hs.count.count, hs.count.count]

theorem State.Blown.takeHeader (hs : s.Blown x₀) {f : Flit} : (s.takeHeader n f).Blown x₀ :=
  .ite hs.setLane.takeNak hs.setLane.setLane

theorem State.Blown.takeFlit (hs : s.Blown x₀) {f : Flit} : (s.takeFlit n f).Blown x₀ := by
  unfold State.takeFlit
  extract_lets s1 x
  have hs1 : s1.Blown x₀ := hs.takeHeader
  split
  exacts [hs1, hs1.askReplay, .ite hs1.setLane.countFlit (.ite hs1.askReplay hs1)]

theorem State.Blown.execFlitReceive (hs : s.Blown x₀) {lane : Nat} {b : Block} :
    Result.Blown x₀ (execFlitReceive lane b s) := by
  unfold Sys2Proof.Machine.execFlitReceive
  refine .ite (.next hs) ?_
  exact .ite (.next hs.count.dropBlock)
      (.ite (.next hs.count.count.dropBlock)
      (.ite (.next hs.count.count.dropBlock) (.next hs.count.takeFlit.drainLane)))

theorem State.Blown.ethResend (hs : s.Blown x₀) : (s.ethResend p).Blown x₀ := .ite hs hs.count.sendPackets

theorem State.Blown.ethAcked (hs : s.Blown x₀) {k : EthPacket} : (s.ethAcked p k).Blown x₀ :=
  .ite (State.Blown.ite hs.count hs).drainEth.ethResend (State.Blown.ite hs.count hs).drainEth

theorem State.Blown.sendAck (hs : s.Blown x₀) {nak ce : Bool} : (s.sendAck p nak ce).Blown x₀ := hs.emit

theorem State.Blown.takePacket (hs : s.Blown x₀) {l : List (List Byte)} : (s.takePacket l).Blown x₀ :=
  hs.foldl fun _ _ ht => .ite ht.count (.ite ht.count ht.countFlit)

theorem State.Blown.ethTake (hs : s.Blown x₀) {k : EthPacket} : (s.ethTake p k).Blown x₀ :=
  .ite hs (.ite hs.setEth.takePacket.sendAck hs.sendAck)

theorem State.Blown.onDatagram (hs : s.Blown x₀) {frame : List Byte} {port : Nat} {f : State → Datagram → State}
    (hf : ∀ (t : State) a1, t.Blown x₀ → (f t a1).Blown x₀) :
    Result.Blown x₀ (s.onDatagram frame port f) := by
  unfold State.onDatagram
  refine .ite (.next hs) ?_
  split
  · exact .next hs
  · exact .ite (.next hs) (.ite (.next hs.count) (.next (hf _ _ hs)))

theorem State.Blown.takeEth (hs : s.Blown x₀) {k : EthPacket} : (s.takeEth k).Blown x₀ :=
  .ite hs (.ite hs.count hs.ethAcked.ethTake)

theorem State.Blown.takeFar (hs : s.Blown x₀) {p : FarDatagram} : (s.takeFar p).Blown x₀ := by
  unfold State.takeFar
  split
  · exact hs.count
  · exact .ite hs.count hs.writeMem

end Sys2Proof.Machine
end

section
/-!
PROOF. O6, power, parts that leave service, the Draft and its sessions (R102, R341 to R363, R402 to R444).
-/

namespace Sys2Proof.Machine

open Sys2Proof

variable {x₀ : Sec} {s : State} {d k req step t : Nat} {_value p1 p2 : Byte} {env : StartEnv} {b msg v : List Byte}
    {num : BitVec 32} {role : Role} {o : ObjId} {x : Session}

/-! ### Power -/

theorem State.Blown.setPower (hs : s.Blown x₀) {p : Power} : (s.setPower p).Blown x₀ := hs.update

theorem State.Blown.losePower (hs : s.Blown x₀) {m : PowerMode} : (s.losePower m).Blown x₀ :=
  hs.of_fuses rfl rfl

theorem State.Blown.powerFail (hs : s.Blown x₀) {c : Nat} {m : PowerMode} : (s.powerFail c m).Blown x₀ :=
  (State.Blown.ite hs (State.Blown.ite hs.setPower.update hs.setPower).lifetimeRecord.record.update).losePower

theorem State.Blown.setRoots (hs : s.Blown x₀) {v : BitVec 2} : (s.setRoots v).Blown x₀ := hs.setPower.setAlert

theorem State.Blown.switchRoot (hs : s.Blown x₀) : s.switchRoot.Blown x₀ := hs.setPower.count.event

theorem State.Blown.noClock (hs : s.Blown x₀) : s.noClock.Blown x₀ :=
  (State.Blown.losePower hs.update).setPower.setAlert

theorem State.Blown.loseRoot (hs : s.Blown x₀) : (s.loseRoot k).Blown x₀ :=
  .ite hs.noClock (State.Blown.ite hs.switchRoot hs).setRoots

theorem State.Blown.execRootSwitch (hs : s.Blown x₀) : Result.Blown x₀ (execRootSwitch _value s) :=
  hs.onCmd fun _ ht => .ite_fst ht.switchRoot ht

theorem State.Blown.mgmtFails (hs : s.Blown x₀) : s.mgmtFails.Blown x₀ := by
  unfold State.mgmtFails
  split
  exacts [hs.setDieState.setDieState.loseRoot, State.Blown.noClock hs.update, hs]

theorem State.Blown.setInput (hs : s.Blown x₀) {mv : Nat} : (s.setInput mv).Blown x₀ := hs.setPower

theorem State.Blown.filtered (hs : s.Blown x₀) {n lo hi : Nat} : (s.filtered n lo hi).2.Blown x₀ := by
  unfold State.filtered
  exact .ite_snd hs (.ite_snd hs hs.draw)

theorem State.Blown.execPwrfailN (hs : s.Blown x₀) {src : PwrFailSource} : Result.Blown x₀ (execPwrfailN src s) := by
  unfold Sys2Proof.Machine.execPwrfailN
  refine .ite (.next hs) ?_
  split
  exacts [.ite (.next hs.powerFail) (.next hs), .ite (.next hs.powerFail) (.next hs), .ite
    (.next hs.filtered.count.powerFail) (.next hs.filtered)]

theorem State.Blown.execLossOfInput (hs : s.Blown x₀) : Result.Blown x₀ (execLossOfInput s) := by
  unfold Sys2Proof.Machine.execLossOfInput
  split
  exacts [.next hs.powerFail, .next hs.powerFail, .next hs]

theorem State.Blown.stageFails (hs : s.Blown x₀) : (s.stageFails k).Blown x₀ := by
  unfold State.stageFails
  extract_lets was s1
  have hs1 : s1.Blown x₀ :=
    (hs.watchForecasts fun _ ht => ht.roleRecord.setPower.count.event).setAlert
  exact .ite hs1.powerFail hs1

theorem State.Blown.raiseExcursion (hs : s.Blown x₀) {i code : Nat} {was : Bool} :
    (s.raiseExcursion i code was).Blown x₀ :=
  .ite (State.Blown.ite hs hs.count).setAlert (State.Blown.ite hs hs.count).setAlert.event

theorem State.Blown.execCoolantExcursion (hs : s.Blown x₀) {e : CoolantEvent} :
    Result.Blown x₀ (execCoolantExcursion e s) := by
  unfold Sys2Proof.Machine.execCoolantExcursion
  extract_lets m
  refine .ite (.next hs) ?_
  split
  exacts [.ite (.next hs) (.next hs.update.raiseExcursion.count), .ite (.next hs)
    (.next hs.update.raiseExcursion.count), .ite (.next hs.update.setAlert) (.next hs)]

theorem State.Blown.execAirExcursion (hs : s.Blown x₀) {e : AirEvent} : Result.Blown x₀ (execAirExcursion e s) := by
  unfold Sys2Proof.Machine.execAirExcursion
  extract_lets m
  refine .ite (.next hs) ?_
  split
  · exact .ite (.next hs) (.next hs.update.raiseExcursion)
  · exact .ite (.next hs.update.setAlert) (.next hs)

theorem State.Blown.halt (hs : s.Blown x₀) : s.halt.Blown x₀ := hs.setPower.setAlert

theorem State.Blown.sense (hs : s.Blown x₀) : s.sense.Blown x₀ := hs.update

theorem State.Blown.startStages (hs : s.Blown x₀) : s.startStages.Blown x₀ := hs.draw.setInput.sense.setAlert

theorem State.Blown.startRoots (hs : s.Blown x₀) : (s.startRoots env).Blown x₀ := hs.setPower.setRoots

theorem State.Blown.startRom (hs : s.Blown x₀) : (s.startRom env).1.Blown x₀ := by
  unfold State.startRom
  exact .ite_fst (.ite hs hs.count)
      (.ite_fst (State.Blown.ite hs hs.count).blowTo.rom.update (State.Blown.ite hs hs.count).blowTo.rom)

theorem State.Blown.stepIn (hs : s.Blown x₀) {lo n : Nat} : (s.stepIn d lo n).1.Blown x₀ := by
  unfold State.stepIn
  split
  · exact hs
  · exact .ite hs.update.setDieState.freshLooms hs.update.setDieState.update

theorem State.Blown.failLinkDie (hs : s.Blown x₀) : (s.failLinkDie k).Blown x₀ := hs.foldl fun _ _ ht => ht.failLane

theorem State.Blown.selfTestFails (hs : s.Blown x₀) : (s.selfTestFails d).Blown x₀ := by
  unfold State.selfTestFails
  refine .ite hs ?_
  extract_lets was s1
  have hs1 : s1.Blown x₀ := hs.count
  refine .ite (.ite hs1.setDieState.stepIn hs1.setDieState) (.ite hs1.retireHub ?_)
  refine .ite (.ite hs1.setDieState.retireHub hs1.setDieState) (.ite (.ite hs1.setDieState.stepIn hs1.setDieState) ?_)
  exact .ite hs1.setDieState.failLinkDie
      (.ite hs1.setDieState.setHost (.ite (.ite hs1.mgmtFails hs1.setDieState.loseRoot) hs1.failNand))

theorem State.Blown.startRest (hs : s.Blown x₀) : (s.startRest env).Blown x₀ := by
  unfold State.startRest
  extract_lets -underBinder +onlyGivenNames _ s1
  have hs1 : s1.Blown x₀ := hs.setPower
  refine .ite hs1.halt ?_
  extract_lets -underBinder +onlyGivenNames s2 s3
  have hs2 : s2.Blown x₀ := hs1.foldl fun _ _ ht => ht.freshLooms
  have hs3 : s3.Blown x₀ := hs2.foldl fun _ _ ht => ht.selfTestFails
  exact .ite hs3 (hs3.setPower.foldl fun _ _ ht => .ite ht.laneUp ht).event

theorem State.Blown.startFrom4 (hs : s.Blown x₀) : (s.startFrom4 env).Blown x₀ :=
  .ite hs.startRom.startRest hs.startRom.halt

theorem State.Blown.startFrom3 (hs : s.Blown x₀) : (s.startFrom3 env).Blown x₀ :=
  .ite hs.update.startRoots.halt hs.update.startRoots.startFrom4

theorem State.Blown.coldStart (hs : s.Blown x₀) : (s.coldStart env).Blown x₀ :=
  .ite hs.setPower.startStages.halt hs.setPower.startStages.startFrom3

theorem State.Blown.holdReset (hs : s.Blown x₀) {c : Nat} : (s.holdReset c).Blown x₀ :=
  (State.Blown.ite hs.setPower.keepValue.update hs).losePower.update

theorem State.Blown.execMrstN (hs : s.Blown x₀) {lowMs : Nat} : Result.Blown x₀ (execMrstN lowMs s) := by
  unfold Sys2Proof.Machine.execMrstN
  split
  · exact .ite (.next hs.filtered.count.holdReset.update) (.next hs.filtered)
  · exact .ite (.next hs.filtered.count.holdReset.update) (.next hs.filtered)
  · exact .ite (.next hs.filtered.count.holdReset.update) (.next hs.filtered)
  · exact .ite (.next hs.filtered.setPower) (.next hs.filtered)
  · exact .next hs

theorem State.Blown.moduleReset (hs : s.Blown x₀) {value : Byte} : (s.moduleReset value).1.Blown x₀ := by
  unfold State.moduleReset
  exact .ite_fst hs.setPower hs

theorem State.Blown.execModuleReset (hs : s.Blown x₀) {value : Byte} : Result.Blown x₀ (execModuleReset value s) :=
  hs.onCmd fun _ ht => ht.moduleReset

theorem State.Blown.warmStart (hs : s.Blown x₀) : (s.warmStart env).Blown x₀ :=
  .ite hs.update.sense.setPower.setAlert.halt
      (.ite hs.update.sense.setPower.setAlert.startFrom3 hs.update.sense.setPower.setAlert.setRoots.startFrom4)

/-! ### Deaths -/

theorem State.Blown.loseHub (hs : s.Blown x₀) : (s.loseHub k).Blown x₀ := hs.retireHub.purgeHub

theorem State.Blown.cutDead (hs : s.Blown x₀) {q : BitVec 16} {f : Fetched} : (s.cutDead q f).Blown x₀ := by
  unfold State.cutDead
  extract_lets l mine
  split
  · exact hs
  · exact hs.dropWaits.complete
  · split
    · exact (State.Blown.ite hs.endPut (.ite hs.getCount hs)).update.dropWaits.complete
    · split
      · exact hs.endColl
      · exact hs.complete
    · exact hs.dropWaits.complete

theorem State.Blown.cutDeadQueue (hs : s.Blown x₀) {q : BitVec 16} : (s.cutDeadQueue q).Blown x₀ :=
  hs.foldl fun _ _ ht => ht.cutDead

theorem State.Blown.leaveGroups (hs : s.Blown x₀) : (s.leaveGroups d).Blown x₀ := by
  unfold State.leaveGroups
  extract_lets stay s1
  have hs1 : s1.Blown x₀ := hs.update
  refine hs1.foldl fun t x ht => ?_
  split
  · exact ht.releaseHeld
  · exact ht

theorem State.Blown.clearDie (hs : s.Blown x₀) : (s.clearDie d).Blown x₀ := hs.update.clearRange.leaveGroups

theorem State.Blown.rebind (hs : s.Blown x₀) {q x : Nat} : (s.rebind q x).Blown x₀ := hs.setQueue.update

theorem State.Blown.setMask (hs : s.Blown x₀) {n m : Nat} : (s.setMask n m).Blown x₀ := hs.update

theorem State.Blown.moveToSpare (hs : s.Blown x₀) {x : Nat} : (s.moveToSpare d x).Blown x₀ :=
  (hs.clearRange.foldl fun _ _ ht => ht.setMask).foldl fun _ _ ht => ht.rebind

theorem State.Blown.moveToRest (hs : s.Blown x₀) : (s.moveToRest d).Blown x₀ := by
  unfold State.moveToRest
  extract_lets ls s1 s2
  have hs1 : s1.Blown x₀ := hs.foldl fun _ _ ht => ht.setMask
  have hs2 : s2.Blown x₀ := by
    refine hs1.foldl fun t x ht => ?_
    split
    · exact ht
    · exact ht.rebind.event
  exact hs2.foldl fun _ _ ht => ht.revokeLease

theorem State.Blown.tensorDies (hs : s.Blown x₀) : (s.tensorDies d).Blown x₀ := by
  unfold State.tensorDies
  extract_lets -underBinder +onlyGivenNames qs was s1
  have hs1 : s1.Blown x₀ := hs.setDieState
  refine .ite hs1 ?_
  extract_lets -underBinder +onlyGivenNames r s2 s3
  have hr : r.1.Blown x₀ := hs1.stepIn
  have hs2 : s2.Blown x₀ := hr.foldl fun _ _ ht => ht.cutDeadQueue
  have hs3 : s3.Blown x₀ := hs2.clearDie
  split
  · exact hs3.moveToSpare
  · exact hs3.moveToRest

theorem State.Blown.coreDies (hs : s.Blown x₀) : (s.coreDies d).Blown x₀ :=
  .ite hs.setDieState (State.Blown.ite hs.setDieState.update.stepIn.update hs.setDieState.update.stepIn).event

theorem State.Blown.hostDies (hs : s.Blown x₀) : s.hostDies.Blown x₀ := by
  unfold State.hostDies
  extract_lets s1 _ s2
  have h2 : s2.Blown x₀ := hs.setDieState.setHost
  exact h2.hostLeaves

theorem State.Blown.mgmtDies (hs : s.Blown x₀) : (s.mgmtDies d).Blown x₀ := .ite hs.mgmtFails hs.setDieState.loseRoot

theorem State.Blown.buryAgent (hs : s.Blown x₀) {a : Nat} : (s.buryAgent a).Blown x₀ := hs.setCoh.reclaim

theorem State.Blown.agentDies (hs : s.Blown x₀) {a : Nat} : (s.agentDies a).Blown x₀ :=
  .ite hs (.ite hs.tensorDies.buryAgent
      (.ite hs.coreDies.buryAgent
      (.ite hs.setDieState.failLinkDie.buryAgent (.ite hs.hostDies.setCoh hs.mgmtDies.setCoh))))

theorem State.Blown.answerForHolder (hs : s.Blown x₀) {line : Nat} {t : Txn} : (s.answerForHolder line t).Blown x₀ :=
  hs.setCoh.advance.count.emit

theorem State.Blown.execSnoopDeadlineMiss (hs : s.Blown x₀) {agent line : Nat} :
    Result.Blown x₀ (execSnoopDeadlineMiss agent line s) := by
  unfold Sys2Proof.Machine.execSnoopDeadlineMiss
  split
  · exact .next hs
  · exact .ite (.next hs) (.next (.ite hs.answerForHolder hs.answerForHolder.agentDies))

theorem State.Blown.execControlCoreRetire (hs : s.Blown x₀) {die core : Nat} :
    Result.Blown x₀ (execControlCoreRetire die core s) :=
  .ite (.next hs) (.next (.ite hs.roleRecord.retireCore.event hs.roleRecord.retireCore.event.agentDies))

/-! ### Spdm -/

theorem State.Blown.spdmNonce (hs : s.Blown x₀) : s.spdmNonce.2.Blown x₀ := by
  unfold State.spdmNonce
  exact hs.update

theorem State.Blown.setConn (hs : s.Blown x₀) {c : Spdm} : (s.setConn t c).Blown x₀ := hs.update

theorem State.Blown.countSign (hs : s.Blown x₀) : s.countSign.Blown x₀ := hs.count

theorem State.Blown.spdmVersion (hs : s.Blown x₀) : (s.spdmVersion t msg).1.Blown x₀ := by
  unfold State.spdmVersion
  exact hs.setConn

theorem State.Blown.spdmCapabilities (hs : s.Blown x₀) : (s.spdmCapabilities t msg).1.Blown x₀ := by
  unfold State.spdmCapabilities
  exact .ite_fst hs (.ite_fst hs hs.setConn)

theorem State.Blown.spdmAlgorithms (hs : s.Blown x₀) : (s.spdmAlgorithms t msg b).1.Blown x₀ := by
  unfold State.spdmAlgorithms
  exact .ite_fst hs (.ite_fst hs hs.setConn)

theorem State.Blown.spdmDigests (hs : s.Blown x₀) : (s.spdmDigests t msg).1.Blown x₀ := by
  unfold State.spdmDigests
  exact .ite_fst hs hs.setConn

theorem State.Blown.spdmCertificate (hs : s.Blown x₀) : (s.spdmCertificate t msg p1 p2 b).1.Blown x₀ := by
  unfold State.spdmCertificate
  exact .ite_fst hs (.ite_fst hs hs.setConn)

theorem State.Blown.spdmChallenge (hs : s.Blown x₀) : (s.spdmChallenge t msg p1 p2 b).1.Blown x₀ := by
  unfold State.spdmChallenge
  exact .ite_fst hs (.ite_fst hs hs.spdmNonce.setConn.countSign)

theorem State.Blown.spdmMeasurements (hs : s.Blown x₀) : (s.spdmMeasurements t msg p1 p2 b).1.Blown x₀ := by
  unfold State.spdmMeasurements
  exact .ite_fst hs (.ite_fst hs (.ite_fst hs.spdmNonce.setConn.countSign hs.spdmNonce.setConn))

theorem State.Blown.spdmPlain (hs : s.Blown x₀) {version code : Byte} :
    (s.spdmPlain t version code p1 p2 b).1.Blown x₀ := by
  unfold State.spdmPlain
  extract_lets msg
  refine .ite_fst hs.spdmVersion (.ite_fst hs ?_)
  split
  exacts [hs.spdmCapabilities, hs.spdmAlgorithms, hs.spdmDigests, hs.spdmCertificate, hs.spdmChallenge,
    hs.spdmMeasurements, hs]

theorem State.Blown.largeOut (hs : s.Blown x₀) {r : List Byte} : (s.largeOut t r).1.Blown x₀ := by
  unfold State.largeOut
  exact .ite_fst hs hs.setConn

theorem State.Blown.spdmChunkGet (hs : s.Blown x₀) : (s.spdmChunkGet t p2 b).1.Blown x₀ := by
  unfold State.spdmChunkGet
  exact .ite_fst hs (.ite_fst hs hs.setConn)

theorem State.Blown.spdmChunkSend (hs : s.Blown x₀) : (s.spdmChunkSend t p1 p2 b).1.Blown x₀ := by
  unfold State.spdmChunkSend
  exact .ite_fst hs (.ite_fst hs.setConn
      (.ite_fst hs.setConn (.ite_fst hs.setConn.spdmPlain hs.setConn.spdmPlain.largeOut)))

theorem State.Blown.spdmRequest (hs : s.Blown x₀) {version code : Byte} :
    (s.spdmRequest t version code p1 p2 b).1.Blown x₀ := by
  unfold State.spdmRequest
  extract_lets s1 chunk _ r wrong
  have hs1 : s1.Blown x₀ := hs.count
  have hr : r.1.Blown x₀ := .ite_fst hs1 (.ite_fst hs1.spdmChunkSend (.ite_fst hs1.spdmChunkGet hs1.spdmPlain.largeOut))
  exact .ite hr.count hr

theorem State.Blown.spdmOver (hs : s.Blown x₀) {code : Byte} {m : SpdmMsg} : Result.Blown x₀ (s.spdmOver code m) :=
  .ite (.next hs.spdmRequest.emit) (.next hs)

/-! ### Arm -/

theorem State.Blown.configDefaults (hs : s.Blown x₀) : (s.configDefaults num).1.Blown x₀ := by
  unfold State.configDefaults
  exact .ite_fst hs hs.update

theorem State.Blown.reuseLanes (hs : s.Blown x₀) {old : State} : (s.reuseLanes old).Blown x₀ :=
  hs.foldl fun _ _ ht => .ite ht ht.setLane.moveRecs

theorem State.Blown.newView (hs : s.Blown x₀) : s.newView.Blown x₀ := hs.update.foldl fun _ _ ht => ht.sendHello

theorem State.Blown.reconfigured (hs : s.Blown x₀) {old : State} : (s.reconfigured old).Blown x₀ :=
  (State.Blown.ite hs.reuseLanes hs.reuseLanes.newView).driveAlert

theorem State.Blown.armRecord (hs : s.Blown x₀) {flags : Byte} {epoch : Nat} {v : Tab (List Byte)} :
    (s.armRecord flags epoch step v).Blown x₀ := hs.record

theorem State.Blown.armStop (hs : s.Blown x₀) {r : DapResult} : (s.armStop r).2.2.Blown x₀ := by
  unfold State.armStop
  exact hs

theorem State.Blown.armChecked (hs : s.Blown x₀) {stepped : Bool} {f : State → Nat → ArmEnd}
    (hf : ∀ (t : State) a1, t.Blown x₀ → (f t a1).2.2.Blown x₀) :
    (s.armChecked stepped req f).2.2.Blown x₀ := by
  unfold State.armChecked
  refine .ite_third hs.armStop ?_
  split
  · exact hs.count
  · exact .ite_third hs.armStop (hf _ _ hs.count)

theorem State.Blown.armAtOnce (hs : s.Blown x₀) : (s.armAtOnce req).2.2.Blown x₀ := by
  unfold State.armAtOnce
  exact .ite_third hs.armStop (hs.armChecked fun _ _ ht => ht.armRecord.update.reconfigured)

theorem State.Blown.armStepped (hs : s.Blown x₀) {by_ : BitVec 32} : (s.armStepped by_ req step).2.2.Blown x₀ := by
  unfold State.armStepped
  exact .ite_third hs.armStop (.ite_third hs.armStop (hs.armChecked fun _ _ ht => ht.armRecord.update))

theorem State.Blown.armCancel (hs : s.Blown x₀) : (s.armCancel num role).2.2.Blown x₀ := by
  unfold State.armCancel
  split
  · exact hs.armStop
  · exact .ite_third hs.armStop (.ite_third hs.armStop hs.armRecord.update)

theorem State.Blown.armOf (hs : s.Blown x₀) {atStep cancel : Bool} :
    (s.armOf num role atStep cancel req step).2.2.Blown x₀ := by
  unfold State.armOf
  exact .ite_third hs.armCancel (.ite_third hs.armStop (.ite_third hs.armStepped hs.armAtOnce))

theorem State.Blown.switchTo (hs : s.Blown x₀) {p : PendingArm} : (s.switchTo p).Blown x₀ :=
  hs.record.update.reconfigured.count

theorem State.Blown.setStep (hs : s.Blown x₀) {q : BitVec 16} : (s.setStep q step).Blown x₀ := by
  unfold State.setStep
  extract_lets s1 _ s2
  have hs1 : s1.Blown x₀ := by
    unfold s1
    split
    · exact hs
    · exact hs.switchTo
  have hs2 : s2.Blown x₀ := hs1.setQueue
  exact hs2.update

theorem State.Blown.execQctlStep (hs : s.Blown x₀) {d : Desc} : Result.Blown x₀ (execQctlStep d s) :=
  .ite (.next hs) (hs.onDesc fun _ ht => .ite ht.finish (ht.runNow fun _ hu => hu.setStep))

/-! ### Backward -/

theorem State.Blown.attnOutcm (hs : s.Blown x₀) {st : Byte} {row : Nat} : (s.attnOutcm st row).1.Blown x₀ := by
  unfold State.attnOutcm
  exact hs.draw

theorem State.Blown.runAttn (hs : s.Blown x₀) {d : Desc} {die : Nat} {f : AttnF} {r : AttnRec} {oi os oo : Opf} :
    (s.runAttn d die f r oi os oo).1.Blown x₀ := by
  unfold State.runAttn
  extract_lets -underBinder +onlyGivenNames cfg view env scaleBad
  refine .ite_fst hs.attnOutcm ?_
  extract_lets -underBinder +onlyGivenNames ps sat plane badQ badK outs imgs s1 _ s2 b s3 narRow
  have hs1 : s1.Blown x₀ := hs.foldl fun _ _ ht => ht.writeSkeins.countWatched
  have hs2 : s2.Blown x₀ := hs1.countWatched
  have hs3 : s3.Blown x₀ := hs2.count.count
  clear_value narRow badQ
  split
  exacts [hs3.attnOutcm, hs3.attnOutcm, hs3.attnOutcm, hs3]

theorem State.Blown.attnEnds (hs : s.Blown x₀) {d : Desc} {st : Byte} : (s.attnEnds d st).Blown x₀ :=
  .ite hs.finish hs.attnOutcm.finish

theorem State.Blown.execBwdAttn (hs : s.Blown x₀) {d : Desc} : Result.Blown x₀ (execBwdAttn d s) := by
  unfold Sys2Proof.Machine.execBwdAttn
  refine hs.onDesc fun t ht => ?_
  extract_lets die f
  split
  · refine .ite ht.attnEnds ?_
    split
    · exact ht.attnEnds
    · exact ht.runNow fun _ hu => hu.runAttn
  · exact ht.attnEnds

/-! ### CounterClears -/

theorem State.Blown.clearIndices (hs : s.Blown x₀) {lo hi : Nat} : Result.Blown x₀ (s.clearIndices lo hi) :=
  hs.onCmd fun _ ht => ht.clearCounters

theorem State.Blown.execFmtCountersClear (hs : s.Blown x₀) : Result.Blown x₀ (execFmtCountersClear _value s) :=
  hs.clearIndices

theorem State.Blown.execLoomCountersClear (hs : s.Blown x₀) : Result.Blown x₀ (execLoomCountersClear _value s) :=
  hs.clearIndices

theorem State.Blown.execVecCountersClear (hs : s.Blown x₀) : Result.Blown x₀ (execVecCountersClear _value s) :=
  hs.clearIndices

theorem State.Blown.execReedCountersClear (hs : s.Blown x₀) : Result.Blown x₀ (execReedCountersClear _value s) :=
  hs.clearIndices

theorem State.Blown.execBwdCountersClear (hs : s.Blown x₀) : Result.Blown x₀ (execBwdCountersClear _value s) :=
  hs.clearIndices

theorem State.Blown.execUpdCountersClear (hs : s.Blown x₀) : Result.Blown x₀ (execUpdCountersClear _value s) :=
  hs.clearIndices

theorem State.Blown.execStrCountersClear (hs : s.Blown x₀) : Result.Blown x₀ (execStrCountersClear _value s) :=
  hs.clearIndices

theorem State.Blown.execPruCountersClear (hs : s.Blown x₀) : Result.Blown x₀ (execPruCountersClear _value s) :=
  hs.clearIndices

theorem State.Blown.execDftCountersClear (hs : s.Blown x₀) : Result.Blown x₀ (execDftCountersClear _value s) :=
  hs.clearIndices

theorem State.Blown.execRecCountersClear (hs : s.Blown x₀) : Result.Blown x₀ (execRecCountersClear _value s) :=
  hs.clearIndices

theorem State.Blown.execSecCountersClear (hs : s.Blown x₀) : Result.Blown x₀ (execSecCountersClear _value s) :=
  hs.clearIndices

theorem State.Blown.execPwrCountersClear (hs : s.Blown x₀) : Result.Blown x₀ (execPwrCountersClear _value s) :=
  hs.clearIndices

theorem State.Blown.execModCountersClear (hs : s.Blown x₀) : Result.Blown x₀ (execModCountersClear _value s) :=
  hs.clearIndices

/-! ### Dap -/

theorem State.Blown.dapStop (hs : s.Blown x₀) {r : DapResult} : (s.dapStop r).2.2.Blown x₀ := by
  unfold State.dapStop
  exact hs

theorem State.Blown.dapRead (hs : s.Blown x₀) : (s.dapRead role b).2.2.Blown x₀ := by
  unfold State.dapRead
  extract_lets o
  split
  · exact hs.dapStop
  · exact .ite_third hs.dapStop (.ite_third hs.dapStop hs)

theorem State.Blown.dapDescribe (hs : s.Blown x₀) : (s.dapDescribe role b).2.2.Blown x₀ := by
  unfold State.dapDescribe
  extract_lets o
  split
  · exact hs.dapStop
  · exact hs

theorem State.Blown.dapEnumerate (hs : s.Blown x₀) : (s.dapEnumerate b).2.2.Blown x₀ := by
  unfold State.dapEnumerate
  exact hs

theorem State.Blown.dapStagedList (hs : s.Blown x₀) : (s.dapStagedList b).2.2.Blown x₀ := by
  unfold State.dapStagedList
  exact hs

theorem State.Blown.dapEvents (hs : s.Blown x₀) : (s.dapEvents b).2.2.Blown x₀ := by
  unfold State.dapEvents
  exact hs

theorem State.Blown.runAs (hs : s.Blown x₀) {f : State → Result}
    (hf : ∀ (t : State), t.Blown x₀ → Result.Blown x₀ (f t)) :
    (s.runAs f).1.Blown x₀ := by
  unfold State.runAs
  split
  next t e =>
    have ht : t.Blown x₀ := (hf _ hs).of_eq_next e
    exact ht
  · exact hs

theorem State.Blown.cmdObject (hs : s.Blown x₀) : (s.cmdObject num o v).1.Blown x₀ := by
  unfold State.cmdObject
  extract_lets b w u64 u32 u16
  split
  · exact hs.configDefaults
  · exact hs.runAs fun _ ht => ht.execLeaseGrant
  · exact hs.runAs fun _ ht => ht.execLeaseRelease
  · exact hs.runAs fun _ ht => ht.execTempleAlarmClear
  · exact hs.runAs fun _ ht => ht.execQueueAbort
  · exact hs.runAs fun _ ht => ht.execStepCommit
  · exact hs.runAs fun _ ht => ht.execGroupRestore
  · exact hs.runAs fun _ ht => ht.execOutcomeAdopt
  · exact hs.runAs fun _ ht => ht.execCommitRebase
  · exact hs.runAs fun _ ht => ht.execFwInstall
  · exact hs.runAs fun _ ht => ht.execFwActivate
  · exact hs.runAs fun _ ht => ht.execBoltNote
  · exact hs.runAs fun _ ht => ht.execOwnerRelease

theorem State.Blown.cmdControl (hs : s.Blown x₀) : (s.cmdControl o v).1.Blown x₀ := by
  unfold State.cmdControl
  extract_lets b
  split
  · exact hs.runAs fun _ ht => ht.execModuleReset
  · exact hs.runAs fun _ ht => ht.execRootSwitch
  · exact hs.runAs fun _ ht => ht.execFmtCountersClear
  · exact hs.runAs fun _ ht => ht.execLoomCountersClear
  · exact hs.runAs fun _ ht => ht.execVecCountersClear
  · exact hs.runAs fun _ ht => ht.execReedCountersClear
  · exact hs.runAs fun _ ht => ht.execBwdCountersClear
  · exact hs.runAs fun _ ht => ht.execUpdCountersClear
  · exact hs.runAs fun _ ht => ht.execTempleCountersClear
  · exact hs.runAs fun _ ht => ht.execStrCountersClear
  · exact hs.runAs fun _ ht => ht.execTirCountersClear
  · exact hs.runAs fun _ ht => ht.execCohCountersClear
  · exact hs.runAs fun _ ht => ht.execHstCountersClear
  · exact hs.runAs fun _ ht => ht.execPruCountersClear
  · exact hs.runAs fun _ ht => ht.execDftCountersClear
  · exact hs.runAs fun _ ht => ht.execRecCountersClear
  · exact hs.runAs fun _ ht => ht.execSecCountersClear
  · exact hs.runAs fun _ ht => ht.execPwrCountersClear
  · exact hs.runAs fun _ ht => ht.execModCountersClear

theorem State.Blown.writeNow (hs : s.Blown x₀) : (s.writeNow o v).1.Blown x₀ := by
  unfold State.writeNow
  exact .ite_fst hs.update (hs.runAs fun _ ht => ht.execDirProbeAddr)

theorem State.Blown.stageValue (hs : s.Blown x₀) {r : ObjRow} : (s.stageValue num o r v).1.Blown x₀ := by
  unfold State.stageValue
  exact .ite_fst hs (.ite_fst hs hs.update)

theorem State.Blown.stageSegment (hs : s.Blown x₀) {r : ObjRow} {off : Nat} {last : Bool} :
    (s.stageSegment num o r off last v).1.Blown x₀ := by
  unfold State.stageSegment
  extract_lets d done
  split
  · exact hs
  · exact .ite_fst hs (.ite_fst hs.update hs.update)

theorem State.Blown.writeObject (hs : s.Blown x₀) {r : ObjRow} : (s.writeObject num o r v).1.Blown x₀ := by
  unfold State.writeObject
  exact .ite_fst hs.stageValue (.ite_fst hs.writeNow (.ite_fst hs.writeKey (.ite_fst hs.cmdObject hs.cmdControl)))

theorem State.Blown.dapWrite (hs : s.Blown x₀) : (s.dapWrite num role b).2.2.Blown x₀ := by
  unfold State.dapWrite
  extract_lets o off last v ends
  have hends : ∀ x, x.1.Blown x₀ → (ends x).2.2.Blown x₀ := fun _ hx => hx
  split
  · exact hs.dapStop
  · exact .ite_third hs.dapStop (.ite_third (.ite_third (hends _ hs.stageSegment) (hends _ hs.fwImage))
      (.ite_third hs.dapStop (.ite_third hs.dapStop (hends _ hs.writeObject))))

theorem State.Blown.dapDiscard (hs : s.Blown x₀) : (s.dapDiscard num role).2.2.Blown x₀ := by
  unfold State.dapDiscard
  exact .ite_third hs.update hs.dapStop

theorem State.Blown.dapArm (hs : s.Blown x₀) : (s.dapArm num role b).2.2.Blown x₀ := by
  unfold State.dapArm
  exact hs.armOf

theorem State.Blown.dapTunnel (hs : s.Blown x₀) {t : Transport} : (s.dapTunnel t b).2.2.Blown x₀ := by
  unfold State.dapTunnel
  exact hs.spdmRequest

theorem State.Blown.dapRun (hs : s.Blown x₀) {mtype : Nat} : (s.dapRun x mtype b).2.2.Blown x₀ := by
  unfold State.dapRun
  refine .ite_third hs.dapStop ?_
  split
  exacts [hs.endSessions, hs.dapRead, hs.dapWrite, hs.dapDescribe, hs.dapEnumerate, hs.dapArm, hs.dapDiscard,
    hs.dapStagedList, hs.dapEvents, hs.dapTunnel]

theorem State.Blown.setSession (hs : s.Blown x₀) : (s.setSession x).Blown x₀ := hs.update

theorem State.Blown.dapRespond (hs : s.Blown x₀) {k : Kept} {keep : Bool} : (s.dapRespond x k keep).1.Blown x₀ := by
  unfold State.dapRespond
  exact hs.setSession

theorem State.Blown.dapAccepted (hs : s.Blown x₀) : (s.dapAccepted x b).1.Blown x₀ := by
  unfold State.dapAccepted
  extract_lets id mtype body x s1
  have hs1 : s1.Blown x₀ := hs.setSession
  split
  · exact hs1.count.dapRespond
  · exact (State.Blown.ite_third hs1.dapRun hs1.count.dapStop).dapRespond

theorem State.Blown.openFails (hs : s.Blown x₀) {key : List Byte} {r : DapResult} :
    (s.openFails key b r).1.Blown x₀ := by
  unfold State.openFails
  exact hs.draw

theorem State.Blown.openSession (hs : s.Blown x₀) {t : Transport} {owner : Bool} :
    (s.openSession t owner role b).1.Blown x₀ := by
  unfold State.openSession
  exact .ite_fst hs.count.openFails (.ite_fst hs.openFails hs.update.count)

theorem State.Blown.dapOpen (hs : s.Blown x₀) {t : Transport} : (s.dapOpen t b).1.Blown x₀ := by
  unfold State.dapOpen
  extract_lets body key
  refine .ite_fst hs ?_
  split
  · exact hs.count
  · exact .ite_fst hs.count hs.openSession

theorem State.Blown.dapIdentify (hs : s.Blown x₀) : (s.dapIdentify b).1.Blown x₀ := by
  unfold State.dapIdentify
  exact .ite_fst hs.count hs.count

theorem State.Blown.dapHandle (hs : s.Blown x₀) {t : Transport} {multicast : Bool} :
    (s.dapHandle t multicast b).1.Blown x₀ := by
  unfold State.dapHandle
  extract_lets mtype s1
  have hs1 : s1.Blown x₀ := hs.count
  refine .ite_fst hs1.dapIdentify (.ite_fst hs1 (.ite_fst hs1.count (.ite_fst hs1.dapOpen ?_)))
  split
  · exact hs1.count
  · exact .ite_fst hs1.count (.ite_fst hs1.count (.ite_fst hs1.count hs1.dapAccepted))

theorem State.Blown.dapOver (hs : s.Blown x₀) {t : Transport} {multicast : Bool} :
    (s.dapOver t multicast b).Blown x₀ := by
  unfold State.dapOver
  refine .ite hs ?_
  extract_lets r
  have hr : r.1.Blown x₀ := hs.dapHandle
  split
  · exact hr
  · exact hr.emit

theorem State.Blown.setMailbox (hs : s.Blown x₀) {m : Mailbox} : (s.setMailbox m).Blown x₀ := hs.update

theorem State.Blown.doorbell (hs : s.Blown x₀) {value : Nat} : (s.doorbell value).Blown x₀ := by
  unfold State.doorbell
  extract_lets -underBinder +onlyGivenNames m n
  refine .ite hs.count ?_
  extract_lets -underBinder +onlyGivenNames b r _ t
  have hr : r.1.Blown x₀ := hs.update.dapHandle
  have ht : t.Blown x₀ := hr.setMailbox
  split
  · exact ht
  · exact ht.setMailbox

theorem State.Blown.fillRequest (hs : s.Blown x₀) {i : Nat} : (s.fillRequest i b).Blown x₀ := hs.setMailbox

theorem State.Blown.execMbxDoorbell (hs : s.Blown x₀) {value : BitVec 32} :
    Result.Blown x₀ (execMbxDoorbell value s) :=
  .ite (.next hs.doorbell) (.next hs)

theorem State.Blown.execMbxAck (hs : s.Blown x₀) {value : BitVec 32} : Result.Blown x₀ (execMbxAck value s) :=
  .ite (.next hs.setMailbox) (.next hs)

theorem State.Blown.onDap (hs : s.Blown x₀) {m : DapMsg} {mtype : Byte} : Result.Blown x₀ (s.onDap m mtype) := by
  unfold State.onDap
  extract_lets b
  split
  exacts [.ite (.next hs.dapOver) (.next hs), .ite (.next hs.dapOver) (.next hs), .ite
    (.next hs.fillRequest.doorbell) (.next hs)]

end Sys2Proof.Machine
end

section
/-!
PROOF. O6, the reed, registers, repairs, the dispatch of descriptors and the tick (R106 to R128, R280 to R300, R345,
R380 to R393, R427).
-/

namespace Sys2Proof.Machine

open Sys2Proof

variable {x₀ : Sec} {s : State} {agent die line offset width : Nat} {v : List Byte} {op : AtomicOp}

/-! ### Reed -/

theorem State.Blown.countPasses (hs : s.Blown x₀) {l : List ReedPass} : (s.countPasses die l).Blown x₀ :=
  hs.foldl fun _ _ ht => ht.count.count

theorem State.Blown.writeDense (hs : s.Blown x₀) {f : Fmt} {base size : Nat} {codes : List (Nat × Nat)} :
    (s.writeDense f base size codes).Blown x₀ := by
  unfold State.writeDense
  extract_lets put t
  split
  · exact hs.writeRuns
  · exact hs

theorem State.Blown.writeReedPlane (hs : s.Blown x₀) {v : ReedEnv} {pl : Nat} {bad : List Bool} {sk : SkeinOut} :
    (s.writeReedPlane v pl bad sk).Blown x₀ := (hs.foldl fun _ _ ht => ht.writeMem).writeDense

theorem State.Blown.runReed (hs : s.Blown x₀) {d : Desc} {v : ReedEnv} {cfg : NumCfg} :
    (s.runReed d die v cfg).1.Blown x₀ := by
  unfold State.runReed
  refine .ite_fst hs ?_
  extract_lets rd bad planes vals good wrapped idx blocks live ntaps rows k t t1 _ t2 t3 t4 t5 passes t6 t7 t8 t9 t10
      nar
  have ht : t.Blown x₀ := hs.foldl fun _ _ ht => ht.writeReedPlane
  have ht1 : t1.Blown x₀ := ht.foldl fun _ _ hu => hu.countWatched
  have ht2 : t2.Blown x₀ := ht1.countWatched
  have ht3 : t3.Blown x₀ := ht2.foldl fun _ _ hu => .ite hu.writeMem.count hu.writeMem
  have ht4 : t4.Blown x₀ := ht3.count
  have ht5 : t5.Blown x₀ := ht4.count
  have ht6 : t6.Blown x₀ := ht5.count.countPasses
  have ht7 : t7.Blown x₀ := ht6.count
  have ht8 : t8.Blown x₀ := ht7.count
  have ht9 : t9.Blown x₀ := ht8.count
  have ht10 : t10.Blown x₀ := .ite ht9.undefine ht9
  split <;> exact ht10

theorem State.Blown.execReedConv (hs : s.Blown x₀) {d : Desc} : Result.Blown x₀ (execReedConv d s) := by
  unfold Sys2Proof.Machine.execReedConv
  refine hs.onDesc fun t ht => ?_
  extract_lets die cfg f
  split
  · split
    · exact (State.Blown.ite ht.count ht).finish
    · exact ht.runNow fun _ hu => hu.runReed
  · exact ht.finish
  · exact ht.finish

/-! ### Registers -/

theorem State.Blown.adminStore (hs : s.Blown x₀) {blk : AdminBlock} {i : Nat} :
    Result.Blown x₀ (s.adminStore blk i v) :=
  .ite hs.setAdmin.adminWrite (.next hs.setAdmin)

theorem State.Blown.doorbellWrite (hs : s.Blown x₀) {v : BitVec 32} :
    Result.Blown x₀ (s.doorbellWrite offset width v) :=
  .ite hs.execSqDb (.ite hs.execCqDb (.next hs))

theorem State.Blown.sendPending (hs : s.Blown x₀) : s.sendPending.Blown x₀ := hs.update.foldl fun _ _ ht => ht.msix

theorem State.Blown.storeRegs (hs : s.Blown x₀) : (s.storeRegs offset v).Blown x₀ := hs.setHost.sendPending

theorem State.Blown.globalWrite (hs : s.Blown x₀) {i : Nat} : (s.globalWrite i v).Blown x₀ := .ite hs.setHost hs

theorem State.Blown.mailboxWrite (hs : s.Blown x₀) {i : Nat} : Result.Blown x₀ (s.mailboxWrite i width v) :=
  .ite hs.execMbxDoorbell (.ite hs.execMbxAck (.ite (.ite (.next hs.fillRequest) (.next hs)) (.next hs)))

theorem State.Blown.mapWrite (hs : s.Blown x₀) {sp : RegSpace} {value : BitVec 64} :
    Result.Blown x₀ (s.mapWrite sp offset width value) := by
  unfold State.mapWrite
  extract_lets v host blk
  refine .ite hs.doorbellWrite (.ite (.next hs) (.ite (.next (.ite hs.globalWrite hs)) ?_))
  exact .ite hs.adminStore
      (.ite (.next (.ite hs.storeRegs hs)) (.ite (.next (.ite hs.storeRegs hs)) (.ite hs.mailboxWrite (.next hs))))

theorem State.Blown.execRegisterWrite (hs : s.Blown x₀) {sp : RegSpace} {value : BitVec 64} :
    Result.Blown x₀ (execRegisterWrite sp offset width value s) := .ite hs.mapWrite (.next hs)

theorem State.Blown.mctpAnswer (hs : s.Blown x₀) {code completion : Byte} {data : List Byte} :
    (s.mctpAnswer code completion data).Blown x₀ := hs.emit

/-! ### Repair -/

theorem State.Blown.repairRecord (hs : s.Blown x₀) {done channel bank row : Nat} :
    (s.repairRecord done die channel bank row).Blown x₀ := hs.record

theorem State.Blown.poisonT2 (hs : s.Blown x₀) : (s.poisonT2 line).Blown x₀ := by
  unfold State.poisonT2
  extract_lets -underBinder +onlyGivenNames f
  refine .ite ?_ (.ite hs.draw.poisonRange hs.draw.poisonRange)
  extract_lets -underBinder +onlyGivenNames s1
  have hs1 : s1.Blown x₀ := by
    unfold s1
    split
    · exact hs.count
    · exact hs
  exact hs1.poisonRange

theorem State.Blown.poisonRow (hs : s.Blown x₀) {ls : List Nat} : (s.poisonRow ls).Blown x₀ :=
  hs.foldl fun _ _ ht => .ite ht.poisonT2 ht.poisonRange

theorem State.Blown.poisonStash (hs : s.Blown x₀) {tier2 : Bool} : (s.poisonStash tier2).Blown x₀ :=
  hs.foldl fun _ _ ht => ht.foldl fun _ _ hu => .ite hu (.ite hu.draw hu.draw.setStash)

theorem State.Blown.rowRepair (hs : s.Blown x₀) {channel bank row : Nat} {bad : List Nat} :
    (s.rowRepair die channel bank row bad).Blown x₀ := by
  unfold State.rowRepair
  extract_lets k used s1 s2
  have hs1 : s1.Blown x₀ := hs.repairRecord.poisonRow
  have hs2 : s2.Blown x₀ := .ite hs1 hs1.poisonStash
  exact .ite hs2 (hs2.watchForecasts fun _ ht => ht.update.repairRecord.count)

/-! ### Spans -/

theorem State.Blown.controlWrite (hs : s.Blown x₀) {mask : BitVec 64} {data : List Byte} :
    Result.Blown x₀ (s.controlWrite line mask data) := by
  unfold State.controlWrite
  refine foldl_keeps (Result.Blown x₀) _ _ _ (.next hs) fun r a hr => ?_
  split
  next t => exact (hr.of_eq_next rfl : t.Blown x₀).execRegisterWrite
  next => exact hr

theorem State.Blown.controlAtomic (hs : s.Blown x₀) : Result.Blown x₀ (s.controlAtomic agent line offset op) := by
  unfold State.controlAtomic
  extract_lets old mask
  split
  next t e => exact .next (hs.controlWrite.of_eq_next e : t.Blown x₀).emit
  next => exact hs.controlWrite

theorem State.Blown.farAsks (hs : s.Blown x₀) {k : ReqKind} :
    (s.farAsks k agent line offset op).Blown x₀ := hs.setCoh.ask

theorem State.Blown.farAtomic (hs : s.Blown x₀) : (s.farAtomic agent line offset op).Blown x₀ := by
  unfold State.farAtomic
  split
  · exact hs.farAsks
  · refine .ite hs.farAsks ?_
    extract_lets may
    clear_value may
    split
    exacts [hs, hs.trapReq, (State.Blown.ite hs.setCoh hs).farRuns]

theorem State.Blown.sendAtomic (hs : s.Blown x₀) : (s.sendAtomic agent line offset op).Blown x₀ :=
  .ite hs.trapReq (.ite (.ite hs.arrive hs.ask) (.ite hs.emit hs.farAtomic))

theorem State.Blown.execAtomN (hs : s.Blown x₀) : Result.Blown x₀ (execAtomN agent line offset op s) :=
  .ite (.next hs) (.ite (.ite hs.controlAtomic (.next hs)) (.ite (.next hs.sendAtomic) (.next hs)))

/-! ### Tick -/

theorem State.Blown.tickVec (hs : s.Blown x₀) {e : Nat} {busy : Bool} : (s.tickVec die e busy).Blown x₀ := by
  unfold State.tickVec
  extract_lets n l
  split
  · exact hs.count
  · exact .ite hs.count (.ite hs.storeGrant.count hs.storeGrant.setVec.count)

theorem State.Blown.tickShuttle (hs : s.Blown x₀) {k : Nat} {busy : Bool} : (s.tickShuttle die k busy).Blown x₀ := by
  unfold State.tickShuttle
  extract_lets next flying capacity alone tally s1 s2 s3 s4 s5
  have htally : ∀ (t : State) code on, t.Blown x₀ → (tally t code on).Blown x₀ := fun _ _ _ ht => .ite ht.count ht
  have hs1 : s1.Blown x₀ := htally _ _ _ hs
  have hs2 : s2.Blown x₀ := htally _ _ _ hs1
  have hs3 : s3.Blown x₀ := htally _ _ _ hs2
  have hs4 : s4.Blown x₀ := htally _ _ _ hs3
  have hs5 : s5.Blown x₀ := htally _ _ _ hs4
  exact .ite hs5 (htally _ _ _ hs5.storeGrant)

theorem State.Blown.tickTreadle (hs : s.Blown x₀) {idle : Bool} : (s.tickTreadle die idle).Blown x₀ := by
  unfold State.tickTreadle
  extract_lets s1 heads
  have hs1 : s1.Blown x₀ := hs.noteReady
  clear_value heads
  split
  · exact hs1
  · exact .ite hs1.count hs1

theorem State.Blown.tickDie (hs : s.Blown x₀) : (s.tickDie die).Blown x₀ := by
  unfold State.tickDie
  extract_lets idle busy s1 s2 s3
  have hs1 : s1.Blown x₀ := hs.foldl fun _ _ ht => ht.tickHeddle
  have hs2 : s2.Blown x₀ := hs1.foldl fun _ _ ht => ht.tickVec
  have hs3 : s3.Blown x₀ := hs2.foldl fun _ _ ht => ht.tickShuttle
  exact .ite hs3.tickTreadle hs3

theorem State.Blown.tickPacing (hs : s.Blown x₀) : s.tickPacing.Blown x₀ := by
  unfold State.tickPacing
  split
  · exact hs
  · exact .ite hs.count hs

theorem State.Blown.tickLanes (hs : s.Blown x₀) : s.tickLanes.Blown x₀ := hs.foldl fun _ _ ht => ht.count

theorem State.Blown.tickHubs (hs : s.Blown x₀) : s.tickHubs.Blown x₀ := hs.foldl fun _ _ ht => ht.cohCount

theorem State.Blown.tickUpdates (hs : s.Blown x₀) : s.tickUpdates.Blown x₀ := hs.count

theorem State.Blown.tick (hs : s.Blown x₀) : s.tick.Blown x₀ :=
  .ite hs (State.Blown.ite
      (hs.restoreLedger.pumpColls.foldl fun _ _ ht => ht.tickDie).tickUpdates.tickLanes.tickHubs.tickPacing
      hs).setPower

end Sys2Proof.Machine
end

section
/-!
PROOF. O6, O3 and O1: no step lowers a fuse counter, since none of the 248 commands and no tick does (R413); every
command answers a state; and a step runs the front command.
-/

namespace Sys2Proof.Machine

open Sys2Proof

variable {x₀ : Sec} {s : State}

/-- No command lowers a fuse counter, each by the law of what it runs. -/
theorem State.Blown.exec (hs : s.Blown x₀) {i : Instr} : Result.Blown x₀ (exec i s) := by
  unfold Sys2Proof.Machine.exec
  cases i with
  | qctlNop => exact hs.onDesc fun _ ht => .ite ht.finish (ht.runNow fun _ hu => hu)
  | qctlStep => exact hs.execQctlStep
  | qctlFlush => exact hs.onDesc fun _ ht => .ite ht.finish ht.handOver.pump
  | sqDb => exact hs.execSqDb
  | cqDb => exact hs.execCqDb
  | descriptorFetch => exact .ite (.next hs.fetchReturn) (.next hs)
  | dbRetryExpiry => exact .ite (.next hs.setQueue.count) (.next hs)
  | flushReadReturn => exact hs.execFlushReadReturn
  | shutCopy => exact hs.onDesc fun _ ht => ht.dispatchCopy
  | shutCopy2d => exact hs.onDesc fun _ ht => ht.dispatchCopy
  | transferAccept => exact .ite (.next hs.acceptXfer) (.next hs)
  | transferComplete => exact .ite (.next hs.completeXfer) (.next hs)
  | shutMcast => exact hs.execShutMcast
  | mcastDelivery => exact hs.execMcastDelivery
  | mcastSet => exact hs.execMcastSet
  | creelSet => exact hs.onDesc fun _ ht => .ite ht.finish (ht.runNow fun _ hu => hu.setRing)
  | shutLimit => exact hs.execShutLimit
  | slotEmpty => exact .ite (.next hs.emptyHead) (.next hs)
  | loomPick => exact .next hs.dispatchPick
  | pickAccept => exact .ite (.next hs.acceptWaiting) (.next hs)
  | pickComplete => exact .ite (.next hs.completePick) (.next hs)
  | loomChainDrop => exact hs.onDesc fun _ ht => .ite ht.finish (.ite ht (ht.runNow fun _ hu => hu.dropChain))
  | loomSetMode => exact hs.execLoomSetMode
  | vecEw2 => exact .next hs.dispatchVec
  | vecEw1 => exact .next hs.dispatchVec
  | vecFma => exact .next hs.dispatchVec
  | vecReduce => exact .next hs.dispatchVec
  | vecArgmax => exact .next hs.dispatchVec
  | vecRequant => exact .next hs.dispatchVec
  | vecConvert => exact .next hs.dispatchVec
  | vecCurve => exact .next hs.dispatchVec
  | vecGather => exact .next hs.dispatchVec
  | vecInstructionComplete => exact .ite (.next hs.completeVec) (.next hs)
  | seqLoad => exact hs.execSeqLoad
  | seqStart => exact hs.onDesc fun _ ht => .ite ht.finish (.ite ht.finish ht.handOver.setCore)
  | seqStop => exact hs.onDesc fun _ ht => .ite ht.finish (ht.runNow fun _ hu => hu.endProgram)
  | ecall => exact .ite (.next hs.endProgram) (.next hs)
  | seqAccessFault => exact .ite (.next hs.endProgram) (.next hs)
  | tiSubmit => exact hs.execTiSubmit
  | tiWait => exact .ite (.next hs.setCore) (.next hs)
  | tiPoll => exact .ite (.next hs.setCore) (.next hs)
  | tiStep => exact .ite (.next hs.setCore) (.next hs)
  | tiFence => exact .ite (.next hs.setCore) (.next hs)
  | controlCoreRetire => exact hs.execControlCoreRetire
  | reedConv => exact hs.execReedConv
  | bwdPick => exact .next hs.dispatchPick
  | bwdAttn => exact hs.execBwdAttn
  | stashPut => exact hs.execStashPut
  | stashRoomFreed => exact .ite (.next hs.retryPuts) (.next hs)
  | stashFullWaitExpiry => exact .ite (.next hs.setStash.count.complete) (.next hs)
  | stashGet => exact hs.execStashGet
  | stashDrop => exact hs.execStashDrop
  | treadleBind => exact hs.execTreadleBind
  | treadleGrant => exact .ite (.next hs.grantTurn) (.next hs)
  | treadleWait => exact hs.onDesc fun _ ht => .ite ht.finish (.ite ht (ht.runNow fun _ hu => hu))
  | treadleSignal => exact hs.onDesc fun _ ht => .ite ht.finish (.ite ht (ht.runNow fun _ hu => hu.signalToken))
  | mbAdmit => exact hs.execMbAdmit
  | mbRetire => exact hs.onDesc fun _ ht => .ite ht.finish (ht.runNow fun _ hu => hu.update)
  | updStat => exact hs.onDesc fun _ ht => ht.dispatchUpd
  | updApply => exact hs.onDesc fun _ ht => ht.dispatchUpd
  | barrierOutcomeHeld => exact hs.execBarrierOutcomeHeld
  | templeOpen => exact hs.execTempleOpen
  | templeAttach => exact hs.onDesc fun _ ht => .ite ht.finish (ht.runNow fun _ hu => hu.update)
  | templeTally => exact hs.execTempleTally
  | templeSeal => exact hs.execTempleSeal
  | templeDecide => exact hs.execTempleDecide
  | templeClose => exact hs.onDesc fun _ ht => .ite ht.finish (.ite ht (ht.runNow fun _ hu => hu.setCtx.update))
  | tierRegister => exact hs.execTierRegister
  | tierFree => exact hs.execTierFree
  | tierPromote => exact hs.onDesc fun _ ht => .ite ht.finish (.ite ht ht.handOver.tierAct)
  | tierEvict => exact hs.onDesc fun _ ht => .ite ht.finish ht.handOver.tierAct
  | tierPack => exact hs.execTierPack
  | moveEnds => exact .ite (.next hs.moveEnds) (.next hs)
  | t2LateThresholdExpiry => exact .ite (.next hs.count.count) (.next hs)
  | t2StallTimeoutExpiry => exact hs.execT2StallTimeoutExpiry
  | demotionRetry => exact hs.execDemotionRetry
  | hubRetire => exact .ite (.next hs.loseHub) (.next hs)
  | leaseGrant => exact hs.execLeaseGrant
  | leaseRelease => exact hs.execLeaseRelease
  | pruPut => exact hs.onDesc fun _ ht => .ite ht.finish (.ite ht.finish (.ite ht.finish ht.handXfer))
  | pruAtomic => exact hs.execPruAtomic
  | pruSignal => exact hs.execPruSignal
  | pruGroup => exact hs.execPruGroup
  | pruReduce => exact hs.onColl
  | pruGather => exact hs.onColl
  | pruBarrier => exact hs.onColl
  | pruRegion => exact hs.execPruRegion
  | laneTrained => exact .ite (.next hs.laneUp) (.next hs)
  | laneMarker => exact hs.execLaneMarker
  | flitReceive => exact hs.execFlitReceive
  | nak => exact .ite (.next hs.takeNak.drainLane) (.next hs)
  | laneFail => exact .ite (.next hs.failLane) (.next hs)
  | put => exact hs.execPut
  | get => exact hs.onRecord fun _ ht => .ite ht.respond (.ite ht.respond ht.noteRead.respond)
  | atom => exact hs.execAtom
  | signal => exact hs.onRecord fun _ ht => .ite ht.respond ht.signalToken.respond
  | rsp => exact hs.execRsp
  | coll => exact hs.onRecord fun _ ht => .ite ht ht.putMsg.pumpGroup
  | exp => exact hs.onRecord fun _ ht => .ite ht ht.putMsg.pumpGroup
  | barrier => exact hs.onRecord fun _ ht => .ite ht ht.putMsg.pumpGroup
  | hello => exact .ite (.next hs) (.ite (.next hs.noteStranger) (.ite (.next hs) (.next hs.takeHello)))
  | peerDown => exact hs.execPeerDown
  | xactTimeoutExpiry => exact .ite (.next hs.declareLost) (.next hs)
  | ethFrameReceive => exact hs.onDatagram fun _ _ ht => ht.takeEth
  | ethRtoExpiry => exact .ite (.next hs.ethResend) (.next hs)
  | farDatagramReceive => exact hs.onDatagram fun _ _ ht => ht.takeFar
  | rdS => exact .ite (.next hs.coreAsks) (.next hs)
  | rdX => exact .ite (.next hs.coreAsks) (.next hs)
  | upg => exact hs.execUpg
  | rdNc => exact .ite (.next hs.setCoh) (.ite (.next hs.arrive) (.next hs))
  | wrNc => exact .ite hs.controlWrite (.ite (.next hs.arrive) (.next hs))
  | wb => exact hs.execWb
  | cln => exact hs.execCln
  | atomN => exact hs.execAtomN
  | snpS => exact .next hs.snooped
  | snpX => exact .next hs.snooped
  | snpCur => exact .next hs.snooped
  | snpInv => exact .next hs.snooped
  | lrSnoopDelayExpiry => exact hs.execLrSnoopDelayExpiry
  | rspI => exact .next hs.deliverIf
  | rspS => exact .next hs.deliverIf
  | rspO => exact .next hs.deliverIf
  | rspFwd => exact .next hs.deliverIf
  | grant => exact hs.execGrant
  | ack => exact .next hs.deliverIf
  | wbAck => exact .next hs.deliverIf
  | data => exact hs.execData
  | agentSnoopLimitExpiry => exact .ite (.next hs.agentDies) (.next hs)
  | agentDead => exact .ite (.next hs.agentDies) (.next hs)
  | privSnoopTimeoutExpiry => exact .ite (.next hs.privTimeout) (.next hs)
  | snpdata => exact .ite (.next hs.hostSnoops) (.next hs)
  | snpinv => exact .ite (.next hs.hostSnoops) (.next hs)
  | snpcur => exact .ite (.next hs.hostSnoops) (.next hs)
  | snoopDeadlineMiss => exact hs.execSnoopDeadlineMiss
  | birsp => exact hs.execBirsp
  | memrd => exact .ite (.next hs) (.ite (.next hs.count.emit) (.next hs.readPieces.emit))
  | memwr => exact hs.execMemwr
  | bar2Read => exact .ite (.next hs) (.ite (.next hs.count.emit) (.next hs.readPieces.emit))
  | bar2Write => exact .ite (.next hs) (.ite (.next hs) (.next (State.Blown.ite hs.count hs).barStore))
  | peerTimeout => exact hs.execPeerTimeout
  | hostEpochChange => exact .next hs.epochChange
  | portReady => exact .ite (.next hs.setHost) (.next hs)
  | create => exact hs.execCreate
  | destroy => exact hs.execDestroy
  | reattach => exact hs.execReattach
  | attach => exact hs.execAttach
  | regionRegister => exact hs.execRegionRegister
  | regionRelease => exact hs.execRegionRelease
  | registerWrite => exact hs.execRegisterWrite
  | queueAbort => exact hs.execQueueAbort
  | identify => exact hs.onDap
  | sessionOpen => exact hs.onDap
  | sessionClose => exact hs.onDap
  | sessionIdleTimeout => exact .ite (.next hs.endSessions.count) (.next hs)
  | read => exact hs.onDap
  | write => exact hs.onDap
  | describe => exact hs.onDap
  | enumerate => exact hs.onDap
  | arm => exact hs.onDap
  | armAtStep => exact hs.onDap
  | armCancel => exact hs.onDap
  | discard => exact hs.onDap
  | stagedList => exact hs.onDap
  | eventRead => exact hs.onDap
  | spdmTunnel => exact hs.onDap
  | mbxDoorbell => exact hs.execMbxDoorbell
  | mbxAck => exact hs.execMbxAck
  | neighborSolicitation => exact .ite (.next hs.emit) (.next hs)
  | echoRequest => exact .ite (.next hs.emit) (.next hs)
  | setEndpointId => exact .ite (.next hs) (.ite (.next hs.mctpAnswer) (.next hs.update.mctpAnswer))
  | getEndpointId => exact .ite (.next hs.mctpAnswer) (.next hs)
  | getMctpVersionSupport => exact .ite (.next hs) (.ite (.next hs.mctpAnswer) (.next hs.mctpAnswer))
  | getMessageTypeSupport => exact .ite (.next hs.mctpAnswer) (.next hs)
  | getVendorDefinedMessageSupport => exact .ite (.next hs) (.ite (.next hs.mctpAnswer) (.next hs.mctpAnswer))
  | getVersion => exact hs.spdmOver
  | getCapabilities => exact hs.spdmOver
  | negotiateAlgorithms => exact hs.spdmOver
  | getDigests => exact hs.spdmOver
  | getCertificate => exact hs.spdmOver
  | challenge => exact hs.spdmOver
  | getMeasurements => exact hs.spdmOver
  | chunkSend => exact hs.spdmOver
  | chunkGet => exact hs.spdmOver
  | spdmUnsupportedRequest => exact hs.spdmOver
  | fmtCountersClear => exact hs.execFmtCountersClear
  | loomCountersClear => exact hs.execLoomCountersClear
  | vecCountersClear => exact hs.execVecCountersClear
  | reedCountersClear => exact hs.execReedCountersClear
  | bwdCountersClear => exact hs.execBwdCountersClear
  | updCountersClear => exact hs.execUpdCountersClear
  | templeCountersClear => exact hs.execTempleCountersClear
  | templeAlarmClear => exact hs.execTempleAlarmClear
  | strCountersClear => exact hs.execStrCountersClear
  | tirCountersClear => exact hs.execTirCountersClear
  | cohCountersClear => exact hs.execCohCountersClear
  | dirProbeAddr => exact hs.execDirProbeAddr
  | hstCountersClear => exact hs.execHstCountersClear
  | pruCountersClear => exact hs.execPruCountersClear
  | configDefaults => exact hs.onCmd fun _ ht => .ite_fst ht.configDefaults ht
  | dftCountersClear => exact hs.execDftCountersClear
  | stepCommit => exact hs.execStepCommit
  | groupRestore => exact hs.execGroupRestore
  | outcomeAdopt => exact hs.execOutcomeAdopt
  | commitRebase => exact hs.execCommitRebase
  | boltNote => exact hs.execBoltNote
  | fwImage => exact hs.onCmd fun _ ht => ht.fwImage
  | fwInstall => exact hs.execFwInstall
  | fwActivate => exact hs.execFwActivate
  | recCountersClear => exact hs.execRecCountersClear
  | ownerKey => exact hs.onCmd fun _ ht => ht.writeKey
  | operatorKey => exact hs.onCmd fun _ ht => ht.writeKey
  | ownerRelease => exact hs.execOwnerRelease
  | secCountersClear => exact hs.execSecCountersClear
  | moduleReset => exact hs.execModuleReset
  | rootSwitch => exact hs.execRootSwitch
  | pwrCountersClear => exact hs.execPwrCountersClear
  | modCountersClear => exact hs.execModCountersClear
  | journalPageProgrammed => exact .next (hs.count.update.watchForecasts fun _ ht => ht.checkNands)
  | checkpoint => exact .ite (.next hs) (.next hs.record.update)
  | lifetime => exact .ite (.next (hs.watchForecasts fun _ ht => ht.update.lifetimeRecord)) (.next hs)
  | nandDieFail => exact .ite (.next hs.failNand) (.next hs)
  | wearLevelRelocation => exact hs.execWearLevelRelocation
  | rowRepair => exact .ite (.next hs.rowRepair) (.next hs)
  | mgmtSwitchover => exact .ite (.next hs.mgmtFails) (.next hs)
  | noManagementDie => exact .ite (.next (State.Blown.noClock hs.update)) (.next hs)
  | rootLossOfLock => exact .ite (.next hs.loseRoot) (.next hs)
  | pwrfailN => exact hs.execPwrfailN
  | inputLow => exact .ite (.next hs.setInput.count.event) (.next hs)
  | inputHighBand => exact .ite (.next hs.setInput.event) (.next hs)
  | overvoltageShutdown => exact .ite (.next hs.powerFail) (.next hs)
  | stageFailure => exact .ite (.next hs.stageFails) (.next hs)
  | pacingEngage => exact .ite (.next hs.setPower) (.next hs)
  | pacingAdjust => exact .ite (.next hs) (.ite (.next hs.setPower) (.ite (.next hs) (.next hs.setPower)))
  | thermalShutdown => exact .ite (.next hs.powerFail) (.next hs)
  | holdupLow => exact .ite (.next hs.setPower.count.event.setAlert) (.next hs)
  | coldStart => exact .ite (.next hs.coldStart) (.next hs)
  | mrstN => exact hs.execMrstN
  | warmStart => exact .ite (.next hs.warmStart) (.ite (.next hs.holdReset.warmStart) (.next hs))
  | coolantExcursion => exact hs.execCoolantExcursion
  | airExcursion => exact hs.execAirExcursion
  | lossOfInput => exact hs.execLossOfInput
  | standbyRootLock => exact .ite (.next hs.setRoots) (.next hs)
  | hartStart => exact .ite (.next hs.update) (.next hs)
  | configurationRequest => exact hs.execConfigurationRequest
  | cxlCacheResponse => exact hs.execCxlCacheResponse
  | peerReadCompletion => exact .ite (.next hs.peerReadEnds) (.next hs)
  | unknownMtype => exact hs.onDap
  | badCommand => exact hs.execBadCommand

/-- A step is a tick or the front command, run on the state with the rest of the queue. -/
theorem State.Blown.step (hs : s.Blown x₀) : Result.Blown x₀ (step s) := by
  unfold Sys2Proof.Machine.step
  split
  · exact .next hs.tick
  · exact hs.update.exec

theorem State.Blown.refl (s : State) : s.Blown s.sec := fun _ => ⟨le_rfl, le_rfl⟩

/-- Settles O6: a state is past its own fuses, and a step leads from there to states that still are. -/
theorem stepNeverLowersFuseCounters : Obligations.StepNeverLowersFuseCounters := by
  unfold Obligations.StepNeverLowersFuseCounters
  intro s t hstep
  exact (State.Blown.step (.refl s)).of_eq_next hstep

/-- Settles O3: the law of each command says that it answers a state. -/
theorem noCommandStopsTheBlock : Obligations.NoCommandStopsTheBlock := by
  unfold Obligations.NoCommandStopsTheBlock
  intro c s
  obtain ⟨t, ht, -⟩ := State.Blown.exec (i := c) (.refl s)
  exact ⟨t, ht⟩

/-- Settles O1: the step takes the front command off the queue and runs it. -/
theorem stepRunsTheFrontCommand : Obligations.StepRunsTheFrontCommand := by
  unfold Obligations.StepRunsTheFrontCommand
  intro c r s hpending
  simp only [step, hpending]

end Sys2Proof.Machine
end

section
/-!
PROOF. O9: completing a descriptor leaves the rest of the device (R294). `State.beside` says so of all but the queues;
that memory and the fabric write no queue, and that the record engine of a queue writes no other, comes first.
-/

namespace Sys2Proof.Machine

open Sys2Proof

theorem ite_queues {c : Prop} [Decidable c] {s t u : State} (h : t.queues = s.queues)
    (k : u.queues = s.queues) : (if c then t else u).queues = s.queues := by
  split
  · exact h
  · exact k

theorem foldl_queues {α : Type} (f : State → α → State) (hf : ∀ t a, (f t a).queues = t.queues) (l : List α)
    (s : State) : (l.foldl f s).queues = s.queues := by
  induction l generalizing s with
  | nil => rfl
  | cons a r ih => rw [List.foldl_cons, ih, hf]

@[simp] theorem setCoh_queues (s : State) (c : Coh) : (s.setCoh c).queues = s.queues := rfl

@[simp] theorem count_queues (s : State) (i j n : Nat) : (s.count i j n).queues = s.queues := by
  unfold State.count; split <;> rfl

@[simp] theorem dropCopies_queues (s : State) (lo hi : Nat) : (s.dropCopies lo hi).queues = s.queues := rfl

@[simp] theorem noteFrames_queues (s : State) (a n : Nat) : (s.noteFrames a n).queues = s.queues := rfl

@[simp] theorem cohCount_queues (s : State) (l c n : Nat) : (s.cohCount l c n).queues = s.queues := by
  unfold State.cohCount; split <;> simp

@[simp] theorem toHost_queues (s : State) (op : CacheOp) (l : Nat) (b : List Byte) :
    (s.toHost op l b).queues = s.queues := by
  unfold State.toHost; split <;> simp

@[simp] theorem trapReq_queues (s : State) (r : Req) : (s.trapReq r).queues = s.queues := by
  unfold State.trapReq State.trapCore; split <;> simp

@[simp] theorem storePoison_queues (s : State) (l r a : Nat) : (s.storePoison l r a).queues = s.queues := by
  unfold State.storePoison
  split
  · rfl
  · dsimp only
    split
    · exact (count_queues _ _ _ _).trans (dropCopies_queues ..)
    · exact dropCopies_queues s l l

@[simp] theorem noteRead_queues (s : State) (a n : Nat) : (s.noteRead a n).queues = s.queues := by
  unfold State.noteRead
  rw [countTier_queues, settleLines_queues]
  exact foldl_queues _ (fun t l => storePoison_queues t l _ _) _ _

@[simp] theorem omitFrame_queues (s : State) (j : Nat) (o : TierObj) (f : Nat) :
    (s.omitFrame j o f).queues = s.queues := rfl

@[simp] theorem encodeRange_queues (s : State) (a n : Nat) : (s.encodeRange a n).queues = s.queues := by
  unfold State.encodeRange
  generalize spaceOf a = sp
  cases sp with
  | object j =>
    dsimp only
    generalize Tab.find s.objects j = o
    cases o with
    | none => rfl
    | some o => exact ite_queues (foldl_queues _ (fun t f => omitFrame_queues t j o _) _ _) rfl
  | _ => rfl

@[simp] theorem putLine_queues (s : State) (l : Nat) (b : List Byte) (f : Bool) :
    (s.putLine l b f).queues = s.queues := by
  unfold State.putLine
  rw [encodeRange_queues]
  have h : ∀ t : State, t.queues = s.queues → ∀ m, ({ t with mem := m } : State).queues = s.queues :=
    fun t ht _ => ht
  refine h _ ?_ _
  by_cases hf : f = true <;> by_cases ht : s.inTier2 (64 * l) = true <;> simp [hf, ht, settleLines_queues]

@[simp] theorem setMem_queues (s : State) (m : Mem) : ({ s with mem := m } : State).queues = s.queues := rfl

@[simp] theorem recallLine_queues (s : State) (l : Nat) : (s.recallLine l).queues = s.queues := by
  cases ho : s.coh.ownerCopy l with
  | some x => simp only [State.recallLine, ho, setMem_queues]
  | none =>
    by_cases hh : s.coh.hostOwns l = true
    · simp only [State.recallLine, ho, hh, if_true, setMem_queues]
    · simp only [State.recallLine, ho, hh, if_false, Bool.false_eq_true]

/-! ### The fabric -/

@[simp] theorem poisonLine_queues (s : State) (l w a : Nat) : (s.poisonLine l w a).queues = s.queues := by
  unfold State.poisonLine; simp

@[simp] theorem dataFromMemory_queues (s : State) (a l : Nat) :
    (s.dataFromMemory a l).queues = s.queues := by
  unfold State.dataFromMemory; simp

@[simp] theorem grantTo_queues (s : State) (r : Req) (st : Moesi) (d : DirSt) (o : Nat) (sh : List Nat)
    (y : Bool) : (s.grantTo r st d o sh y).queues = s.queues := by
  unfold State.grantTo; simp

@[simp] theorem answerPoison_queues (s : State) (a l : Nat) : (s.answerPoison a l).queues = s.queues := by
  unfold State.answerPoison; simp

@[simp] theorem grantPoison_queues (s : State) (r : Req) : (s.grantPoison r).queues = s.queues := by
  unfold State.grantPoison; simp

@[simp] theorem finishGrant_queues (s : State) (t : Txn) : (s.finishGrant t).queues = s.queues := by
  unfold State.finishGrant
  extract_lets r e listed s1 s2
  have h2 : s2.queues = s.queues := ite_queues rfl (by simp [s1])
  clear_value s2
  split
  · rw [grantPoison_queues]; exact ite_queues (by simp [s1]) rfl
  · split
    · split <;> simp [h2]
    · simp [h2]

@[simp] theorem finishWrite_queues (s : State) (t : Txn) : (s.finishWrite t).queues = s.queues := by
  unfold State.finishWrite
  dsimp only
  split
  · simp
  · split <;> simp

@[simp] theorem finishAtomic_queues (s : State) (t : Txn) : (s.finishAtomic t).queues = s.queues := by
  unfold State.finishAtomic
  extract_lets r s1 waits hit s2 s3
  have h3 : s3.queues = s.queues := by
    by_cases a : hit = true <;> by_cases b : r.agent < 42 <;> simp [s3, s2, s1, a, b]
  clear_value s3
  split
  · exact h3
  · split
    · exact (noteRead_queues s3 _ _).trans h3
    · simp [h3]

@[simp] theorem finishWb_queues (s : State) (r : Req) : (s.finishWb r).queues = s.queues := by
  unfold State.finishWb
  dsimp only
  split <;> simp

@[simp] theorem finishCln_queues (s : State) (r : Req) : (s.finishCln r).queues = s.queues := by
  unfold State.finishCln; simp

@[simp] theorem finishHost_queues (s : State) (t : Txn) : (s.finishHost t).queues = s.queues := by
  unfold State.finishHost
  dsimp only
  cases t.bytes <;> simp

@[simp] theorem finishDropped_queues (s : State) (t : Txn) : (s.finishDropped t).queues = s.queues := by
  unfold State.finishDropped
  cases t.req.kind
  case rdX | upg =>
    dsimp only
    split
    · split <;> simp
    · cases t.bytes <;> simp
  case rdS =>
    dsimp only
    split <;> simp
  all_goals rfl

@[simp] theorem finishTxn_queues (s : State) (t : Txn) : (s.finishTxn t).1.queues = s.queues := by
  unfold State.finishTxn
  dsimp only
  split
  · simp
  split
  · simp
  cases t.req.kind
  case rdNc =>
    dsimp only
    split
    · simp
    · split <;> simp
  all_goals simp

@[simp] theorem openTxn_queues (s : State) (r : Req) : (s.openTxn r).queues = s.queues := by
  unfold State.openTxn; dsimp only; split <;> simp

@[simp] theorem settle_queues (s : State) (k : Nat) : (s.settle k).queues = s.queues := by
  unfold State.settle
  split
  · rfl
  · split
    · rfl
    · dsimp only; split <;> simp

@[simp] theorem refuseReq_queues (s : State) (r : Req) : (s.refuseReq r).queues = s.queues := by
  unfold State.refuseReq; split <;> simp

@[simp] theorem beginReq_queues (s : State) (r : Req) : (s.beginReq r).queues = s.queues := by
  unfold State.beginReq; dsimp only; split <;> simp

@[simp] theorem recall_queues (s : State) (l : Nat) : (s.recall l).queues = s.queues := by
  unfold State.recall; dsimp only; split <;> simp

theorem beginFuel_queues (n : Nat) : ∀ s : State, (s.beginFuel n).queues = s.queues := by
  induction n with
  | zero => exact fun _ => rfl
  | succ n ih =>
    intro s
    unfold State.beginFuel
    split
    · rfl
    · rw [ih]; split <;> simp

@[simp] theorem beginAll_queues (s : State) : s.beginAll.queues = s.queues := beginFuel_queues _ s

@[simp] theorem advance_queues (s : State) (k : Nat) : (s.advance k).queues = s.queues := by
  unfold State.advance; simp

@[simp] theorem arrive_queues (s : State) (r : Req) : (s.arrive r).queues = s.queues := by
  unfold State.arrive; simp

@[simp] theorem ask_queues (s : State) (r : Req) : (s.ask r).queues = s.queues := by
  unfold State.ask; simp

@[simp] theorem answered_queues (s : State) (h : Bool) (a l : Nat) : (s.answered h a l).queues = s.queues := by
  unfold State.answered; dsimp only; split <;> simp

@[simp] theorem snoopArrives_queues (s : State) (x : Snoop) : (s.snoopArrives x).queues = s.queues := by
  unfold State.snoopArrives State.askHost
  dsimp only
  split
  · rw [count_queues]; rfl
  · split <;> simp

@[simp] theorem homeFwd_queues (s : State) (a l : Nat) (h : Bool) : (s.homeFwd a l h).queues = s.queues := by
  unfold State.homeFwd
  dsimp only
  split
  · simp
  · split <;> simp

@[simp] theorem homeAck_queues (s : State) (a l : Nat) : (s.homeAck a l).queues = s.queues := by
  unfold State.homeAck
  split
  · split <;> simp
  · rfl

@[simp] theorem farRuns_queues (s : State) (f : FarOp) (l : CacheLine) : (s.farRuns f l).queues = s.queues := by
  unfold State.farRuns
  dsimp only
  split
  · simp
  · split <;> simp
  · simp

@[simp] theorem farReady_queues (s : State) (a l : Nat) : (s.farReady a l).queues = s.queues := by
  unfold State.farReady
  split
  · dsimp only; split <;> simp
  · rfl

@[simp] theorem settleFill_queues (s : State) (f : Fill) : (s.settleFill f).queues = s.queues := by
  unfold State.settleFill
  dsimp only
  split
  · simp
  · split <;> simp
  · split <;> simp
  · simp
  · rfl

@[simp] theorem grantArrives_queues (s : State) (a l : Nat) (g : Option Moesi × Bool × Bool × Bool) :
    (s.grantArrives a l g).queues = s.queues := by
  unfold State.grantArrives
  dsimp only
  split <;> simp

@[simp] theorem dataArrives_queues (s : State) (a l : Nat) (d : List Byte × Bool) :
    (s.dataArrives a l d).queues = s.queues := by
  unfold State.dataArrives
  dsimp only
  split
  · split <;> simp
  · simp

@[simp] theorem deliverMsg_queues (s : State) (m : CohMsg) : (s.deliverMsg m).queues = s.queues := by
  cases m <;>
    simp [State.deliverMsg, State.homeRspI, State.homeRspS, State.homeRspO, State.wbAckArrives]

@[simp] theorem hostReturns_queues (s : State) (x : Snoop) (d : Option (List Byte)) (k : Bool) :
    (s.hostReturns x d k).queues = s.queues := by
  unfold State.hostReturns
  dsimp only
  cases d <;> split <;> simp

theorem pushLine_queues (l : Nat) (h : Bool) (n : Nat) : ∀ s : State, (s.pushLine l h n).queues = s.queues := by
  induction n with
  | zero => exact fun _ => rfl
  | succ n ih =>
    intro s
    unfold State.pushLine
    split
    · rfl
    · split
      · rw [ih]; simp
      · split
        · rw [ih]; simp [State.endDelay]
        · split
          · rfl
          · split
            · rw [ih]; simp
            · split
              · split
                · rw [ih]; simp
                · rfl
              · rfl

@[simp] theorem drain_queues (s : State) (lo hi : Nat) (h : Bool) : (s.drain lo hi h).queues = s.queues := by
  unfold State.drain
  exact ite_queues rfl (foldl_queues _ (fun t l => pushLine_queues l h _ t) _ _)

/-! ### Engine accesses -/

@[simp] theorem poisonRange_queues (s : State) (a n r x : Nat) : (s.poisonRange a n r x).queues = s.queues := by
  unfold State.poisonRange
  dsimp only
  rw [foldl_queues _ (fun t l => storePoison_queues t l r x)]
  exact ite_queues rfl (by simp)

@[simp] theorem storeBytes_queues (s : State) (a : Nat) (bs : List Byte) :
    (s.storeBytes a bs).queues = s.queues := by
  unfold State.storeBytes
  split
  · rfl
  · dsimp only
    rw [encodeRange_queues]
    split <;> simp [settleLines_queues]

@[simp] theorem writeMem_queues (s : State) (a : Nat) (bs : List Byte) : (s.writeMem a bs).queues = s.queues := by
  unfold State.writeMem
  exact ite_queues rfl (by simp [countTier_queues])

/-! ### Completions leave the other queues alone (R294) -/

variable {q k : BitVec 16}

theorem queue_setQueue_other (s : State) (c : QCtx) (h : k ≠ q) : (s.setQueue q c).queue k = s.queue k :=
  Tab.read_write_other _ _ _ _ _ fun e => h (BitVec.eq_of_toNat_eq e)

theorem issueFlush_queue_other (s : State) (h : k ≠ q) : (s.issueFlush q).queue k = s.queue k :=
  queue_setQueue_other _ _ h

theorem putRecord_queue_other (s : State) (r : CRec) (u p : Bool) (h : k ≠ q) :
    (s.putRecord q r u p).queue k = s.queue k := by
  unfold State.putRecord
  extract_lets c a s1 s2 s3 c3 c4 w c5 s4 s5
  have h1 : s1.queues = s.queues := by simp only [s1]; split <;> simp
  have h3 : s3.queues = s.queues := by simp only [s3, s2]; split <;> simp [h1]
  have h5 : s5.queue k = s.queue k := by
    have h4 : s4.queue k = s.queue k := (queue_setQueue_other s3 c5 h).trans (queue_congr h3 k)
    simp only [s5]
    split
    · exact (queue_congr (by simp) k).trans h4
    · exact h4
  split
  · exact (issueFlush_queue_other s5 h).trans h5
  · exact h5

/-- What a turn of the record engine can do: it moves its queue's context, it writes a record, or it asks for a
zero-length read. -/
theorem pumpOnce_cases {s t : State} (ht : s.pumpOnce q = some t) :
    (∃ c, t = s.setQueue q c) ∨ (∃ c r, t = (s.setQueue q c).putRecord q r false false) ∨ t = s.issueFlush q := by
  unfold State.pumpOnce at ht
  extract_lets c f₀ at ht
  split at ht
  · split at ht
    · cases ht
    · split at ht
      · cases ht; exact .inl ⟨_, rfl⟩
      · split at ht
        · split at ht
          · cases ht; exact .inl ⟨_, rfl⟩
          · cases ht
        · cases ht
  next f r hf =>
    cases hp : f.phase with
    | waiting => simp [hp] at ht
    | done st d1 d2 =>
      simp only [hp] at ht
      split at ht
      · cases ht; exact .inl ⟨_, setQueue_setQueue_same ..⟩
      · split at ht
        · cases ht
        · cases ht; exact .inr (.inl ⟨_, _, rfl⟩)
    | running e =>
      cases e
      case dispatch =>
        simp only [hp] at ht
        split at ht
        · split at ht
          · cases ht
          · split at ht
            · cases ht; exact .inl ⟨_, rfl⟩
            · split at ht
              · cases ht
              · cases ht; exact .inr (.inr rfl)
        · cases ht
      all_goals simp [hp] at ht

theorem pumpOnce_queue_other {s t : State} (h : k ≠ q) (ht : s.pumpOnce q = some t) : t.queue k = s.queue k := by
  obtain ⟨c, rfl⟩ | ⟨c, r, rfl⟩ | rfl := pumpOnce_cases ht
  · exact queue_setQueue_other s c h
  · exact (putRecord_queue_other _ r _ _ h).trans (queue_setQueue_other s c h)
  · exact issueFlush_queue_other s h

theorem pumpFuel_queue_other (h : k ≠ q) (n : Nat) : ∀ s : State, (s.pumpFuel q n).queue k = s.queue k := by
  induction n with
  | zero => exact fun _ => rfl
  | succ n ih =>
    intro s
    unfold State.pumpFuel
    split
    · rfl
    next t ht => exact (ih t).trans (pumpOnce_queue_other h ht)

theorem pump_queue_other (s : State) (h : k ≠ q) : (s.pump q).queue k = s.queue k := by
  unfold State.pump
  extract_lets c s1 c1
  have h1 : s1.queue k = s.queue k := pumpFuel_queue_other h _ s
  split
  · exact (issueFlush_queue_other s1 h).trans h1
  · exact h1

theorem complete_queue_other (s : State) (n : BitVec 16) (o : Outcm) (h : k ≠ q) :
    (s.complete q n o).queue k = s.queue k :=
  (pump_queue_other _ h).trans (queue_setQueue_other s _ h)

/-- Settles O9: the other queues by their law, and every other field by `State.beside`, which completion keeps. -/
theorem completionLeavesTheRestOfTheDevice : Obligations.CompletionLeavesTheRestOfTheDevice := by
  unfold Obligations.CompletionLeavesTheRestOfTheDevice
  intro s q n o t
  have hkept : ∀ {α : Type} (f : State → α), f t.beside = f s.beside := fun f =>
    congrArg f (complete_beside s q n o)
  refine ⟨fun k hk => complete_queue_other s n o hk, ?_⟩
  exact ⟨hkept State.pending, hkept State.dies, hkept State.power, hkept State.module, hkept State.draft,
    hkept State.mailbox, hkept State.host, hkept State.leases, hkept State.leaseReq, hkept State.leaseResult,
    hkept State.objects, hkept State.looms, hkept State.heddles, hkept State.mcast, hkept State.mcastSends,
    hkept State.vecs, hkept State.cores, hkept State.xfers, hkept State.rings, hkept State.treadle,
    hkept State.readyOrder, hkept State.tokens, hkept State.stash, hkept State.segs, hkept State.outcomeWaits,
    hkept State.seals, hkept State.ctxs, hkept State.attached, hkept State.peruo, hkept State.journal,
    hkept State.commit, hkept State.repairs, hkept State.fw, hkept State.sec, hkept State.spdm,
    hkept State.hartsStopped, hkept State.coreSlots⟩

end Sys2Proof.Machine
end

section
/-!
PROOF. O14 and O15: what an engine's write does to the bytes and the poison of memory while no line has an entry or a
request at its home (R225, R229, R257, R265, R297). There a byte reads as memory lists it; one law says what the write
leaves before the frames of a skein object are encoded, and encoding them drops cells of the object window alone.
-/

namespace Sys2Proof.Machine

open Sys2Proof

/-! ### Reads while the fabric is quiet (R255) -/

theorem byteAt_of_quiet (s : State) (x : Nat) (hq : s.coh.quiet = true) : s.byteAt x = cellsGet s.mem.cells x := by
  obtain ⟨hdir, htxns, hwaitq⟩ := (Coh.quiet_iff _).1 hq
  simp [State.byteAt, Coh.idleLine, Coh.txn, Coh.ownerCopy, Coh.hostOwns, hdir, htxns, hwaitq, Tab.find, Tab.read]

/-! ### Operations that leave the fabric alone -/

theorem settleLines_quiet (s : State) (ls : List Nat) : (s.settleLines ls).coh.quiet = s.coh.quiet := by
  unfold State.settleLines; split <;> rfl

theorem countTier_coh (s : State) (a n : Nat) (w : Bool) : (s.countTier a n w).coh = s.coh := by
  have one : ∀ (l : List Nat) (f : State → Nat → State), (∀ t k, (f t k).coh = t.coh) → (l.foldl f s).coh = s.coh :=
    fun l f hf => foldl_keeps (fun t => t.coh = s.coh) f l s rfl fun t k ht => (hf t k).trans ht
  unfold State.countTier
  split
  case h_4 => rfl
  all_goals
    refine one _ _ fun t k => ?_
    dsimp only
    split
    · rfl
    · split
      · split <;> simp
      · simp

/-! ### Encoding a frame (R229) -/

/-- A filter on addresses drops what it rejects, which then reads as its default. -/
theorem cellsGet_filter (l : List Host.Cell) (p : Nat → Bool) (x : Nat) :
    cellsGet (l.filter fun c => p c.1) x = if p x then cellsGet l x else memDefault x := by
  induction l with
  | nil => simp [cellsGet]
  | cons c r ih =>
    by_cases hp : p c.1 = true
    · rw [List.filter_cons_of_pos (p := fun d : Host.Cell => p d.1) hp, cellsGet, cellsGet, ih]
      by_cases hx : c.1 = x
      · simp [← hx, hp]
      · simp [hx]
    · rw [List.filter_cons_of_neg (p := fun d : Host.Cell => p d.1) hp, ih, cellsGet]
      by_cases hx : c.1 = x
      · simp [← hx, hp]
      · simp [hx]

/-- Outside the host window nothing that is not listed reads other than zero. -/
theorem memDefault_of_objectBase_le (x : Nat) (h : objectBase ≤ x) : memDefault x = 0 := by
  have : inHostWindow x = false := by simp [inHostWindow]; omega
  simp [memDefault, this]

theorem omitFrame_byte (s : State) (j : Nat) (o : TierObj) (off x : Nat) :
    cellsGet (s.omitFrame j o off).mem.cells x = cellsGet s.mem.cells x ∨
      cellsGet (s.omitFrame j o off).mem.cells x = 0 := by
  unfold State.omitFrame
  dsimp only
  rw [cellsGet_filter s.mem.cells (fun y => !(decide (objAddr j + off ≤ y ∧ y < objAddr j + off + 65536)
    && s.lineDead (objAddr j) o.opf o.rows o.cols (y / 64 * 64 - objAddr j)))]
  split
  · exact .inl rfl
  next h =>
    have hx : objAddr j + off ≤ x := by
      by_contra hlt
      simp [hlt] at h
    exact .inr (memDefault_of_objectBase_le x (by unfold objAddr at hx; omega))

/-- What encoding the frames that a write touches leaves: every byte as it was or zero, and all else in place. -/
structure State.EncodedFrom (t s : State) : Prop where
  bytes : ∀ x, cellsGet t.mem.cells x = cellsGet s.mem.cells x ∨ cellsGet t.mem.cells x = 0
  poison : t.mem.poison = s.mem.poison
  coh : t.coh = s.coh

theorem State.EncodedFrom.refl (s : State) : s.EncodedFrom s := ⟨fun _ => .inl rfl, rfl, rfl⟩

theorem State.EncodedFrom.omitFrame {t s : State} (h : t.EncodedFrom s) (j : Nat) (o : TierObj) (off : Nat) :
    (t.omitFrame j o off).EncodedFrom s where
  bytes x := by
    rcases omitFrame_byte t j o off x with he | he
    · rw [he]; exact h.bytes x
    · exact .inr he
  poison := h.poison
  coh := h.coh

theorem encodeRange_encodedFrom (s : State) (a n : Nat) : (s.encodeRange a n).EncodedFrom s := by
  unfold State.encodeRange
  split
  · split
    · split
      · exact foldl_keeps (fun t : State => t.EncodedFrom s) _ _ _ (.refl s) fun t f ht => ht.omitFrame _ _ _
      · exact .refl s
    · exact .refl s
  · exact .refl s

/-! ### The write -/

/-- With nothing to serve first, the bytes enter memory, the lines written whole lose their poison, and the frames
that the write touches are encoded. -/
theorem storeBytes_eq_encodeRange (s : State) (a : Nat) (bs : List Byte) (hq : s.coh.quiet = true) (hne : bs ≠ []) :
    ∃ u : State, s.storeBytes a bs = u.encodeRange a bs.length ∧ u.coh.quiet = true ∧
      u.mem = { cells := cellsPutAll s.mem.cells a bs
                poison := s.mem.poison.filter fun l => !(fullLines a bs.length).contains l } := by
  unfold State.storeBytes
  rw [if_neg hne]
  extract_lets n lo hi s1 s2 full s3 s4 s5
  have h1 : s1 = s := by simp only [s1, drain_of_quiet s _ _ _ hq, recallLine_of_quiet s _ hq]
  obtain ⟨hdir, htxns, hwaitq⟩ := (Coh.quiet_iff _).1 hq
  have h2 : s2.coh.quiet = true := by simp [s2, h1, State.dropCopies, Coh.quiet, hdir, htxns, hwaitq]
  have h3 : s3.coh.quiet = true := (settleLines_quiet s2 full).trans h2
  have hmem3 : s3.mem = s1.mem := settleLines_mem s2 full
  have h4 : s4.coh = s3.coh ∧ s4.mem = s3.mem := by simp only [s4]; split <;> exact ⟨rfl, rfl⟩
  obtain ⟨hcoh4, hmem4⟩ := h4
  refine ⟨s5, rfl, (congrArg Coh.quiet hcoh4).trans h3, ?_⟩
  simp only [s5, hmem4, hmem3, h1, full, n]

theorem writeMem_eq (s : State) (a : Nat) (bs : List Byte) (hw : inHostWindow a = false ∨ s.host.attach = .attached) :
    s.writeMem a bs = (s.storeBytes a bs).countTier a bs.length true := by
  unfold State.writeMem
  rw [if_neg (by rcases hw with h | h <;> simp [h])]

theorem storeBytes_quiet (s : State) (a : Nat) (bs : List Byte) (hq : s.coh.quiet = true) :
    (s.storeBytes a bs).coh.quiet = true := by
  by_cases hne : bs = []
  · simpa [State.storeBytes, hne] using hq
  · obtain ⟨u, hu, huq, -⟩ := storeBytes_eq_encodeRange s a bs hq hne
    rw [hu, (encodeRange_encodedFrom u a _).coh]
    exact huq

theorem byteAt_writeMem (s : State) (a x : Nat) (bs : List Byte) (hq : s.coh.quiet = true)
    (hw : inHostWindow a = false ∨ s.host.attach = .attached) :
    (s.writeMem a bs).byteAt x = cellsGet (s.storeBytes a bs).mem.cells x := by
  rw [writeMem_eq s a bs hw, byteAt_of_quiet _ _ (by rw [countTier_coh]; exact storeBytes_quiet s a bs hq),
    countTier_mem]

/-- Settles O14: past the encoding of frames the cells are those of the run that was written, which
`cellsGet_putAll` reads back. -/
theorem engineWriteReadsBackAndLeavesOtherBytes : Obligations.EngineWriteReadsBackAndLeavesOtherBytes := by
  unfold Obligations.EngineWriteReadsBackAndLeavesOtherBytes
  intro s a x bs t v
  refine ⟨fun hwf hq hw => ?_, fun hhost hdetached => ?_⟩
  · have hput : cellsGet (cellsPutAll s.mem.cells a bs) x = v := by
      rw [cellsGet_putAll _ _ _ _ ((Mem.wf_iff _).1 hwf).1, ← byteAt_of_quiet s x hq]
    have ht : t.byteAt x = cellsGet (s.storeBytes a bs).mem.cells x := byteAt_writeMem s a x bs hq hw
    rw [ht]
    refine ⟨fun homit => ?_, ?_⟩
    · rw [(storeBytes_of_quiet s a bs hq homit).1, hput]
    · by_cases hne : bs = []
      · left
        rw [← hput]
        simp [State.storeBytes, hne, cellsPutAll]
      · obtain ⟨u, hu, -, humem⟩ := storeBytes_eq_encodeRange s a bs hq hne
        rw [hu]
        simpa [humem, hput] using (encodeRange_encodedFrom u a bs.length).bytes x
  · simp [t, State.writeMem, hhost, hdetached]

theorem mem_fullLines_iff (a n l : Nat) (hn : n ≠ 0) : l ∈ fullLines a n ↔ a ≤ 64 * l ∧ 64 * l + 64 ≤ a + n := by
  have hlines : a ≤ 64 * l ∧ 64 * l + 64 ≤ a + n → l ∈ linesOf a n := by
    intro h
    rw [linesOf, if_neg hn, rangeFrom]
    refine List.mem_map.2 ⟨l - a / 64, List.mem_range.2 ?_, ?_⟩ <;> omega
  simp only [fullLines, List.mem_filter, decide_eq_true_eq]
  exact ⟨fun h => h.2, fun h => ⟨hlines h, h⟩⟩

/-- Settles O15: the write filters poison by the lines that it covers whole, and nothing after it touches poison. -/
theorem onlyWholeLineWritesClearPoison : Obligations.OnlyWholeLineWritesClearPoison := by
  unfold Obligations.OnlyWholeLineWritesClearPoison
  intro s a l bs hne hq hw
  obtain ⟨u, hu, -, humem⟩ := storeBytes_eq_encodeRange s a bs hq hne
  rw [writeMem_eq s a bs hw, countTier_mem, hu, (encodeRange_encodedFrom u a _).poison, humem]
  have hfull := mem_fullLines_iff a bs.length l (by simpa using hne)
  simp only [List.mem_filter, Bool.not_eq_true', List.contains_eq_mem, decide_eq_false_iff_not, hfull]

end Sys2Proof.Machine
end

section
/-!
PROOF. O48 and O49: the admin commands (R282, R288 to R291, R299). The frame of a command ends its block with what the
command answers; one law for each command says what it answers when its checks hold.
-/

namespace Sys2Proof.Machine

open Sys2Proof

/-! ### The frame of an admin command (R290) -/

theorem onAdmin_of_ok {s t : State} {b : AdminBlock} {f : State → Admin → Except Nat (State × Nat)} {v : Nat}
    (hreach : s.adminReach b = true) (h : f s (s.admin b) = .ok (t, v)) :
    s.onAdmin b f = .next (t.adminEnd b 0 v) := by
  simp [State.onAdmin, hreach, h]

theorem onAdmin_of_error {s : State} {b : AdminBlock} {f : State → Admin → Except Nat (State × Nat)} {r : Nat}
    (hreach : s.adminReach b = true) (h : f s (s.admin b) = .error r) :
    s.onAdmin b f = .next (s.adminEnd b r 0) := by
  simp [State.onAdmin, hreach, h]

section Command

variable {s t : State} {b : AdminBlock} {v : Nat}

theorem exec_create_of_ok (hreach : s.adminReach b = true) (h : s.createQueue b (s.admin b) = .ok (t, v)) :
    exec (.create b) s = .next (t.adminEnd b 0 v) :=
  onAdmin_of_ok (f := fun s a => s.createQueue b a) hreach h

theorem exec_destroy_of_ok (hreach : s.adminReach b = true) (h : s.destroyQueue b (s.admin b) = .ok (t, v)) :
    exec (.destroy b) s = .next (t.adminEnd b 0 v) :=
  onAdmin_of_ok (f := fun s a => s.destroyQueue b a) hreach h

theorem exec_reattach_of_ok (hreach : s.adminReach b = true) (h : s.reattachQueue b (s.admin b) = .ok (t, v)) :
    exec (.reattach b) s = .next (t.adminEnd b 0 v) :=
  onAdmin_of_ok (f := fun s a => s.reattachQueue b a) hreach h

theorem exec_attach_of_ok (hreach : s.adminReach b = true) (h : s.attachHost (s.admin b) = .ok (t, v)) :
    exec (.attach b) s = .next (t.adminEnd b 0 v) :=
  onAdmin_of_ok (f := fun s a => s.attachHost a) hreach h

theorem exec_regionRegister_of_ok (hreach : s.adminReach b = true) (h : s.registerRegion b (s.admin b) = .ok (t, v)) :
    exec (.regionRegister b) s = .next (t.adminEnd b 0 v) :=
  onAdmin_of_ok (f := fun s a => s.registerRegion b a) hreach h

theorem exec_regionRelease_of_ok (hreach : s.adminReach b = true) (h : s.releaseRegion b (s.admin b) = .ok (t, v)) :
    exec (.regionRelease b) s = .next (t.adminEnd b 0 v) :=
  onAdmin_of_ok (f := fun s a => s.releaseRegion b a) hreach h

end Command

/-! ### What each command answers when its checks hold -/

/-- The fields of CREATE are legal and its lease and die serve (R288, R289). -/
structure State.CreateLegal (s : State) (b : AdminBlock) (a : Admin) : Prop where
  open_ : s.adminShut b = false
  leased : a.lease.toNat ≠ 0
  lease_le : a.lease.toNat ≤ 1023
  active : (s.lease a.lease.toNat).state = .active
  depth : depthOk a.depth.toNat = true
  sqAligned : a.sqBase.toNat % 64 = 0
  cqAligned : a.cqBase.toNat % 64 = 0
  vector : a.vector = 0xFFFF ∨ a.vector.toNat < 2048
  die_lt : a.die.toNat < 26
  ofLease : bitOf (s.lease a.lease.toNat).dieMask.toNat a.die.toNat = true

/-- The context that CREATE gives its queue. -/
def State.createdQueue (s : State) (a : Admin) : QCtx :=
  { QCtx.init with
    state := .active, lease := a.lease.toNat, die := a.die.toNat, sqBase := a.sqBase.toNat
    cqBase := a.cqBase.toNat, depth := a.depth.toNat, vector := a.vector
    irqOnError := a.aflags.getLsbD 1, limit := s.obj 0x3500 3 16 }

theorem createQueue_of_legal {s : State} {b : AdminBlock} {a : Admin} {q : Nat} (h : s.CreateLegal b a)
    (hfree : s.newQueue a = some q) (hroom : s.leaseQueues a.lease.toNat < (s.lease a.lease.toNat).queues)
    (hrings : s.ringsBad a.lease.toNat a.depth.toNat a.sqBase.toNat a.cqBase.toNat = none) :
    s.createQueue b a = .ok (s.setQueue (BitVec.ofNat 16 q) (s.createdQueue a), q) := by
  have hvector : (a.vector == 0xFFFF || decide (a.vector.toNat < 2048)) = true := by simpa using h.vector
  have hlease := Nat.not_lt.2 h.lease_le
  have hdie := Nat.not_le.2 h.die_lt
  unfold State.createQueue
  extract_lets l depth fieldsOk free c
  have hfields : fieldsOk = true := by simp only [fieldsOk, depth, h.depth, h.sqAligned, h.cqAligned, hvector]; rfl
  rw [if_neg (by simp [h.open_]), if_neg (by simp [l, h.leased, h.active, hlease]), if_neg (by simp [hfields]),
    if_neg (by simp [l, hdie, h.ofLease])]
  simp only [hfree]
  rw [if_neg (Nat.not_le.2 hroom)]
  simp only [l, depth, hrings]
  rfl

theorem destroyQueue_of_free {s : State} {b : AdminBlock} {a : Admin} (hopen : s.adminShut b = false)
    (hfree : (s.queue a.queue).state = .free) : s.destroyQueue b a = .ok (s, a.queue.toNat) := by
  simp [State.destroyQueue, hopen, hfree]

/-- Queue `q` has left every chain of its die. -/
def State.unchained (s : State) (q : BitVec 16) : State :=
  (List.range 8).foldl (fun (t : State) l => t.dropChain (s.queue q).die l q) s

theorem destroyQueue_of_idle {s : State} {b : AdminBlock} {a : Admin} (hopen : s.adminShut b = false)
    (hused : (s.queue a.queue).state ≠ .free) (hidle : s.queueBusy a.queue = false)
    (hkept : ((s.unchained a.queue).lease (s.queue a.queue).lease).state ≠ .revoked) :
    s.destroyQueue b a =
      .ok ({ s.unchained a.queue with queues := Tab.remove (s.unchained a.queue).queues a.queue.toNat },
        a.queue.toNat) := by
  unfold State.destroyQueue
  extract_lets q c s1 s2 s3
  rw [if_neg (by simp [hopen]), if_neg hused, if_neg (by simp [q, hidle])]
  have h1 : s.unchained a.queue = s1 := rfl
  rw [h1] at hkept ⊢
  clear_value s1
  have h3 : s3 = s2 := if_neg fun h => hkept h.1
  rw [h3]
  subst h1
  rfl

/-- The rings that REATTACH names, each the old one where its base is 0 (R299). -/
def State.reattachSq (s : State) (a : Admin) : Nat := if a.sqBase = 0 then (s.queue a.queue).sqBase else a.sqBase.toNat

def State.reattachCq (s : State) (a : Admin) : Nat := if a.cqBase = 0 then (s.queue a.queue).cqBase else a.cqBase.toNat

/-- The fields of REATTACH are legal (R299). -/
structure State.ReattachLegal (s : State) (b : AdminBlock) (a : Admin) : Prop where
  open_ : s.adminShut b = false
  host : s.host.attach ≠ .lost
  orphaned : (s.queue a.queue).state = .orphaned
  sqAligned : s.reattachSq a % 64 = 0
  cqAligned : s.reattachCq a % 64 = 0
  head : a.cqHead = (s.queue a.queue).replayFrom
  rings : s.ringsBad (s.queue a.queue).lease (s.queue a.queue).depth (s.reattachSq a) (s.reattachCq a) = none

/-- The queue is ACTIVE on its rings, and its held records are written again (R299). -/
def State.replayed (s : State) (a : Admin) : State :=
  let c := s.queue a.queue
  (s.setQueue a.queue { c with
    state := .active, sqBase := s.reattachSq a, cqBase := s.reattachCq a, cqHead := a.cqHead, sqTail := c.nextSeq
    cqWritten := c.replayFrom, cqConfirmed := c.replayFrom, unconfirmed := [], flushReads := []
    sinceFlush := 0, uncertain := none, held := [] }).replay a.queue c.held
      (match c.uncertain with
        | some u => seqAhead u.1 u.2 + 1
        | none => 0)

theorem reattachQueue_of_legal {s : State} {b : AdminBlock} {a : Admin} (h : s.ReattachLegal b a) :
    s.reattachQueue b a =
      (let t := s.replayed a
       let d := t.queue a.queue
       .ok ((if (s.queue a.queue).held ≠ [] ∧ cqInHost d = true ∧ d.flushReads.getLast? ≠ some d.cqWritten
          then t.issueFlush a.queue else t).pump a.queue, (s.queue a.queue).held.length)) := by
  unfold State.reattachQueue
  extract_lets q c sq cq
  have hsq : sq % 64 = 0 := h.sqAligned
  have hcq : cq % 64 = 0 := h.cqAligned
  rw [if_neg (by simp [h.open_, h.host]), if_neg (by simp [c, q, h.orphaned]),
    if_neg (by simp [hsq, hcq, c, q, h.head])]
  have hrings : s.ringsBad c.lease c.depth sq cq = none := h.rings
  simp only [hrings]
  rfl

theorem attachHost_of_epoch {s : State} {a : Admin} (hhost : s.host.attach ≠ .lost) (hepoch : a.epoch = s.host.epoch) :
    s.attachHost a = .ok ({ s with host := { s.host with
        attach := .attached
        regions := s.host.regions.map (fun e => (e.1, { e.2 with enabled := !e.2.lost })) } },
      s.host.epoch.toNat % 65536) := by
  simp [State.attachHost, hhost, hepoch, State.setHost]

/-- The fields that a region's registration asks for are legal (R282, R283). -/
structure State.RegionLegal (s : State) (b : AdminBlock) (a : Admin) : Prop where
  open_ : s.adminShut b = false
  leased : a.lease.toNat ≠ 0
  lease_le : a.lease.toNat ≤ 1023
  active : (s.lease a.lease.toNat).state = .active
  region_lt : a.region.toNat < 4096
  nonempty : a.length.toNat ≠ 0
  lengthAligned : a.length.toNat % 65536 = 0
  targetAligned : a.target.toNat % 65536 = 0
  unused : Tab.find s.host.regions a.region.toNat = none
  device : touchesHost a.target.toNat a.length.toNat = false
  data : spaceOf a.target.toNat ≠ .control
  covered : s.leaseCovers a.lease.toNat a.target.toNat a.length.toNat = true

theorem registerRegion_of_legal {s : State} {b : AdminBlock} {a : Admin} {f : Nat} (h : s.RegionLegal b a)
    (hrun : s.apertureRun (if s.aperture = 0 then 0 else ceilDiv a.length.toNat s.aperture) = some f) :
    s.registerRegion b a = .ok ({ s with host := { s.host with
      regions := Tab.write s.host.regions a.region.toNat
        { enabled := s.host.attach == .attached, lost := false, rd := a.aflags.getLsbD 2, wr := a.aflags.getLsbD 3
          lease := a.lease.toNat, first := f
          apertures := if s.aperture = 0 then 0 else ceilDiv a.length.toNat s.aperture
          target := a.target.toNat, length := a.length.toNat } } }, f) := by
  have hlease := h.lease_le
  have hregion := h.region_lt
  have hdata : (match spaceOf a.target.toNat with | .control => true | _ => false) = false := by
    have := h.data
    split <;> simp_all
  unfold State.registerRegion
  extract_lets l r t n bad k g
  have hbad : bad = false := (congrArg₂ (· || ·) h.device hdata : _)
  rw [if_neg (by simp [h.open_]), if_neg (by simpa [l, h.leased, h.active] using hlease),
    if_neg (by simpa [r, n, t, h.nonempty, h.lengthAligned, h.targetAligned] using hregion),
    if_neg (by simp [r, h.unused]), if_neg (by simp [hbad, l, t, n, h.covered])]
  simp only [k, n, hrun, State.setHost]
  rfl

theorem releaseRegion_of_registered {s : State} {b : AdminBlock} {a : Admin} (hopen : s.adminShut b = false)
    (hlt : a.region.toNat < 4096) (hsome : (Tab.find s.host.regions a.region.toNat).isSome = true) :
    s.releaseRegion b a = .ok ({ s with host := { s.host with
      regions := Tab.remove s.host.regions a.region.toNat } }, a.region.toNat) := by
  simp [State.releaseRegion, hopen, Nat.not_le.2 hlt, Option.isSome_iff_ne_none.1 hsome, State.setHost]

theorem exec_badCommand (s : State) (b : AdminBlock) (c : Byte) (hc : 6 < c.toNat ∨ c = 0) :
    exec (.badCommand b c) s = s.onAdmin b (fun _ _ => .error 1) := by
  refine if_neg ?_
  rintro ⟨hlo, hhi⟩
  rcases hc with h | rfl
  · omega
  · simp at hlo

/-- Settles O48, each command by the frame and what it answers. -/
theorem adminCommandsShowTheirResult : Obligations.AdminCommandsShowTheirResult := by
  unfold Obligations.AdminCommandsShowTheirResult
  refine ⟨fun s t b v hreach => ?_, fun s b r hreach h => ?_, fun s b c hreach hc => ?_, ?_, ?_, ?_, ?_, ?_⟩
  · exact ⟨exec_create_of_ok hreach, exec_destroy_of_ok hreach, exec_reattach_of_ok hreach, exec_attach_of_ok hreach,
      exec_regionRegister_of_ok hreach, exec_regionRelease_of_ok hreach⟩
  · exact onAdmin_of_error (f := fun s a => s.createQueue b a) hreach h
  · rw [exec_badCommand s b c hc]
    exact onAdmin_of_error hreach rfl
  · intro s b q c u hreach hopen
    exact ⟨fun hfree => exec_destroy_of_ok hreach (destroyQueue_of_free hopen hfree),
      fun hused hidle hkept => exec_destroy_of_ok hreach (destroyQueue_of_idle hopen hused hidle hkept)⟩
  · intro s b a q c sq cq n t d hreach hopen hhost horphaned hsq hcq hhead hrings
    exact exec_reattach_of_ok hreach (reattachQueue_of_legal ⟨hopen, hhost, horphaned, hsq, hcq, hhead, hrings⟩)
  · intro s b hreach hhost hepoch
    exact exec_attach_of_ok hreach (attachHost_of_epoch hhost hepoch)
  · intro s b f a l r t n k hreach hopen hl hl' hact hr hn hn' ht hfree hdev hdata hcov hrun
    exact exec_regionRegister_of_ok hreach
      (registerRegion_of_legal ⟨hopen, hl, hl', hact, hr, hn, hn', ht, hfree, hdev, hdata, hcov⟩ hrun)
  · intro s b r hreach hopen hlt hsome
    exact exec_regionRelease_of_ok hreach (releaseRegion_of_registered hopen hlt hsome)

/-- Settles O49: the queue that CREATE makes is the one written, and `Tab` keeps the others. -/
theorem createMakesAnActiveQueue : Obligations.CreateMakesAnActiveQueue := by
  unfold Obligations.CreateMakesAnActiveQueue
  intro s b q a l hreach hopen hl hl' hact hdepth hsq hcq hvec hdie hmask hfree hq hroom hrings
  have hcreate := createQueue_of_legal (b := b) ⟨hopen, hl, hl', hact, hdepth, hsq, hcq, hvec, hdie, hmask⟩
    hfree hroom hrings
  refine ⟨_, hcreate, exec_create_of_ok hreach hcreate, ?_, fun k hk => ?_, rfl, rfl⟩
  · rw [queue_setQueue_same]
    exact ⟨rfl, rfl, rfl, rfl, rfl, rfl, rfl, rfl, rfl, rfl, rfl, rfl, rfl⟩
  · refine queue_setQueue_other s _ fun h => hk ?_
    rw [h, BitVec.toNat_ofNat, Nat.mod_eq_of_lt hq]

end Sys2Proof.Machine
end

section
/-!
PROOF. O47: what the host reads and writes through BAR2 and HDM, peer reads, the host epoch and the port (R282 to R287,
R297, R441).
-/

namespace Sys2Proof.Machine

open Sys2Proof

/-! ### Accesses to BAR2 and HDM (R282 to R286) -/

section Port

variable {s : State} (hup : s.portUp = true)
include hup

theorem exec_bar2Read_of_refused {o n : Nat} (h : (s.barPieces o n false).any (fun p => p.2.2.isNone) = true) :
    exec (.bar2Read o n) s = .next ((s.count 0x7921 0xC 1).emit .completerAbort) := by
  simp only [exec, execBar2Read, hup, h]
  rfl

theorem exec_bar2Read_of_permitted {o n : Nat} (h : (s.barPieces o n false).any (fun p => p.2.2.isNone) = false) :
    exec (.bar2Read o n) s =
      .next ((s.readPieces (s.barPieces o n false)).1.emit
        (.bar2Data (s.readPieces (s.barPieces o n false)).2.1 (s.readPieces (s.barPieces o n false)).2.2)) := by
  simp only [exec, execBar2Read, hup, h]
  rfl

theorem exec_bar2Write_of_unheld {o : Nat} {b : List Byte} {p : Bool}
    (hfree : s.barHeld (s.barPieces o b.length true) = false) :
    exec (.bar2Write o b p) s =
      .next ((if (s.barPieces o b.length true).any (fun p => p.2.2.isNone) then s.count 0x7921 0xC 1 else s).barStore
        (s.barPieces o b.length true) b p) := by
  simp only [exec, execBar2Write, hup, hfree]
  rfl

variable (hcxl : s.host.cxlUp = true)
include hcxl

theorem exec_memrd_of_refused {o : Nat}
    (h : (s.barPieces (o / 64 * 64) 64 false).any (fun p => p.2.2.isNone) = true) :
    exec (.memrd o) s = .next ((s.count 0x7921 0xD 1).emit (.memData (List.replicate 64 0) true)) := by
  simp only [exec, execMemrd, hup, hcxl, h]
  rfl

theorem exec_memrd_of_permitted {o : Nat}
    (h : (s.barPieces (o / 64 * 64) 64 false).any (fun p => p.2.2.isNone) = false) :
    exec (.memrd o) s = (let r := s.readPieces (s.barPieces (o / 64 * 64) 64 false)
      .next (r.1.emit (.memData r.2.1 r.2.2))) := by
  simp only [exec, execMemrd, hup, hcxl, h]
  rfl

/-- The 64 bytes that a masked write of an HDM line gives. -/
def hdmBytes (m : BitVec 64) (b : List Byte) : List (Option Byte) :=
  (List.range 64).map (fun i => if m.getLsbD i then some (b.getD i 0) else none)

theorem exec_memwr_of_region {o a : Nat} {m : BitVec 64} {b : List Byte} {p : Bool}
    (hpieces : s.barPieces (o / 64 * 64) 64 true = [(0, 64, some a)]) (hfree : s.objWrite a ≠ .held) :
    exec (.memwr o m b p) s = .next ((s.inboundWrite a (hdmBytes m b) p).emit .memDone) := by
  simp only [exec, execMemwr, hup, hcxl, hpieces, State.barHeld, List.any_cons, List.any_nil, beq_false_of_ne hfree]
  rfl

theorem exec_memwr_of_none {o : Nat} {m : BitVec 64} {b : List Byte} {p : Bool}
    (hpieces : s.barPieces (o / 64 * 64) 64 true = [(0, 64, none)]) :
    exec (.memwr o m b p) s = .next ((s.count 0x7921 0xD 1).emit .memDone) := by
  simp only [exec, execMemwr, hup, hcxl, hpieces, State.barHeld, List.any_cons, List.any_nil]
  rfl

end Port

/-! ### Reads of the switch's peers (R287) -/

theorem exec_peerReadCompletion_of_ready {s : State} (hready : s.ready = true) (q n : BitVec 16) (r : RemoteData) :
    exec (.peerReadCompletion q n r) s = .next (s.peerReadEnds q n r) := if_pos hready

theorem exec_peerTimeout_of_reads {s : State} {q n : BitVec 16} {x : Xfer} (hx : s.xfer q n = some x)
    (hready : s.ready = true) (hreads : x.reads ≠ []) :
    exec (.peerTimeout q n) s = .next ((s.count 0x7921 0xE 1).peerReadEnds q n { bytes := [], poison := [0] }) := by
  simp [exec, execPeerTimeout, hx, hready, hreads]

theorem exec_peerTimeout_of_zeroRead {s : State} {q n : BitVec 16} {x : Xfer} (hx : s.xfer q n = some x)
    (hready : s.ready = true) (hreads : x.reads = []) (hzero : x.zeroRead = true) :
    exec (.peerTimeout q n) s = .next (((s.count 0x7921 0xE 1).updXfer q n
      (fun y => { y with zeroRead := false })).failXfer q n stPoisonSrc 0) := by
  simp [exec, execPeerTimeout, hx, hready, hreads, hzero]

/-! ### Epoch changes (R297, R431, R441) -/

/-- The port has lost its link. -/
def State.linkLost (s : State) : State :=
  { s with host := { s.host with portReady := false, linkUp := false, cxlUp := false, gts := 0, width := 0 } }

section Epoch

variable {s : State} (hready : s.ready = true) (hattach : s.host.attach ≠ .lost)
include hready hattach

theorem epochChange_flr (hup : s.portUp = true) : s.epochChange .flr = s.hostLeaves .detached := by
  simp [State.epochChange, hready, hattach, hup]

theorem epochChange_hotReset (hlink : s.host.linkUp = true) :
    s.epochChange .hotReset = (s.hostLeaves .detached).linkLost := by
  simp only [State.epochChange, hready, hattach, hlink]
  rfl

theorem epochChange_linkDown (hlink : s.host.linkUp = true) :
    s.epochChange .linkDown = (s.hostLeaves .detached).linkLost := by
  simp only [State.epochChange, hready, hattach, hlink]
  rfl

theorem epochChange_perst_of_counted {n : Nat} (hn : 600 ≤ n) :
    s.epochChange (.perst n) =
      ((((s.count 0x7981 7 1).hostLeaves .detached).linkLost).setHost
        (((s.count 0x7981 7 1).hostLeaves .detached).linkLost.host.perstReset)) := by
  have hcounts : perstCounts s n = (true, s) := by
    rw [perstCounts, if_neg (by omega), if_pos hn]
  simp only [State.epochChange, hready, hattach, hcounts]
  rfl

theorem epochChange_perst_of_ignored {n : Nat} (hn : n < 400) : s.epochChange (.perst n) = s := by
  have hcounts : perstCounts s n = (false, s) := if_pos hn
  simp [State.epochChange, hready, hattach, hcounts]

end Epoch

/-! ### The port (R278, R279, R282) -/

theorem exec_portReady_of_trained {s : State} {g w : Nat}
    (h : s.ready ∧ s.host.attach ≠ .lost ∧ s.module.perstN ∧ 0 < g ∧ g ≤ 64 ∧ 0 < w ∧ w ≤ 16) :
    exec (.portReady g w) s = .next { s with host := { s.host with
      portReady := true, linkUp := true, gts := g, width := w, cxlUp := decide (32 ≤ g ∧ 8 ≤ w) } } := if_pos h

theorem exec_resizeBar2_of_listed {s : State} {n : Nat} (hport : s.host.portReady = true) (hlo : 34 ≤ n)
    (hhi : n ≤ 43) :
    exec (.configurationRequest (.resizeBar2 n)) s =
      .next (({ s with host := { s.host with bar2Size := 2 ^ n } } : State).emit .cfgDone) := by
  simp only [exec, execConfigurationRequest, hport, hlo, hhi]
  rfl

theorem exec_configurationRequest_of_read {s : State} (hport : s.host.portReady = true) :
    exec (.configurationRequest .read) s = .next (s.emit .cfgDone) := by
  simp only [exec, execConfigurationRequest, hport]
  rfl

theorem exec_configurationRequest_of_notReady {s : State} (r : CfgRequest) (hport : s.host.portReady = false)
    (hmode : s.power.mode ≠ .off) : exec (.configurationRequest r) s = .next (s.emit .retryStatus) := by
  simp [exec, execConfigurationRequest, hport, hmode]

/-- Settles O47, each access and cause by its law. -/
theorem hostAccessesMemoryAndThePort : Obligations.HostAccessesMemoryAndThePort := by
  unfold Obligations.HostAccessesMemoryAndThePort
  refine ⟨fun s o n hup => ?_, ?_, ?_, ?_, fun s q n r hready => ?_, fun s q n x hx hready => ?_, ?_, ?_, ?_, ?_⟩
  · exact ⟨exec_bar2Read_of_refused hup, exec_bar2Read_of_permitted hup⟩
  · intro s o b p ps hup hfree
    refine ⟨fun hall => ?_, fun hsome => ?_⟩ <;> rw [exec_bar2Write_of_unheld hup hfree]
    · rw [if_neg (ne_true_of_eq_false hall)]
    · rw [if_pos hsome]
  · intro s o ps hup hcxl
    exact ⟨exec_memrd_of_refused hup hcxl, exec_memrd_of_permitted hup hcxl⟩
  · intro s o m b p hup hcxl
    exact ⟨fun a hpieces hfree => exec_memwr_of_region hup hcxl hpieces hfree, exec_memwr_of_none hup hcxl⟩
  · exact exec_peerReadCompletion_of_ready hready q n r
  · exact ⟨exec_peerTimeout_of_reads hx hready, exec_peerTimeout_of_zeroRead hx hready⟩
  · intro s down hready hattach
    refine ⟨fun hup => ?_, fun hlink => ⟨?_, ?_⟩, fun n hn => ?_, fun n hn => ?_⟩
    · exact congrArg Host.Outcome.next (epochChange_flr hready hattach hup)
    · exact congrArg Host.Outcome.next (epochChange_hotReset hready hattach hlink)
    · exact congrArg Host.Outcome.next (epochChange_linkDown hready hattach hlink)
    · exact congrArg Host.Outcome.next (epochChange_perst_of_counted hready hattach hn)
    · exact congrArg Host.Outcome.next (epochChange_perst_of_ignored hready hattach hn)
  · intro s g w hready hattach hperst hg hg' hw hw'
    exact exec_portReady_of_trained ⟨hready, hattach, hperst, hg, hg', hw, hw'⟩
  · intro s n hport hlo hhi
    exact ⟨exec_resizeBar2_of_listed hport hlo hhi, exec_configurationRequest_of_read hport⟩
  · intro s r hport hmode
    exact exec_configurationRequest_of_notReady r hport hmode

end Sys2Proof.Machine
end

section
/-!
PROOF. O11: the three queue-control commands at their turn (R296).
-/

namespace Sys2Proof.Machine

open Sys2Proof

theorem engineOf_qctl (q : BitVec 16) (op : Byte) (b : BitVec 352) (h : op = 0x00 ∨ op = 0x01) :
    engineOf q op b = .dispatch := by
  rcases h with rfl | rfl <;> rfl

/-- A hand-over leaves the DRAFT state alone, so the same switch is due. -/
theorem switchDue_handOver (s : State) (d : Desc) (e : Engine) (n : Nat) :
    (s.handOver d e).switchDue n = s.switchDue n := by
  have h : (s.handOver d e).draft = s.draft := congrArg (·.draft) (handOver_beside s d e)
  simp only [State.switchDue, h]

theorem setStep_of_noSwitch (s : State) (q : BitVec 16) (n : Nat) (h : s.switchDue n = none) :
    s.setStep q n =
      (let u := s.setQueue q { s.queue q with step := n }
       { u with draft := { u.draft with deviceStep := max u.draft.deviceStep n } }) := by
  simp only [State.setStep, h]

theorem exec_qctlNop_of_zero (s : State) (d : Desc) (hdispatch : s.canDispatch d 0x00 = true)
    (hzero : fieldZero d.body 16 60 = true) :
    exec (.qctlNop d) s = .next ((s.handOver d .dispatch).finish d doneOk) := by
  change execQctlNop d s = _
  rw [execQctlNop, onDesc_of_canDispatch s d 0x00 _ hdispatch, if_neg (by simp [hzero]),
    runNow_of_engine s d 0x00 .dispatch _ (engineOf_qctl _ _ _ (.inl rfl))]

/-- A STEP that brings no switch about, or one that can be journaled, sets its step (R296, R358). -/
theorem exec_qctlStep_of_switch (s : State) (d : Desc) (hdispatch : s.canDispatch d 0x01 = true)
    (hzero : fieldZero d.body 24 60 = true)
    (hswitch : s.switchDue (fieldOf d.body 16 8) = none ∨ s.journalUp = true) :
    exec (.qctlStep d) s =
      .next (((s.handOver d .dispatch).setStep d.queue (fieldOf d.body 16 8)).finish d doneOk) := by
  change execQctlStep d s = _
  have hmay : ¬ ((s.switchDue (fieldOf d.body 16 8)).isSome && !s.journalUp) = true := by
    rcases hswitch with h | h <;> simp [h]
  rw [execQctlStep, if_neg hmay, onDesc_of_canDispatch s d 0x01 _ hdispatch, if_neg (by simp [hzero]),
    runNow_of_engine s d 0x01 .dispatch _ (engineOf_qctl _ _ _ (.inr rfl))]

theorem exec_qctlFlush_of_zero (s : State) (d : Desc) (hdispatch : s.canDispatch d 0x02 = true)
    (hzero : fieldZero d.body 16 60 = true) :
    exec (.qctlFlush d) s = .next ((s.handOver d .dispatch).pump d.queue) := by
  change execQctlFlush d s = _
  rw [execQctlFlush, onDesc_of_canDispatch s d 0x02 _ hdispatch, if_neg (by simp [hzero])]

/-- Settles O11: the command at its turn, its step with and without a switch, and the flush. -/
theorem queueControlCommandsComplete : Obligations.QueueControlCommandsComplete := by
  unfold Obligations.QueueControlCommandsComplete
  refine ⟨exec_qctlNop_of_zero, ?_, ?_, exec_qctlFlush_of_zero⟩
  · intro s d hdispatch hzero hnone
    rw [exec_qctlStep_of_switch s d hdispatch hzero (.inl hnone), setStep_of_noSwitch]
    rw [switchDue_handOver, hnone]
  · intro s d p hdispatch hzero _ hup
    exact exec_qctlStep_of_switch s d hdispatch hzero (.inr hup)

end Sys2Proof.Machine
end

section
/-!
PROOF. O12: what each doorbell write does, by the branches of R292.
-/

namespace Sys2Proof.Machine

open Sys2Proof

theorem exec_sqDb_of_ready (s : State) (q : BitVec 16) (w : BitVec 32) (h : s.ready = true) :
    exec (.sqDb q 32 w) s = .next (s.sqDoorbell q w) := if_pos ⟨h, rfl⟩

theorem exec_cqDb_of_ready (s : State) (q : BitVec 16) (w : BitVec 32) (h : s.ready = true) :
    exec (.cqDb q 32 w) s = .next (s.cqDoorbell q w) := if_pos ⟨h, rfl⟩

/-- A doorbell with another epoch or for a queue that is not ACTIVE is counted as DB_STALE_EPOCH. -/
theorem doorbell_of_stale (s : State) (q e v : BitVec 16)
    (h : e ≠ s.host.epoch.extractLsb' 0 16 ∨ (s.queue q).state ≠ .active) :
    s.sqDoorbell q (e ++ v) = (s.count 0x7921 0 1).count 0x7921 1 1 ∧
      s.cqDoorbell q (e ++ v) = (s.count 0x7921 0 1).count 0x7921 1 1 := by
  constructor
  · rw [State.sqDoorbell, doorbell_high]
    exact if_pos h
  · rw [State.cqDoorbell, doorbell_high]
    exact if_pos h

/-- Past the epoch and the queue's state, SQ_DB looks at its value alone. -/
theorem sqDoorbell_of_current (s : State) (q v : BitVec 16) (h : (s.queue q).state = .active) :
    s.sqDoorbell q (s.host.epoch.extractLsb' 0 16 ++ v) =
      if v = (s.queue q).sqTail then s.count 0x7921 0 1
      else if sqValueOk (s.queue q) v then
        (s.count 0x7921 0 1).setQueue q { s.queue q with sqTail := v }
      else (s.count 0x7921 0 1).count 0x7921 2 1 := by
  rw [State.sqDoorbell, doorbell_high, doorbell_low]
  exact if_neg (not_or.mpr ⟨not_not.mpr rfl, not_not.mpr h⟩)

theorem cqDoorbell_of_current (s : State) (q v : BitVec 16) (h : (s.queue q).state = .active) :
    s.cqDoorbell q (s.host.epoch.extractLsb' 0 16 ++ v) =
      if seqAhead (s.queue q).cqHead v ≤ seqAhead (s.queue q).cqHead (s.queue q).cqWritten then
        ((s.count 0x7921 0 1).setQueue q { s.queue q with cqHead := v }).pump q
      else (s.count 0x7921 0 1).count 0x7921 2 1 := by
  rw [State.cqDoorbell, doorbell_high, doorbell_low]
  exact if_neg (not_or.mpr ⟨not_not.mpr rfl, not_not.mpr h⟩)

theorem seqAhead_pos {a b : BitVec 16} (h : b ≠ a) : 1 ≤ seqAhead a b := by
  unfold seqAhead
  bv_omega

theorem sqValueOk_iff {c : QCtx} {v : BitVec 16} (h : v ≠ c.sqTail) :
    sqValueOk c v = true ↔ seqAhead c.sqTail v ≤ c.depth ∧ seqAhead c.cqHead v ≤ c.depth := by
  simp [sqValueOk, seqAhead_pos h]

/-- A write of another width is ignored. -/
theorem exec_doorbell_of_width (s : State) (q : BitVec 16) (w : Nat) (v : BitVec 32) (h : w ≠ 32) :
    exec (.sqDb q w v) s = .next s ∧ exec (.cqDb q w v) s = .next s :=
  ⟨if_neg (fun hw => h hw.2), if_neg (fun hw => h hw.2)⟩

theorem doorbellWrite_of_offset (s : State) (o w : Nat) (v : BitVec 32) (h0 : o % 64 ≠ 0) (h4 : o % 64 ≠ 4) :
    s.doorbellWrite o w v = .next s := by
  simp only [State.doorbellWrite, if_neg h0, if_neg h4]

/-- Settles O12: each doorbell by the branch that its epoch, its queue and its value choose. -/
theorem doorbellsMoveTheirIndices : Obligations.DoorbellsMoveTheirIndices := by
  unfold Obligations.DoorbellsMoveTheirIndices
  refine ⟨?accepted, ?head, ?stale, ?same, ?invalid, fun s q w o v =>
    ⟨exec_doorbell_of_width s q w v, doorbellWrite_of_offset s o w v⟩⟩
  case accepted =>
    intro s q v hready hactive hne htail hhead
    rw [exec_sqDb_of_ready s q _ hready, sqDoorbell_of_current s q v hactive, if_neg hne,
      if_pos ((sqValueOk_iff hne).mpr ⟨htail, hhead⟩)]
  case head =>
    intro s q v hready hactive hle
    rw [exec_cqDb_of_ready s q _ hready, cqDoorbell_of_current s q v hactive, if_pos hle]
  case stale =>
    intro s q e v hready hstale
    rw [exec_sqDb_of_ready s q _ hready, exec_cqDb_of_ready s q _ hready]
    obtain ⟨hsq, hcq⟩ := doorbell_of_stale s q e v hstale
    exact ⟨congrArg Host.Outcome.next hsq, congrArg Host.Outcome.next hcq⟩
  case same =>
    intro s q hready hactive
    rw [exec_sqDb_of_ready s q _ hready, sqDoorbell_of_current s q _ hactive, if_pos rfl]
  case invalid =>
    intro s q v hready hactive
    refine ⟨fun hne hfar => ?_, fun hfar => ?_⟩
    · have hbad : ¬ sqValueOk (s.queue q) v = true := by
        rw [sqValueOk_iff hne]
        omega
      rw [exec_sqDb_of_ready s q _ hready, sqDoorbell_of_current s q v hactive, if_neg hne, if_neg hbad]
    · rw [exec_cqDb_of_ready s q _ hready, cqDoorbell_of_current s q v hactive, if_neg (by omega)]

end Sys2Proof.Machine
end

section
/-!
PROOF. O13: fetches of good bytes, the end of a re-fetch delay and a returned zero-length read (R293, R295).
-/

namespace Sys2Proof.Machine

open Sys2Proof

/-- The address of the descriptor that the queue fetches next. -/
def nextFetchAddr (c : QCtx) : Nat := c.sqBase + 64 * (c.nextSeq.toNat % c.depth)

/-- What is read for a fetch: a read of the ring in device memory is noted, one of the host's ring is not. -/
def State.noteFetch (s : State) (c : QCtx) : State :=
  if sqInHost c then s else s.noteRead (nextFetchAddr c) 64

theorem fetchBytes_of_device (s : State) (c : QCtx) (f : FetchData) (hring : sqInHost c = false)
    (hpoison : s.anyPoison (nextFetchAddr c) 64 = false) :
    s.fetchBytes c f = (s.bytesAt (nextFetchAddr c) 64, false) := by
  rw [nextFetchAddr] at hpoison
  simp only [State.fetchBytes, nextFetchAddr, hring, hpoison, Bool.false_eq_true, if_false]

theorem fetchBytes_of_host (s : State) (c : QCtx) (f : FetchData) (hring : sqInHost c = true)
    (hpoison : f.poison = false) (hline : s.linePoisoned (nextFetchAddr c / 64) = false) :
    s.fetchBytes c f = (toLe 64 f.bytes.toNat, false) := by
  rw [nextFetchAddr] at hline
  simp [State.fetchBytes, hring, hpoison, hline]

/-- A fetch of clean bytes with the expected sequence, a CRC that holds and a good header: its descriptor waits. -/
theorem fetchReturn_of_good (s : State) (q : BitVec 16) (f : FetchData) (b : List Byte)
    (hbytes : s.fetchBytes (s.queue q) f = (b, false))
    (hseq : leNat (slice b 2 2) = (s.queue q).nextSeq.toNat)
    (hcrc : (crc32c (slice b 0 60)).toNat = leNat (slice b 60 4)) (hheader : headerOutcome q b = none)
    (hactive : (s.queue q).state = .active) :
    s.fetchReturn q f = ((s.noteFetch (s.queue q)).accept q b .waiting).pump q := by
  have hgood : (!false && leNat (slice b 2 2) == (s.queue q).nextSeq.toNat &&
      (crc32c (slice b 0 60)).toNat == leNat (slice b 60 4)) = true := by
    simp [hseq, hcrc]
  have hnotRevoked : ¬ (s.queue q).state = .revoked := by simp [hactive]
  simp only [State.fetchReturn, hbytes, hheader, if_neg hnotRevoked]
  exact if_pos hgood

theorem exec_descriptorFetch_of_may (s : State) (q : BitVec 16) (f : FetchData) (hmay : s.mayFetch q = true)
    (hwait : (s.queue q).retryWait = false) :
    exec (.descriptorFetch q f) s = .next (s.fetchReturn q f) := if_pos ⟨hmay, by simp [hwait]⟩

theorem exec_dbRetryExpiry_of_wait (s : State) (q : BitVec 16) (hmay : s.mayFetch q = true)
    (hwait : (s.queue q).retryWait = true) :
    exec (.dbRetryExpiry q) s =
      .next ((s.setQueue q { s.queue q with retryWait := false }).count 0x7921 4 1) := if_pos ⟨hmay, hwait⟩

theorem exec_flushReadReturn_of_cons (s : State) (q v : BitVec 16) (r : List (BitVec 16))
    (h : (s.queue q).flushReads = v :: r) :
    exec (.flushReadReturn q) s =
      (let c := s.queue q
       let n := c.unconfirmed.length - seqAhead v c.cqWritten
       .next (((s.setQueue q { c with
          cqConfirmed := v, flushReads := r, unconfirmed := c.unconfirmed.drop n }).count 0x7921 8 1).pump q)) := by
  change execFlushReadReturn q s = _
  simp only [execFlushReadReturn, h]

/-- Settles O13: a good fetch from either ring, the end of the delay and the oldest returned read. -/
theorem fetchesAndFlushReadsAdvanceTheQueue : Obligations.FetchesAndFlushReadsAdvanceTheQueue := by
  unfold Obligations.FetchesAndFlushReadsAdvanceTheQueue
  refine ⟨?device, ?host, exec_dbRetryExpiry_of_wait, exec_flushReadReturn_of_cons⟩
  case device =>
    intro s q f c a b hmay hwait hring hpoison hseq hcrc hheader hactive
    have hbytes : s.fetchBytes c f = (b, false) := fetchBytes_of_device s c f hring hpoison
    have hnote : s.noteFetch c = s.noteRead a 64 := if_neg (by simp [hring])
    rw [exec_descriptorFetch_of_may s q f hmay hwait,
      fetchReturn_of_good s q f b hbytes hseq hcrc hheader hactive, hnote]
  case host =>
    intro s q f c b hmay hwait hring hpoison hline hseq hcrc hheader hactive
    have hbytes : s.fetchBytes c f = (b, false) := fetchBytes_of_host s c f hring hpoison hline
    have hnote : s.noteFetch c = s := if_pos hring
    rw [exec_descriptorFetch_of_may s q f hmay hwait,
      fetchReturn_of_good s q f b hbytes hseq hcrc hheader hactive, hnote]

end Sys2Proof.Machine
end

section
/-!
PROOF. O50: register writes by their place in the map (R280, R281, R292), a queue abort (R300) and the IPv6 answers of
the 10BASE-T1S port (R344).
-/

namespace Sys2Proof.Machine

open Sys2Proof

/-! ### Writes that reach the map -/

theorem exec_registerWrite_of_reach (s : State) (sp : RegSpace) (o w : Nat) (v : BitVec 64)
    (hreach : (match sp with
      | .bar0 => s.portUp
      | .control => s.ready || (s.power.draftUp && decide (0x1000000 ≤ o))) = true)
    (hwidth : w = 8 ∨ w = 16 ∨ w = 32 ∨ w = 64) (halign : o % (w / 8) = 0) :
    exec (.registerWrite sp o w v) s = s.mapWrite sp o w v := if_pos ⟨hreach, hwidth, halign⟩

theorem exec_registerWrite_bar0 (s : State) (o w : Nat) (v : BitVec 64) (hport : s.portUp = true)
    (hwidth : w = 8 ∨ w = 16 ∨ w = 32 ∨ w = 64) (halign : o % (w / 8) = 0) :
    exec (.registerWrite .bar0 o w v) s = s.mapWrite .bar0 o w v :=
  exec_registerWrite_of_reach s .bar0 o w v hport hwidth halign

/-! ### The places of the map -/

theorem mapWrite_doorbell (s : State) (sp : RegSpace) (o w : Nat) (v : BitVec 64) (h : o < 0x400000) :
    s.mapWrite sp o w v = s.doorbellWrite o w (v.setWidth 32) := if_pos h

theorem mapWrite_reserved (s : State) (sp : RegSpace) (o w : Nat) (v : BitVec 64) (hlo : 0x400000 ≤ o)
    (hhi : o < 0x800000) : s.mapWrite sp o w v = .next s :=
  (if_neg (Nat.not_lt.mpr hlo)).trans (if_pos hhi)

theorem mapWrite_global (s : State) (o w : Nat) (v : BitVec 64) (hlo : 0x800000 ≤ o) (hhi : o < 0x801000) :
    s.mapWrite .bar0 o w v = .next (s.globalWrite (o - 0x800000) (toLe (w / 8) v.toNat)) := by
  simp only [State.mapWrite]
  rw [if_neg (by omega), if_neg (by omega), if_pos hhi, if_pos (by decide)]

theorem mapWrite_mailbox (s : State) (o w : Nat) (v : BitVec 64) (h : 0x1000000 ≤ o) :
    s.mapWrite .control o w v = s.mailboxWrite (o - 0x1000000) w (toLe (w / 8) v.toNat) := by
  simp only [State.mapWrite]
  rw [if_neg (by omega), if_neg (by omega), if_neg (by omega), if_neg (by omega), if_neg (by omega),
    if_neg (by omega), if_pos ⟨h, rfl⟩]

theorem mailboxWrite_buffer (s : State) (i w : Nat) (v : List Byte) (hlo : 0x1000 ≤ i) (hhi : i < 0x14D0)
    (hw : 0 < w) (hup : s.power.draftUp = true) :
    s.mailboxWrite i w v = .next (s.fillRequest (i - 0x1000) v) := by
  simp only [State.mailboxWrite]
  rw [if_neg (by omega), if_neg (by omega), if_pos ⟨hlo, hhi, hw⟩, if_pos hup]

/-- SQ_DB and CQ_DB stand at offsets 0 and 4 of the 64 bytes of their queue (Table HST-2). -/
theorem doorbellWrite_of_slot (s : State) (q : BitVec 16) (v : BitVec 32) (hready : s.ready = true) :
    s.doorbellWrite (64 * q.toNat) 32 v = .next (s.sqDoorbell q v) ∧
      s.doorbellWrite (64 * q.toNat + 4) 32 v = .next (s.cqDoorbell q v) := by
  have hslot : ∀ r, r < 64 → BitVec.ofNat 16 ((64 * q.toNat + r) / 64) = q := fun r hr => by
    rw [show (64 * q.toNat + r) / 64 = q.toNat by omega, BitVec.ofNat_toNat, BitVec.setWidth_eq]
  constructor
  · simp only [State.doorbellWrite]
    rw [if_pos (by omega), show 64 * q.toNat / 64 = (64 * q.toNat + 0) / 64 from rfl, hslot 0 (by omega)]
    exact if_pos ⟨hready, rfl⟩
  · simp only [State.doorbellWrite]
    rw [if_neg (by omega), if_pos (by omega), hslot 4 (by omega)]
    exact if_pos ⟨hready, rfl⟩

theorem ofNat_leNat_toLe_two (v : BitVec 64) : BitVec.ofNat 16 (leNat (toLe 2 v.toNat)) = v.setWidth 16 := by
  apply BitVec.eq_of_toNat_eq
  simp only [toLe, leNat, BitVec.toNat_ofNat, BitVec.toNat_setWidth]
  omega

/-- A 16-bit write at 0x10 of the global registers sets EVENT_VECTOR whole (Table HST-3). -/
theorem globalWrite_eventVector (s : State) (v : BitVec 64) :
    s.globalWrite 0x10 (toLe 2 v.toNat) =
      { s with host := { s.host with eventVector := v.setWidth 16 } } := by
  have hbytes : slice (overlay (toLe 2 s.host.eventVector.toNat) 0 (toLe 2 v.toNat)) 0 2 = toLe 2 v.toNat := by
    simp [overlay, slice, toLe]
  rw [State.globalWrite, if_pos (by decide)]
  simp only [Nat.sub_self, hbytes, ofNat_leNat_toLe_two]
  rfl

/-- What the places of BAR0 do with a write of the host. -/
theorem exec_registerWrite_places (s : State) (q : BitVec 16) (v : BitVec 64) (hport : s.portUp = true) :
    exec (.registerWrite .bar0 (64 * q.toNat) 32 v) s = .next (s.sqDoorbell q (v.setWidth 32)) ∧
    exec (.registerWrite .bar0 (64 * q.toNat + 4) 32 v) s = .next (s.cqDoorbell q (v.setWidth 32)) ∧
    exec (.registerWrite .bar0 0x800010 16 v) s =
      .next { s with host := { s.host with eventVector := v.setWidth 16 } } ∧
    (∀ o, 0x400000 ≤ o → o < 0x800000 → exec (.registerWrite .bar0 o 8 v) s = .next s) := by
  have hready : s.ready = true := by
    simp only [State.portUp, Bool.and_eq_true] at hport
    exact hport.1.1
  have hq := q.isLt
  obtain ⟨hsq, hcq⟩ := doorbellWrite_of_slot s q (v.setWidth 32) hready
  refine ⟨?_, ?_, ?_, fun o hlo hhi => ?_⟩
  · rw [exec_registerWrite_bar0 s _ 32 v hport (by decide) (by omega), mapWrite_doorbell s _ _ _ v (by omega), hsq]
  · rw [exec_registerWrite_bar0 s _ 32 v hport (by decide) (by omega), mapWrite_doorbell s _ _ _ v (by omega), hcq]
  · rw [exec_registerWrite_bar0 s _ 16 v hport (by decide) (by decide),
      mapWrite_global s _ _ v (by decide) (by decide)]
    exact congrArg Host.Outcome.next (globalWrite_eventVector s v)
  · rw [exec_registerWrite_bar0 s o 8 v hport (by decide) (Nat.mod_one o), mapWrite_reserved s _ o _ v hlo hhi]

/-- A byte written to the mailbox's page from 0x1000 on goes to its request buffer (Table DFT-5). -/
theorem exec_registerWrite_buffer (s : State) (i : Nat) (v : BitVec 64) (hup : s.power.draftUp = true)
    (hi : i < 1232) :
    exec (.registerWrite .control (0x1001000 + i) 8 v) s = .next (s.fillRequest i [v.setWidth 8]) := by
  have hreach : (s.ready || (s.power.draftUp && decide (0x1000000 ≤ 0x1001000 + i))) = true := by
    simp [hup]
    omega
  have hbyte : toLe (8 / 8) v.toNat = [v.setWidth 8] := congrArg (· :: []) (BitVec.eq_of_toNat_eq (by simp))
  rw [exec_registerWrite_of_reach s .control _ 8 v hreach (by decide) (Nat.mod_one _),
    mapWrite_mailbox s _ _ v (by omega), mailboxWrite_buffer s _ _ _ (by omega) (by omega) (by decide) hup, hbyte,
    show 0x1001000 + i - 0x1000000 - 0x1000 = i by omega]

/-! ### Aborts and IPv6 -/

theorem exec_queueAbort_of_draftUp (s : State) (q : BitVec 16) (hup : s.power.draftUp = true) :
    exec (.queueAbort q) s = (let t := s.abortQueue q
      .next { t with draft := { t.draft with lastResult := .ok } }) :=
  onCmd_of_draftUp s (fun s => (s.abortQueue q, .ok)) hup

theorem exec_neighborSolicitation_of_own (s : State) (x : List Byte) (hup : s.power.draftUp = true) :
    exec (.neighborSolicitation linkLocal x 255) s = .next (s.emit (.neighborAdvert linkLocal)) :=
  if_pos ⟨hup, rfl, rfl⟩

theorem exec_echoRequest_of_own (s : State) (x p : List Byte) (hup : s.power.draftUp = true) :
    exec (.echoRequest linkLocal x p) s = .next (s.emit (.echoReply p)) := if_pos ⟨hup, rfl⟩

/-- Settles O50: the two spaces, the places of the map, the abort and the answers of the port. -/
theorem registerWritesAbortsAndIpv6 : Obligations.RegisterWritesAbortsAndIpv6 := by
  unfold Obligations.RegisterWritesAbortsAndIpv6
  refine ⟨exec_registerWrite_bar0, ?control, exec_registerWrite_places, exec_registerWrite_buffer,
    exec_queueAbort_of_draftUp, exec_neighborSolicitation_of_own, exec_echoRequest_of_own⟩
  case control =>
    intro s o w v hready hwidth halign
    exact exec_registerWrite_of_reach s .control o w v (by simp [hready]) hwidth halign

end Sys2Proof.Machine
end

section
/-!
PROOF. O53: the MCTP control commands and the SPDM requests over MCTP (R345, R407).
-/

namespace Sys2Proof.Machine

open Sys2Proof

section
variable (s : State) (hup : s.mctpUp = true)
include hup

theorem exec_setEndpointId_of_unicast (e : Byte) (h0 : e ≠ 0) (hff : e ≠ 0xFF) :
    exec (.setEndpointId e) s =
      .next (({ s with draft := { s.draft with mctpEid := e } } : State).emit (.mctp [1, 0, 0, e, 0])) :=
  (if_neg (by simp [hup])).trans (if_neg (not_or.mpr ⟨h0, hff⟩))

theorem exec_getEndpointId_of_up :
    exec .getEndpointId s = .next (s.emit (.mctp [2, 0, s.draft.mctpEid, 0, 0])) := if_pos hup

theorem exec_getMctpVersionSupport_of_listed (t : Byte) (h : mctpTypes.contains t = true) :
    exec (.getMctpVersionSupport t) s =
      .next (s.emit (.mctp ([4, 0, 1] ++ (List.range 4).map (Config.mctpVersion t)))) :=
  (if_neg (by simp [hup])).trans (if_pos h)

theorem exec_getMessageTypeSupport_of_up :
    exec .getMessageTypeSupport s = .next (s.emit (.mctp [5, 0, 2, 0x05, 0x7E])) := if_pos hup

theorem exec_getVendorDefinedMessageSupport_zero :
    exec (.getVendorDefinedMessageSupport 0) s =
      .next (s.emit (.mctp ([6, 0, 0xFF, 0x00] ++ toBe 2 Config.vendorId.toNat ++ [0x00, 0x01]))) :=
  (if_neg (by simp [hup])).trans (if_pos rfl)

/-- A request over MCTP is answered there with what the SPDM responder gives. -/
theorem spdmOver_of_mctp (k : Byte) (m : SpdmMsg) (hm : m.transport = .mctp) :
    s.spdmOver k m =
      (let r := s.spdmRequest 1 m.version k m.param1 m.param2 m.rest
       .next (r.1.emit (.spdm .mctp (r.2.getD 1 0) r.2))) := if_pos ⟨hm, hup⟩

end

/-- Each SPDM request of the list is the one of its code. -/
theorem exec_spdm_eq (s : State) (m : SpdmMsg) (c : (SpdmMsg → Instr) × Byte)
    (h : c ∈ [(Instr.getVersion, 0x84), (.getCapabilities, 0xE1), (.negotiateAlgorithms, 0xE3),
         (.getDigests, 0x81), (.getCertificate, 0x82), (.challenge, 0x83), (.getMeasurements, 0xE0),
         (.chunkSend, 0x85), (.chunkGet, 0x86)]) : exec (c.1 m) s = s.spdmOver c.2 m := by
  simp only [List.mem_cons, List.not_mem_nil, or_false] at h
  rcases h with rfl | rfl | rfl | rfl | rfl | rfl | rfl | rfl | rfl <;> rfl

/-- Settles O53: each control command, then the SPDM requests with and without a listed code. -/
theorem managementMessagesAreAnswered : Obligations.ManagementMessagesAreAnswered := by
  unfold Obligations.ManagementMessagesAreAnswered
  refine ⟨fun s hup => ⟨exec_setEndpointId_of_unicast s hup, exec_getEndpointId_of_up s hup,
    exec_getMctpVersionSupport_of_listed s hup, exec_getMessageTypeSupport_of_up s hup,
    exec_getVendorDefinedMessageSupport_zero s hup⟩, ?listed, fun s m k hm hup => spdmOver_of_mctp s hup k m hm⟩
  case listed =>
    intro s m c r hc hm hup
    rw [exec_spdm_eq s m c hc, spdmOver_of_mctp s hup c.2 m hm]

end Sys2Proof.Machine
end

section
/-!
PROOF. O51: IDENTIFY and SESSION_OPEN over 10BASE-T1S, idle sessions and the mailbox (R344 to R354).
-/

namespace Sys2Proof.Machine

open Sys2Proof

/-- A message over 10BASE-T1S that is answered: the answer goes out on the same port. -/
theorem onDap_t1s_of_answer {s t : State} {m : DapMsg} {k : Byte} {p : List Byte} (ht : m.transport = .t1s)
    (hhop : m.hopLimit = 255) (hup : s.power.draftUp = true) (hlen : (dapRequest m k).length ≤ 1232)
    (h : s.dapHandle .t1s m.multicast (dapRequest m k) = (t, some p)) :
    s.onDap m k = .next (t.emit (.dap .t1s p)) := by
  simp only [State.onDap, ht, State.dapOver, h]
  rw [if_pos ⟨hup, hhop⟩, if_neg (Nat.not_lt.mpr hlen : ¬ dapMax < _)]

/-! ### IDENTIFY -/

theorem dapHandle_identify (s : State) (mc : Bool) (b : List Byte) (hlen : b.length = 20)
    (hheader : headerOk b 0 = true) (hzero : at_ b 4 12 = 0) (htype : at_ b 1 1 = 1) :
    s.dapHandle .t1s mc b =
      ((s.count 0x7941 0 1).count 0x7941 7 1,
       some (dapBytes 0x81 (at_ b 2 2) 0 0 0 (s.count 0x7941 0 1).identity)) := by
  have hform : ¬ (b.length ≠ 20 ∨ (!headerOk b 0) = true ∨ at_ b 4 12 ≠ 0) := by simp [hlen, hheader, hzero]
  rw [State.dapHandle, if_pos htype]
  exact if_neg hform

/-! ### SESSION_OPEN -/

/-- A SESSION_OPEN of an owned module whose key allows its role and whose tag holds. -/
theorem dapHandle_open (s : State) (b : List Byte) (r : Role) (hmin : 52 ≤ b.length) (htype : at_ b 1 1 = 2)
    (howned : s.sec.owned = true) (hrole : roleOf (at_ (bodyOfMsg b) 1 1) (at_ (bodyOfMsg b) 0 1) = some r)
    (hkey : at_ (bodyOfMsg b) 1 1 ≤ 1) (htag : tagOk (s.sec.key (at_ (bodyOfMsg b) 1 1 == 1)) b = true) :
    s.dapHandle .t1s false b =
      (let x := (s.count 0x7941 0 1).openSession .t1s (at_ (bodyOfMsg b) 1 1 == 1) r b
       (x.1, some x.2)) := by
  have hsec : (s.count 0x7941 0 1).sec = s.sec := by simp
  have hopen : (s.count 0x7941 0 1).dapOpen .t1s b =
      (let x := (s.count 0x7941 0 1).openSession .t1s (at_ (bodyOfMsg b) 1 1 == 1) r b
       (x.1, some x.2)) := by
    simp only [State.dapOpen, hsec, hrole]
    rw [if_neg (by simp [howned]), if_neg (by rw [htag]; simpa using hkey)]
  simp only [State.dapHandle, transportCode, htype]
  rw [if_neg (by decide), if_neg (by decide), if_neg (Nat.not_lt.mpr hmin), if_pos trivial, hopen]

/-- One of the 16 sessions is free: it opens, with a key of both nonces (R351, R352). -/
theorem openSession_of_free (s : State) (o : Bool) (r : Role) (b : List Byte)
    (hheader : headerOk b (b.length - 52) = true) (hsession : at_ b 4 4 = 0) (hbody : (bodyOfMsg b).length = 20)
    (hzero : at_ (bodyOfMsg b) 2 2 = 0) (hfree : s.draft.sessions.length < 16) (hnext : s.draft.nextSession ≠ 0) :
    s.openSession .t1s o r b =
      (let num := s.draft.nextSession
       let dn := (List.range 16).map (Config.randomByte s.fresh)
       let y : Session :=
         { num := num, role := r, ownerKey := o, transport := .t1s, rxNonce := 0, txNonce := 1, kept := []
           key := hmac256 (s.sec.key o) (sessionLabel ++ slice (bodyOfMsg b) 4 16 ++ dn ++ toLe 4 num.toNat) }
       (({ s with fresh := s.fresh + 1
                  draft := { s.draft with sessions := s.draft.sessions ++ [y], nextSession := num + 1 } } :
         State).count 0x7941 9 1,
        withTag (s.sec.key o)
          (dapBytes 0x82 (at_ b 2 2) num.toNat 1 0 ([BitVec.ofNat 8 r.rank, 0, 0, 0] ++ dn)))) := by
  simp only [State.openSession]
  rw [if_neg (by simp [hheader, hsession, hbody, hzero]), if_neg (not_or.mpr ⟨Nat.not_le.mpr hfree, hnext⟩)]

/-! ### Idle sessions and the mailbox -/

theorem exec_sessionIdleTimeout_of_open (s : State) (n : BitVec 32) (hup : s.power.draftUp = true)
    (hopen : (s.draft.session n).isSome = true) :
    exec (.sessionIdleTimeout n) s = .next ((s.endSessions (fun x => x.num == n)).count 0x7941 0xA 1) :=
  if_pos (by simp [hup, hopen])

/-- The mailbox is no longer busy, and shows a response where there is one. -/
theorem showAnswer_eq (r : State × Option (List Byte)) :
    (let t := r.1.setMailbox { r.1.mailbox with busy := false }
     match r.2 with
     | none => t
     | some p => t.setMailbox { t.mailbox with respReady := true, respLen := p.length, rspBuf := p }) =
      { r.1 with mailbox := match r.2 with
        | none => { r.1.mailbox with busy := false }
        | some p => { r.1.mailbox with busy := false, respReady := true, respLen := p.length, rspBuf := p } } := by
  obtain ⟨t, _ | p⟩ := r <;> rfl

/-- The mailbox, idle and enabled, handles the request in its buffer and shows the response (Table DFT-5). -/
theorem doorbell_of_idle (s : State) (v : Nat) (henabled : s.obj 0x1100 4 1 ≠ 0) (hbusy : s.mailbox.busy = false)
    (hready : s.mailbox.respReady = false) (hmin : 20 ≤ v % 65536) (hmax : v % 65536 ≤ 1232) :
    s.doorbell v =
      (let r := ({ s with mailbox := { s.mailbox with busy := true } } : State).dapHandle .mailbox false
        ((List.range (v % 65536)).map (Tab.read s.mailbox.reqBuf 0))
       { r.1 with mailbox := match r.2 with
         | none => { r.1.mailbox with busy := false }
         | some p => { r.1.mailbox with busy := false, respReady := true, respLen := p.length, rspBuf := p } }) := by
  have hmay : ¬ (s.obj 0x1100 4 1 = 0 ∨ s.mailbox.busy = true ∨ s.mailbox.respReady = true ∨ v % 65536 < 20 ∨
      dapMax < v % 65536) := by
    simp only [henabled, hbusy, hready, Bool.false_eq_true, false_or, dapMax]
    omega
  rw [State.doorbell, if_neg hmay]
  exact showAnswer_eq _

theorem exec_mbxAck_of_bit (s : State) (v : BitVec 32) (hup : s.power.draftUp = true) (hv : v.getLsbD 0 = true) :
    exec (.mbxAck v) s = .next { s with mailbox := { s.mailbox with respReady := false } } := if_pos ⟨hup, hv⟩

/-- Settles O51: the two requests without a session, the end of an idle one and the mailbox. -/
theorem draftPortsIdentifyOpenAndAnswer : Obligations.DraftPortsIdentifyOpenAndAnswer := by
  unfold Obligations.DraftPortsIdentifyOpenAndAnswer
  refine ⟨?identify, ?opens, exec_sessionIdleTimeout_of_open, ?doorbell, exec_mbxAck_of_bit⟩
  case identify =>
    intro s m b t ht hhop hup hlen hheader hzero htype
    exact onDap_t1s_of_answer ht hhop hup (hlen.le.trans (by decide))
      (dapHandle_identify s _ b hlen hheader hzero htype)
  case opens =>
    intro s m r b body t x ht hhop hmc hup hmin hmax htype howned hrole hkey htag
    refine ⟨onDap_t1s_of_answer ht hhop hup hmax ?_, fun hheader hsession hbody hzero hfree hnext =>
      openSession_of_free t _ r b hheader hsession hbody hzero hfree hnext⟩
    rw [hmc]
    exact dapHandle_open s b r hmin htype howned hrole hkey htag
  case doorbell =>
    intro s v n r hup henabled hbusy hready hmin hmax
    refine (if_pos hup).trans ?_
    exact congrArg Host.Outcome.next (doorbell_of_idle s v.toNat henabled hbusy hready hmin hmax)

end Sys2Proof.Machine
end

section
/-!
PROOF. O52: a new request of an open session runs and is answered (R347 to R350). One law carries a request from its
transport to its session, whatever its type; then each request type has a law of its own for what it comes to.
-/

namespace Sys2Proof.Machine

open Sys2Proof

/-! ### From the transport to the session -/

/-- What `Safety.requestNew` checks, by name. -/
structure NewRequest (s : State) (m : DapMsg) (k : Byte) (x : Session) : Prop where
  transport : m.transport = .t1s
  hopLimit : m.hopLimit = 255
  unicast : m.multicast = false
  up : s.power.draftUp = true
  minLength : 52 ≤ (dapRequest m k).length
  maxLength : (dapRequest m k).length ≤ 1232
  session : s.draft.session (BitVec.ofNat 32 (at_ (dapRequest m k) 4 4)) = some x
  sessionTransport : x.transport = .t1s
  tag : tagOk x.key (dapRequest m k) = true
  nonce : x.rxNonce < at_ (dapRequest m k) 8 8
  unanswered : x.kept.find? (fun r => r.reqId == BitVec.ofNat 16 (at_ (dapRequest m k) 2 2)) = none

theorem newRequest_of_requestNew {s : State} {m : DapMsg} {k : Byte} {x : Session}
    (h : Safety.requestNew s m k x = true) : NewRequest s m k x := by
  simp only [Safety.requestNew, Bool.and_eq_true, Bool.not_eq_true', beq_iff_eq, decide_eq_true_eq,
    Option.isNone_iff_eq_none] at h
  obtain ⟨⟨⟨⟨⟨⟨⟨⟨⟨ht, hh⟩, hm⟩, hup⟩, hmin, hmax⟩, hs⟩, hx⟩, htag⟩, hn⟩, hk⟩ := h
  exact ⟨ht, hh, hm, hup, hmin, hmax, hs, hx, htag, hn, hk⟩

theorem newRequest_of_requestSound {s : State} {m : DapMsg} {k : Byte} {x : Session}
    (h : Safety.requestSound s m k x = true) : NewRequest s m k x := by
  simp only [Safety.requestSound, Bool.and_eq_true] at h
  exact newRequest_of_requestNew h.1.1

/-- Byte 1 of a request is its MTYPE. -/
theorem mtype_dapRequest (m : DapMsg) (k : Byte) : at_ (dapRequest m k) 1 1 = k.toNat := by
  simp [at_, dapRequest, slice, leNat]

/-- A new request that is neither IDENTIFY nor SESSION_OPEN reaches its session. -/
theorem onDap_of_new {s : State} {m : DapMsg} {k : Byte} {x : Session} (h : NewRequest s m k x) (h1 : k.toNat ≠ 1)
    (h2 : k.toNat ≠ 2) :
    s.onDap m k =
      (let r := (s.count 0x7941 0 1).dapAccepted x (dapRequest m k)
       .next (r.1.emit (.dap .t1s r.2))) := by
  have hhandle : s.dapHandle .t1s false (dapRequest m k) =
      (let r := (s.count 0x7941 0 1).dapAccepted x (dapRequest m k)
       (r.1, some r.2)) := by
    have hsession : (s.count 0x7941 0 1).draft.session (BitVec.ofNat 32 (at_ (dapRequest m k) 4 4)) = some x :=
      h.session
    simp only [State.dapHandle, transportCode, mtype_dapRequest, if_neg h1, if_neg h2, hsession]
    rw [if_neg (by decide), if_neg (Nat.not_lt.mpr h.minLength), if_neg (not_not.mpr h.sessionTransport),
      if_neg (by simp [h.tag]), if_neg (Nat.not_le.mpr h.nonce)]
  have hover : s.dapOver .t1s m.multicast (dapRequest m k) =
      (let r := (s.count 0x7941 0 1).dapAccepted x (dapRequest m k)
       r.1.emit (.dap .t1s r.2)) := by
    simp only [State.dapOver, h.unicast, if_neg (Nat.not_lt.mpr h.maxLength : ¬ dapMax < _), hhandle]
  simp only [State.onDap, h.transport]
  rw [if_pos ⟨h.up, h.hopLimit⟩, hover]

/-- The end of a request that has its form, or MALFORMED where it has not (R449). -/
def State.requestEnd (u : State) (x : Session) (k : Nat) (b : List Byte) : DapEnd :=
  if headerOk b (b.length - 52) && bodyOk k (bodyOfMsg b) then u.dapRun x k (bodyOfMsg b)
  else (u.count 0x7941 6 1).dapStop .malformed

/-- What a request comes to does not depend on the session's last nonce. -/
theorem dapRun_rxNonce (u : State) (x : Session) (n k : Nat) (b : List Byte) :
    u.dapRun { x with rxNonce := n } k b = u.dapRun x k b := by
  simp only [State.dapRun]

theorem dapAccepted_of_unanswered (u : State) (x : Session) (b : List Byte)
    (h : x.kept.find? (fun r => r.reqId == BitVec.ofNat 16 (at_ b 2 2)) = none) :
    u.dapAccepted x b =
      (let y := { x with rxNonce := at_ b 8 8 }
       let e := (u.setSession y).requestEnd x (at_ b 1 1) b
       e.2.2.dapRespond y { reqId := BitVec.ofNat 16 (at_ b 2 2), mtype := BitVec.ofNat 8 (at_ b 1 1),
                            result := e.1, body := e.2.1 } true) := by
  simp only [State.dapAccepted, h, dapRun_rxNonce, State.requestEnd]

/-- Its session runs a new request and keeps the answer. -/
theorem onDap_eq_requestAnswer {s : State} {m : DapMsg} {k : Byte} {x : Session}
    (h : Safety.requestNew s m k x = true) (h1 : k.toNat ≠ 1) (h2 : k.toNat ≠ 2) :
    s.onDap m k =
      (let e := (Safety.requestState s m k x).requestEnd x k.toNat (dapRequest m k)
       .next (Safety.requestAnswer e.2.2 m k x e.1 e.2.1)) := by
  have hnew := newRequest_of_requestNew h
  have hbyte : BitVec.ofNat 8 k.toNat = k := by simp
  rw [onDap_of_new hnew h1 h2, dapAccepted_of_unanswered _ x _ hnew.unanswered, mtype_dapRequest, hbyte]
  rfl

/-! ### Requests of the table -/

/-- The session requests with their MTYPEs (Table DFT-7). -/
def sessionRequests : List ((DapMsg → Instr) × Byte) :=
  [(Instr.sessionClose, 0x03), (.read, 0x10), (.write, 0x11), (.describe, 0x12), (.enumerate, 0x13),
   (.arm, 0x20), (.armAtStep, 0x20), (.armCancel, 0x20), (.discard, 0x21), (.stagedList, 0x22),
   (.eventRead, 0x30), (.spdmTunnel, 0x40)]

theorem exec_sessionRequest (s : State) (m : DapMsg) (c : (DapMsg → Instr) × Byte) (h : c ∈ sessionRequests) :
    exec (c.1 m) s = s.onDap m c.2 ∧ c.2.toNat ≠ 1 ∧ c.2.toNat ≠ 2 := by
  simp only [sessionRequests, List.mem_cons, List.not_mem_nil, or_false] at h
  rcases h with rfl | rfl | rfl | rfl | rfl | rfl | rfl | rfl | rfl | rfl | rfl | rfl <;>
    exact ⟨rfl, by decide, by decide⟩

/-- A sound request ends as its type does, in the state in which it runs. -/
theorem exec_sessionRequest_of_sound (s : State) (m : DapMsg) (c : (DapMsg → Instr) × Byte) (x : Session)
    (hc : c ∈ sessionRequests) (h : Safety.requestSound s m c.2 x = true) :
    exec (c.1 m) s =
      (let e := (Safety.requestState s m c.2 x).dapRun x c.2.toNat (bodyOfMsg (dapRequest m c.2))
       .next (Safety.requestAnswer e.2.2 m c.2 x e.1 e.2.1)) := by
  simp only [Safety.requestSound, Bool.and_eq_true] at h
  obtain ⟨⟨hnew, hheader⟩, hbody⟩ := h
  obtain ⟨hexec, h1, h2⟩ := exec_sessionRequest s m c hc
  rw [hexec, onDap_eq_requestAnswer hnew h1 h2, State.requestEnd, if_pos (by rw [hheader, hbody]; rfl)]

/-- The same, once it is known how the request ends. -/
theorem exec_sessionRequest_of_end {s t : State} {m : DapMsg} {x : Session} {r : DapResult} {body : List Byte}
    (c : (DapMsg → Instr) × Byte) (hc : c ∈ sessionRequests) (h : Safety.requestSound s m c.2 x = true)
    (hend : (Safety.requestState s m c.2 x).dapRun x c.2.toNat (bodyOfMsg (dapRequest m c.2)) = (r, body, t)) :
    exec (c.1 m) s = .next (Safety.requestAnswer t m c.2 x r body) := by
  rw [exec_sessionRequest_of_sound s m c x hc h, hend]

/-- No body has the form of an MTYPE that the table does not list. -/
theorem bodyOk_of_unlisted {k : Nat} {b : List Byte}
    (h : [0x01, 0x02, 0x03, 0x10, 0x11, 0x12, 0x13, 0x20, 0x21, 0x22, 0x30, 0x40].contains k = false) :
    bodyOk k b = false := by
  unfold bodyOk
  split
  iterate 10 exact absurd h (by decide)
  rfl

theorem exec_unknownMtype_of_new (s : State) (m : DapMsg) (k : Byte) (x : Session)
    (hk : [0x01, 0x02, 0x03, 0x10, 0x11, 0x12, 0x13, 0x20, 0x21, 0x22, 0x30, 0x40].contains k.toNat = false)
    (h : Safety.requestNew s m k x = true) :
    exec (.unknownMtype k m) s =
      .next (Safety.requestAnswer ((Safety.requestState s m k x).count 0x7941 6 1) m k x .malformed []) := by
  have h1 : k.toNat ≠ 1 := fun e => by simp [e] at hk
  have h2 : k.toNat ≠ 2 := fun e => by simp [e] at hk
  change s.onDap m k = _
  rw [onDap_eq_requestAnswer h h1 h2, State.requestEnd, if_neg (by rw [bodyOk_of_unlisted hk]; simp)]
  rfl

/-! ### What each request comes to -/

section
variable (u : State) (x : Session) (b : List Byte)

theorem dapRun_read {r : ObjRow} (hrow : rowFor x.role (objOf b) = .ok r) (hwo : r.acc ≠ accWO)
    (hcmd : r.acc ≠ accCmd) (v : List Byte)
    (hv : v = (if at_ b 3 1 = 1 then u.draft.stagedCopy (objOf b).key else none).getD (u.value (objOf b) r))
    (hlen : at_ b 4 4 ≤ v.length) (hoff : r.ty = tyDomain ∨ at_ b 4 4 = 0) :
    u.dapRun x 0x10 b =
      (let n := min (at_ b 8 2) (min (v.length - at_ b 4 4) segmentMax)
       (.ok, toLe 4 (u.meta (objOf b) r) ++ toLe 4 v.length ++ toLe 2 n ++ slice v (at_ b 4 4) n, u)) := by
  have hplace : ¬ (v.length < at_ b 4 4 ∨ (r.ty ≠ tyDomain ∧ at_ b 4 4 ≠ 0)) := by
    have hshort : ¬ v.length < at_ b 4 4 := Nat.not_lt.mpr hlen
    exact not_or.mpr ⟨hshort, fun h => hoff.elim h.1 h.2⟩
  change u.dapRead x.role b = _
  simp only [State.dapRead, hrow]
  rw [if_neg (not_or.mpr ⟨hwo, hcmd⟩)]
  split
  next w hsome =>
    obtain rfl : v = w := by rw [hv, hsome]; rfl
    exact if_neg hplace
  next hnone =>
    obtain rfl : v = u.value (objOf b) r := by rw [hv, hnone]; rfl
    exact if_neg hplace

theorem dapRun_write_staged {r : ObjRow} (hrow : rowFor x.role (objOf b) = .ok r) (hacc : r.acc = accRWS)
    (hty : r.ty ≠ tyDomain) (hlen : (b.drop 10).length = r.len) (hoff : at_ b 4 4 = 0)
    (hmay : u.draft.mayStage x.num = true) (hbool : r.ty ≠ tyBool ∨ leNat (b.drop 10) ≤ 1) :
    u.dapRun x 0x11 b =
      (.ok, [], { u with draft := u.draft.stage x.num (objOf b).key (keptValue (objOf b) (b.drop 10)) }) := by
  have hro : ¬ r.acc = accRO := by rw [hacc]; decide
  have hone : ¬ (r.ty = tyBool ∧ 1 < leNat (b.drop 10)) := fun ⟨ht, hl⟩ =>
    hbool.elim (fun h => h ht) (fun h => absurd hl (Nat.not_lt.mpr h))
  change u.dapWrite x.num x.role b = _
  simp only [State.dapWrite, hrow]
  rw [if_neg hro, if_neg hty, if_neg (not_not.mpr hlen), if_neg (not_not.mpr hoff), State.writeObject, if_pos hacc,
    State.stageValue, if_neg (by simp [hmay]), if_neg hone]

theorem dapRun_describe {r : ObjRow} (hrow : rowFor x.role (objOf b) = .ok r) :
    u.dapRun x 0x12 b =
      (.ok, toLe 4 (u.meta (objOf b) r) ++ toLe 4 r.len ++ toLe 8 (defaultOf (objOf b) r), u) := by
  change u.dapDescribe x.role b = _
  simp only [State.dapDescribe, hrow]

theorem dapRun_enumerate (hlo : 1 ≤ at_ b 3 1) (hhi : at_ b 3 1 ≤ 64) :
    u.dapRun x 0x13 b = (.ok, u.listBody (listObjects (objOf b) (at_ b 3 1)), u) :=
  if_neg (by simp [countBad]; omega)

theorem dapRun_discard (h : u.draft.stagingSess = x.num ∨ x.role = .own) :
    u.dapRun x 0x21 b = (.ok, [], { u with draft := u.draft.emptySet }) := if_pos h

theorem dapRun_stagedList (hlo : 1 ≤ at_ b 3 1) (hhi : at_ b 3 1 ≤ 64) :
    u.dapRun x 0x22 b =
      (let l := u.draft.stagedObjects.filter (fun y => decide ((objOf b).key ≤ y.1.key))
       (.ok, u.listBody (l.take (at_ b 3 1)), u)) :=
  if_neg (by simp [countBad]; omega)

theorem dapRun_eventRead (hlo : 1 ≤ at_ b 4 1) (hhi : at_ b 4 1 ≤ 32) :
    u.dapRun x 0x30 b =
      (let old := u.draft.eventNext - 256
       let i := max (at_ b 0 4) old
       let n := min (at_ b 4 1) (u.draft.eventNext - i)
       (.ok, toLe 4 (min i u.draft.eventNext + n) ++ toLe 1 n ++ [if at_ b 0 4 < old then 1 else 0, 0, 0]
          ++ (rangeFrom i n).flatMap u.draft.eventBytes, u)) :=
  if_neg (by simp [countBad]; omega)

theorem dapRun_tunnel (h : x.transport = .t1s) :
    u.dapRun x 0x40 b =
      (let r := u.spdmRequest 0 (b.getD 0 0) (b.getD 1 0) (b.getD 2 0) (b.getD 3 0) (b.drop 4)
       (.ok, r.2, r.1)) := by
  change u.dapTunnel x.transport b = _
  rw [h]
  rfl

end

/-! ### ARM (R355 to R360) -/

section
variable (u : State) (x : Session) (b : List Byte)

/-- The record of an ARM leaves the configuration alone. -/
theorem armRecord_draft (flags : Byte) (epoch step : Nat) (v : Tab (List Byte)) :
    (u.armRecord flags epoch step v).draft = u.draft := by
  simp [State.armRecord]

/-- An ARM that passes validation with the journal up is counted and comes to its new epoch. -/
theorem armChecked_of_valid (stepped : Bool) (req : Nat) (f : State → Nat → ArmEnd)
    (hepoch : u.draft.epoch ≠ 0xFFFFFFFF) (hfault : u.firstFault stepped = none) (hup : u.journalUp = true) :
    u.armChecked stepped req f = f (u.count 0x7941 0xB 1) (nextEpoch u.draft.epoch req) := by
  simp only [State.armChecked, if_neg hepoch, hfault]
  exact if_neg (by simp [hup])

/-- An ARM without CANCEL, of the session that stages or of an own one while none does. -/
theorem dapRun_armRequest_of_mayArm (hcancel : bitOf (at_ b 0 1) 1 = false)
    (hmay : u.draft.stagingSess = x.num ∨ (u.draft.stagingSess = 0 ∧ x.role = .own)) :
    u.dapRun x 0x20 b =
      if bitOf (at_ b 0 1) 0 then u.armStepped x.num (at_ b 4 4) (at_ b 8 8) else u.armAtOnce (at_ b 4 4) := by
  have hallowed : ¬ (!(u.draft.stagingSess == x.num || (u.draft.stagingSess == 0 && x.role == .own))) = true := by
    rcases hmay with h | ⟨h, h'⟩
    · simp [h]
    · simp [h, h']
  change u.armOf x.num x.role (bitOf (at_ b 0 1) 0) (bitOf (at_ b 0 1) 1) (at_ b 4 4) (at_ b 8 8) = _
  rw [hcancel]
  exact if_neg hallowed

theorem armAtOnce_of_valid (req : Nat) (hepoch : u.draft.epoch ≠ 0xFFFFFFFF) (hpending : u.draft.pending = none)
    (hfault : u.firstFault false = none) (hup : u.journalUp = true) :
    u.armAtOnce req =
      (let t := u.count 0x7941 0xB 1
       let p := nextEpoch u.draft.epoch req
       let a := t.armRecord 0 p (2 ^ 64 - 1) u.draft.staged
       let d := { a.draft with active := a.draft.merged u.draft.staged, epoch := p }
       let w := ({ a with draft := d.emptySet } : State).reconfigured t
       (.ok, w.armNow none, w)) := by
  rw [State.armAtOnce, if_neg (by simp [hpending]), armChecked_of_valid u false req _ hepoch hfault hup]
  have hdraft : (u.count 0x7941 0xB 1).draft = u.draft := rfl
  simp only [hdraft, armRecord_draft]

theorem armStepped_of_valid (num : BitVec 32) (req step : Nat) (hstep : u.draft.deviceStep < step)
    (hbehind : u.stepsBehind = false) (hepoch : u.draft.epoch ≠ 0xFFFFFFFF) (hpending : u.draft.pending = none)
    (hfault : u.firstFault true = none) (hup : u.journalUp = true) :
    u.armStepped num req step =
      (let p := nextEpoch u.draft.epoch req
       let a := (u.count 0x7941 0xB 1).armRecord 1 p step u.draft.staged
       let d := { a.draft with pending := some { byWhom := num, step := step, epoch := p,
                                                 values := u.draft.staged } }
       (.ok, armBody p (configDigest (d.merged u.draft.staged)) none, { a with draft := d.emptySet })) := by
  rw [State.armStepped, if_neg (Nat.not_le.mpr hstep), if_neg (by simp [hpending, hbehind]),
    armChecked_of_valid u true req _ hepoch hfault hup]
  rfl

theorem dapRun_armRequest_cancel {k : PendingArm} (hcancel : bitOf (at_ b 0 1) 1 = true)
    (hpending : u.draft.pending = some k) (hmay : x.role = .own ∨ k.byWhom = x.num) (hup : u.journalUp = true) :
    u.dapRun x 0x20 b =
      (let a := u.armRecord 2 u.draft.epoch k.step []
       let w : State := { a with draft := { a.draft with pending := none } }
       (.ok, w.armNow none, w)) := by
  have hallowed : ¬ (x.role ≠ .own ∧ k.byWhom ≠ x.num) := fun ⟨h, h'⟩ => hmay.elim h h'
  change u.armOf x.num x.role (bitOf (at_ b 0 1) 0) (bitOf (at_ b 0 1) 1) (at_ b 4 4) (at_ b 8 8) = _
  rw [State.armOf, if_pos hcancel]
  simp only [State.armCancel, hpending]
  rw [if_neg hallowed, if_neg (by simp [hup])]

end

/-- The three forms of an ARM request that nothing stands against. -/
theorem exec_armRequest_of_sound (s : State) (m : DapMsg) (x : Session) :
    let b := bodyOfMsg (dapRequest m 0x20)
    let u := Safety.requestState s m 0x20 x
    let t := u.count 0x7941 0xB 1
    let f := at_ b 0 1
    let p := nextEpoch u.draft.epoch (at_ b 4 4)
    Safety.requestSound s m 0x20 x = true →
    (bitOf f 1 = false → u.draft.stagingSess = x.num ∨ (u.draft.stagingSess = 0 ∧ x.role = .own) →
      u.draft.epoch ≠ 0xFFFFFFFF → u.draft.pending = none → u.journalUp = true →
      (bitOf f 0 = false → u.firstFault false = none →
        exec (.arm m) s =
          (let a := t.armRecord 0 p (2 ^ 64 - 1) u.draft.staged
           let d := { a.draft with active := a.draft.merged u.draft.staged, epoch := p }
           let w := ({ a with draft := d.emptySet } : State).reconfigured t
           .next (Safety.requestAnswer w m 0x20 x .ok (w.armNow none)))) ∧
      (bitOf f 0 = true → u.draft.deviceStep < at_ b 8 8 → u.stepsBehind = false → u.firstFault true = none →
        exec (.armAtStep m) s =
          (let a := t.armRecord 1 p (at_ b 8 8) u.draft.staged
           let d := { a.draft with pending := some { byWhom := x.num, step := at_ b 8 8, epoch := p,
                                                     values := u.draft.staged } }
           .next (Safety.requestAnswer { a with draft := d.emptySet } m 0x20 x .ok
             (armBody p (configDigest (d.merged u.draft.staged)) none))))) ∧
    (∀ k, bitOf f 1 = true → u.draft.pending = some k → x.role = .own ∨ k.byWhom = x.num →
      u.journalUp = true →
      exec (.armCancel m) s =
        (let a := u.armRecord 2 u.draft.epoch k.step []
         let w := { a with draft := { a.draft with pending := none } }
         .next (Safety.requestAnswer w m 0x20 x .ok (w.armNow none)))) := by
  intro b u t f p hsound
  refine ⟨fun hcancel hmay hepoch hpending hup => ⟨fun hnow hfault => ?_, fun hstepped hstep hbehind hfault => ?_⟩,
    fun k hcancel hpending hmay hup => ?_⟩
  · refine exec_sessionRequest_of_end (.arm, 0x20) (by simp [sessionRequests]) hsound ?_
    refine (dapRun_armRequest_of_mayArm u x b hcancel hmay).trans ?_
    rw [hnow]
    exact armAtOnce_of_valid u _ hepoch hpending hfault hup
  · refine exec_sessionRequest_of_end (.armAtStep, 0x20) (by simp [sessionRequests]) hsound ?_
    refine (dapRun_armRequest_of_mayArm u x b hcancel hmay).trans ?_
    rw [if_pos hstepped]
    exact armStepped_of_valid u _ _ _ hstep hbehind hepoch hpending hfault hup
  · exact exec_sessionRequest_of_end (.armCancel, 0x20) (by simp [sessionRequests]) hsound
      (dapRun_armRequest_cancel u x b hcancel hpending hmay hup)

/-- Settles O52: the common law of session requests, then the end of each request type under it. -/
theorem sessionRequestsRunAndAreAnswered : Obligations.SessionRequestsRunAndAreAnswered := by
  unfold Obligations.SessionRequestsRunAndAreAnswered
  refine ⟨exec_sessionRequest_of_sound, exec_unknownMtype_of_new, ?close, ?read, ?write, ?describe, ?enumerate,
    exec_armRequest_of_sound, ?discard, ?stagedList, ?eventRead, ?tunnel⟩
  case close =>
    intro s m x hsound
    exact exec_sessionRequest_of_end (.sessionClose, 0x03) (by simp [sessionRequests]) hsound rfl
  case read =>
    intro s m x r b u o off v n hsound hrow hwo hcmd hlen hoff
    exact exec_sessionRequest_of_end (.read, 0x10) (by simp [sessionRequests]) hsound
      (dapRun_read u x b hrow hwo hcmd v rfl hlen hoff)
  case write =>
    intro s m x r b u o v hsound hrow hacc hty hlen hoff hmay hbool
    exact exec_sessionRequest_of_end (.write, 0x11) (by simp [sessionRequests]) hsound
      (dapRun_write_staged u x b hrow hacc hty hlen hoff hmay hbool)
  case describe =>
    intro s m x r u o hsound hrow
    exact exec_sessionRequest_of_end (.describe, 0x12) (by simp [sessionRequests]) hsound (dapRun_describe u x _ hrow)
  case enumerate =>
    intro s m x b u hsound hlo hhi
    exact exec_sessionRequest_of_end (.enumerate, 0x13) (by simp [sessionRequests]) hsound
      (dapRun_enumerate u x b hlo hhi)
  case discard =>
    intro s m x u hsound hmay
    exact exec_sessionRequest_of_end (.discard, 0x21) (by simp [sessionRequests]) hsound (dapRun_discard u x _ hmay)
  case stagedList =>
    intro s m x b u l hsound hlo hhi
    exact exec_sessionRequest_of_end (.stagedList, 0x22) (by simp [sessionRequests]) hsound
      (dapRun_stagedList u x b hlo hhi)
  case eventRead =>
    intro s m x b u old i n hsound hlo hhi
    exact exec_sessionRequest_of_end (.eventRead, 0x30) (by simp [sessionRequests]) hsound
      (dapRun_eventRead u x b hlo hhi)
  case tunnel =>
    intro s m x b r hsound
    exact exec_sessionRequest_of_end (.spdmTunnel, 0x40) (by simp [sessionRequests]) hsound
      (dapRun_tunnel _ x b (newRequest_of_requestSound hsound).sessionTransport)

end Sys2Proof.Machine
end

section
/-!
PROOF. O55: what the commit and recovery commands come to where nothing stands against them (R371, R376 to R379,
R394), one law per command.
-/

namespace Sys2Proof.Machine

open Sys2Proof

/-- A commit that every check of R371 passes. -/
theorem stepCommit_of_checked (s : State) (a p : Nat) (hreason : s.commitReason a p = (0, 0))
    (hup : s.journal.accepting = true) :
    s.stepCommit a p =
      (let b := s.commitBody a
       let n := 64 + 32 * b.runs
       let list := s.bytesAt p (8 * (runGroups (s.commitRuns a b.runs)).length)
       let dig := if b.skipped then s.commit.stampDigest else digest64 (sha256 list)
       let raw := s.bytesAt a (n + s.histsBytes (a + n) (min b.hists 64))
       let body := overlay (overlay raw 24 [raw.getD 24 0 &&& 0xFD]) 32 (toLe 8 dig.toNat)
       let t := s.record 0x01 0 body
       (({ t with journal := t.journal.live 3 1
                  commit := { t.commit with last := b.step, stampDigest := dig, lastBody := body } } :
         State).count 0x7951 0 1, .ok)) := by
  rw [State.stepCommit, hreason]
  exact (if_neg (by simp)).trans (if_neg (by simp [hup]))

/-- A restore all of whose entries can be read and restored. -/
theorem groupRestore_of_restorable (s : State) (i n a : Nat) (hup : s.journalUp = true)
    (h : ∀ k, k < n → s.readable (a + 24 * k) 24 = true ∧ s.restoreReason (i + k) (s.restoreEntry a k).2.2 = 0) :
    s.groupRestore i n a =
      (let es := (List.range n).map (fun k => (i + k, s.restoreEntry a k))
       let t := es.foldl (fun (t : State) e => t.putGroup (t.groupAddr e.1) e.2.1 e.2.2.1 false) s
       let body := toLe 4 i ++ toLe 4 n
         ++ (es.map (fun e => toLe 8 e.2.1 ++ toLe 8 e.2.2.1 ++ toLe 4 e.2.2.2 ++ toLe 4 0)).flatten
       ((t.record 0x0C 0 body).count 0x7951 2 1, .ok)) := by
  have hnone : (List.range n).find? (fun k => (if (!s.readable (a + 24 * k) 24) = true then 3
      else s.restoreReason (i + k) (s.restoreEntry a k).2.2) != 0) = none := by
    rw [List.find?_eq_none]
    intro k hk
    obtain ⟨hread, hreason⟩ := h k (List.mem_range.mp hk)
    simp [hread, hreason]
  rw [State.groupRestore, if_neg (by simp [hup])]
  simp only [hnone]

theorem outcomeAdopt_of_new (s : State) (o : Outcome) (h : s.outcomeOf o.step = none) :
    s.outcomeAdopt o =
      (({ s with peruo := { s.peruo with outcomes := Tab.write s.peruo.outcomes (o.step % 256) o } } :
        State).count 0x7951 4 1, .ok) := by
  simp only [State.outcomeAdopt, h]

theorem commitRebase_of_step (s : State) (n : Nat) (hup : s.journalUp = true) (hn : n ≠ noStep) :
    s.commitRebase n =
      (let t := s.record 0x01 0 (s.rebaseBody n)
       ({ t with commit := { t.commit with last := n, lastBody := s.rebaseBody n } }, .ok)) :=
  if_neg (by simp [hup, hn])

theorem boltNote_of_committed (s : State) (n d l : Nat) (hup : s.journalUp = true) (hlast : s.commit.last ≠ noStep)
    (hn : n ≤ s.commit.last) :
    s.boltNote n d l =
      (let b := toLe 8 n ++ toLe 8 d ++ toLe 8 l
       let t := s.record 0x0B 0 b
       ({ t with commit := { t.commit with lastBolt := b } }, .ok)) :=
  if_neg (by simp [hup, hlast, Nat.not_lt.mpr hn])

/-- Settles O55: each command answers OK with the state that its law gives. -/
theorem commitCommandsTakeEffect : Obligations.CommitCommandsTakeEffect := by
  unfold Obligations.CommitCommandsTakeEffect
  refine ⟨?commit, ?restore, ?adopt, ?rebase, ?bolt⟩
  case commit =>
    intro s a p b n list dig raw body t u hup hreason hjournal
    exact onCmd_eq_next (f := fun s => s.stepCommit a.toNat p.toNat) hup
      (stepCommit_of_checked s a.toNat p.toNat hreason hjournal)
  case restore =>
    intro s i n a es t body u hup hjournal h
    exact onCmd_eq_next (f := fun s => s.groupRestore i.toNat n.toNat a.toNat) hup
      (groupRestore_of_restorable s i.toNat n.toNat a.toNat hjournal h)
  case adopt =>
    intro s n f m x hup hnone
    exact onCmd_eq_next (f := fun s => s.outcomeAdopt ⟨n.toNat, f.getLsbD 0, m.toNat, x⟩) hup
      (outcomeAdopt_of_new s ⟨n.toNat, f.getLsbD 0, m.toNat, x⟩ hnone)
  case rebase =>
    intro s n hup hjournal hn
    exact onCmd_eq_next (f := fun s => s.commitRebase n.toNat) hup
      (commitRebase_of_step s n.toNat hjournal hn)
  case bolt =>
    intro s n d l hup hjournal hlast hn
    exact onCmd_eq_next (f := fun s => s.boltNote n.toNat d.toNat l.toNat) hup
      (boltNote_of_committed s n.toNat d.toNat l.toNat hjournal hlast hn)

end Sys2Proof.Machine
end

section
/-!
PROOF. O56: what the firmware, key, ownership and default commands come to where they are accepted (R395, R396, R404,
R409 to R412, R414), one law per command.
-/

namespace Sys2Proof.Machine

open Sys2Proof

/-! ### Firmware -/

theorem takeSegment_zero {img b : List Byte} {done last : Bool} {n : Nat} (hlen : b.length ≤ segmentMax)
    (hmax : 0 + b.length ≤ n) : takeSegment img done n 0 last b = .ok (b, last) :=
  (if_neg (by omega)).trans (if_pos rfl)

/-- A segment that goes on where the image ends. -/
theorem takeSegment_next {img b : List Byte} {last : Bool} {n k : Nat} (hlen : b.length ≤ segmentMax)
    (hmax : k + b.length ≤ n) (h0 : k ≠ 0) (hk : k = img.length) :
    takeSegment img false n k last b = .ok (img ++ b, last) :=
  (if_neg (by omega)).trans ((if_neg h0).trans (if_neg (by simp [hk])))

theorem fwImage_of_taken (s : State) {k : Nat} {l : Bool} {b : List Byte} {r : List Byte × Bool}
    (h : takeSegment s.fw.image s.fw.imageDone imageMax k l b = .ok r) :
    s.fwImage k l b = ({ s with fw := { s.fw with image := r.1, imageDone := r.2 } }, .ok) := by
  simp only [State.fwImage, h]

/-- A valid image is installed into the slot that the device does not run. -/
theorem fwInstall_of_valid (s : State) (hcheck : imageCheck s.fw.image s.fw.imageDone (s.arCounter 0) = 0)
    (hup : s.journalUp = true) :
    s.fwInstall =
      (let k := 1 - s.fwActive
       let img := some s.fw.image
       let f := if k = 0 then { s.fw with slotA := img } else { s.fw with slotB := img }
       ((({ s with fw := f } : State).setCheck 0).fwRecord 0 k (imgVersion s.fw.image), .ok)) := by
  rw [State.fwInstall, hcheck]
  exact (if_neg (by simp)).trans (if_neg (by simp [hup]))

/-- With two management dies the roll is not empty. -/
theorem mgmtOrder_append_ne_nil (s : State) (l : List Nat) (h : s.mgmtOrder.length = 2) : s.mgmtOrder ++ l ≠ [] := by
  intro hnil
  simp [List.append_eq_nil_iff] at hnil
  simp [hnil.1] at h

/-- A roll in which no die fails moves every die of the order. -/
theorem fwActivate_of_slot (s : State) (img : List Byte) (hslot : s.fw.slot (1 - s.fwActive) = some img)
    (hsvn : s.arCounter 0 ≤ imgSvn img) (hup : s.journalUp = true) :
    s.fwActivate none =
      (let k := 1 - s.fwActive
       let order := s.mgmtOrder ++ s.rollOrder
       let u := s.moveDies k order
       let w := if s.mgmtOrder.length = 2 then u.switchover else u
       let x := if order.any (fun d => decide (96 ≤ d)) then w.remeasure k else w
       (({ x with journal := x.journal.live 6 1 } : State).burnSvn (imgSvn img), .ok)) := by
  have hmoved : (s.mgmtOrder ++ s.rollOrder).takeWhile (fun d => some d != none) = s.mgmtOrder ++ s.rollOrder :=
    List.takeWhile_eq_self_iff.mpr (by simp)
  have hboth : (s.mgmtOrder.length = 2 ∧ s.mgmtOrder ++ s.rollOrder ≠ []) = (s.mgmtOrder.length = 2) :=
    propext (and_iff_left_of_imp (mgmtOrder_append_ne_nil s s.rollOrder))
  simp only [State.fwActivate, hslot, hmoved, hboth]
  rw [if_neg (Nat.not_lt.mpr hsvn), if_neg (by simp [hup]), if_neg (Nat.lt_irrefl _)]

/-! ### Keys, ownership and defaults -/

theorem writeKey_of_ok (s : State) (owner : Bool) (k : List Byte) (h : s.keyResult k = .ok) :
    s.writeKey owner k = ((s.setKey owner k).endKeySessions owner, .ok) := by
  simp only [State.writeKey, h]

/-- Ownership goes with nothing leased, while a fuse is left and the journal is up (R412). -/
theorem ownerRelease_of_unleased (s : State) (hleases : s.leases.any (fun e => e.2.state != .free) = false)
    (hfuse : s.arCounter 1 < 64) (hup : s.journalUp = true) :
    s.ownerRelease 0xA5 =
      (let t := s.blowTo 1 (s.arCounter 1 + 1)
       let w := wrapKey (wrapPad (t.arCounter 1)) zeroKey
       let u := ((t.keepValue 0x6810 1 w).keepValue 0x6810 2 w).keepValue 0x6800 1 [0]
       (({ u with sec := { u.sec with ownerKey := zeroKey, operatorKey := zeroKey, owned := false } } :
         State).endSessions (fun _ => true), .ok)) :=
  if_neg (by simp only [hleases, hup, Nat.not_le.mpr hfuse]; simp)

theorem configDefaults_of_mayStage (s : State) (n : BitVec 32)
    (hsession : s.draft.sessions.any (fun x => x.num == n) = true) (hmay : s.draft.mayStage n = true) :
    (if s.draft.sessions.any (fun x => x.num == n) then s.configDefaults n else (s, .privilege)) =
      ({ s with draft := defaultSet.foldl (fun (d : Draft) (e : Nat × List Byte) => d.stage n e.1 e.2) s.draft },
        .ok) :=
  (if_pos hsession).trans (if_neg (by simp [hmay]))

/-- Settles O56: each command answers OK with the state that its law gives. -/
theorem firmwareKeysAndDefaultsTakeEffect : Obligations.FirmwareKeysAndDefaultsTakeEffect := by
  unfold Obligations.FirmwareKeysAndDefaultsTakeEffect
  refine ⟨?image, ?install, ?activate, ?keys, ?release, ?defaults⟩
  case image =>
    intro s k l b hup hlen hmax
    refine ⟨?_, fun h0 hopen hk => ?_⟩
    · rintro rfl
      exact onCmd_eq_next (f := fun s => s.fwImage 0 l b) hup (fwImage_of_taken s (takeSegment_zero hlen hmax))
    · have htaken : takeSegment s.fw.image s.fw.imageDone imageMax k l b = .ok (s.fw.image ++ b, l) := by
        rw [hopen]
        exact takeSegment_next hlen hmax h0 hk
      exact onCmd_eq_next (f := fun s => s.fwImage k l b) hup (fwImage_of_taken s htaken)
  case install =>
    intro s v k img f t hup hcheck hjournal
    exact onCmd_eq_next (f := State.fwInstall) hup (fwInstall_of_valid s hcheck hjournal)
  case activate =>
    intro s v img k order u w x t hup hslot hsvn hjournal
    exact onCmd_eq_next (f := fun s => s.fwActivate none) hup (fwActivate_of_slot s img hslot hsvn hjournal)
  case keys =>
    intro s k hup hkey
    exact ⟨onCmd_eq_next (f := fun s => s.writeKey true k) hup (writeKey_of_ok s true k hkey),
      onCmd_eq_next (f := fun s => s.writeKey false k) hup (writeKey_of_ok s false k hkey)⟩
  case release =>
    intro s t w u x hup hleases hfuse hjournal
    exact onCmd_eq_next (f := fun s => s.ownerRelease 0xA5) hup (ownerRelease_of_unleased s hleases hfuse hjournal)
  case defaults =>
    intro s n t hup hsession hmay
    exact onCmd_eq_next
      (f := fun s => if s.draft.sessions.any (fun x => x.num == n) then s.configDefaults n else (s, .privilege))
      hup (configDefaults_of_mayStage s n hsession hmay)

end Sys2Proof.Machine
end

section
/-!
PROOF. O57: starts, resets and the ways in which power ends, each by the condition under which its command acts (R416
to R432).
-/

namespace Sys2Proof.Machine

open Sys2Proof

/-! ### Starts -/

theorem exec_coldStart_of_off (s : State) (e : StartEnv) (h : s.power.mode = .off) :
    exec (.coldStart e) s = .next (s.coldStart e) := if_pos h

theorem exec_moduleReset_of_draftUp (s : State) (hup : s.power.draftUp = true) :
    exec (.moduleReset 0xA5) s =
      .next { s with power := { s.power with resetPending := true }
                     draft := { s.draft with lastResult := .ok } } :=
  onCmd_eq_next (f := fun s => s.moduleReset 0xA5) hup (if_pos rfl)

theorem exec_warmStart_of_held (s : State) (e : StartEnv) (h : s.power.mode = .resetHeld) :
    exec (.warmStart e) s = .next (s.warmStart e) := if_pos h

theorem exec_warmStart_of_pending (s : State) (e : StartEnv) (hheld : s.power.mode ≠ .resetHeld)
    (hpending : s.power.resetPending = true) : exec (.warmStart e) s = .next ((s.holdReset 6).warmStart e) :=
  (if_neg hheld).trans (if_pos hpending)

/-! ### MRST_N (R441) -/

theorem filtered_of_short {s : State} {n lo hi : Nat} (h : n < lo) : s.filtered n lo hi = (false, s) := if_pos h

theorem filtered_of_long {s : State} {n lo hi : Nat} (hlo : lo ≤ hi) (h : hi ≤ n) :
    s.filtered n lo hi = (true, s) :=
  (if_neg (Nat.not_lt.mpr (hlo.trans h))).trans (if_pos h)

theorem exec_mrstN_of_long (s : State) (n : Nat) (hmode : s.power.mode = .running) (hn : 1000 ≤ n) :
    exec (.mrstN n) s =
      (let t := (s.count 0x7991 4 1).holdReset 5
       .next { t with module := { t.module with mrstN := false } }) := by
  change execMrstN n s = _
  simp only [execMrstN, hmode, filtered_of_long (by decide : 900 ≤ 1000) hn, if_true]

theorem exec_mrstN_of_short (s : State) (n : Nat) (hmode : s.power.mode = .running) (hn : n < 900) :
    exec (.mrstN n) s = .next s := by
  change execMrstN n s = _
  simp only [execMrstN, hmode, filtered_of_short hn, Bool.false_eq_true, if_false]

/-! ### The ends of power -/

section
variable (s : State) (hup : s.stagesUp = true)
include hup

theorem exec_pwrfailN_of_fastFall {v : Nat} (h : v < 62000) :
    exec (.pwrfailN (.fastFall v)) s = .next (s.powerFail 1 .off) :=
  (if_neg (by simp [hup])).trans (if_pos h)

theorem exec_pwrfailN_of_below59 {v : Nat} (h : v < 59000) :
    exec (.pwrfailN (.below59 v)) s = .next (s.powerFail 1 .off) :=
  (if_neg (by simp [hup])).trans (if_pos h)

theorem exec_pwrfailN_of_driven {v : Nat} (h : 5000 ≤ v) :
    exec (.pwrfailN (.driven v)) s = .next ((s.count 0x7991 5 1).powerFail 1 .off) := by
  change execPwrfailN (.driven v) s = _
  rw [execPwrfailN, if_neg (by simp [hup])]
  simp only [filtered_of_long (by decide : 4000 ≤ 5000) h, if_true]

theorem exec_overvoltageShutdown_of_high {v : Nat} (h : 82000 < v) :
    exec (.overvoltageShutdown v) s = .next (s.powerFail 2 .off) := if_pos (by simp [hup, h])

theorem exec_thermalShutdown_of_hot (d : Nat) {t : Int} (h : 1150 < t) :
    exec (.thermalShutdown d t) s = .next (s.powerFail 4 .thermalOff) := if_pos (by simp [hup, h])

theorem exec_stageFailure_of_live {k : Nat} (hk : k < 7) (hlive : s.power.stageFailed.contains k = false) :
    exec (.stageFailure k) s = .next (s.stageFails k) :=
  if_pos (by rw [hup, hlive]; simpa using hk)

end

theorem exec_lossOfInput_of_stopped (s : State) (h : s.power.mode = .halted ∨ s.power.mode = .thermalOff) :
    exec .lossOfInput s = .next (s.powerFail 1 .off) := by
  change execLossOfInput s = _
  rcases h with h | h <;> simp only [execLossOfInput, h]

/-- Settles O57: starts, resets and ends of power, each by its own law. -/
theorem startsResetsAndPowerLoss : Obligations.StartsResetsAndPowerLoss := by
  unfold Obligations.StartsResetsAndPowerLoss
  exact ⟨exec_coldStart_of_off, exec_moduleReset_of_draftUp, exec_warmStart_of_held, exec_warmStart_of_pending,
    exec_mrstN_of_long, exec_mrstN_of_short,
    fun s _ hup => ⟨exec_pwrfailN_of_fastFall s hup, exec_pwrfailN_of_below59 s hup,
      exec_pwrfailN_of_driven s hup, exec_overvoltageShutdown_of_high s hup⟩,
    fun s d _ hup => exec_thermalShutdown_of_hot s hup d, exec_lossOfInput_of_stopped,
    fun s _ hup => exec_stageFailure_of_live s hup⟩

end Sys2Proof.Machine
end

section
/-!
PROOF. O58: clock roots, management dies, the input's bands, pacing, the stored energy, coolant and air, each by the
condition under which its command acts (R418 to R427, R444).
-/

namespace Sys2Proof.Machine

open Sys2Proof

/-! ### Roots and management dies -/

section
variable (s : State) (hup : s.power.draftUp = true)
include hup

theorem exec_rootSwitch_of_locked (v : Byte) (hlock : s.rootLocked (1 - s.power.clockRoot) = true) :
    exec (.rootSwitch v) s = (let t := s.switchRoot
      .next { t with draft := { t.draft with lastResult := .ok } }) :=
  onCmd_eq_next
    (f := fun s => if s.rootLocked (1 - s.power.clockRoot) then (s.switchRoot, .ok) else (s, .refused)) hup
    (if_pos hlock)

theorem exec_rootLossOfLock_of_locked (hlock : s.rootLocked s.power.clockRoot = true) :
    exec .rootLossOfLock s = .next (s.loseRoot s.power.clockRoot) := if_pos (by simp [hup, hlock])

theorem exec_standbyRootLock_false :
    exec (.standbyRootLock false) s = .next (s.setRoots (rootBits
      (if 1 - s.power.clockRoot = 0 then false else s.rootLocked 0)
      (if 1 - s.power.clockRoot = 1 then false else s.rootLocked 1))) := if_pos (by simp [hup])

theorem exec_mgmtSwitchover_of_standby {a b : Nat} (ha : s.mgmtIn 0 = some a) (hb : s.mgmtIn 3 = some b) :
    exec .mgmtSwitchover s = .next (((s.setDieState b 0).setDieState a 2).loseRoot (a - 96)) := by
  have hfails : s.mgmtFails = ((s.setDieState b 0).setDieState a 2).loseRoot (a - 96) := by
    simp only [State.mgmtFails, ha, hb]
  exact (if_pos (by simp [hup, hb])).trans (congrArg Host.Outcome.next hfails)

end

theorem exec_noManagementDie_of_up (s : State) (hup : s.stagesUp = true) :
    exec .noManagementDie s =
      .next ({ s with dies := Tab.write (Tab.write s.dies 96 2) 97 2 } : State).noClock := if_pos hup

/-! ### The input and pacing -/

theorem exec_inputLow_of_band (s : State) {v : Nat} (hstages : s.stagesUp = true) (hup : s.power.draftUp = true)
    (hlo : 60000 ≤ v) (hhi : v < 62000) :
    exec (.inputLow v) s =
      .next ((({ s with power := { s.power with inputMv := v } } : State).count 0x7981 4 1).event 0x7000 1
        srcDevice v 0) := if_pos (by simp [hstages, hup, hlo, hhi])

theorem exec_inputHighBand_of_band (s : State) {v : Nat} (hstages : s.stagesUp = true)
    (hup : s.power.draftUp = true) (hlo : 80000 < v) (hhi : v ≤ 82000) :
    exec (.inputHighBand v) s =
      .next (({ s with power := { s.power with inputMv := v } } : State).event 0x7000 1 srcDevice v 0) :=
  if_pos (by simp [hstages, hup, hlo, hhi])

section
variable (s : State) (hready : s.ready = true)
include hready

theorem exec_pacingEngage_of_ready (c : PaceCause) :
    exec (.pacingEngage c) s =
      .next { s with power := { s.power with pacing := some c, paceCause := some c } } := if_pos hready

/-- The permitted fraction rises by a sixteenth; at the whole the cause goes (R419). -/
theorem exec_pacingAdjust_cleared :
    exec (.pacingAdjust true) s = .next { s with power := { s.power with
      pacing := none, paceSixteenths := min 16 (s.power.paceSixteenths + 1)
      paceCause := if 15 ≤ s.power.paceSixteenths then none else s.power.paceCause } } := by
  have hwhole : (min 16 (s.power.paceSixteenths + 1) = 16) = (15 ≤ s.power.paceSixteenths) :=
    propext (by omega)
  change execPacingAdjust true s = _
  simp only [execPacingAdjust, hready, hwhole, Bool.not_true, Bool.false_eq_true, if_false, if_true]
  rfl

theorem exec_pacingAdjust_of_pacing {c : PaceCause} (hpacing : s.power.pacing = some c) :
    exec (.pacingAdjust false) s = .next { s with power := { s.power with
      paceSixteenths := max 1 (s.power.paceSixteenths - 1) } } :=
  (if_neg (by simp [hready])).trans ((if_neg (by simp)).trans (if_neg (by simp [hpacing])))

end

/-! ### Stored energy, coolant and air -/

section
variable (s : State) (hup : s.power.draftUp = true)
include hup

theorem exec_holdupLow_of_low {mj : Nat} (h : mj < holdupFloor) :
    exec (.holdupLow mj) s =
      .next (((({ s with power := { s.power with holdupMj := mj } } : State).count 0x7981 8 1).event 0x7000 4
        srcDevice mj 0).setAlert alHoldup true) := if_pos (by simp [hup, h])

theorem exec_coolantExcursion_of_low {f : Nat} (h : f < 800) :
    exec (.coolantExcursion (.flowOut f)) s =
      .next ((({ s with module := { s.module with flow := f } } : State).raiseExcursion alCoolant 1
        (decide (800 ≤ s.module.flow))).count 0x7991 3 10) :=
  (if_neg (by simp [hup])).trans (if_neg (by simp [flowOk, h]))

theorem exec_airExcursion_of_hot {t : Int} (h : 350 < t) :
    exec (.airExcursion (.out t)) s =
      .next (({ s with module := { s.module with ambient := t } } : State).raiseExcursion alAir 2 false) :=
  (if_neg (by simp [hup])).trans (if_neg (by simp [ambientOk, h]))

end

/-- Settles O58: each clock, band and limit by its own law. -/
theorem clocksAndSensorsChangeTheirState : Obligations.ClocksAndSensorsChangeTheirState := by
  unfold Obligations.ClocksAndSensorsChangeTheirState
  exact ⟨fun s v hup => exec_rootSwitch_of_locked s hup v, exec_rootLossOfLock_of_locked,
    exec_standbyRootLock_false, fun s _ _ hup => exec_mgmtSwitchover_of_standby s hup, exec_noManagementDie_of_up,
    fun s _ hstages hup =>
      ⟨exec_inputLow_of_band s hstages hup, exec_inputHighBand_of_band s hstages hup⟩,
    fun s c hready => ⟨exec_pacingEngage_of_ready s hready c, exec_pacingAdjust_cleared s hready,
      exec_pacingAdjust_of_pacing s hready⟩,
    fun s _ hup => exec_holdupLow_of_low s hup, fun s _ hup => exec_coolantExcursion_of_low s hup,
    fun s _ hup => exec_airExcursion_of_hot s hup⟩

end Sys2Proof.Machine
end

section
/-!
PROOF. O59: what the journal does of itself and the repaired row, each by the condition under which its command acts
(R384 to R391).
-/

namespace Sys2Proof.Machine

open Sys2Proof

theorem exec_journalPageProgrammed (s : State) :
    exec .journalPageProgrammed s =
      (let j := s.journal.programPage
       let t := s.count 0x7951 0xB (j.retiredBlocks - s.journal.retiredBlocks)
       .next (({ t with journal := j } : State).watchForecasts State.checkNands)) := rfl

theorem exec_checkpoint_of_due (s : State) (hup : s.journalUp = true)
    (hdue : s.ckptInterval ≤ s.journal.sinceCkpt) :
    exec .checkpoint s =
      (let t := s.record 0x0D 0 s.ckptBody
       .next { t with journal := { t.journal with
         sinceCkpt := 0, ckpt := some (t.journal.tailBytes, jrecLength s.ckptBody) } }) :=
  if_neg (by simp [hup, Nat.not_lt.mpr hdue])

/-- A live block with a low count moves to the free block with the highest (R390). -/
theorem exec_wearLevelRelocation_of_due (s : State) (k a b : Nat) (hup : s.journalUp = true) (hk : k < 2)
    (hlive : (s.journal.nand k).failed = false) (hmove : (s.journal.nand k).relocation = some (a, b)) :
    exec (.wearLevelRelocation k) s =
      (let c := (s.journal.nand k).eraseOf b + 1
       let t := s.record 0x07 0 (toLe 2 k ++ toLe 2 b ++ toLe 4 c)
       let n := t.journal.nand k
       .next (({ t with journal := t.journal.setNand k { n with
         erases := Tab.write n.erases b c
         live := n.live.map (fun x => if x = a then b else x) } } : State).count 0x7951 0xE 1)) := by
  change execWearLevelRelocation k s = _
  rw [execWearLevelRelocation, if_neg (by simp [hup, hlive, Nat.not_le.mpr hk])]
  simp only [hmove]

section
variable (s : State) (hup : s.power.draftUp = true)
include hup

theorem exec_lifetime_of_up :
    exec .lifetime s = .next (s.watchForecasts (fun t =>
      ({ t with journal := t.journal.live 1 1 } : State).lifetimeRecord)) := if_pos hup

theorem exec_nandDieFail_of_up (k : Nat) (hk : k < 2) : exec (.nandDieFail k) s = .next (s.failNand k) :=
  if_pos (by simp [hup, hk])

theorem exec_rowRepair_of_memory (d c b r : Nat) (l u : List Nat) (hd : memoryDies.contains d = true) :
    exec (.rowRepair d c b r l u) s = .next (s.rowRepair d c b r (l.filter u.contains)) :=
  if_pos (by rw [hup, hd]; rfl)

end

/-- Settles O59: the journal's own events and the repair, each by its own law. -/
theorem journalAndRepairEventsAreKept : Obligations.JournalAndRepairEventsAreKept := by
  unfold Obligations.JournalAndRepairEventsAreKept
  exact ⟨exec_journalPageProgrammed, exec_checkpoint_of_due, exec_lifetime_of_up,
    fun s k hup => exec_nandDieFail_of_up s hup k, exec_wearLevelRelocation_of_due,
    fun s d c b r l u hup => exec_rowRepair_of_memory s hup d c b r l u⟩

end Sys2Proof.Machine
end

section
/-!
PROOF. O44: what agents ask of their homes (R226, R255 to R263), each request by the condition under which it is sent.
-/

namespace Sys2Proof.Machine

open Sys2Proof

/-! ### A core asks, or takes an access exception -/

theorem coreAsks_of_leased (s : State) (r : Req) (h : s.coreFaults r.agent r.line = false) :
    s.coreAsks r = s.ask r := if_neg (by simp [h])

theorem coreAsks_of_fault (s : State) (r : Req) (h : s.coreFaults r.agent r.line = true) :
    s.coreAsks r = s.trapReq r := if_pos h

/-- An agent without a copy asks for one. -/
theorem exec_read_of_mayAsk (s : State) (a l o : Nat) (f : Bool) (hmay : s.mayAsk a l = true)
    (hcopy : s.coh.copy a l = none) :
    exec (.rdS a ⟨l, o, f⟩) s = .next (s.coreAsks { plainReq .rdS a l with offset := o, fetch := f }) ∧
      exec (.rdX a ⟨l, o⟩) s = .next (s.coreAsks { plainReq .rdX a l with offset := o }) :=
  ⟨if_pos ⟨hmay, by rw [hcopy]; rfl⟩, if_pos ⟨hmay, by rw [hcopy]; rfl⟩⟩

theorem exec_upg_of_shared (s : State) (a l o : Nat) (c : CacheLine) (hmay : s.mayAsk a l = true)
    (hcopy : s.coh.copy a l = some c) (hst : c.st = .s ∨ c.st = .o) (hleased : s.coreFaults a l = false) :
    exec (.upg a ⟨l, o⟩) s = .next (s.ask { plainReq .upg a l with offset := o }) := by
  change execUpg a ⟨l, o⟩ s = _
  simp only [execUpg, hcopy]
  rw [if_pos ⟨hmay, hst⟩, coreAsks_of_leased _ _ hleased]

/-! ### Evictions -/

/-- Less than a whole line is nothing stored. -/
theorem storedIn_of_short (s : State) (a l : Nat) (b : List Byte) (hb : b.length ≠ 64) : s.storedIn a l b = s := by
  unfold State.storedIn
  split
  · exact if_neg (fun h => hb h.1)
  · rfl

theorem storedIn_of_copy (s : State) (a l : Nat) (b : List Byte) (c : CacheLine) (hcopy : s.coh.copy a l = some c)
    (hst : c.st = .m ∨ c.st = .e) (hhost : a ≠ hostAgent) (hb : b.length = 64) (hmay : s.objWrite (64 * l) = .free) :
    s.storedIn a l b = s.setCoh (s.coh.setBytes a l b) := by
  simp only [State.storedIn, hcopy]
  exact if_pos ⟨hb, hhost, hst, hmay⟩

/-- The copy that has taken new bytes is M and holds them. -/
theorem copy_setBytes (c : Coh) (a l : Nat) (b : List Byte) (x : CacheLine) (h : c.copy a l = some x) :
    (c.setBytes a l b).copy a l = some { x with bytes := b, st := .m } := by
  rw [Coh.copy] at h
  have hx := List.find?_some h
  have hsame : (fun y : CacheLine => y.agent == a && y.line == l) ∘
      (fun y => if y.agent == a && y.line == l then { y with bytes := b, st := .m } else y) =
        fun y => y.agent == a && y.line == l := by
    funext y
    simp only [Function.comp]
    split <;> rfl
  rw [Coh.copy, Coh.setBytes, List.find?_map, hsame, h, Option.map_some, if_pos hx]

theorem exec_wb_of_dirty (s : State) (a l : Nat) (b : List Byte) (c : CacheLine) (hmay : s.mayAsk a l = true)
    (hcopy : s.coh.copy a l = some c) (hst : c.st = .m ∨ c.st = .o) (hb : b.length ≠ 64) :
    exec (.wb a ⟨l, b⟩) s = .next (s.evict c .wb) := by
  change execWb a ⟨l, b⟩ s = _
  rw [execWb, if_neg (by simp [hmay])]
  simp only [storedIn_of_short s a l b hb, hcopy]
  rw [if_neg (fun h => hb h.2.2), if_pos hst]

theorem exec_wb_of_stored (s : State) (a l : Nat) (b : List Byte) (c : CacheLine) (hmay : s.mayAsk a l = true)
    (hcopy : s.coh.copy a l = some c) (hst : c.st = .m ∨ c.st = .e) (hhost : a ≠ hostAgent) (hb : b.length = 64)
    (hwrite : s.objWrite (64 * l) = .free) :
    exec (.wb a ⟨l, b⟩) s =
      .next ((s.setCoh (s.coh.setBytes a l b)).evict { c with bytes := b, st := .m } .wb) := by
  have hnew : (s.setCoh (s.coh.setBytes a l b)).coh.copy a l = some { c with bytes := b, st := .m } :=
    copy_setBytes s.coh a l b c hcopy
  change execWb a ⟨l, b⟩ s = _
  rw [execWb, if_neg (by simp [hmay])]
  simp only [storedIn_of_copy s a l b c hcopy hst hhost hb hwrite, hnew]
  rw [if_neg (fun h => hhost h.1), if_pos (.inl trivial)]

theorem exec_cln_of_clean (s : State) (a l : Nat) (c : CacheLine) (hmay : s.mayAsk a l = true)
    (hcopy : s.coh.copy a l = some c) (hst : c.st = .e ∨ c.st = .s) :
    exec (.cln a l) s = .next (s.evict c .cln) := by
  change execCln a l s = _
  simp only [execCln, hcopy]
  rw [if_pos ⟨hmay, hst⟩]

/-! ### Uncached accesses -/

/-- A line with a home is memory, no register. -/
theorem controlLineAt_of_homed {l : Nat} (h : homed l = true) : controlLineAt l = false := by
  simp only [homed, cacheable, Bool.or_eq_true] at h
  simp only [controlLineAt]
  split
  next hspace => simp [hspace] at h
  · rfl

theorem controlReach_of_homed (s : State) {l : Nat} (h : homed l = true) : s.controlReach l = false := by
  simp [State.controlReach, controlLineAt_of_homed h]

theorem exec_rdNc_of_homed (s : State) (l : Nat) (hready : s.ready = true) (hhome : homed l = true)
    (hcredit : s.hubCredit l = true) : exec (.rdNc l) s = .next (s.arrive (plainReq .rdNc engineAgent l)) :=
  (if_neg (by simp [controlReach_of_homed s hhome])).trans (if_pos ⟨hready, hhome, hcredit⟩)

theorem exec_wrNc_of_homed (s : State) (l : Nat) (m : BitVec 64) (b : List Byte) (hready : s.ready = true)
    (hhome : homed l = true) (hcredit : s.hubCredit l = true) :
    exec (.wrNc l m b) s =
      .next (s.arrive { plainReq .wrNc engineAgent l with mask := m, bytes := slice b 0 64 }) :=
  (if_neg (by simp [controlReach_of_homed s hhome])).trans (if_pos ⟨hready, hhome, hcredit⟩)

/-! ### Atomics -/

/-- The atomics of Table COH-9 are the first ten operations. -/
theorem atomicWidthOk_op_lt {op w : Nat} (h : atomicWidthOk op w = true) : op < 10 := by
  unfold atomicWidthOk at h
  split at h
  · omega
  · simp only [Bool.and_eq_true, decide_eq_true_eq] at h
    omega

/-- What an agent's atomic on a cacheable line passes before it is sent. -/
structure AtomicChecked (s : State) (a l k : Nat) (o : AtomicOp) : Prop where
  ready : s.ready = true
  live : s.agentLive a = true
  notHost : a ≠ hostAgent
  notEngine : a ≠ engineAgent
  idle : s.coh.asking a l = false
  credit : s.hubCredit l = true
  home : homed l = true
  cached : cacheable l = true
  width : atomicWidthOk o.op o.width = true
  aligned : k % o.width = 0
  inLine : k + o.width ≤ 64
  leased : s.coreFaults a l = false

theorem exec_atomN_of_checked {s : State} {a l k : Nat} {o : AtomicOp} (h : AtomicChecked s a l k o) :
    exec (.atomN a l k o) s = .next (s.sendAtomic a l k o) := by
  have hmay : s.mayAtomic a l = true := by
    simp [State.mayAtomic, h.live, h.notHost, h.idle, h.credit]
  have hok : atomicOk a k o = true := by
    simp [atomicOk, h.width, h.aligned, h.inLine]
  change execAtomN a l k o s = _
  rw [execAtomN, if_neg (by simp [h.ready, hmay, hok]), if_neg (by simp [controlLineAt_of_homed h.home]),
    if_pos ⟨h.home, .inl (atomicWidthOk_op_lt h.width), .inl h.notEngine⟩]

/-- An atomic that runs near goes to the home. -/
theorem sendAtomic_of_near {s : State} {a l k : Nat} {o : AtomicOp} (h : AtomicChecked s a l k o)
    (hnear : s.runsNear a l = true) :
    s.sendAtomic a l k o = s.ask { plainReq .atomN a l with offset := k, op := some o } := by
  have hhome : s.atomicNear a l o = true := by
    simp [State.atomicNear, hnear, atomicWidthOk_op_lt h.width]
  rw [State.sendAtomic]
  rw [if_neg (by simp [h.leased]), if_pos hhome, if_neg h.notEngine]

theorem sendAtomic_of_far {s : State} {a l k : Nat} {o : AtomicOp} (h : AtomicChecked s a l k o)
    (hfar : s.runsNear a l = false) : s.sendAtomic a l k o = s.farAtomic a l k o := by
  have hop := atomicWidthOk_op_lt h.width
  rw [State.sendAtomic]
  rw [if_neg (by simp [h.leased]), if_neg (by simp [State.atomicNear, hfar]), if_neg (fun hsc => by omega)]

theorem farAtomic_of_absent (s : State) (a l k : Nat) (o : AtomicOp) (hcopy : s.coh.copy a l = none) :
    s.farAtomic a l k o = s.farAsks .rdX a l k o := by
  simp only [State.farAtomic, hcopy]

/-- In a line held in M or E it runs at once, and the predictor moves by one (R264). -/
theorem farAtomic_of_owned (s : State) (a l k : Nat) (o : AtomicOp) (c : CacheLine)
    (hcopy : s.coh.copy a l = some c) (hst : c.st = .m ∨ c.st = .e) (hop : o.op < 10)
    (hwrite : s.objWrite (64 * l) = .free) :
    s.farAtomic a l k o = (s.setCoh (s.coh.predict a l false 1)).farRuns
      { agent := a, line := l, offset := k, op := o, taken := false } c := by
  have hnotShared : ¬ (c.st = .s ∨ c.st = .o) := by
    rcases hst with h | h <;> simp [h]
  simp only [State.farAtomic, hcopy, if_neg hnotShared, hwrite, ite_self, if_pos hop]

/-- Settles O44: reads and upgrades, evictions, uncached accesses and atomics. -/
theorem agentsAskTheirHome : Obligations.AgentsAskTheirHome := by
  unfold Obligations.AgentsAskTheirHome
  refine ⟨?reads, ?held, exec_rdNc_of_homed, fun s l hreach => if_pos hreach, exec_wrNc_of_homed, ?atomics⟩
  case reads =>
    intro s a l o f hmay hcopy r x
    obtain ⟨hrdS, hrdX⟩ := exec_read_of_mayAsk s a l o f hmay hcopy
    refine ⟨fun hleased => ?_, fun hfault => ?_⟩
    · rw [hrdS, hrdX, coreAsks_of_leased s r hleased, coreAsks_of_leased s x hleased]
      exact ⟨rfl, rfl⟩
    · rw [hrdS, hrdX, coreAsks_of_fault s r hfault, coreAsks_of_fault s x hfault]
      exact ⟨rfl, rfl⟩
  case held =>
    intro s a l o b c hmay hcopy
    exact ⟨exec_upg_of_shared s a l o c hmay hcopy, exec_wb_of_dirty s a l b c hmay hcopy,
      exec_wb_of_stored s a l b c hmay hcopy, exec_cln_of_clean s a l c hmay hcopy⟩
  case atomics =>
    intro s a l k o hready hlive hhost hengine hidle hcredit hhome hcached hwidth haligned hline hleased
    have h : AtomicChecked s a l k o :=
      ⟨hready, hlive, hhost, hengine, hidle, hcredit, hhome, hcached, hwidth, haligned, hline, hleased⟩
    rw [exec_atomN_of_checked h]
    refine ⟨fun hnear => ?_, fun hfar hcopy => ?_, fun c hfar hcopy hst hwrite => ?_⟩
    · rw [sendAtomic_of_near h hnear]
    · rw [sendAtomic_of_far h hfar, farAtomic_of_absent s a l k o hcopy]
    · rw [sendAtomic_of_far h hfar, farAtomic_of_owned s a l k o c hcopy hst (atomicWidthOk_op_lt hwidth) hwrite]

end Sys2Proof.Machine
end

section
/-!
PROOF. O45: what a snooped agent answers (Table COH-7). A snoop in flight reaches its agent with what its cores have
stored; one that no reservation delays is answered by the copy.
-/

namespace Sys2Proof.Machine

open Sys2Proof

/-! ### A snoop reaches its agent -/

theorem snooped_of_inFlight (s : State) (k : SnoopKind) (a : Nat) (f : StoredLine) (x : Snoop)
    (h : s.coh.inFlight k a f.line = some x) : s.snooped k a f = (s.storedIn a f.line f.stored).snoopArrives x := by
  simp only [State.snooped, h]

/-- An agent of the device without a live reservation of the line answers at once. -/
theorem snoopArrives_of_free (u : State) (x : Snoop) (hhost : x.agent ≠ hostAgent)
    (hfree : (u.coh.take (.snoop x)).delayed x = false) :
    u.snoopArrives x =
      (u.setCoh (u.coh.take (.snoop x))).setCoh ((u.coh.take (.snoop x)).answer x) :=
  (if_neg hhost).trans (if_neg (by simpa using hfree))

theorem snoopArrives_of_host (u : State) (x : Snoop) (h : x.agent = hostAgent) :
    u.snoopArrives x = (u.setCoh (u.coh.take (.snoop x))).askHost x := if_pos h

/-! ### The answer of a copy -/

section
variable (c : Coh) (x : Snoop)

theorem answer_snpInv (hkind : x.kind = .snpInv) :
    c.answer x = (c.setCopy x.agent x.line none).send (.rspI x.agent x.line x.host) := by
  simp only [Coh.answer, hkind]

variable {l : CacheLine} (hcopy : c.answering x.agent x.line = some l)
include hcopy

/-- An M copy is forwarded and taken. -/
theorem answer_snpX_of_modified (hkind : x.kind = .snpX) (hst : l.st = .m) :
    c.answer x = ((c.forward x l.bytes).setCopy x.agent x.line none).send (.rspFwd x.agent x.line true x.host) := by
  simp only [Coh.answer, hkind, hcopy, hst]
  rfl

theorem answer_snpS_of_shared (hkind : x.kind = .snpS) (hst : l.st = .s) :
    c.answer x = c.send (.rspS x.agent x.line x.host) := by
  simp only [Coh.answer, hkind, hcopy, hst, if_true]

/-- A dirty copy forwards its bytes to a device's read and stays as the owner's. -/
theorem answer_snpS_of_dirty (hkind : x.kind = .snpS) (hhost : x.host = false) (hst : l.st = .m ∨ l.st = .o) :
    c.answer x = (((c.forward x l.bytes).send (.rspFwd x.agent x.line true false)).setCopy x.agent x.line
      (some .o)).send (.rspO x.agent x.line false) := by
  rcases hst with hst | hst <;> simp only [Coh.answer, hkind, hcopy, hst, hhost] <;> rfl

end

/-- Nothing stored, nothing changed. -/
theorem storedIn_nil (s : State) (a l : Nat) : s.storedIn a l [] = s := storedIn_of_short s a l [] (by decide)

/-- Settles O45: each snoop by its kind and the copy that answers it. -/
theorem agentsAnswerSnoops : Obligations.AgentsAnswerSnoops := by
  unfold Obligations.AgentsAnswerSnoops
  refine ⟨?device, ?host, ?delay⟩
  case device =>
    rintro s a l b x u t rfl rfl hhost
    have harrive : ∀ k, s.coh.inFlight k x.agent x.line = some x → t.coh.delayed x = false →
        s.snooped k x.agent ⟨x.line, b⟩ = t.setCoh (t.coh.answer x) := fun k hflight hfree => by
      rw [snooped_of_inFlight s k x.agent ⟨x.line, b⟩ x hflight, snoopArrives_of_free u x hhost hfree]
      rfl
    refine ⟨fun hflight hkind hb hfree => ?_, fun c hflight hkind hfree hcopy hst => ?_,
      fun c hflight hkind hfree hcopy hst => ?_, fun c hflight hkind hdevice hfree hcopy hst => ?_,
      fun hflight _ hfree => congrArg Host.Outcome.next (harrive _ hflight hfree)⟩
    · subst hb
      exact congrArg Host.Outcome.next ((harrive _ hflight hfree).trans
        (congrArg t.setCoh (answer_snpInv t.coh x hkind)))
    · exact congrArg Host.Outcome.next ((harrive _ hflight hfree).trans
        (congrArg t.setCoh (answer_snpX_of_modified t.coh x hcopy hkind hst)))
    · exact congrArg Host.Outcome.next ((harrive _ hflight hfree).trans
        (congrArg t.setCoh (answer_snpS_of_shared t.coh x hcopy hkind hst)))
    · exact congrArg Host.Outcome.next ((harrive _ hflight hfree).trans
        (congrArg t.setCoh (answer_snpS_of_dirty t.coh x hcopy hkind hdevice hst)))
  case host =>
    intro s l x hflight hhost
    refine congrArg Host.Outcome.next ?_
    rw [snooped_of_inFlight s .snpX hostAgent ⟨l, []⟩ x hflight, storedIn_nil, snoopArrives_of_host s x hhost]
  case delay =>
    intro s a l x hheld
    change execLrSnoopDelayExpiry a l s = _
    simp only [execLrSnoopDelayExpiry, hheld]
    rfl

end Sys2Proof.Machine
end

section
/-!
PROOF. O46: homes take the answers of agents, requesters take data and grants, and the host is answered (R256 to R259,
R273 to R277).
-/

namespace Sys2Proof.Machine

open Sys2Proof

/-! ### Answers at the home -/

theorem deliverIf_of_has (s : State) (m : CohMsg) (h : s.coh.has m = true) : s.deliverIf m = s.deliverMsg m := if_pos h

/-- The answer that is taken: one to a device's snoop where there is one, else one to the host's. -/
theorem answerFlag_eq {h b : Bool} (hb : h = true → b = false) (hh : h = false → b = true) : (!b) = h := by
  cases h
  · simp [hh rfl]
  · simp [hb rfl]

/-- An answer in flight that `mk` forms is delivered with its own flag. -/
theorem deliverIf_flag (s : State) (mk : Bool → CohMsg) (h : Bool) (hhas : s.coh.has (mk h) = true)
    (hfirst : h = false ∨ s.coh.has (mk false) = false) :
    s.deliverIf (mk (!s.coh.has (mk false))) = s.deliverMsg (mk h) := by
  have hflag : (!s.coh.has (mk false)) = h := by
    refine answerFlag_eq (fun ht => hfirst.resolve_left (by simp [ht])) (fun hf => ?_)
    rw [← hhas, hf]
  rw [hflag, deliverIf_of_has s (mk h) hhas]

section
variable (s : State) (a l : Nat) (h : Bool)

theorem exec_rspI_of_has (hhas : s.coh.has (.rspI a l h) = true)
    (hfirst : h = false ∨ s.coh.has (.rspI a l false) = false) :
    exec (.rspI a l) s = (let c := s.coh.take (.rspI a l h)
      .next (((s.setCoh c).setCoh (c.dropHolder l a)).answered h a l)) :=
  congrArg Host.Outcome.next (deliverIf_flag s (fun h => .rspI a l h) h hhas hfirst)

theorem exec_rspS_of_has (hhas : s.coh.has (.rspS a l h) = true)
    (hfirst : h = false ∨ s.coh.has (.rspS a l false) = false) :
    exec (.rspS a l) s = (let c := s.coh.take (.rspS a l h)
      .next (((s.setCoh c).setCoh ((c.noteDue h a l).ownerShares l a)).answered h a l)) :=
  congrArg Host.Outcome.next (deliverIf_flag s (fun h => .rspS a l h) h hhas hfirst)

theorem exec_rspO_of_has (hhas : s.coh.has (.rspO a l h) = true)
    (hfirst : h = false ∨ s.coh.has (.rspO a l false) = false) :
    exec (.rspO a l) s = (let c := s.coh.take (.rspO a l h)
      .next (((s.setCoh c).setCoh ((c.noteDue h a l).ownerOwes l a)).answered h a l)) :=
  congrArg Host.Outcome.next (deliverIf_flag s (fun h => .rspO a l h) h hhas hfirst)

theorem exec_rspFwd_of_has (k : Bool) (hhas : s.coh.has (.rspFwd a l k h) = true)
    (hfirst : h = false ∨ s.coh.has (.rspFwd a l k false) = false) :
    exec (.rspFwd a l k) s = .next ((s.setCoh (s.coh.take (.rspFwd a l k h))).homeFwd a l h) :=
  congrArg Host.Outcome.next (deliverIf_flag s (fun h => .rspFwd a l k h) h hhas hfirst)

end

/-- The ACK of a granted requester ends its transaction (R257). -/
theorem exec_ack_of_granted (s : State) (a l : Nat) (t : Txn) (hhas : s.coh.has (.ack a l) = true)
    (htxn : (s.coh.take (.ack a l)).txn l = some t) (hgranted : t.granted = true) (hagent : t.req.agent = a) :
    exec (.ack a l) s = (let c := s.coh.take (.ack a l)
      .next (((s.setCoh c).setCoh (c.endTxn l)).beginAll)) := by
  have hack : (s.setCoh (s.coh.take (.ack a l))).homeAck a l =
      ((s.setCoh (s.coh.take (.ack a l))).setCoh ((s.coh.take (.ack a l)).endTxn l)).beginAll := by
    have htxn' : (s.setCoh (s.coh.take (.ack a l))).coh.txn l = some t := htxn
    simp only [State.homeAck, htxn']
    exact if_pos ⟨hgranted, hagent⟩
  exact congrArg Host.Outcome.next ((deliverIf_of_has s (.ack a l) hhas).trans hack)

/-! ### At the requester -/

theorem exec_grant_of_fill (s : State) (a l : Nat) (g : Option Moesi × Bool × Bool × Bool) (f : Fill)
    (hgrant : s.coh.grantFor a l = some g) (hfill : s.coh.fill a l = some f) :
    exec (.grant a l) s = (let c := s.coh.take (.grant a l g.1 g.2.1 g.2.2.1 g.2.2.2)
      let y := { f with grant := some g }
      .next (((s.setCoh c).setCoh (c.setFill y)).settleFill y)) := by
  have hfill' : (s.setCoh (s.coh.take (.grant a l g.1 g.2.1 g.2.2.1 g.2.2.2))).coh.fill a l = some f := hfill
  change execGrant a l s = _
  simp only [execGrant, hgrant, State.grantArrives, hfill']
  rfl

section
variable (s : State) (a l : Nat) (d : List Byte × Bool) (hdata : s.coh.dataFor a l = some d)
include hdata

theorem exec_data_of_fill (f : Fill) (hfill : s.coh.fill a l = some f) :
    exec (.data a l) s = (let c := s.coh.take (.data a l d.1 d.2)
      let y := { f with data := some d }
      .next (((s.setCoh c).setCoh (c.setFill y)).settleFill y)) := by
  have hfill' : (s.setCoh (s.coh.take (.data a l d.1 d.2))).coh.fill a l = some f := hfill
  change execData a l s = _
  simp only [execData, hdata, State.dataArrives, hfill']
  rfl

/-- An engine or a port takes its data without a copy; poisoned data is a poison response. -/
theorem exec_data_of_noFill (hfill : s.coh.fill a l = none) :
    exec (.data a l) s =
      .next (if d.2 then (s.setCoh (s.coh.take (.data a l d.1 d.2))).emit (.poisonResponse a l)
        else s.setCoh (s.coh.take (.data a l d.1 d.2))) := by
  have hfill' : (s.setCoh (s.coh.take (.data a l d.1 d.2))).coh.fill a l = none := hfill
  change execData a l s = _
  simp only [execData, hdata, State.dataArrives, hfill']

end

/-! ### The host -/

section
variable (s : State) (k : ReqKind) (l : Nat)

/-- A line that no agent of the device holds misses the filter. -/
theorem hostSnoops_of_miss
    (h : (((s.drain l l false).count 0x7919 0 1).coh.entry l).holders = [] ∨ hostLine l = false) :
    s.hostSnoops k l =
      (((s.drain l l false).count 0x7919 0 1).count 0x7919 1 1).emit (.hostRsp l false none false) :=
  if_pos (h.imp_right (by simp))

/-- One that hits, with no host transaction on the line, opens one. -/
theorem hostSnoops_of_hit (hheld : (((s.drain l l false).count 0x7919 0 1).coh.entry l).holders ≠ [])
    (hline : hostLine l = true) (hfree : ((s.drain l l false).count 0x7919 0 1).coh.txn (txnKey true l) = none) :
    s.hostSnoops k l =
      (((s.drain l l false).count 0x7919 0 1).openTxn (plainReq k hostSnoop l)).advance (txnKey true l) :=
  (if_neg (not_or.mpr ⟨hheld, by simp [hline]⟩)).trans
    (if_neg (Option.not_isSome_iff_eq_none.mpr hfree))

end

/-- A host snoop is looked up in the filter while the link runs CXL. -/
theorem exec_hostSnoop_of_up (s : State) (l : Nat) (hready : s.ready = true) (hcxl : s.host.cxlUp = true) :
    exec (.snpdata l) s = .next (s.hostSnoops .rdS l) ∧ exec (.snpinv l) s = .next (s.hostSnoops .rdX l) ∧
      exec (.snpcur l) s = .next (s.hostSnoops .rdNc l) :=
  ⟨if_pos ⟨hready, hcxl⟩, if_pos ⟨hready, hcxl⟩, if_pos ⟨hready, hcxl⟩⟩

/-- The host gives a device line back without data and keeps nothing (R275). -/
theorem exec_birsp_of_wait (s : State) (l : Nat) (x : Snoop)
    (hwait : s.coh.biWait.find? (fun x => x.line == l) = some x) :
    exec (.birsp l none false) s = (let c := { s.coh with biWait := s.coh.biWait.erase x }
      .next ((s.setCoh c).setCoh ((c.setCopy hostAgent x.line none).send (.rspI hostAgent x.line x.host)))) := by
  change execBirsp l none false s = _
  simp only [execBirsp, hwait]
  rfl

/-- The host's refusal, or its data, ends what the transaction waited for (R273, R278). -/
theorem exec_cxlCacheResponse_of_need (s : State) (l : Nat) (t : Txn) (htxn : s.coh.txn l = some t)
    (hneed : t.needHost = true) :
    exec (.cxlCacheResponse l none) s =
      .next ((s.setCoh (s.coh.setTxn l { t with needHost := false, refused := true })).advance l) ∧
    ∀ b, exec (.cxlCacheResponse l (some b)) s = (let u := s.putLine l (slice b 0 64) false
      .next ((u.setCoh (u.coh.setTxn l { t with needHost := false })).advance l)) := by
  constructor
  · change execCxlCacheResponse l none s = _
    simp only [execCxlCacheResponse, htxn]
    exact if_neg (by simp [hneed])
  · intro b
    change execCxlCacheResponse l (some b) s = _
    simp only [execCxlCacheResponse, htxn]
    exact if_neg (by simp [hneed])

/-- Settles O46: answers, ACK, grant and data, the write-back's end, the host's snoops and answers, and the probe. -/
theorem homesTakeAnswersAndHostSnoops : Obligations.HomesTakeAnswersAndHostSnoops := by
  unfold Obligations.HomesTakeAnswersAndHostSnoops
  refine ⟨fun s a l h => ⟨exec_rspI_of_has s a l h, exec_rspS_of_has s a l h, exec_rspO_of_has s a l h,
    exec_rspFwd_of_has s a l h⟩, exec_ack_of_granted, exec_grant_of_fill, ?data, ?wbAck, ?snoops, exec_birsp_of_wait,
    exec_cxlCacheResponse_of_need, ?probe⟩
  case data =>
    intro s a l d hdata c
    refine ⟨exec_data_of_fill s a l d hdata, fun hfill hclean => ?_, fun hfill hpoison => ?_⟩
    · rw [exec_data_of_noFill s a l d hdata hfill, if_neg (by simp [hclean])]
    · rw [exec_data_of_noFill s a l d hdata hfill, if_pos hpoison]
  case wbAck =>
    intro s a l hhas
    exact congrArg Host.Outcome.next (deliverIf_of_has s (.wbAck a l) hhas)
  case snoops =>
    intro s l hready hcxl u
    obtain ⟨hdata, hinv, hcur⟩ := exec_hostSnoop_of_up s l hready hcxl
    rw [hdata, hinv, hcur]
    refine ⟨fun hmiss => ?_, fun hheld hline hfree => ?_⟩
    · rw [hostSnoops_of_miss s _ l hmiss, hostSnoops_of_miss s _ l hmiss, hostSnoops_of_miss s _ l hmiss]
      exact ⟨rfl, rfl, rfl⟩
    · rw [hostSnoops_of_hit s _ l hheld hline hfree, hostSnoops_of_hit s _ l hheld hline hfree,
        hostSnoops_of_hit s _ l hheld hline hfree]
      exact ⟨rfl, rfl, rfl⟩
  case probe =>
    intro s v hup
    exact onCmd_of_draftUp s (fun s => (s.probeDir v.toNat, .ok)) hup

end Sys2Proof.Machine
end

section
/-!
PROOF. O38: puts, atomics, signals and regions of Peruo at their dispatch (R318 to R320, R335, R336), each past its
checks.
-/

namespace Sys2Proof.Machine

open Sys2Proof

/-! ### PRU_PUT -/

/-- The checks of a put that has bytes to move, with its source at the local address `a` (R318, R336). -/
structure PutChecked (s : State) (d : Desc) (f : PutF) (a : Nat) : Prop where
  dispatch : s.canDispatch d 0xB0 = true
  rsvd : f.rsvd = true
  shuttle : fieldBits d.body 16 2 0 ≤ 4
  scope : s.scopeOk f.scope f.peer = true
  src : decodeAddr s f.src = .here a
  region : f.region ≤ 1023
  other : f.scope ≠ 1 ∨ f.peer ≠ s.ownPod
  signal : f.signal = false ∨ (f.scope ≠ 2 ∧ f.token ≤ 4095 ∧ f.sigDie ≤ 25 ∧
    (s.putPeer f.scope f.peer ≠ s.ownPod ∨ s.tensorDie f.sigDie = true))
  length : f.length ≠ 0
  leased : s.within d.queue a f.length = true

theorem exec_pruPut_of_checked {s : State} {d : Desc} {a : Nat} (h : PutChecked s d (putF d.body) a) :
    exec (.pruPut d) s = .next (s.handXfer d 0xB0 (shuttleOf d.queue d.body)) := by
  obtain ⟨hdispatch, hrsvd, hshuttle, hscope, hsrc, hregion, hother, hsignal, hlength, hleased⟩ := h
  change execPruPut d s = _
  rw [execPruPut, onDesc_of_canDispatch s d 0xB0 _ hdispatch]
  simp only [hsrc]
  rw [if_neg (by grind), if_neg hlength, if_neg (by simp [hleased])]

/-! ### PRU_ATOMIC -/

/-- The checks of an atomic on target `t` with its operands, result and target free to use (R319). -/
structure AtomicDescChecked (s : State) (d : Desc) (t : Target) (op w ref out : Nat) : Prop where
  dispatch : s.canDispatch d 0xB1 = true
  low : fieldZero d.body 18 24 = true
  high : fieldZero d.body 44 60 = true
  width : atomicWidthOk op w = true
  target : decodeAddr s (fieldOf d.body 24 8) = t
  known : t ≠ .bad
  operands : s.within d.queue ref (if op = 9 then 2 * w else w) = true
  result : s.within d.queue out w = true
  free : s.objWrite out = .free
  local_ : ∀ a, t = .here a → s.within d.queue a w = true ∧ s.objWrite a = .free

theorem exec_pruAtomic_of_checked {s : State} {d : Desc} {t : Target}
    (h : AtomicDescChecked s d t (fieldOf d.body 16 1) (fieldOf d.body 17 1) (fieldOf d.body 32 6)
      (fieldOf d.body 38 6)) :
    exec (.pruAtomic d) s = .next (s.handXfer d 0xB1 (d.queue.toNat % 4)) := by
  obtain ⟨hdispatch, hlow, hhigh, hwidth, htarget, hknown, hoperands, hresult, hfree, hlocal⟩ := h
  change execPruAtomic d s = _
  rw [execPruAtomic, onDesc_of_canDispatch s d 0xB1 _ hdispatch]
  simp only [htarget]
  rw [if_neg (by simp [hlow, hhigh, hwidth, hknown])]
  cases t with
  | bad => exact absurd rfl hknown
  | here a =>
    obtain ⟨hwithin, hobj⟩ := hlocal a rfl
    rw [if_neg (by simp only [Option.getD_some, hoperands, hresult, hwithin]; simp),
      if_neg (by simp [hfree, hobj]), if_neg (by simp [hfree, hobj])]
  | peer dev a =>
    rw [if_neg (by simp only [hoperands, hresult]; simp), if_neg (by simp [hfree]), if_neg (by simp [hfree])]

/-! ### PRU_SIGNAL -/

/-- The checks of a signal but for the die of a target that is the own pod (R320). -/
structure SignalChecked (s : State) (d : Desc) (scope die mode token : Nat) : Prop where
  dispatch : s.canDispatch d 0xB2 = true
  opcode : fieldOf d.body 16 1 = 0
  flag : fieldBits d.body 17 0 0 = 0
  high : fieldBits d.body 17 7 3 = 0
  low20 : fieldZero d.body 20 22 = true
  low24 : fieldZero d.body 24 48 = true
  low50 : fieldZero d.body 50 52 = true
  low56 : fieldZero d.body 56 60 = true
  scope_le : scope ≤ 1
  scopeOk : s.scopeOk scope (fieldOf d.body 18 2) = true
  mode_le : mode ≤ 1
  token_le : token ≤ 4095
  die_le : die ≤ 25
  earlier : s.earlierDone d = true

/-- Past its checks a signal is made here or carried to its pod. -/
theorem execPruSignal_of_checked {s : State} {d : Desc}
    (h : SignalChecked s d (fieldBits d.body 17 2 1) (fieldOf d.body 22 1) (fieldOf d.body 23 1)
      (fieldOf d.body 48 2))
    (hdie : s.putPeer (fieldBits d.body 17 2 1) (fieldOf d.body 18 2) = s.ownPod →
      s.tensorDie (fieldOf d.body 22 1) = true) :
    exec (.pruSignal d) s = .next
      (let scope := fieldBits d.body 17 2 1
       let die := fieldOf d.body 22 1
       let mode := fieldOf d.body 23 1
       let token := fieldOf d.body 48 2
       let inc := BitVec.ofNat 32 (fieldOf d.body 52 4)
       let p := s.putPeer scope (fieldOf d.body 18 2)
       if p = s.ownPod then s.runNow d 0xB2 (fun s => (s.signalToken die token mode inc, doneOk))
       else match s.refusal p (scope == 1) with
         | some st => s.finish d (outcm st (if st = stCfgMismatch then p else 0) 0)
         | none =>
           if !s.tagRoom p then s
           else (s.handOver d .dispatch).sendXact p (scope == 1) d.queue d.seq 3 0 0 (s.stepOf d.queue)
             (.signal mode die (s.stepOf d.queue) token inc)) := by
  obtain ⟨hdispatch, hop, hflag, hhigh, h20, h24, h50, h56, hscope, hscopeOk, hmode, htoken, hdie25, hearlier⟩ := h
  change execPruSignal d s = _
  rw [execPruSignal, onDesc_of_canDispatch s d 0xB2 _ hdispatch]
  refine congrArg Host.Outcome.next ?_
  exact (if_neg (by grind)).trans (if_neg (by simp [hearlier]))

/-! ### PRU_REGION -/

/-- The reserved bytes and the ranges of a PRU_REGION (R335). -/
structure RegionChecked (s : State) (d : Desc) : Prop where
  dispatch : s.canDispatch d 0xB7 = true
  low20 : fieldZero d.body 20 24 = true
  low30 : fieldZero d.body 30 32 = true
  low40 : fieldZero d.body 40 60 = true
  perm : fieldOf d.body 19 1 ≤ 7
  number : fieldOf d.body 16 2 ≤ 1023

theorem exec_pruRegion_register {s : State} {d : Desc} (h : RegionChecked s d) (hop : fieldOf d.body 18 1 = 0)
    (hnew : (s.region (fieldOf d.body 16 2)).registered = false) (hn : fieldOf d.body 32 8 ≠ 0)
    (hwithin : s.within d.queue (fieldOf d.body 24 6) (fieldOf d.body 32 8) = true) :
    exec (.pruRegion d) s =
      (let t := s.handOver d .dispatch
       .next (({ t with peruo := { t.peruo with
         regions := Tab.write t.peruo.regions (fieldOf d.body 16 2)
           { registered := true, enabled := true, perm := BitVec.ofNat 3 (fieldOf d.body 19 1),
             lease := (t.queue d.queue).lease, target := fieldOf d.body 24 6, length := fieldOf d.body 32 8 } } } :
         State).finish d doneOk)) := by
  obtain ⟨hdispatch, h20, h30, h40, hperm, hnumber⟩ := h
  change execPruRegion d s = _
  rw [execPruRegion, onDesc_of_canDispatch s d 0xB7 _ hdispatch]
  simp only [runNow_of_engine s d 0xB7 .dispatch _ rfl]
  rw [if_neg (by grind), if_neg (by simp [hop]), if_neg (by simp [hnew]), if_neg hn, if_neg (by simp [hwithin])]

theorem exec_pruRegion_release {s : State} {d : Desc} (h : RegionChecked s d) (hop : fieldOf d.body 18 1 = 1)
    (hold : (s.region (fieldOf d.body 16 2)).registered = true) (hperm : fieldOf d.body 19 1 = 0)
    (ha : fieldOf d.body 24 6 = 0) (hn : fieldOf d.body 32 8 = 0) :
    exec (.pruRegion d) s =
      (let t := s.handOver d .dispatch
       .next (({ t with peruo := { t.peruo with
         regions := Tab.remove t.peruo.regions (fieldOf d.body 16 2) } } : State).finish d doneOk)) := by
  obtain ⟨hdispatch, h20, h30, h40, hperm7, hnumber⟩ := h
  change execPruRegion d s = _
  rw [execPruRegion, onDesc_of_canDispatch s d 0xB7 _ hdispatch]
  simp only [runNow_of_engine s d 0xB7 .dispatch _ rfl]
  rw [if_neg (by grind), if_pos hop, if_neg (by simp [hold, hperm, ha, hn])]

/-- Settles O38: each descriptor past its checks. -/
theorem peruoDescriptorsPutSignalAndRegister : Obligations.PeruoDescriptorsPutSignalAndRegister := by
  unfold Obligations.PeruoDescriptorsPutSignalAndRegister
  refine ⟨?put, ?atomic, ?signal, ?region⟩
  case put =>
    intro s d a f hdispatch hrsvd hshuttle hscope hsrc hregion hother hsignal hlength hleased
    exact exec_pruPut_of_checked
      ⟨hdispatch, hrsvd, hshuttle, hscope, hsrc, hregion, hother, hsignal, hlength, hleased⟩
  case atomic =>
    intro s d t op w ref out hdispatch hlow hhigh hwidth htarget hknown hoperands hresult hfree hlocal
    exact exec_pruAtomic_of_checked
      ⟨hdispatch, hlow, hhigh, hwidth, htarget, hknown, hoperands, hresult, hfree, hlocal⟩
  case signal =>
    intro s d scope die mode token inc p hdispatch hop hflag hhigh h20 h24 h50 h56 hscope hscopeOk hmode htoken
      hdie hearlier
    have h : SignalChecked s d scope die mode token :=
      ⟨hdispatch, hop, hflag, hhigh, h20, h24, h50, h56, hscope, hscopeOk, hmode, htoken, hdie, hearlier⟩
    refine ⟨fun hown htensor => ?_, fun hother hrefusal hroom => ?_⟩
    · rw [execPruSignal_of_checked h (fun _ => htensor)]
      refine congrArg Host.Outcome.next ((if_pos hown).trans ?_)
      exact runNow_of_engine s d 0xB2 .dispatch _ rfl
    · rw [execPruSignal_of_checked h (fun hown => absurd hown hother)]
      refine congrArg Host.Outcome.next ((if_neg hother).trans ?_)
      simp only [p, scope] at hrefusal hroom
      simp only [hrefusal]
      exact if_neg (by simp [hroom])
  case region =>
    intro s d r a n t hdispatch h20 h30 h40 hperm hr
    have h : RegionChecked s d := ⟨hdispatch, h20, h30, h40, hperm, hr⟩
    exact ⟨exec_pruRegion_register h, exec_pruRegion_release h⟩

end Sys2Proof.Machine
end

section
/-!
PROOF. O39: groups are made and removed, and collectives start and are looked at again (R321 to R325).
-/

namespace Sys2Proof.Machine

open Sys2Proof

/-! ### PRU_GROUP -/

/-- The reserved bytes and the ranges of a PRU_GROUP (R321). -/
structure GroupChecked (s : State) (d : Desc) : Prop where
  dispatch : s.canDispatch d 0xB3 = true
  low : fieldZero d.body 22 24 = true
  high : fieldZero d.body 30 60 = true
  pod : fieldOf d.body 19 1 ≤ 1
  number : fieldOf d.body 16 2 ≤ 4095

/-- The members that a group of `n` identifiers at `a` may have: distinct, the own pod among them, all of the domain
unless the group has pod scope. -/
structure MembersOk (s : State) (pod : Nat) (l : List Nat) : Prop where
  distinct : distinctNats l = true
  own : l.contains s.ownPod = true
  inScope : l.all (fun p => decide (p ≤ 12287) && (pod == 1 || sameDomain p s.ownPod)) = true

theorem MembersOk.inRange {s : State} {pod : Nat} {l : List Nat} (h : MembersOk s pod l) :
    l.any (fun p => decide (12287 < p)) = false := by
  have hall := h.inScope
  simp only [List.all_eq_true, Bool.and_eq_true, decide_eq_true_eq] at hall
  simpa using fun p hp => (hall p hp).1

theorem MembersOk.ofDomain {s : State} {pod : Nat} {l : List Nat} (h : MembersOk s pod l) (h0 : pod = 0) :
    l.any (fun p => !sameDomain p s.ownPod) = false := by
  have hall := h.inScope
  simp only [List.all_eq_true, Bool.and_eq_true, h0] at hall
  simpa using fun p hp => by simpa using (hall p hp).2

theorem handOver_ownPod (s : State) (d : Desc) (e : Engine) : (s.handOver d e).ownPod = s.ownPod := rfl

theorem exec_pruGroup_make {s : State} {d : Desc} (h : GroupChecked s d) (hop : fieldOf d.body 18 1 = 0)
    (hnew : Tab.find s.peruo.groups (fieldOf d.body 16 2) = none)
    (hpod : fieldOf d.body 19 1 = 0 ∨ s.podMode ≠ 0) (hmin : 2 ≤ fieldOf d.body 20 2)
    (hmax : fieldOf d.body 20 2 ≤ 12288)
    (hwithin : s.within d.queue (fieldOf d.body 24 6) (2 * fieldOf d.body 20 2) = true)
    (hclean : s.anyPoison (fieldOf d.body 24 6) (2 * fieldOf d.body 20 2) = false)
    (hmembers : MembersOk s (fieldOf d.body 19 1) (s.groupList (fieldOf d.body 24 6) (fieldOf d.body 20 2))) :
    exec (.pruGroup d) s =
      (let l := s.groupList (fieldOf d.body 24 6) (fieldOf d.body 20 2)
       let u := (s.handOver d .dispatch).noteRead (fieldOf d.body 24 6) (2 * fieldOf d.body 20 2)
       .next (({ u with peruo := { u.peruo with
         groups := Tab.write u.peruo.groups (fieldOf d.body 16 2)
           { podScope := fieldOf d.body 19 1 == 1, members := l
             rank := l.findIdx (fun p => p == s.ownPod), nextSeq := 0 } } } : State).finish d doneOk)) := by
  obtain ⟨hdispatch, hlow, hhigh, hpod1, hnumber⟩ := h
  have hrange := hmembers.inRange
  have hdomain := hmembers.ofDomain
  change execPruGroup d s = _
  rw [execPruGroup, onDesc_of_canDispatch s d 0xB3 _ hdispatch]
  simp only [runNow_of_engine s d 0xB3 .dispatch _ rfl, handOver_ownPod]
  rw [if_neg (by grind), if_neg (by simp [hop]), if_neg (by simp only [hnew, Option.isSome_none]; grind),
    if_neg (by omega), if_neg (by simp [hwithin]), if_neg (by simp [hclean]),
    if_neg (by simp only [hmembers.distinct, hmembers.own, hrange]; grind)]

/-- A group goes when no collective of it waits. -/
theorem exec_pruGroup_remove {s : State} {d : Desc} (h : GroupChecked s d) (hop : fieldOf d.body 18 1 = 1)
    (hold : (Tab.find s.peruo.groups (fieldOf d.body 16 2)).isSome = true)
    (hidle : s.peruo.collWaits.any (fun w => collGroup w.body == fieldOf d.body 16 2) = false) :
    exec (.pruGroup d) s =
      (let t := s.handOver d .dispatch
       .next (({ t with peruo := { t.peruo with
         groups := Tab.remove t.peruo.groups (fieldOf d.body 16 2)
         collMsgs := t.peruo.collMsgs.filter (fun m => m.group != fieldOf d.body 16 2) } } : State).finish d
           doneOk)) := by
  obtain ⟨hdispatch, hlow, hhigh, hpod1, hnumber⟩ := h
  change execPruGroup d s = _
  rw [execPruGroup, onDesc_of_canDispatch s d 0xB3 _ hdispatch]
  simp only [runNow_of_engine s d 0xB3 .dispatch _ rfl]
  rw [if_neg (by grind), if_pos hop, if_neg (by simp [hold]), if_neg (by simp only [hidle]; decide)]

/-! ### The three collectives -/

section
variable (s : State) (d : Desc) (op : Byte) (ok : Nat → Bool) (empty : Bool) (mem : Nat → Nat → Option Outcm)

/-- An accepted collective is looked at again each time it is offered. -/
theorem onColl_of_waiting (w : CollWait) (hready : s.ready = true)
    (hwait : s.peruo.collWaits.find? (fun w => w.queue == d.queue && w.seq == d.seq) = some w) :
    s.onColl d op ok empty mem = .next (s.pumpColl w) := by
  simp only [State.onColl, hwait, hready, if_true]

/-- A new one whose fields hold, with its memory in place or of a zero extent, starts. -/
theorem onColl_of_new (g : PGroup)
    (hnew : s.peruo.collWaits.find? (fun w => w.queue == d.queue && w.seq == d.seq) = none)
    (hgroup : s.group (collGroup d.body) = some g)
    (hseq : collGroup d.body = groupAlone ∨ collSeqOf d.body = g.nextSeq) (hdispatch : s.canDispatch d op = true)
    (hok : ok g.members.length = true) (hmem : empty = true ∨ mem g.members.length g.rank = none) :
    s.onColl d op ok empty mem = .next (s.startColl d op) := by
  have hfields : ¬ ((!ok g.members.length) = true ∨
      (collGroup d.body ≠ groupAlone ∧ collSeqOf d.body ≠ g.nextSeq)) := by
    rw [hok]
    exact not_or.mpr ⟨by decide, fun h => hseq.elim h.1 h.2⟩
  have hready : (if empty = true then none else mem g.members.length g.rank) = none := by
    rcases hmem with h | h <;> simp [h]
  simp only [State.onColl, hnew, onDesc_of_canDispatch s d op _ hdispatch, hgroup, if_neg hfields, hready]

end

/-- Settles O39: groups first, then new collectives and the ones that wait. -/
theorem collectivesAndTheirGroups : Obligations.CollectivesAndTheirGroups := by
  unfold Obligations.CollectivesAndTheirGroups
  refine ⟨?groups, ?new, ?waiting⟩
  case groups =>
    intro s d gi pod n a t hdispatch hlow hhigh hpod hnumber
    have h : GroupChecked s d := ⟨hdispatch, hlow, hhigh, hpod, hnumber⟩
    exact ⟨fun hop hnew hscope hmin hmax hwithin hclean hdistinct hown hall =>
        exec_pruGroup_make h hop hnew hscope hmin hmax hwithin hclean ⟨hdistinct, hown, hall⟩,
      exec_pruGroup_remove h⟩
  case new =>
    intro s d g hnew hgroup hseq
    refine ⟨fun hdispatch hok hmem => ?_, fun hdispatch hok hmem => ?_, fun hdispatch hok => ?_⟩
    · exact onColl_of_new s d 0xB4 _ _ _ g hnew hgroup hseq hdispatch hok
        (by rw [Bool.or_eq_true, beq_iff_eq, beq_iff_eq, or_assoc]; exact hmem)
    · exact onColl_of_new s d 0xB5 _ _ _ g hnew hgroup hseq hdispatch hok (by rw [beq_iff_eq]; exact hmem)
    · exact onColl_of_new s d 0xB6 (fun _ => s.barOk (barF d.body)) false (fun _ _ => none) g hnew hgroup hseq
        hdispatch hok (.inr rfl)
  case waiting =>
    intro s d w hready hwait
    exact ⟨onColl_of_waiting s d 0xB4 _ _ _ w hready hwait, onColl_of_waiting s d 0xB5 _ _ _ w hready hwait,
      onColl_of_waiting s d 0xB6 (fun _ => s.barOk (barF d.body)) false (fun _ _ => none) w hready hwait⟩

end Sys2Proof.Machine
end

section
/-!
PROOF. O42: what the records of a peer do at the target (R313 to R320). A record of a device that agrees runs its
effect; one that is refused is counted and answered.
-/

namespace Sys2Proof.Machine

open Sys2Proof

/-! ### The frame of a record -/

section
variable (s : State) (h : XHdr) (t : Nat) (pod : Bool) (f : State → State) (hready : s.ready = true)
include hready

theorem onRecord_of_accept (hagree : s.agree h t = .accept) : s.onRecord h t pod f = .next (f s) := by
  rw [State.onRecord, if_neg (by simp [hready])]
  simp only [hagree]

theorem onRecord_of_refuse {st : Byte} (hagree : s.agree h t = .refuse st) :
    s.onRecord h t pod f =
      .next ((s.count 0x7939 (if st = stCfgMismatch then 0 else 1) 1).respond h t pod
        (.rsp st 0 (BitVec.ofNat 32 s.ownPod) [] [])) := by
  rw [State.onRecord, if_neg (by simp [hready])]
  simp only [hagree]
  rfl

end

/-! ### The four records -/

section
variable (s : State) (h : XHdr) (hready : s.ready = true)
include hready

/-- A put is written, its poison with it, and answered (R318, R319). -/
theorem exec_put_of_target (r : PutRec) (a : Nat) (hagree : s.agree h r.step = .accept)
    (htarget : s.putTarget h r = .ok a) (hfree : s.objWrite a = .free) :
    exec (.put h r) s =
      (let t := s.writeMem a (slice r.data.bytes 0 r.length)
       let bad := (r.data.poison.map (fun k => a / 64 + k)).filter (linesOf a r.length).contains
       .next ((t.poisonResult bad).sendNow h.src r.pod h.xtag r.step (.rsp stDone 0 0 [] []))) := by
  change execPut h r s = _
  rw [execPut, onRecord_of_accept s h r.step r.pod _ hready hagree]
  simp only [htarget, hfree]
  rfl

theorem exec_get_of_leased (r : GetRec) (hagree : s.agree h r.step = .accept) (hregion : r.region = noRegion)
    (hdomain : sameDomain h.src s.ownPod = true) (hleased : s.leased r.addr r.length = true) :
    exec (.get h r) s = .next ((s.noteRead r.addr r.length).sendNow h.src false h.xtag r.step
      (.rsp stDone 0 0 (s.bytesAt r.addr r.length)
        ((s.poisonIn r.addr r.length).map (fun l => l - r.addr / 64)))) := by
  change execGet h r s = _
  rw [execGet, onRecord_of_accept s h r.step false _ hready hagree]
  rw [if_neg (by simp [hregion, hdomain]), if_neg (by simp [hleased])]
  rfl

/-- An atomic that is no compare-and-swap and was not answered before runs, and its answer is kept (R318). -/
theorem exec_atom_of_fresh (r : AtomRec) (hagree : s.agree h r.step = .accept)
    (hfresh : s.cachedAtomic h.src h.xtag = none) (hop : r.op ≠ 9) (hwidth : atomicWidthOk r.op r.width = true)
    (hdomain : sameDomain h.src s.ownPod = true) (hleased : s.leased r.addr r.width = true)
    (hfree : s.objWrite r.addr = .free) (hclean : s.anyPoison r.addr r.width = false) :
    exec (.atom h r) s =
      (let x := s.atomicAt r.addr r.op r.width (leNat (slice r.operand 0 r.width)) 0
       .next ((x.2.cacheAtomic h.src h.xtag (.rsp stDone x.1 0 [] [])).sendNow h.src false h.xtag r.step
         (.rsp stDone x.1 0 [] []))) := by
  change execAtom h r s = _
  rw [execAtom, onRecord_of_accept s h r.step false _ hready hagree]
  simp only [hfresh, hfree, if_neg hop]
  rw [if_neg (by simp [hwidth, hdomain]), if_neg (by simp [hleased]), if_neg (by simp [hclean])]
  rfl

theorem exec_signal_of_token (r : SignalRec) (hagree : s.agree h r.step = .accept) (hmode : r.mode ≤ 1)
    (htoken : r.token ≤ 4095) (hdie : s.tensorDie r.die = true) :
    exec (.signal h r) s =
      .next ((s.signalToken r.die r.token r.mode r.increment).sendNow h.src false h.xtag r.step
        (.rsp stDone 0 0 [] [])) := by
  change execSignal h r s = _
  rw [execSignal, onRecord_of_accept s h r.step false _ hready hagree]
  rw [if_neg (by simp only [hdie]; simpa using ⟨hmode, htoken⟩)]
  rfl

theorem exec_signal_of_refuse (r : SignalRec) (st : Byte) (hagree : s.agree h r.step = .refuse st) :
    exec (.signal h r) s =
      .next ((s.count 0x7939 (if st = stCfgMismatch then 0 else 1) 1).sendNow h.src false h.xtag r.step
        (.rsp st 0 (BitVec.ofNat 32 s.ownPod) [] [])) := by
  change execSignal h r s = _
  rw [execSignal, onRecord_of_refuse s h r.step false _ hready hagree]
  rfl

end

/-- Settles O42: the four records where both sides agree, and a signal that is refused. -/
theorem peerRecordsActAtTheTarget : Obligations.PeerRecordsActAtTheTarget := by
  unfold Obligations.PeerRecordsActAtTheTarget
  exact ⟨fun s h r a hready => exec_put_of_target s h hready r a,
    fun s h r hready => exec_get_of_leased s h hready r,
    fun s h r hready => exec_atom_of_fresh s h hready r,
    fun s h r hready => exec_signal_of_token s h hready r,
    fun s h r st hready => exec_signal_of_refuse s h hready r st⟩

end Sys2Proof.Machine
end

section
/-!
PROOF. O43: responses, the records of collectives, HELLO and PEER_DOWN, timeouts, and the packets of Ethernet mode
(R312 to R317, R322, R331 to R333).
-/

namespace Sys2Proof.Machine

open Sys2Proof

/-! ### Responses and the records of collectives -/

/-- A response with a listed status, of a member, ends the transaction that carries its tag. -/
theorem exec_rsp_of_outstanding (s : State) (h : XHdr) (r : RspRec) (x : Xact) (hready : s.ready = true)
    (hdst : h.dst = s.ownPod) (hstatus : statusListed r.status = true)
    (hview : viewHas (s.viewAt s.draft.deviceStep) h.src = true)
    (hxact : s.peruo.xacts.find? (fun x => x.peer == h.src && x.xtag == h.xtag) = some x) :
    exec (.rsp h r) s = .next (s.takeRsp x r) := by
  change execRsp h r s = _
  rw [execRsp, if_neg (by simp [hready, hdst, hstatus]), if_neg (by simp [hview])]
  simp only [hxact]

section
variable (s : State) (h : XHdr) (hready : s.ready = true)
include hready

theorem exec_coll_of_awaited (r : CollRec) (hagree : s.agree h r.step = .accept)
    (hawaited : s.collAwaited r.group r.collSeq = true) :
    exec (.coll h r) s =
      .next ((s.putMsg { s.collMsg r.group h.src r.collSeq with coll := some r }).pumpGroup r.group) := by
  change execColl h r s = _
  rw [execColl, onRecord_of_accept s h r.step false _ hready hagree, if_neg (by simp [hawaited])]

theorem exec_exp_of_awaited (r : ExpRec) (hagree : s.agree h (s.expStep h.src r) = .accept)
    (hawaited : s.collAwaited r.group r.collSeq = true) :
    exec (.exp h r) s =
      .next ((s.putMsg { s.collMsg r.group h.src r.collSeq with exp := some r }).pumpGroup r.group) := by
  change execExp h r s = _
  rw [execExp, onRecord_of_accept s h (s.expStep h.src r) false _ hready hagree, if_neg (by simp [hawaited])]

theorem exec_barrier_of_awaited (r : BarrierRec) (hagree : s.agree h r.step = .accept)
    (hawaited : s.collAwaited r.group r.collSeq = true) :
    exec (.barrier h r) s =
      .next ((s.putMsg { s.collMsg r.group h.src r.collSeq with barrier := some r }).pumpGroup r.group) := by
  change execBarrier h r s = _
  rw [execBarrier, onRecord_of_accept s h r.step false _ hready hagree, if_neg (by simp [hawaited])]

/-! ### Peers -/

theorem exec_hello_of_member (r : HelloRec) (hdst : h.dst = s.ownPod)
    (hview : viewHas (s.viewAt s.draft.deviceStep) h.src = true) (hmember : s.peerState h.src = .member) :
    exec (.hello h r) s = .next (s.takeHello h.src r) := by
  change execHello h r s = _
  rw [execHello, if_neg (by simp [hready, hdst]), if_neg (by simp [hview]), if_neg (by simp [hmember])]

/-- A PEER_DOWN of the view in force, from a member: the named peer is LOST, or this device is excluded. -/
theorem exec_peerDown_of_view (p : Nat) (v : BitVec 32) (hdst : h.dst = s.ownPod)
    (hview : viewHas s.viewRecord h.src = true) (hnumber : v.toNat = viewNumber s.viewRecord) :
    exec (.peerDown h p v) s =
      if p = s.ownPod then .next s.exclude
      else if s.peerState p = .member ∨ s.peerState p = .cfgMismatch then .next (s.markLost p)
      else .next s := by
  change execPeerDown h p v s = _
  rw [execPeerDown, if_neg (by simp [hready, hdst]), if_neg (by simp [hview]), if_neg (not_not.mpr hnumber)]

end

theorem exec_xactTimeoutExpiry_of_awaits (s : State) (p : Nat) (hready : s.ready = true)
    (hawaits : s.awaitsPeer p = true) : exec (.xactTimeoutExpiry p) s = .next (s.declareLost p) :=
  if_pos ⟨hready, hawaits⟩

/-! ### Ethernet mode -/

/-- A datagram of this device's in Ethernet mode, to the port that takes it. -/
structure DatagramFor (s : State) (b : List Byte) (d : Datagram) (port : Nat) : Prop where
  ready : s.ready = true
  enabled : s.obj 0x5500 1 0 ≠ 0
  form : datagramOf b = some d
  own : s.ownFrame d = true
  toPort : d.dport = port

section
variable {s : State} {b : List Byte} {d : Datagram} {port : Nat} (h : DatagramFor s b d port)
  (f : State → Datagram → State)
include h

/-- Whether its checksum holds decides what becomes of it. -/
theorem onDatagram_of_own :
    s.onDatagram b port f = if !d.sumOk then .next (s.count 0x7939 0xA 1) else .next (f s d) := by
  rw [State.onDatagram, if_neg (by simp [h.ready, h.enabled])]
  simp only [h.form]
  rw [if_neg (by simp [h.own, h.toPort])]

theorem onDatagram_of_badSum (hsum : d.sumOk = false) :
    s.onDatagram b port f = .next (s.count 0x7939 0xA 1) := by
  rw [onDatagram_of_own h f, if_pos (by simp [hsum])]

theorem onDatagram_of_goodSum (hsum : d.sumOk = true) : s.onDatagram b port f = .next (f s d) := by
  rw [onDatagram_of_own h f, if_neg (by simp [hsum])]

end

theorem takeEth_of_member (s : State) (k : EthPacket) (hversion : k.version = 1) (hcrc : k.ecrcOk = true)
    (hmember : viewHas s.viewRecord k.src = true) : s.takeEth k = (s.ethAcked k.src k).ethTake k.src k :=
  (if_neg (by simp [hversion, hcrc])).trans (if_neg (by simp [hmember]))

/-- A far datagram that fits its region is written there (R333). -/
theorem takeFar_of_region (s : State) (p : FarDatagram) (a : Nat)
    (hregion : s.regionCheck p.region p.offset p.length 2 = .ok a) (hlen : p.data.length = p.length)
    (hfree : s.objWrite a = .free) : s.takeFar p = s.writeMem a p.data := by
  simp only [State.takeFar, hregion]
  exact if_neg (by simp [hlen, hfree])

/-- The places of a list with what stands there. -/
theorem range_zip_eq_map_getD {α : Type} (l : List α) (x : α) :
    (List.range l.length).zip l = (List.range l.length).map (fun i => (i, l.getD i x)) := by
  apply List.ext_getElem
  · simp
  · intro i _ h
    have hi : i < l.length := by simpa using h
    simp [hi]

/-- Every packet from ACK_PSN + 1 on leaves again (R332). -/
theorem exec_ethRtoExpiry_of_unacked (s : State) (p : Nat) (hready : s.ready = true)
    (hunacked : (s.eth p).unacked ≠ 0) :
    exec (.ethRtoExpiry p) s =
      (let x := s.eth p
       .next ((s.count 0x7939 8 x.unacked).sendPackets p ((List.range x.flown.length).map
         (fun i => (x.acked + 1 + BitVec.ofNat 32 i, x.flown.getD i []))))) := by
  refine (if_pos hready).trans (congrArg Host.Outcome.next ((if_neg hunacked).trans ?_))
  rw [range_zip_eq_map_getD _ [], List.map_map]
  rfl

/-- Settles O43: answers, records, peers, timeouts and packets, each by its own law. -/
theorem answersTimeoutsAndPackets : Obligations.AnswersTimeoutsAndPackets := by
  unfold Obligations.AnswersTimeoutsAndPackets
  refine ⟨exec_rsp_of_outstanding, fun s h r hready => exec_coll_of_awaited s h hready r,
    fun s h r hready => exec_exp_of_awaited s h hready r,
    fun s h r hready => exec_barrier_of_awaited s h hready r,
    fun s h r hready => exec_hello_of_member s h hready r, ?peerDown, exec_xactTimeoutExpiry_of_awaits, ?datagrams,
    exec_ethRtoExpiry_of_unacked⟩
  case peerDown =>
    intro s h p v hready hdst hview hnumber
    rw [exec_peerDown_of_view s h hready p v hdst hview hnumber]
    exact ⟨fun hother hstate => (if_neg hother).trans (if_pos hstate), fun hown => if_pos hown⟩
  case datagrams =>
    intro s b d hready henabled hform hown
    have hfor : ∀ port, d.dport = port → DatagramFor s b d port := fun _ hport =>
      ⟨hready, henabled, hform, hown, hport⟩
    refine ⟨fun hport hsum => onDatagram_of_badSum (hfor _ hport) (fun s d => s.takeEth (packetOf d)) hsum,
      fun hport hsum => onDatagram_of_badSum (hfor _ hport) (fun s d => s.takeFar (farOf d.data)) hsum,
      fun hport hsum hversion hcrc hmember => ?_, fun a hport hsum hregion hlen hfree => ?_⟩
    · exact (onDatagram_of_goodSum (hfor _ hport) (fun s d => s.takeEth (packetOf d)) hsum).trans
        (congrArg Host.Outcome.next (takeEth_of_member s (packetOf d) hversion hcrc hmember))
    · exact (onDatagram_of_goodSum (hfor _ hport) (fun s d => s.takeFar (farOf d.data)) hsum).trans
        (congrArg Host.Outcome.next (takeFar_of_region s (farOf d.data) a hregion hlen hfree))

end Sys2Proof.Machine
end

section
/-!
PROOF. O40: lanes train, take markers, flits and NAKs, and fail (R303 to R310); a flit reads from its bytes as it was
formed (R304, R305).
-/

namespace Sys2Proof.Machine

open Sys2Proof

/-! ### Lanes -/

theorem exec_laneTrained_of_training (s : State) (n : Nat) (hready : s.ready = true) (hn : n < 128)
    (hst : (s.lane n).st = .training) : exec (.laneTrained n) s = .next (s.laneUp n) := if_pos ⟨hready, hn, hst⟩

/-- A marker on a lane that is up or trains: its identity decides. -/
theorem exec_laneMarker_of_live (s : State) (n pod ld ln : Nat) (cr : List Nat) (hready : s.ready = true)
    (hn : n < 128) (hst : (s.lane n).st = .up ∨ (s.lane n).st = .training) (hcr : cr.length = 4) :
    exec (.laneMarker n pod ld ln cr) s =
      if s.wrongCable n pod ld ln then
        (let t := s.setLane n { s.lane n with st := .miscabled }
         .next (((t.event 0x5003 n (dieLink (n / 16)) (t.lane n).value 0).moveRecs n).loseUnreachable))
      else .next ((s.setLane n { s.lane n with credits := cr }).drainLane n) := by
  have hlive : ((s.lane n).st == .up || (s.lane n).st == .training) = true := by simpa using hst
  change execLaneMarker n pod ld ln cr s = _
  rw [execLaneMarker, if_neg (by simp only [hready, hlive]; simpa using hn), if_pos hcr]

/-- A block on a lane that is up: what the FEC, the header and the records say of it decides (R303 to R305). -/
theorem exec_flitReceive_of_up (s : State) (n : Nat) (b : Block) (hready : s.ready = true) (hn : n < 128)
    (hst : (s.lane n).st = .up) :
    exec (.flitReceive n b) s =
      (let t := s.count (linkCounter n) 2 b.corrected
       if b.uncorrectable then .next (t.dropBlock n)
       else if !flitHeaderOk b.flit then .next ((t.count (linkCounter n) 4 1).dropBlock n)
       else if !flitRecordsOk b.flit then .next ((t.count 0x7939 2 1).dropBlock n)
       else .next ((t.takeFlit n (flitOf b.flit)).drainLane n)) :=
  if_neg (by simp [hready, hst, Nat.not_le.mpr hn])

theorem exec_nak_of_up (s : State) (n : Nat) (a : BitVec 12) (hready : s.ready = true) (hn : n < 128)
    (hst : (s.lane n).st = .up) : exec (.nak n a) s = .next ((s.takeNak n a).drainLane n) :=
  if_pos ⟨hready, hn, hst⟩

theorem exec_laneFail_of_ready (s : State) (n : Nat) (hready : s.ready = true) :
    exec (.laneFail n) s = .next (s.failLane n) := if_pos hready

/-! ### Numbers in a byte string (R5) -/

theorem leNat_toLe (n v : Nat) : leNat (toLe n v) = v % 256 ^ n := by
  induction n generalizing v with
  | zero => simp [toLe, leNat, Nat.mod_one]
  | succ n ih =>
    have hpow : 256 ^ (n + 1) = 256 * 256 ^ n := Nat.pow_succ'
    rw [toLe, leNat, ih, BitVec.toNat_ofNat, hpow, Nat.mod_mul]

theorem slice_of_length (l : List Byte) (n : Nat) (h : l.length = n) : slice l 0 n = l := by
  subst h
  simp [slice]

theorem slice_append_left (a b : List Byte) (i n : Nat) (h : i + n ≤ a.length) :
    slice (a ++ b) i n = slice a i n := by
  have htake : ((a ++ b).drop i).take n = (a.drop i).take n := by
    rw [List.drop_append_of_le_length (by omega), List.take_append_of_le_length (by simp; omega)]
  simp only [slice, htake]

theorem slice_append_right (a b : List Byte) (i n : Nat) (h : a.length ≤ i) :
    slice (a ++ b) i n = slice b (i - a.length) n := by
  have hdrop : (a ++ b).drop i = b.drop (i - a.length) := by
    rw [List.drop_append, List.drop_of_length_le h, List.nil_append]
  simp only [slice, hdrop]

theorem numAt_toLe (n v : Nat) : numAt (toLe n v) 0 n = v % 256 ^ n := by
  rw [numAt, slice_of_length _ n (length_toLe n v), leNat_toLe]

theorem numAt_append_left (a b : List Byte) (i n : Nat) (h : i + n ≤ a.length) :
    numAt (a ++ b) i n = numAt a i n := by rw [numAt, slice_append_left a b i n h, numAt]

theorem numAt_append_right (a b : List Byte) (i n : Nat) (h : a.length ≤ i) :
    numAt (a ++ b) i n = numAt b (i - a.length) n := by rw [numAt, slice_append_right a b i n h, numAt]

/-! ### The header of a flit (Table PRU-2) -/

theorem length_header (f : Flit) : f.header.length = 28 := by
  simp only [Flit.header, List.length_append, length_toLe]

theorem numAt_bytes (f : Flit) (i n : Nat) (h : i + n ≤ 28) : numAt f.bytes i n = numAt f.header i n := by
  rw [Flit.bytes, List.append_assoc, numAt_append_left _ _ i n (by rw [length_header]; exact h)]

/-- The payload follows the header and its CRC. -/
theorem slice_payload (f : Flit) (h : f.payload.length = 480) : slice f.bytes 32 480 = f.payload := by
  have hlen : (f.header ++ toLe 4 (crc32c f.header).toNat).length = 32 := by
    rw [List.length_append, length_header, length_toLe]
  rw [Flit.bytes, slice_append_right _ _ 32 480 (by rw [hlen]), hlen, slice_of_length f.payload 480 h,
    slice_of_length f.payload 480 h]

/-- The CRC that is stored after the header is the header's. -/
theorem flitHeaderOk_bytes (f : Flit) : flitHeaderOk f.bytes = true := by
  have hheader : slice f.bytes 0 28 = f.header := by
    rw [Flit.bytes, List.append_assoc, slice_append_left _ _ 0 28 (by rw [length_header]),
      slice_of_length _ 28 (length_header f)]
  have hcrc : numAt f.bytes 28 4 = (crc32c f.header).toNat := by
    rw [Flit.bytes, List.append_assoc, numAt_append_right _ _ 28 4 (by rw [length_header]), length_header,
      numAt_append_left _ _ 0 4 (by rw [length_toLe]), numAt_toLe]
    exact Nat.mod_eq_of_lt (crc32c f.header).isLt
  rw [flitHeaderOk, crcHolds, hheader, hcrc]
  simp

/-- The eight numbers of a header, each where its field stands. -/
theorem numAt_header (f : Flit) :
    numAt f.header 0 1 = (f.vc * 64 + f.ftype.code * 16 + f.creditVc * 4 + (if f.nak then 2 else 0)) % 256 ∧
    numAt f.header 1 1 = f.credits % 256 ∧
    numAt f.header 2 3 = (f.flitSeq.toNat + f.ack.toNat * 4096) % 256 ^ 3 ∧
    numAt f.header 5 5 = (f.hdr.src + f.hdr.dst * 2 ^ 14 + f.hdr.xtag.toNat * 2 ^ 28) % 256 ^ 5 ∧
    numAt f.header 10 2 = f.mask.toNat % 256 ^ 2 ∧
    numAt f.header 12 4 = f.hdr.epoch.toNat % 256 ^ 4 ∧
    numAt f.header 16 8 = f.hdr.digest.toNat % 256 ^ 8 ∧
    numAt f.header 24 4 = f.hdr.view.toNat % 256 ^ 4 := by
  simp only [Flit.header]
  refine ⟨?_, ?_, ?_, ?_, ?_, ?_, ?_, ?_⟩ <;>
    simp [numAt_append_left, numAt_append_right, numAt_toLe]

theorem ofCode_code (t : FlitType) (k : Nat) : FlitType.ofCode (4 * k + t.code) = t := by
  cases t <;> simp [FlitType.ofCode, FlitType.code, Nat.add_mod]

theorem code_lt (t : FlitType) : t.code < 4 := by cases t <;> decide

/-- The four fields of the header's first byte. -/
theorem headerByte_fields (f : Flit) (hvc : f.vc < 4) (hcreditVc : f.creditVc < 4) {c : Nat}
    (hc : c = (f.vc * 64 + f.ftype.code * 16 + f.creditVc * 4 + (if f.nak then 2 else 0)) % 256) :
    c / 16 = 4 * f.vc + f.ftype.code ∧ c / 64 = f.vc ∧ c / 4 % 4 = f.creditVc ∧ bitOf c 1 = f.nak := by
  have hcode := code_lt f.ftype
  rw [bitOf]
  cases hnak : f.nak <;> simp only [hnak, Bool.false_eq_true, if_false, if_true, beq_iff_eq,
    beq_eq_false_iff_ne] at hc ⊢ <;> omega

/-- The sequence numbers, of 12 bits each. -/
theorem headerSeq_fields (a b : BitVec 12) {c : Nat} (hc : c = (a.toNat + b.toNat * 4096) % 256 ^ 3) :
    BitVec.ofNat 12 c = a ∧ BitVec.ofNat 12 (c / 4096) = b := by
  have ha := a.isLt
  have hb := b.isLt
  constructor <;> apply BitVec.eq_of_toNat_eq <;> rw [BitVec.toNat_ofNat] <;> omega

/-- Source and destination, of 14 bits each, and the tag. -/
theorem headerIds_fields (src dst : Nat) (tag : BitVec 12) (hsrc : src < 2 ^ 14) (hdst : dst < 2 ^ 14) {c : Nat}
    (hc : c = (src + dst * 2 ^ 14 + tag.toNat * 2 ^ 28) % 256 ^ 5) :
    c % 2 ^ 14 = src ∧ c / 2 ^ 14 % 2 ^ 14 = dst ∧ BitVec.ofNat 12 (c / 2 ^ 28) = tag := by
  have htag := tag.isLt
  refine ⟨by omega, by omega, ?_⟩
  apply BitVec.eq_of_toNat_eq
  rw [BitVec.toNat_ofNat]
  omega

/-- A field of whole bytes reads back. -/
theorem ofNat_toNat_mod {w : Nat} (x : BitVec w) (k : Nat) (hk : 2 ^ w = k) : BitVec.ofNat w (x.toNat % k) = x := by
  apply BitVec.eq_of_toNat_eq
  rw [BitVec.toNat_ofNat, ← hk, Nat.mod_mod, Nat.mod_eq_of_lt x.isLt]

theorem flitOf_bytes (f : Flit) (hvc : f.vc < 4) (hcreditVc : f.creditVc < 4) (hcredits : f.credits < 256)
    (hsrc : f.hdr.src < 2 ^ 14) (hdst : f.hdr.dst < 2 ^ 14) (hpayload : f.payload.length = 480) :
    flitOf f.bytes = f := by
  obtain ⟨h0, h1, h2, h5, h10, h12, h16, h24⟩ := numAt_header f
  obtain ⟨htype, hvcEq, hcreditVcEq, hnak⟩ := headerByte_fields f hvc hcreditVc h0
  obtain ⟨hseq, hack⟩ := headerSeq_fields f.flitSeq f.ack h2
  obtain ⟨hsrcEq, hdstEq, htag⟩ := headerIds_fields f.hdr.src f.hdr.dst f.hdr.xtag hsrc hdst h5
  rw [flitOf, slice_payload f hpayload]
  simp only [numAt_bytes f _ _ (by decide : 0 + 1 ≤ 28), numAt_bytes f _ _ (by decide : 1 + 1 ≤ 28),
    numAt_bytes f _ _ (by decide : 2 + 3 ≤ 28), numAt_bytes f _ _ (by decide : 5 + 5 ≤ 28),
    numAt_bytes f _ _ (by decide : 10 + 2 ≤ 28), numAt_bytes f _ _ (by decide : 12 + 4 ≤ 28),
    numAt_bytes f _ _ (by decide : 16 + 8 ≤ 28), numAt_bytes f _ _ (by decide : 24 + 4 ≤ 28),
    htype, hvcEq, hcreditVcEq, hnak, hseq, hack, hsrcEq, hdstEq, htag, ofCode_code, h1, h10, h12, h16, h24,
    Nat.mod_eq_of_lt hcredits, ofNat_toNat_mod f.mask (256 ^ 2) (by decide),
    ofNat_toNat_mod f.hdr.epoch (256 ^ 4) (by decide), ofNat_toNat_mod f.hdr.digest (256 ^ 8) (by decide),
    ofNat_toNat_mod f.hdr.view (256 ^ 4) (by decide)]

/-- Settles O40: lanes, markers, flits, NAKs and failures, then the bytes of a flit. -/
theorem lanesTrainAndTakeFlits : Obligations.LanesTrainAndTakeFlits := by
  unfold Obligations.LanesTrainAndTakeFlits
  refine ⟨exec_laneTrained_of_training, ?marker, ?flit, exec_nak_of_up, exec_laneFail_of_ready,
    fun f hvc hcreditVc hcredits hsrc hdst hpayload =>
      ⟨flitOf_bytes f hvc hcreditVc hcredits hsrc hdst hpayload, flitHeaderOk_bytes f⟩⟩
  case marker =>
    intro s n pod ld ln cr hready hn hst hcr
    rw [exec_laneMarker_of_live s n pod ld ln cr hready hn hst hcr]
    exact ⟨fun hright => if_neg (by simp [hright]), fun hwrong => if_pos hwrong⟩
  case flit =>
    intro s n b t hready hn hst
    rw [exec_flitReceive_of_up s n b hready hn hst]
    refine ⟨fun hbad => if_pos hbad, fun hgood hheader => ?_, fun hgood hheader hrecords => ?_,
      fun hgood hheader hrecords => ?_⟩
    · exact (if_neg (by simp [hgood])).trans (if_pos (by simp [hheader]))
    · exact (if_neg (by simp [hgood])).trans ((if_neg (by simp [hheader])).trans (if_pos (by simp [hrecords])))
    · exact (if_neg (by simp [hgood])).trans ((if_neg (by simp [hheader])).trans (if_neg (by simp [hrecords])))

end Sys2Proof.Machine
end

section
/-!
PROOF. O10: counting moves one counter and saturates (R53).
-/

namespace Sys2Proof.Machine

open Sys2Proof

/-- Settles O10: the law of counting, with the maximum written out. -/
theorem countersSaturate : Obligations.CountersSaturate := by
  unfold Obligations.CountersSaturate
  exact counter_count

end Sys2Proof.Machine
end

section
/-!
PROOF. O54: the counter-clear commands (R53). Each is `State.onCmd` of a clear over a range of keys, and the Draft
answers OK; what a cleared table holds is read off the law of a table whose keys are filtered.
-/

namespace Sys2Proof

/-- A table from which the keys outside `p` are dropped: what `p` keeps is as before, and the rest is absent. -/
theorem Tab.find_filter {α : Type} (t : Tab α) (p : Nat → Bool) (k : Nat) :
    Tab.find (t.filter fun e => p e.1) k = if p k then Tab.find t k else none := by
  induction t with
  | nil => simp [Tab.find]
  | cons e r ih =>
    obtain ⟨j, v⟩ := e
    by_cases hjk : j = k
    · subst hjk
      cases hp : p j <;> simp [hp, Tab.find, ih]
    · cases hp : p j <;> simp [hp, Tab.find, hjk, ih]

end Sys2Proof

namespace Sys2Proof.Machine

open Sys2Proof

/-- A counter whose key is cleared reads 0, and any other is as before. -/
theorem counter_clearCounters (s : State) (lo hi i j : Nat) :
    (s.clearCounters lo hi).counter i j =
      if lo ≤ objKey i j ∧ objKey i j ≤ hi then 0 else s.counter i j := by
  have hout : (objKey i j < lo ∨ hi < objKey i j) ↔ ¬ (lo ≤ objKey i j ∧ objKey i j ≤ hi) := by omega
  rw [State.counter, State.clearCounters_counters, Tab.read,
    Tab.find_filter s.counters (fun k => decide (k < lo ∨ hi < k))]
  by_cases hin : lo ≤ objKey i j ∧ objKey i j ≤ hi <;> simp [hout, hin, State.counter, Tab.read]

/-- A command that clears counters, while the Draft is up. -/
theorem onCmd_clearCounters (s : State) (lo hi : Nat) (hup : s.power.draftUp = true) :
    s.onCmd (fun t => (t.clearCounters lo hi, .ok)) = (let t := s.clearCounters lo hi
      .next { t with draft := { t.draft with lastResult := .ok } }) := if_pos hup

/-- Settles O54: each command is the clear of its range, and a clear zeroes its keys and no other. -/
theorem counterClearsZeroTheirIndices : Obligations.CounterClearsZeroTheirIndices := by
  unfold Obligations.CounterClearsZeroTheirIndices
  refine ⟨fun s v c hc hup => ?whole, fun s v c hc hup => ?sixteen, fun s lo hi i j _ =>
    counter_clearCounters s lo hi i j⟩
  case whole =>
    simp only [List.mem_cons, List.not_mem_nil, or_false] at hc
    rcases hc with rfl | rfl | rfl | rfl | rfl | rfl | rfl | rfl | rfl | rfl | rfl | rfl | rfl <;>
      exact onCmd_clearCounters s _ _ hup
  case sixteen =>
    simp only [List.mem_cons, List.not_mem_nil, or_false] at hc
    rcases hc with rfl | rfl | rfl | rfl <;> exact onCmd_clearCounters s _ _ hup

end Sys2Proof.Machine
end

section
/-!
PROOF. O60: packed elements lie in ascending order from bit 0 of the lowest byte (R33).
-/

namespace Sys2Proof.Machine

open Sys2Proof

/-- Element `w * j + k` of a format with `w` elements in a byte lies in byte `j`, at place `k`. -/
theorem place_of_packed {w k : Nat} (j : Nat) (hk : k < w) : (w * j + k) / w = j ∧ (w * j + k) % w = k :=
  ⟨by rw [Nat.mul_add_div (by omega), Nat.div_eq_of_lt hk, Nat.add_zero],
    by rw [Nat.mul_add_mod, Nat.mod_eq_of_lt hk]⟩

/-- Two elements of SK4 lie in a byte, each in four bits. -/
theorem elemOf_sk4 (byte : Nat → Byte) (j k : Nat) (hk : k < 2) :
    elemOf .sk4 byte (2 * j + k) = Fmt.sk4.decode ((byte j).toNat / 2 ^ (4 * k) % 16) := by
  obtain ⟨hbyte, hplace⟩ := place_of_packed j hk
  simp only [elemOf, hbyte, hplace, bitsOf, show 4 * k + 3 + 1 - 4 * k = 4 by omega]
  rfl

/-- Four elements of SK2 lie in a byte, each in two bits. -/
theorem elemOf_sk2 (byte : Nat → Byte) (j k : Nat) (hk : k < 4) :
    elemOf .sk2 byte (4 * j + k) = Fmt.sk2.decode ((byte j).toNat / 2 ^ (2 * k) % 4) := by
  obtain ⟨hbyte, hplace⟩ := place_of_packed j hk
  simp only [elemOf, hbyte, hplace, bitsOf, show 2 * k + 1 + 1 - 2 * k = 2 by omega]
  rfl

/-- Settles O60: the even SK4 element is the low half of its byte, the odd one what stands above it. -/
theorem packedElementsAscendFromBitZero : Obligations.PackedElementsAscendFromBitZero := by
  unfold Obligations.PackedElementsAscendFromBitZero
  intro byte j k
  refine ⟨?even, ?odd, elemOf_sk2 byte j k, rfl, rfl⟩
  case even => simpa using elemOf_sk4 byte j 0 (by decide)
  case odd =>
    have hlt : (byte j).toNat / 16 < 16 := by have := (byte j).isLt; omega
    simpa [Nat.mod_eq_of_lt hlt] using elemOf_sk4 byte j 1 (by decide)

end Sys2Proof.Machine
end

section
/-!
PROOF. O5, the property and its rules (R53). `State.Bounded` says that every counter is within its maximum. Of all
operations `State.count` alone sets a counter, `State.clearCounters` and a loss of power drop some, and every other
one keeps the table; one rule for each construct of the model says how the property goes through it: a record update
that keeps the counters, a conditional, a fold, a pair, and the answers of commands. What follows is one law
`State.Bounded.f` for each operation `f`, whose proof repeats the shape of `f`: the chain `hs.f.g` is the sequence of
operations, `.ite` a conditional, `split` a match.
-/

namespace Sys2Proof.Machine

open Sys2Proof

/-! ### The bound as a property of states and answers -/

/-- Every counter is within its maximum (R53). -/
def State.Bounded (s : State) : Prop := ∀ e ∈ s.counters, e.2 ≤ counterMax

/-- The state that a command answers is bounded. -/
def Result.Bounded (r : Result) : Prop := ∀ t, r = .next t → t.Bounded

/-- The state that is answered, if any, is bounded. -/
def MaybeState.Bounded (o : Option State) : Prop := ∀ t, o = some t → t.Bounded

/-- The state that an admin command answers, if it is not refused, is bounded. -/
def AdminAnswer.Bounded (r : Except Nat (State × Nat)) : Prop := ∀ x, r = .ok x → x.1.Bounded

/-! ### How the property goes through the constructs of the model -/

/-- A state with no counter that `s` has not, whatever its other fields. -/
theorem State.Bounded.of_subset {s t : State} (hs : s.Bounded) (h : ∀ e ∈ t.counters, e ∈ s.counters) :
    t.Bounded :=
  fun e he => hs e (h e he)

/-- A state made from another with the same counters, whatever its other fields. -/
theorem State.Bounded.update {s : State} (hs : s.Bounded) {pending mem dies power module draft mailbox host
    msixPending queues leases leaseReq leaseResult grantSeq restoring objects frames looms heddles mcast mcastSends
    vecs cores xfers rings treadle readyOrder tokens stash segs outcomeWaits seals ctxs attached coh peruo journal
    commit repairs fw sec spdm hartsStopped coreSlots sent fresh} :
    (State.mk pending mem dies power module draft mailbox s.counters host msixPending queues leases leaseReq
      leaseResult grantSeq restoring objects frames looms heddles mcast mcastSends vecs cores xfers rings treadle
      readyOrder tokens stash segs outcomeWaits seals ctxs attached coh peruo journal commit repairs fw sec spdm
      hartsStopped coreSlots sent fresh).Bounded := hs

theorem State.Bounded.ite {c : Prop} [Decidable c] {s t : State} (hs : s.Bounded) (ht : t.Bounded) :
    (if c then s else t).Bounded := by
  split
  · exact hs
  · exact ht

theorem State.Bounded.ite_fst {α : Type _} {c : Prop} [Decidable c] {p q : State × α} (hp : p.1.Bounded)
    (hq : q.1.Bounded) : (if c then p else q).1.Bounded := by
  split
  · exact hp
  · exact hq

theorem State.Bounded.ite_snd {α : Type _} {c : Prop} [Decidable c] {p q : α × State} (hp : p.2.Bounded)
    (hq : q.2.Bounded) : (if c then p else q).2.Bounded := by
  split
  · exact hp
  · exact hq

theorem State.Bounded.ite_third {α β : Type _} {c : Prop} [Decidable c] {p q : α × β × State} (hp : p.2.2.Bounded)
    (hq : q.2.2.Bounded) : (if c then p else q).2.2.Bounded := by
  split
  · exact hp
  · exact hq

theorem State.Bounded.foldl {α : Type} {f : State → α → State} {s : State} {l : List α} (hs : s.Bounded)
    (hf : ∀ t a, t.Bounded → (f t a).Bounded) : (l.foldl f s).Bounded :=
  foldl_keeps State.Bounded f l s hs hf

theorem State.Bounded.foldl_fst {α β : Type _} {f : State × β → α → State × β} {p : State × β}
    {l : List α} (hp : p.1.Bounded) (hf : ∀ q a, q.1.Bounded → (f q a).1.Bounded) : (l.foldl f p).1.Bounded := by
  induction l generalizing p with
  | nil => exact hp
  | cons a r ih => exact ih (hf p a hp)

theorem Result.Bounded.next {s : State} (hs : s.Bounded) : Result.Bounded (.next s) := by
  rintro t ⟨rfl⟩
  exact hs

theorem Result.Bounded.ite {c : Prop} [Decidable c] {a b : Result} (ha : Result.Bounded a) (hb : Result.Bounded b) :
    Result.Bounded (if c then a else b) := by
  split
  · exact ha
  · exact hb

theorem MaybeState.Bounded.some {s : State} (hs : s.Bounded) : MaybeState.Bounded (some s) := by
  rintro t ⟨rfl⟩
  exact hs

theorem MaybeState.Bounded.none : MaybeState.Bounded none := fun _ h => absurd h (by simp)

theorem MaybeState.Bounded.ite {c : Prop} [Decidable c] {a b : Option State} (ha : MaybeState.Bounded a)
    (hb : MaybeState.Bounded b) : MaybeState.Bounded (if c then a else b) := by
  split
  · exact ha
  · exact hb

theorem AdminAnswer.Bounded.ok {x : State × Nat} (hx : x.1.Bounded) : AdminAnswer.Bounded (.ok x) := by
  rintro y ⟨rfl⟩
  exact hx

theorem AdminAnswer.Bounded.error {r : Nat} : AdminAnswer.Bounded (.error r) := fun _ h => absurd h (by simp)

theorem AdminAnswer.Bounded.ite {c : Prop} [Decidable c] {a b : Except Nat (State × Nat)} (ha : AdminAnswer.Bounded a)
    (hb : AdminAnswer.Bounded b) : AdminAnswer.Bounded (if c then a else b) := by
  split
  · exact ha
  · exact hb

end Sys2Proof.Machine
end

section
/-!
PROOF. O5, the operations of state, memory, fabric and queues (R225 to R268, R292 to R297, R313 to R362). Those of
memory and fabric count what they do, so each has its law here, from the directory up to an engine's write.
-/

namespace Sys2Proof.Machine

open Sys2Proof

variable {s : State} {a agent line n : Nat} {r : Req} {q : BitVec 16} {d : Desc} {k : Nat} {b : List Byte} {t : Txn}

/-! ### Ops -/

theorem State.Bounded.draw (hs : s.Bounded) : s.draw.2.Bounded := by
  unfold State.draw
  exact hs.update

/-- What is counted saturates. -/
theorem State.Bounded.count (hs : s.Bounded) {index sub : Nat} : (s.count index sub n).Bounded :=
  count_bounded s index sub n hs

theorem State.Bounded.clearCounters (hs : s.Bounded) {lo hi : Nat} : (s.clearCounters lo hi).Bounded :=
  hs.of_subset fun _ he => (List.mem_filter.1 he).1

theorem State.Bounded.withConf (hs : s.Bounded) {c : ConfPair} : (s.withConf c).Bounded := hs.update

theorem State.Bounded.underConf (hs : s.Bounded) {c : ConfPair} {f : State → State × Outcm}
    (hf : ∀ t : State, t.Bounded → (f t).1.Bounded) : (s.underConf c f).1.Bounded := by
  unfold State.underConf
  exact (hf _ hs.withConf).withConf

theorem State.Bounded.emit (hs : s.Bounded) {e : Emit} : (s.emit e).Bounded := hs.update

theorem State.Bounded.msix (hs : s.Bounded) {vector : Nat} : (s.msix vector).Bounded :=
  .ite (.ite hs.update hs.emit.count) hs

theorem State.Bounded.record (hs : s.Bounded) {ty : Nat} {flags : Byte} {body : List Byte} :
    (s.record ty flags body).Bounded := .ite hs (State.Bounded.ite hs.count hs).count.update.count.count

theorem State.Bounded.event (hs : s.Bounded) {index sub source arg1 arg2 : Nat} :
    (s.event index sub source arg1 arg2).Bounded := (State.Bounded.ite hs.record hs).update.msix

theorem State.Bounded.onCmd (hs : s.Bounded) {f : State → State × DapResult}
    (hf : ∀ t : State, t.Bounded → (f t).1.Bounded) : Result.Bounded (s.onCmd f) :=
  .ite (.next (hf _ hs).update) (.next hs)

/-- The commands that clear counters. -/
theorem State.Bounded.clearCommand (hs : s.Bounded) {lo hi : Nat} :
    Result.Bounded (s.onCmd fun t => (t.clearCounters lo hi, .ok)) := hs.onCmd fun _ ht => ht.clearCounters

theorem State.Bounded.setHost (hs : s.Bounded) {h : HostIf} : (s.setHost h).Bounded := hs.update

/-! ### Space -/

theorem State.Bounded.dropCopies (hs : s.Bounded) {lo hi : Nat} : (s.dropCopies lo hi).Bounded := hs.update

theorem State.Bounded.storePoison (hs : s.Bounded) {reason : Nat} : (s.storePoison line reason agent).Bounded := by
  unfold State.storePoison
  refine .ite hs ?_
  extract_lets _ s1 s2
  have hs2 : s2.Bounded := by
    unfold s2
    split
    · exact hs.dropCopies.count
    · exact hs.dropCopies
  exact hs2.update

theorem State.Bounded.settleLines (hs : s.Bounded) {ls : List Nat} : (s.settleLines ls).Bounded := .ite hs hs.update

/-- An access to a tier counts each of its lines at the line's home. -/
theorem State.Bounded.countTier (hs : s.Bounded) {w : Bool} : (s.countTier a n w).Bounded := by
  unfold State.countTier
  split
  case h_4 => exact hs
  all_goals
    refine hs.foldl fun t l ht => ?_
    extract_lets -underBinder +onlyGivenNames lo hi
    split
    · exact ht
    · refine .ite ?_ ht.count
      extract_lets r f
      have hf : f.2.Bounded := .ite_snd ht.draw.draw ht.draw
      exact hf.count.count.count

theorem State.Bounded.noteRead (hs : s.Bounded) : (s.noteRead a n).Bounded :=
  (hs.foldl fun _ _ ht => ht.storePoison).settleLines.countTier

theorem State.Bounded.noteFrames (hs : s.Bounded) : (s.noteFrames a n).Bounded := hs.update

theorem State.Bounded.omitFrame (hs : s.Bounded) {j : Nat} {o : TierObj} {off : Nat} : (s.omitFrame j o off).Bounded :=
  hs.update

theorem State.Bounded.encodeRange (hs : s.Bounded) : (s.encodeRange a n).Bounded := by
  unfold State.encodeRange
  split
  · split
    · exact .ite (hs.foldl fun _ _ ht => ht.omitFrame) hs
    · exact hs
  · exact hs

/-! ### What a home does -/

theorem State.Bounded.cohCount (hs : s.Bounded) {code : Nat} : (s.cohCount line code n).Bounded := by
  unfold State.cohCount
  split
  · exact hs.count
  · exact hs

theorem State.Bounded.setCoh (hs : s.Bounded) {c : Coh} : (s.setCoh c).Bounded := hs.update

theorem State.Bounded.putLine (hs : s.Bounded) {full : Bool} : (s.putLine line b full).Bounded :=
  have hframes : (if s.inTier2 (64 * line) then s.noteFrames (64 * line) 64 else s).Bounded := .ite hs.noteFrames hs
  (State.Bounded.ite hframes.settleLines hframes).update.encodeRange

theorem State.Bounded.toHost (hs : s.Bounded) {op : CacheOp} : (s.toHost op line b).Bounded := .ite hs.emit hs

theorem State.Bounded.poisonLine (hs : s.Bounded) {why : Nat} : (s.poisonLine line why a).Bounded :=
  hs.setCoh.storePoison

theorem State.Bounded.dataFromMemory (hs : s.Bounded) : (s.dataFromMemory a line).Bounded := hs.noteRead.setCoh

theorem State.Bounded.grantTo (hs : s.Bounded) {st : Moesi} {d : DirSt} {owner : Nat} {sh : List Nat}
    {already : Bool} : (s.grantTo r st d owner sh already).Bounded := hs.setCoh

theorem State.Bounded.answerPoison (hs : s.Bounded) : (s.answerPoison agent line).Bounded := hs.setCoh

theorem State.Bounded.grantPoison (hs : s.Bounded) : (s.grantPoison r).Bounded := hs.noteRead.answerPoison

theorem State.Bounded.finishGrant (hs : s.Bounded) : (s.finishGrant t).Bounded := by
  unfold State.finishGrant
  extract_lets r e listed s1 s2
  have hs1 : s1.Bounded := hs.setCoh
  have hs2 : s2.Bounded := .ite hs1 hs1.dataFromMemory
  refine .ite (State.Bounded.ite hs1.cohCount hs1).grantPoison ?_
  split
  · split
    exacts [hs2.grantTo, hs2.grantTo, hs2.grantTo]
  · exact hs2.grantTo

theorem State.Bounded.finishWrite (hs : s.Bounded) : (s.finishWrite t).Bounded :=
  .ite hs.setCoh (.ite hs.setCoh.putLine hs.setCoh.putLine.toHost)

theorem State.Bounded.finishAtomic (hs : s.Bounded) : (s.finishAtomic t).Bounded := by
  unfold State.finishAtomic
  extract_lets r s1 waits hit s2 s3
  have hs2 : s2.Bounded := .ite hs.setCoh.cohCount hs.setCoh
  have hs3 : s3.Bounded := .ite hs2.count hs2
  split
  · exact hs3
  · exact .ite hs3.noteRead.setCoh hs3.putLine.setCoh

theorem State.Bounded.finishWb (hs : s.Bounded) : (s.finishWb r).Bounded :=
  (State.Bounded.ite hs.putLine.toHost.setCoh hs.cohCount).setCoh

theorem State.Bounded.finishCln (hs : s.Bounded) : (s.finishCln r).Bounded := hs.setCoh

theorem State.Bounded.finishHost (hs : s.Bounded) : (s.finishHost t).Bounded := by
  unfold State.finishHost
  extract_lets r e s1 c
  have hs1 : s1.Bounded := by
    unfold s1
    split
    · exact hs.putLine
    · exact hs
  exact hs1.setCoh.emit

theorem State.Bounded.finishDropped (hs : s.Bounded) : (s.finishDropped t).Bounded := by
  unfold State.finishDropped
  extract_lets -underBinder +onlyGivenNames m
  split
  case h_3 => exact .ite hs.setCoh hs
  case h_4 => exact hs
  all_goals
    refine .ite (.ite hs.count.setCoh hs.poisonLine) ?_
    extract_lets s1
    have hs1 : s1.Bounded := by
      unfold s1
      split
      · exact hs.putLine.toHost
      · exact hs
    exact hs1.setCoh

theorem State.Bounded.finishTxn (hs : s.Bounded) : (s.finishTxn t).1.Bounded := by
  unfold State.finishTxn
  refine .ite_fst hs.finishHost (.ite_fst hs.finishDropped ?_)
  split
  exacts [hs.finishGrant, hs.finishGrant, hs.finishGrant,
    .ite_fst hs.cohCount.setCoh (.ite_fst hs hs.dataFromMemory), hs.finishWrite, hs.finishAtomic, hs.finishWb,
    hs.finishCln]

theorem State.Bounded.openTxn (hs : s.Bounded) : (s.openTxn r).Bounded :=
  .ite hs.setCoh.cohCount.emit hs.setCoh.cohCount

theorem State.Bounded.settle (hs : s.Bounded) : (s.settle k).Bounded := by
  unfold State.settle
  split
  · exact hs
  · exact .ite hs (.ite hs.finishTxn.setCoh hs.finishTxn)

/-! ### Requests at the home -/

theorem State.Bounded.trapCore (hs : s.Bounded) {cause addr : Nat} : (s.trapCore agent cause addr).Bounded :=
  .ite hs.setCoh.emit hs

theorem State.Bounded.trapReq (hs : s.Bounded) : (s.trapReq r).Bounded := hs.trapCore

theorem State.Bounded.refuseReq (hs : s.Bounded) : (s.refuseReq r).Bounded := .ite hs.setCoh hs.setCoh.trapReq

theorem State.Bounded.beginReq (hs : s.Bounded) : (s.beginReq r).Bounded :=
  .ite hs.setCoh.refuseReq hs.setCoh.openTxn.settle

theorem State.Bounded.recall (hs : s.Bounded) : (s.recall line).Bounded :=
  (State.Bounded.ite hs.count hs.cohCount).openTxn.settle

theorem State.Bounded.beginFuel (hs : s.Bounded) {fuel : Nat} : (s.beginFuel fuel).Bounded := by
  induction fuel generalizing s with
  | zero => exact hs
  | succ m ih =>
    unfold State.beginFuel
    split
    · exact hs
    · split
      · exact ih hs.recall
      · exact ih hs.beginReq

theorem State.Bounded.beginAll (hs : s.Bounded) : s.beginAll.Bounded := hs.beginFuel

theorem State.Bounded.arrive (hs : s.Bounded) : (s.arrive r).Bounded := hs.cohCount.setCoh.beginAll

theorem State.Bounded.ask (hs : s.Bounded) : (s.ask r).Bounded := hs.setCoh.arrive

theorem State.Bounded.advance (hs : s.Bounded) : (s.advance k).Bounded := hs.settle.beginAll

/-! ### Messages at their receivers -/

theorem State.Bounded.storedIn (hs : s.Bounded) : (s.storedIn agent line b).Bounded := by
  unfold State.storedIn
  split
  · exact .ite hs.setCoh hs
  · exact hs

theorem State.Bounded.snoopArrives (hs : s.Bounded) {x : Snoop} : (s.snoopArrives x).Bounded :=
  .ite hs.setCoh.update.emit.count (.ite hs.setCoh.setCoh hs.setCoh.setCoh)

theorem State.Bounded.answered (hs : s.Bounded) {host : Bool} : (s.answered host a line).Bounded := by
  unfold State.answered
  extract_lets k
  split
  · exact hs
  · exact hs.setCoh.advance

theorem State.Bounded.homeFwd (hs : s.Bounded) {host : Bool} : (s.homeFwd a line host).Bounded := by
  unfold State.homeFwd
  extract_lets _ s1
  have hs1 : s1.Bounded := hs.cohCount
  split
  · exact hs1
  · exact .ite hs1.setCoh.advance hs1.setCoh.answered

theorem State.Bounded.homeAck (hs : s.Bounded) : (s.homeAck agent line).Bounded := by
  unfold State.homeAck
  split
  · exact .ite hs.setCoh.beginAll hs
  · exact hs

theorem State.Bounded.farRuns (hs : s.Bounded) {f : FarOp} {l : CacheLine} : (s.farRuns f l).Bounded := by
  unfold State.farRuns
  extract_lets -underBinder +onlyGivenNames old c kept free s1
  have hs1 : s1.Bounded := by
    unfold s1
    split
    exacts [hs.setCoh.emit, .ite hs.setCoh.emit hs.emit, hs.setCoh.emit]
  exact hs1.count

theorem State.Bounded.farReady (hs : s.Bounded) : (s.farReady agent line).Bounded := by
  unfold State.farReady
  split
  · exact (State.Bounded.ite hs.setCoh.setCoh hs.setCoh).farRuns
  · exact hs

theorem State.Bounded.settleFill (hs : s.Bounded) {f : Fill} : (s.settleFill f).Bounded := by
  unfold State.settleFill
  split
  exacts [hs.setCoh.farReady, (State.Bounded.ite hs.setCoh.emit hs.setCoh).farReady,
    .ite hs.setCoh.emit hs.setCoh.trapReq, hs.setCoh.emit, hs]

theorem State.Bounded.grantArrives (hs : s.Bounded) {g : Option Moesi × Bool × Bool × Bool} :
    (s.grantArrives agent line g).Bounded := by
  unfold State.grantArrives
  extract_lets s1
  have hs1 : s1.Bounded := hs.setCoh
  split
  · exact hs1
  · exact hs1.setCoh.settleFill

theorem State.Bounded.dataArrives (hs : s.Bounded) {d : List Byte × Bool} : (s.dataArrives agent line d).Bounded := by
  unfold State.dataArrives
  extract_lets s1
  have hs1 : s1.Bounded := hs.setCoh
  split
  · exact .ite hs1.emit hs1
  · exact hs1.setCoh.settleFill

theorem State.Bounded.deliverMsg (hs : s.Bounded) {m : CohMsg} : (s.deliverMsg m).Bounded := by
  cases m with
  | snoop x => exact hs.snoopArrives
  | rspI => exact hs.setCoh.setCoh.answered
  | rspS => exact hs.setCoh.setCoh.answered
  | rspO => exact hs.setCoh.setCoh.answered
  | rspFwd => exact hs.setCoh.homeFwd
  | grant => exact hs.grantArrives
  | ack => exact hs.setCoh.homeAck
  | wbAck => exact hs.setCoh
  | data => exact hs.dataArrives

theorem State.Bounded.endDelay (hs : s.Bounded) {x : Snoop} : (s.endDelay x).Bounded := hs.setCoh

theorem State.Bounded.hostReturns (hs : s.Bounded) {x : Snoop} {data : Option (List Byte)} {keeps : Bool} :
    (s.hostReturns x data keeps).Bounded := by
  cases data with
  | none => exact .ite hs.setCoh.setCoh hs.setCoh.setCoh
  | some b => exact .ite hs.setCoh.putLine.setCoh hs.setCoh.putLine.setCoh

theorem State.Bounded.pushLine (hs : s.Bounded) {host : Bool} {fuel : Nat} : (s.pushLine line host fuel).Bounded := by
  induction fuel generalizing s with
  | zero => exact hs
  | succ m ih =>
    unfold State.pushLine
    refine .ite hs ?_
    split
    · exact ih hs.deliverMsg
    · split
      · exact ih hs.endDelay
      · refine .ite hs ?_
        split
        · exact ih hs.hostReturns
        · split
          · exact .ite (ih hs.setCoh.advance) hs
          · exact hs

theorem State.Bounded.drain (hs : s.Bounded) {lo hi : Nat} {host : Bool} : (s.drain lo hi host).Bounded :=
  .ite hs (hs.foldl fun _ _ ht => ht.pushLine)

theorem State.Bounded.stallRead (hs : s.Bounded) : MaybeState.Bounded (s.stallRead agent line) := by
  unfold State.stallRead
  extract_lets -underBinder +onlyGivenNames c away
  split
  · exact .none
  · refine .ite .none ?_
    extract_lets -underBinder +onlyGivenNames gone
    have hgone : gone.Bounded := hs.cohCount
    refine .ite (.some hgone.setCoh.answerPoison) ?_
    split
    · exact .none
    · exact .ite .none (.ite (.some hgone.setCoh.answerPoison.advance)
          (.ite (.some hgone.setCoh.answerPoison.beginAll) .none))

/-! ### Memory -/

theorem State.Bounded.recallLine (hs : s.Bounded) : (s.recallLine line).Bounded := by
  unfold State.recallLine
  extract_lets put
  split
  · exact hs.update
  · exact .ite hs.update hs

theorem State.Bounded.clearRange (hs : s.Bounded) : (s.clearRange a n).Bounded := .ite hs hs.dropCopies.update

theorem State.Bounded.freshRange (hs : s.Bounded) : (s.freshRange a n).Bounded := .ite hs hs.update

theorem State.Bounded.storeBytes (hs : s.Bounded) : (s.storeBytes a b).Bounded :=
  .ite hs (State.Bounded.ite hs.drain.recallLine.recallLine.dropCopies.settleLines.noteFrames
    hs.drain.recallLine.recallLine.dropCopies.settleLines).update.encodeRange

theorem State.Bounded.writeMem (hs : s.Bounded) : (s.writeMem a b).Bounded := .ite hs hs.storeBytes.countTier

theorem State.Bounded.poisonRange (hs : s.Bounded) {reason : Nat} : (s.poisonRange a n reason agent).Bounded :=
  (State.Bounded.ite hs hs.drain).foldl fun _ _ ht => ht.storePoison

/-! ### Queue -/

theorem State.Bounded.setQueue (hs : s.Bounded) {c : QCtx} : (s.setQueue q c).Bounded := hs.update

theorem State.Bounded.issueFlush (hs : s.Bounded) : (s.issueFlush q).Bounded := hs.setQueue.emit

theorem State.Bounded.putRecord (hs : s.Bounded) {r : CRec} {uncertain replayed : Bool} :
    (s.putRecord q r uncertain replayed).Bounded := by
  unfold State.putRecord
  extract_lets c a s1 s2 s3 c1 c2 w c3 s4 s5
  have hs1 : s1.Bounded := .ite hs hs.writeMem
  have hs3 : s3.Bounded := .ite hs1.count.count hs1.count
  have hs5 : s5.Bounded := .ite hs3.setQueue.msix hs3.setQueue
  exact .ite hs5.issueFlush hs5

/-- A turn of the record engine with nothing fetched lets an aborted sequence into the window; with a descriptor at the
front it writes or holds its record, or asks for the read of a flush (R294 to R300). -/
theorem State.Bounded.pumpOnce (hs : s.Bounded) : MaybeState.Bounded (s.pumpOnce q) := by
  unfold State.pumpOnce
  extract_lets -underBinder +onlyGivenNames c
  clear_value c
  split
  · split
    · exact .none
    · exact .ite (.some hs.setQueue) (.ite (.ite (.some hs.setQueue) .none) .none)
  next f _ _ =>
    obtain ⟨seq, opcode, irq, body, granted, phase⟩ := f
    cases phase with
    | waiting => exact .none
    | done => exact .ite (.some hs.setQueue.setQueue) (.ite .none (.some hs.setQueue.putRecord))
    | running e =>
      cases e with
      | dispatch => exact .ite (.ite .none (.ite (.some hs.setQueue) (.ite .none (.some hs.issueFlush)))) .none
      | _ => exact .none

theorem State.Bounded.pumpFuel (hs : s.Bounded) {fuel : Nat} : (s.pumpFuel q fuel).Bounded := by
  induction fuel generalizing s with
  | zero => exact hs
  | succ m ih =>
    unfold State.pumpFuel
    split
    next => exact hs
    next t e => exact ih (hs.pumpOnce t e)

theorem State.Bounded.pump (hs : s.Bounded) : (s.pump q).Bounded := .ite hs.pumpFuel.issueFlush hs.pumpFuel

theorem State.Bounded.complete (hs : s.Bounded) {n : BitVec 16} {o : Outcm} : (s.complete q n o).Bounded :=
  hs.setQueue.pump

theorem State.Bounded.finish (hs : s.Bounded) {o : Outcm} : (s.finish d o).Bounded := hs.complete

theorem State.Bounded.handOver (hs : s.Bounded) {e : Engine} : (s.handOver d e).Bounded := hs.setQueue.count

theorem State.Bounded.runNow (hs : s.Bounded) {op : Byte} {f : State → State × Outcm}
    (hf : ∀ (t : State), t.Bounded → (f t).1.Bounded) :
    (s.runNow d op f).Bounded :=
  (hf _ hs.handOver).finish

theorem State.Bounded.onDesc (hs : s.Bounded) {op : Byte} {f : State → State}
    (hf : ∀ t : State, t.Bounded → (f t).Bounded) :
    Result.Bounded (s.onDesc d op f) :=
  .ite (.next (hf _ hs)) (.next hs)

/-! ### Tensor -/

theorem State.Bounded.writeRuns (hs : s.Bounded) {run : List Byte} {bs : List (Option Byte)} :
    (s.writeRuns a run bs).Bounded := by
  induction bs generalizing s a run with
  | nil => exact hs.writeMem
  | cons b r ih =>
    cases b with
    | none => exact ih hs.writeMem
    | some b => exact ih hs

theorem State.Bounded.writeSkeins (hs : s.Bounded) {p : OutPlane} {sk : SkeinOut} : (s.writeSkeins p sk).Bounded :=
  (hs.foldl fun _ _ ht => ht.writeMem).foldl fun _ _ ht => .ite ht ht.writeRuns

theorem State.Bounded.undefine (hs : s.Bounded) {l : List (Nat × Nat)} : (s.undefine l).Bounded :=
  hs.foldl fun _ _ ht => ht.update.storeBytes

theorem State.Bounded.setCtx (hs : s.Bounded) {c : Nat} {x : Ctx} : (s.setCtx c x).Bounded := hs.update

theorem State.Bounded.overflow (hs : s.Bounded) {nar sat : Nat} : (s.overflow q n nar sat).Bounded := by
  unfold State.overflow
  refine .ite hs ?_
  split
  · exact hs
  · exact .ite hs.count
        (.ite hs.count.count.setCtx (.ite hs.count.count.setCtx (.ite hs.count.count.count hs.count.count.count)))

theorem State.Bounded.countFmt (hs : s.Bounded) {c : FmtCounts} : (s.countFmt c).Bounded :=
  hs.count.count.count.count.count.count.count

theorem State.Bounded.countWatched (hs : s.Bounded) {c : FmtCounts} : (s.countWatched q n c).Bounded :=
  hs.countFmt.overflow

end Sys2Proof.Machine
end

section
/-!
PROOF. O5, the engines of a tensor die: creel, looms, vector engines and treadle (R61 to R135, R196 to R224).
-/

namespace Sys2Proof.Machine

open Sys2Proof

variable {s : State} {die e h l limit r : Nat} {p : Pick} {d : Desc}

/-! ### Creel -/

theorem State.Bounded.setRing (hs : s.Bounded) {x : Ring} : (s.setRing die r x).Bounded := hs.update

theorem State.Bounded.setLoom (hs : s.Bounded) {x : Loom} : (s.setLoom die l x).Bounded := hs.update

theorem State.Bounded.freshLooms (hs : s.Bounded) : (s.freshLooms die).Bounded :=
  hs.foldl fun _ _ ht => .ite ht.setLoom ht.update

theorem State.Bounded.setVec (hs : s.Bounded) {x : List VecJob} : (s.setVec die e x).Bounded := hs.update

theorem State.Bounded.giveSlot (hs : s.Bounded) {c : Claim} {x : Drained} : (s.giveSlot die c x).Bounded := by
  unfold State.giveSlot
  split
  · exact hs
  · split
    exacts [hs.setLoom, hs.setVec, hs]

theorem State.Bounded.takeSlots (hs : s.Bounded) {fuel : Nat} : (s.takeSlots die r fuel).Bounded := by
  induction fuel generalizing s with
  | zero => exact hs
  | succ k ih =>
    unfold State.takeSlots
    extract_lets g
    split
    · exact hs
    · exact .ite (ih hs.giveSlot.setRing) hs

theorem State.Bounded.settleRing (hs : s.Bounded) : (s.settleRing die r).Bounded := by
  unfold State.settleRing
  extract_lets s1 g
  have hs1 : s1.Bounded := hs.takeSlots
  split
  · exact hs1
  · exact .ite hs1.setRing hs1

theorem State.Bounded.settleDie (hs : s.Bounded) : (s.settleDie die).Bounded := hs.foldl fun _ _ ht => ht.settleRing

theorem State.Bounded.claimSlots (hs : s.Bounded) {q seq : BitVec 16} {n : Nat} :
    (s.claimSlots die r q seq n).Bounded :=
  hs.setRing.settleRing

theorem State.Bounded.releaseClaims (hs : s.Bounded) {q seq : BitVec 16} : (s.releaseClaims die q seq).Bounded :=
  hs.foldl fun _ _ ht => ht.setRing.settleRing

theorem State.Bounded.leaveHead (hs : s.Bounded) : (s.leaveHead die r).Bounded := hs.setRing.settleRing

theorem State.Bounded.emptyHead (hs : s.Bounded) : (s.emptyHead die r).Bounded := .ite hs.leaveHead hs

theorem State.Bounded.fillSlot (hs : s.Bounded) {k shuttle : Nat} {ok : Bool} :
    (s.fillSlot die r k shuttle ok).Bounded :=
  .ite (State.Bounded.ite hs hs.count).setRing.settleRing
      (.ite (State.Bounded.ite hs hs.count).leaveHead (State.Bounded.ite hs hs.count).setRing)

/-! ### Looms -/

theorem State.Bounded.failChain (hs : s.Bounded) {o : Outcm} : (s.failChain die l o).Bounded := by
  unfold State.failChain
  extract_lets m
  split
  · exact hs
  · exact .ite hs hs.setLoom.count

theorem State.Bounded.endUnrun (hs : s.Bounded) {o : Outcm} : (s.endUnrun die l p o).Bounded :=
  (State.Bounded.ite (State.Bounded.ite hs hs.failChain).setLoom (.ite hs hs.failChain)).complete

theorem State.Bounded.endInTurn (hs : s.Bounded) {o : Outcm} : (s.endInTurn die l p o).Bounded :=
  .ite hs.setLoom hs.endUnrun

theorem State.Bounded.admitPick (hs : s.Bounded) : (s.admitPick die l p).Bounded :=
  .ite hs.setLoom hs.setLoom.claimSlots

theorem State.Bounded.offerPick (hs : s.Bounded) : MaybeState.Bounded (s.offerPick die l p) := by
  unfold State.offerPick
  extract_lets -underBinder +onlyGivenNames f m
  refine .ite .none ?_
  split
  · exact .none
  · exact .some hs.complete
  · split
    · extract_lets -underBinder +onlyGivenNames bad unfit
      refine .ite (.some hs.complete) ?_
      extract_lets -underBinder +onlyGivenNames s1
      have hs1 : s1.Bounded := hs.setLoom
      split
      · exact .some hs1.endInTurn
      · refine .ite (.some hs1.endInTurn) ?_
        split
        · exact .some hs1.endInTurn
        · exact .some hs1.admitPick
    · exact .some hs.complete

theorem State.Bounded.handPick (hs : s.Bounded) : (s.handPick die l p).Bounded := by
  unfold State.handPick
  extract_lets m
  refine .ite hs.setLoom ?_
  split
  next t e =>
    have ht : t.Bounded := hs.offerPick _ e
    exact ht
  · exact hs.setLoom

theorem State.Bounded.dispatchPick (hs : s.Bounded) {op : Byte} {bwd : Bool} : (s.dispatchPick d op bwd).Bounded := by
  unfold State.dispatchPick
  extract_lets f die target
  clear_value target
  split
  · exact hs
  · exact .ite hs (.ite hs.finish (.ite hs.finish hs.handOver.handPick))

theorem State.Bounded.acceptWaiting (hs : s.Bounded) {cands : List Pick} : (s.acceptWaiting die l cands).Bounded := by
  induction cands with
  | nil => exact hs
  | cons p r ih =>
    unfold State.acceptWaiting
    extract_lets m t
    have ht : t.Bounded := hs.setLoom
    split
    next u e => exact ht.offerPick u e
    next => exact ih

theorem State.Bounded.writeOutputs (hs : s.Bounded) {f : PickF} {oy : Opf} {nt : Nat} {merge : List (List MergeCell)} :
    (s.writeOutputs p f oy nt limit merge).1.Bounded := by
  unfold State.writeOutputs
  exact .foldl_fst hs fun _ _ ht => ht.writeSkeins.countWatched

theorem State.Bounded.runPick (hs : s.Bounded) : (s.runPick die l p).st.Bounded := by
  unfold State.runPick
  extract_lets -underBinder +onlyGivenNames f m
  split
  · extract_lets -underBinder +onlyGivenNames t kTot ops passes k0 start scaleBad warps warpBad sizeBad fail
    have hfail : ∀ st row, (fail st row).st.Bounded := fun _ _ => hs
    split
    · exact hfail _ _
    split
    · exact hfail _ _
    split
    · exact hfail _ _
    extract_lets -underBinder +onlyGivenNames merged warp bad
    split
    · exact hs.writeOutputs
    · exact hs
  · exact hs

theorem State.Bounded.completePick (hs : s.Bounded) : (s.completePick die l).Bounded := by
  unfold State.completePick
  extract_lets -underBinder +onlyGivenNames m
  split
  · exact hs
  · extract_lets -underBinder +onlyGivenNames prior
    refine .ite hs ?_
    extract_lets -underBinder +onlyGivenNames f run s1 s2 ran loads s3 s4 m1 chain s5 failed s6 s7 s8 s9
    have h1 : s1.Bounded := by
      unfold s1 run
      clear_value prior
      split
      · exact hs
      · exact hs.runPick
    have h2 : s2.Bounded := .ite h1.count h1
    have h3 : s3.Bounded := .ite h2.count h2
    have h4 : s4.Bounded := .ite h3.count h3
    have h6 : s6.Bounded := .ite h4.setLoom.failChain h4.setLoom
    have h7 : s7.Bounded := .ite h6.count h6
    have h8 : s8.Bounded := .ite h7.releaseClaims h7
    exact h8.complete.settleDie

theorem State.Bounded.dropChain (hs : s.Bounded) {q : BitVec 16} : (s.dropChain die l q).Bounded := by
  unfold State.dropChain
  extract_lets m
  split
  · exact .ite hs.setLoom hs
  · exact hs

theorem State.Bounded.execLoomSetMode (hs : s.Bounded) : Result.Bounded (execLoomSetMode d s) :=
  hs.onDesc fun _ ht => .ite ht.finish
      (.ite ht.finish (.ite ht (.ite ht.finish (.ite ht (ht.runNow fun _ hu => hu.foldl fun _ _ hv => hv.setLoom)))))

/-! ### Cycles -/

theorem State.Bounded.setHeddle (hs : s.Bounded) {x : List HeddleTile} : (s.setHeddle die h x).Bounded := hs.update

theorem State.Bounded.fillHeddle (hs : s.Bounded) : (s.fillHeddle die h).Bounded := by
  unfold State.fillHeddle
  extract_lets looms held want r
  have hr : r.1.Bounded := by
    unfold r
    split
    · exact hs
    · exact hs.setLoom.count
  exact hr.setHeddle

theorem State.Bounded.storeGrant (hs : s.Bounded) {busy : Bool} : (s.storeGrant busy).2.Bounded := by
  unfold State.storeGrant
  exact .ite_snd hs.draw hs

theorem State.Bounded.emitHeddle (hs : s.Bounded) {rows : List (Nat × Bool × Pick)} :
    (s.emitHeddle die h rows).Bounded :=
  hs.setHeddle

theorem State.Bounded.tickLoom (hs : s.Bounded) {rows : List (Nat × Bool × Pick)} {busy : Bool} :
    (s.tickLoom die l rows busy).Bounded := by
  unfold State.tickLoom
  extract_lets -underBinder +onlyGivenNames m n
  refine .ite hs.count ?_
  extract_lets -underBinder +onlyGivenNames given a b d g s1 m1 c s2 s3 s4
  have hgiven : ∀ weft (t : State) p, t.Bounded → (given weft t p).2.Bounded := by
    intro weft t p ht
    unfold given
    split
    · exact ht
    · exact .ite_snd ht ht.storeGrant
  have ha : a.2.Bounded := hgiven _ _ _ hs
  have hb : b.2.Bounded := hgiven _ _ _ ha
  have hd : d.2.Bounded := hb.storeGrant
  have hs1 : s1.Bounded := hd
  have hs2 : s2.Bounded := by
    unfold s2
    clear_value c
    split
    exacts [hs1.count, hs1.count, hs1.count.count]
  have hs3 : s3.Bounded := .ite hs2.count hs2
  have hs4 : s4.Bounded := .ite hs3.count hs3
  exact hs4.setLoom

theorem State.Bounded.tickHeddle (hs : s.Bounded) {busy : Bool} : (s.tickHeddle die h busy).Bounded :=
  hs.fillHeddle.tickLoom.tickLoom.emitHeddle

/-! ### Vector -/

theorem State.Bounded.vecWrite (hs : s.Bounded) {j : VecJob} {v : VecEnv} : (s.vecWrite die e j v limit).1.Bounded := by
  unfold State.vecWrite
  split
  · exact hs
  · exact hs.writeSkeins.countWatched.count.count

theorem State.Bounded.gatherWrite (hs : s.Bounded) {j : VecJob} {v : VecEnv} :
    (s.gatherWrite die e j v limit).1.Bounded := by
  unfold State.gatherWrite
  split
  · exact hs
  · exact hs.writeSkeins.countWatched.count.count

theorem State.Bounded.argmaxWrite (hs : s.Bounded) {v : VecEnv} : (s.argmaxWrite die e v limit).Bounded :=
  (hs.foldl fun _ _ ht => .ite ht.writeMem.count ht.writeMem).count

theorem State.Bounded.runVec (hs : s.Bounded) {j : VecJob} : (s.runVec die e j).1.Bounded := by
  unfold State.runVec
  split
  · exact hs
  · extract_lets -underBinder +onlyGivenNames f
    refine .ite_fst hs ?_
    extract_lets -underBinder +onlyGivenNames v rows bad limit r r1
    have hr : r.1.Bounded := by
      unfold r
      split
      exacts [hs.gatherWrite, hs.argmaxWrite, hs.vecWrite]
    have hr1 : r1.1.Bounded := .ite_fst hr.undefine hr
    clear_value bad
    split <;> exact hr1

theorem State.Bounded.dispatchVec (hs : s.Bounded) {o : VecOp} : (s.dispatchVec d o).Bounded := by
  unfold State.dispatchVec
  extract_lets f die target
  clear_value target
  split
  · exact hs
  · refine .ite hs ?_
    extract_lets cfg
    refine .ite hs.finish (.ite hs.finish ?_)
    split
    · exact hs.finish
    · exact .ite hs (.ite hs.handOver.setVec hs.handOver.setVec.claimSlots)

theorem State.Bounded.completeVec (hs : s.Bounded) : (s.completeVec die e).Bounded := by
  unfold State.completeVec
  split
  · exact hs
  · exact .ite hs (State.Bounded.ite hs.runVec.setVec.count.releaseClaims hs.runVec.setVec.count).complete.settleDie

/-! ### Treadle -/

theorem State.Bounded.signalToken (hs : s.Bounded) {token mode : Nat} {inc : BitVec 32} :
    (s.signalToken die token mode inc).Bounded := hs.update

theorem State.Bounded.noteReady (hs : s.Bounded) : (s.noteReady die).Bounded := hs.update

theorem State.Bounded.grantHead (hs : s.Bounded) {q : Nat} : (s.grantHead die q).Bounded := by
  unfold State.grantHead
  extract_lets k c
  split
  · exact hs
  · exact hs.setQueue.count.update

theorem State.Bounded.grantTurn (hs : s.Bounded) : (s.grantTurn die).Bounded := by
  unfold State.grantTurn
  extract_lets s1
  have hs1 : s1.Bounded := hs.noteReady
  split
  · exact hs1
  · extract_lets s2
    have hs2 : s2.Bounded := hs1.grantHead
    split
    · exact hs2
    · exact hs2.grantHead

theorem State.Bounded.execTreadleBind (hs : s.Bounded) : Result.Bounded (execTreadleBind d s) :=
  hs.onDesc fun _ ht => .ite ht.finish (ht.runNow fun _ hu => .ite_fst hu.update hu.update)

theorem State.Bounded.execMbAdmit (hs : s.Bounded) : Result.Bounded (execMbAdmit d s) := by
  unfold Sys2Proof.Machine.execMbAdmit
  refine hs.onDesc fun t ht => ?_
  split
  · exact ht.finish
  · exact .ite ht (ht.runNow fun _ hu => .ite hu.update.count hu.update)

end Sys2Proof.Machine
end

section
/-!
PROOF. O5, updates, temple, links and collectives (R144 to R195, R302 to R340, R364 to R372).
-/

namespace Sys2Proof.Machine

open Sys2Proof

variable {s : State} {a k n p t : Nat} {q : BitVec 16} {f : UpdF} {stall : Option Nat} {d : Desc} {op : Byte}
    {r : OutRec} {es : List ExpRec} {w : CollWait}

/-! ### Update -/

theorem State.Bounded.putGroup (hs : s.Bounded) {gstep last : Nat} {inUpd : Bool} :
    (s.putGroup a gstep last inUpd).Bounded := hs.writeMem

theorem State.Bounded.putSum (hs : s.Bounded) {x : XV} : (s.putSum a x).Bounded := by
  unfold State.putSum
  extract_lets b s1
  have hs1 : s1.Bounded := by
    unfold s1
    split
    · exact hs.writeMem
    · exact hs
  exact hs1.writeMem

theorem State.Bounded.orthoPicks (hs : s.Bounded) {die : Nat} : (s.orthoPicks die).Bounded :=
  hs.foldl fun _ _ ht => ht.draw.draw.count.count

theorem State.Bounded.runStat (hs : s.Bounded) {g : GroupRec} : (s.runStat q g f stall).1.Bounded := by
  unfold State.runStat
  extract_lets -underBinder +onlyGivenNames v u
  split
  · exact hs
  · refine .ite_fst hs ?_
    extract_lets -underBinder +onlyGivenNames all mk mmk m mm sum nar g2 w2 u2 s1 s2 u1 s3 _ _ s4
    have hs1 : s1.Bounded := hs.writeMem
    have hs2 : s2.Bounded := hs1.putSum.putSum.putSum
    have hu1 : ∀ (t : State) a, t.Bounded → (u1 t a).Bounded := fun _ _ ht => ht.writeMem
    have hs3 : s3.Bounded := hu1 _ _ (hu1 _ _ (hu1 _ _ hs2))
    have hs4 : s4.Bounded := .ite hs3.writeSkeins.countFmt.orthoPicks hs3
    exact hs4.count

theorem State.Bounded.writeBobbins (hs : s.Bounded) {v : UpdEnv} {sk : List ((Nat × Nat) × StSkein)} :
    (s.writeBobbins v sk).Bounded := hs.foldl fun _ _ ht => ht.writeRuns

theorem State.Bounded.runApply (hs : s.Bounded) {g : GroupRec} : (s.runApply q g f stall).1.Bounded := by
  unfold State.runApply
  extract_lets v tr v1 all bad os low stop stop1 limit mk mmk within gram ort wk mW mmW done nar plane s1 s2 s3 s4
      cnt held masked s5 s6 s7 s8
  have hs1 : s1.Bounded := .ite hs hs.writeSkeins
  have hs2 : s2.Bounded := .ite hs1 hs1.writeBobbins
  have hs3 : s3.Bounded := .ite hs2.writeSkeins hs2
  have hs4 : s4.Bounded := .ite hs3.writeSkeins hs3
  have hs5 : s5.Bounded := hs4.countFmt.count
  have hs6 : s6.Bounded := .ite hs5 hs5.count.count
  have hs7 : s7.Bounded := .ite hs6.count hs6
  have hs8 : s8.Bounded := .ite hs7.count.orthoPicks hs7
  exact .ite_fst hs8 (.ite_fst hs8 (.ite_fst hs8 (.ite_fst hs8 (.ite_fst hs8.putGroup.count hs8.putGroup.count))))

theorem State.Bounded.frozenEnd (hs : s.Bounded) {g : GroupRec} {real : Bool} :
    (s.frozenEnd g f real stall).1.Bounded := by
  unfold State.frozenEnd
  split
  · exact .ite hs.putGroup hs
  · exact .ite hs.putGroup.count hs

theorem State.Bounded.updSettle (hs : s.Bounded) {apply : Bool} {o : Outcome} :
    (s.updSettle q apply f o stall).1.Bounded := by
  unfold State.updSettle
  extract_lets g real
  refine .ite_fst hs.noteRead (.ite_fst hs.count.count ?_)
  exact .ite_fst hs.count
      (.ite_fst (.ite hs.count hs)
      (.ite_fst (.ite_fst hs hs.frozenEnd) (.ite_fst hs.runStat (.ite_fst hs (.ite_fst hs hs.putGroup.runApply)))))

theorem State.Bounded.updStart (hs : s.Bounded) : (s.updStart d op stall).Bounded := by
  unfold State.updStart
  extract_lets f
  refine .ite hs ?_
  split
  · exact hs.runNow fun _ ht => ht.updSettle
  · exact .ite hs.finish hs.handOver.update

theorem State.Bounded.dispatchUpd (hs : s.Bounded) : (s.dispatchUpd d op stall).Bounded := by
  unfold State.dispatchUpd
  split
  · exact hs.finish
  · exact hs.updStart

theorem State.Bounded.updResume (hs : s.Bounded) {w : OutcomeWait} : (s.updResume w stall).Bounded := by
  unfold State.updResume
  extract_lets f drop
  have hdrop : ∀ (t : State), t.Bounded → (drop t).Bounded := fun _ ht => ht.update
  split
  · exact ((hdrop _ hs).underConf fun _ ht => ht.updSettle).complete
  · exact .ite (hdrop _ hs).complete hs

/-! ### Commit -/

theorem State.Bounded.stepCommit (hs : s.Bounded) {stamps : Nat} : (s.stepCommit a stamps).1.Bounded := by
  unfold State.stepCommit
  exact .ite_fst hs.update.count (.ite_fst hs hs.record.update.count)

theorem State.Bounded.execStepCommit (hs : s.Bounded) {body stamps : BitVec 64} :
    Result.Bounded (execStepCommit body stamps s) := hs.onCmd fun _ ht => ht.stepCommit

theorem State.Bounded.groupRestore (hs : s.Bounded) {first count : Nat} : (s.groupRestore first count a).1.Bounded := by
  unfold State.groupRestore
  refine .ite_fst hs.count ?_
  extract_lets why
  split
  · exact hs.update.count
  · exact (hs.foldl fun _ _ ht => ht.putGroup).record.count

theorem State.Bounded.execGroupRestore (hs : s.Bounded) {first count : BitVec 32} {entries : BitVec 64} :
    Result.Bounded (execGroupRestore first count entries s) := hs.onCmd fun _ ht => ht.groupRestore

theorem State.Bounded.outcomeAdopt (hs : s.Bounded) {o : Outcome} : (s.outcomeAdopt o).1.Bounded := by
  unfold State.outcomeAdopt
  split
  · exact .ite_fst hs.count hs
  · exact hs.update.count

theorem State.Bounded.execOutcomeAdopt (hs : s.Bounded) {step : BitVec 64} {flag : Byte} {members : BitVec 32}
    {sum : BitVec 64} :
    Result.Bounded (execOutcomeAdopt step flag members sum s) :=
  hs.onCmd fun _ ht => ht.outcomeAdopt

theorem State.Bounded.commitRebase (hs : s.Bounded) : (s.commitRebase t).1.Bounded := by
  unfold State.commitRebase
  exact .ite_fst hs hs.record.update

theorem State.Bounded.execCommitRebase (hs : s.Bounded) {step : BitVec 64} : Result.Bounded (execCommitRebase step s) :=
  hs.onCmd fun _ ht => ht.commitRebase

theorem State.Bounded.boltNote (hs : s.Bounded) {step digest label : Nat} :
    (s.boltNote step digest label).1.Bounded := by
  unfold State.boltNote
  exact .ite_fst hs hs.record.update

theorem State.Bounded.execBoltNote (hs : s.Bounded) {step digest label : BitVec 64} :
    Result.Bounded (execBoltNote step digest label s) := hs.onCmd fun _ ht => ht.boltNote

/-! ### Links -/

theorem State.Bounded.setPeer (hs : s.Bounded) {x : PeerSt} : (s.setPeer p x).Bounded := hs.update

theorem State.Bounded.setLane (hs : s.Bounded) {x : Lane} : (s.setLane n x).Bounded := hs.update

theorem State.Bounded.drainLane (hs : s.Bounded) : (s.drainLane n).Bounded :=
  hs.setLane.count.foldl fun _ _ ht => ht.emit

theorem State.Bounded.setEth (hs : s.Bounded) {x : EthPeer} : (s.setEth p x).Bounded := hs.update

theorem State.Bounded.sendPackets (hs : s.Bounded) {l : List (BitVec 32 × List Byte)} : (s.sendPackets p l).Bounded :=
  hs.foldl fun _ _ ht => ht.emit

theorem State.Bounded.drainEth (hs : s.Bounded) {x : EthPeer} : (s.drainEth p x).Bounded := hs.setEth.sendPackets

theorem State.Bounded.pushRec (hs : s.Bounded) {lane : Nat} {h : XHdr} : (s.pushRec lane h r).Bounded :=
  .ite hs.emit.drainEth.count hs.emit.setLane.drainLane

theorem State.Bounded.sendNow (hs : s.Bounded) {pod : Bool} {xtag : BitVec 12} :
    (s.sendNow p pod xtag t r).Bounded := by
  unfold State.sendNow
  extract_lets pa
  split
  · exact hs
  · exact (State.Bounded.ite hs.count hs).pushRec

theorem State.Bounded.sendHello (hs : s.Bounded) : (s.sendHello p).Bounded := hs.update.sendNow

theorem State.Bounded.sendRec (hs : s.Bounded) {pod : Bool} {xtag : BitVec 12} : (s.sendRec p pod xtag t r).Bounded :=
  .ite hs.sendNow (.ite hs.update hs.update.sendHello)

theorem State.Bounded.releaseRecs (hs : s.Bounded) : (s.releaseRecs p).Bounded :=
  hs.update.foldl fun _ _ ht => ht.sendNow

theorem State.Bounded.sendXact (hs : s.Bounded) {pod : Bool} {seq : BitVec 16} {kind off len : Nat} :
    (s.sendXact p pod q seq kind off len t r).Bounded := hs.update.sendRec

/-! ### Alerts -/

theorem State.Bounded.driveAlert (hs : s.Bounded) : s.driveAlert.Bounded := (State.Bounded.ite hs.count hs).update

theorem State.Bounded.setAlert (hs : s.Bounded) {i : Nat} {on : Bool} : (s.setAlert i on).Bounded :=
  hs.update.driveAlert

/-! ### Temple -/

theorem State.Bounded.openTrain (hs : s.Bounded) {tally hist : Nat} : (s.openTrain q k n t tally hist).1.Bounded := by
  unfold State.openTrain
  exact .ite_fst (State.Bounded.ite hs hs.noteRead).setCtx (State.Bounded.ite hs hs.noteRead).setCtx.count

theorem State.Bounded.execTempleOpen (hs : s.Bounded) : Result.Bounded (execTempleOpen d s) :=
  hs.onDesc fun _ ht => .ite ht.finish
      (.ite (ht.runNow fun _ hu => hu.setCtx) (.ite ht.finish (.ite ht.finish (ht.runNow fun _ hu => hu.openTrain))))

theorem State.Bounded.execTempleTally (hs : s.Bounded) : Result.Bounded (execTempleTally d s) := by
  unfold Sys2Proof.Machine.execTempleTally
  refine hs.onDesc fun t ht => ?_
  extract_lets k l a c
  split
  · exact ht.finish
  · exact .ite ht.finish
        (.ite ht.finish (.ite ht.finish
        (.ite ht.finish (.ite ht.finish (.ite ht.finish (.ite ht (ht.runNow fun _ hu => hu.noteRead.writeMem)))))))

theorem State.Bounded.trySeal (hs : s.Bounded) {w : SealWait} {body : BitVec 352} : (s.trySeal w body).Bounded :=
  .ite hs (.ite hs.update.complete hs.update.setCtx.complete)

theorem State.Bounded.execTempleSeal (hs : s.Bounded) : Result.Bounded (execTempleSeal d s) := by
  unfold Sys2Proof.Machine.execTempleSeal
  split
  · exact .next (.ite hs.trySeal hs)
  · exact hs.onDesc fun _ ht => .ite ht.finish ht.handOver.update.trySeal

theorem State.Bounded.latchAlarm (hs : s.Bounded) : (s.latchAlarm k).Bounded := hs.setCtx.count.event.setAlert

theorem State.Bounded.decideStep (hs : s.Bounded) {wide : Bool} {tally out : Nat} :
    (s.decideStep k wide tally out).1.Bounded := by
  unfold State.decideStep
  extract_lets c t n sc limit narrowest after layers formats moves c' latch s1 s2 b s3 s4 s5 s6 s7 s8 s9 detail
  have hs1 : s1.Bounded := .ite hs hs.noteRead
  have hs2 : s2.Bounded := hs1.setCtx
  have hs3 : s3.Bounded := hs2.writeMem.writeMem
  have hs4 : s4.Bounded := .ite hs3.count hs3
  have hs5 : s5.Bounded := hs4.count.count
  have hs6 : s6.Bounded := hs5.count
  have hs7 : s7.Bounded := hs6.count.count
  have hs8 : s8.Bounded := hs7.count
  have hs9 : s9.Bounded := .ite hs8.latchAlarm hs8
  exact hs9

theorem State.Bounded.settleDecide (hs : s.Bounded) {body : BitVec 352} {o : Outcome} :
    (s.settleDecide body o).1.Bounded := by
  unfold State.settleDecide
  exact .ite_fst hs (.ite_fst hs (.ite_fst hs.noteRead hs.decideStep))

theorem State.Bounded.execTempleDecide (hs : s.Bounded) : Result.Bounded (execTempleDecide d s) := by
  unfold Sys2Proof.Machine.execTempleDecide
  refine hs.onDesc fun t ht => ?_
  extract_lets k c t1 tally out n
  refine .ite ht.finish (.ite ht.finish ?_)
  split
  · exact .ite ht (ht.runNow fun _ hu => hu.settleDecide)
  · exact .ite ht.finish ht.handOver.update

theorem State.Bounded.decideResume (hs : s.Bounded) {w : OutcomeWait} : (s.decideResume w).Bounded := by
  unfold State.decideResume
  extract_lets t s'
  have hs' : s'.Bounded := hs.update
  split
  · exact .ite hs (hs'.underConf fun _ ht => ht.settleDecide).complete
  · exact .ite hs'.complete hs

theorem State.Bounded.execBarrierOutcomeHeld (hs : s.Bounded) {seq : BitVec 16} :
    Result.Bounded (execBarrierOutcomeHeld q seq s) := by
  unfold Sys2Proof.Machine.execBarrierOutcomeHeld
  refine .ite (.next hs) ?_
  split
  · exact .next hs
  · exact .next (.ite hs.decideResume hs.updResume)

theorem State.Bounded.clearAlarm (hs : s.Bounded) : (s.clearAlarm k).Bounded :=
  (State.Bounded.ite hs.setCtx hs).setAlert

theorem State.Bounded.templeAlarmClear (hs : s.Bounded) {v : Nat} : (s.templeAlarmClear v).1.Bounded := by
  unfold State.templeAlarmClear
  exact .ite_fst hs hs.clearAlarm

theorem State.Bounded.execTempleAlarmClear (hs : s.Bounded) {value : Byte} :
    Result.Bounded (execTempleAlarmClear value s) := hs.onCmd fun _ ht => ht.templeAlarmClear

/-! ### Collectives -/

theorem State.Bounded.putMsg (hs : s.Bounded) {m : CollMsg} : (s.putMsg m).Bounded := hs.update

theorem State.Bounded.dropMsgs (hs : s.Bounded) {g : Nat} {c : BitVec 32} : (s.dropMsgs g c).Bounded := hs.update

theorem State.Bounded.poisonResult (hs : s.Bounded) {ls : List Nat} : (s.poisonResult ls).Bounded :=
  hs.foldl fun _ _ ht => ht.storePoison

theorem State.Bounded.endAcc (hs : s.Bounded) {f : RedF} {cfg : NumCfg} {rank : Nat} :
    (s.endAcc f cfg n rank es).1.Bounded := by
  unfold State.endAcc
  split
  · extract_lets -underBinder +onlyGivenNames h val bad s1 dstBad
    have hs1 : s1.Bounded := by
      unfold s1
      split
      · exact .ite hs hs.writeSkeins.countFmt.poisonResult
      · exact hs
    exact hs1
  · exact hs

theorem State.Bounded.endU64 (hs : s.Bounded) {f : RedF} : (s.endU64 f es).1.Bounded := by
  unfold State.endU64
  exact .ite_fst hs hs.writeMem.poisonResult

theorem State.Bounded.putAcc (hs : s.Bounded) {k : OutSkein} : (s.putAcc a k).Bounded := by
  unfold State.putAcc
  extract_lets s1
  have hs1 : s1.Bounded := by
    unfold s1
    split
    · exact hs.writeMem
    · exact hs
  exact hs1.writeMem

theorem State.Bounded.endStat (hs : s.Bounded) {f : RedF} {rank : Nat} : (s.endStat f n rank es).1.Bounded := by
  unfold State.endStat
  exact .ite_fst hs (hs.writeMem.foldl fun _ _ ht => ht.putAcc).poisonResult

theorem State.Bounded.endGather (hs : s.Bounded) {f : GatF} : (s.endGather f n es).1.Bounded := by
  unfold State.endGather
  exact (hs.foldl fun _ _ ht => ht.writeMem).poisonResult

theorem State.Bounded.endBarrier (hs : s.Bounded) {f : BarF} {bs : List BarrierRec} :
    (s.endBarrier f bs).1.Bounded := by
  unfold State.endBarrier
  exact .ite hs hs.update

theorem State.Bounded.spoil (hs : s.Bounded) : (s.spoil a n).Bounded := .ite hs.draw.writeMem hs

theorem State.Bounded.spoilColl (hs : s.Bounded) : (s.spoilColl w).Bounded := by
  unfold State.spoilColl
  split
  · exact hs
  · extract_lets n
    refine .ite ?_ (.ite hs.spoil hs)
    refine .ite hs.spoil (.ite hs.spoil ?_)
    split
    · exact (hs.foldl fun _ _ ht => ht.spoil).foldl fun _ _ ht => ht.spoil
    · exact hs

theorem State.Bounded.endColl (hs : s.Bounded) {o : Outcm} : (s.endColl w o).Bounded := hs.update.dropMsgs.complete

theorem State.Bounded.applyColl (hs : s.Bounded) {rank : Nat} : (s.applyColl w n rank es).Bounded := by
  unfold State.applyColl
  split
  · exact hs.endColl
  · split
    exacts [hs, hs.endColl,
      (State.Bounded.ite_fst hs.endGather (.ite_fst hs.endU64 (.ite_fst hs.endStat hs.endAcc))).endColl]

theorem State.Bounded.tellMembers (hs : s.Bounded) {g : PGroup} {step : Nat} : (s.tellMembers w g step r).Bounded :=
  hs.foldl fun _ _ ht => ht.sendXact

theorem State.Bounded.pumpData (hs : s.Bounded) {g : PGroup} : (s.pumpData w g).Bounded := by
  unfold State.pumpData
  extract_lets -underBinder +onlyGivenNames gi c n
  refine .ite hs (.ite hs.endColl ?_)
  extract_lets -underBinder +onlyGivenNames own s1 es need
  have hs1 : s1.Bounded := by
    unfold s1
    split
    · exact hs
    · exact hs.putMsg.tellMembers
  exact .ite hs1 hs1.applyColl

theorem State.Bounded.pumpBarrier (hs : s.Bounded) {g : PGroup} : (s.pumpBarrier w g).Bounded := by
  unfold State.pumpBarrier
  extract_lets -underBinder +onlyGivenNames gi c f own
  refine .ite hs.endColl ?_
  extract_lets -underBinder +onlyGivenNames s1 bs
  have hs1 : s1.Bounded := by
    unfold s1
    split
    · exact hs.putMsg.tellMembers
    · exact hs
  exact .ite hs1 hs1.endBarrier.endColl

theorem State.Bounded.pumpColl (hs : s.Bounded) : (s.pumpColl w).Bounded := by
  unfold State.pumpColl
  extract_lets gi
  split
  · exact hs.endColl
  · refine .ite hs.endColl.count ?_
    split
    · exact (State.Bounded.ite hs.spoilColl hs).endColl
    · exact .ite hs.pumpBarrier hs.pumpData

theorem State.Bounded.pumpColls (hs : s.Bounded) : s.pumpColls.Bounded := hs.foldl fun _ _ ht => .ite ht.pumpColl ht

theorem State.Bounded.startColl (hs : s.Bounded) : (s.startColl d op).Bounded := by
  unfold State.startColl
  extract_lets -underBinder +onlyGivenNames gi
  split
  · exact hs
  · extract_lets -underBinder +onlyGivenNames _ w s1 _ s2 _ s3 s4
    have hs1 : s1.Bounded := hs.handOver.count
    have hs2 : s2.Bounded := .ite hs1 hs1.update
    have hs3 : s3.Bounded := hs2.update
    have hs4 : s4.Bounded := .ite hs3 hs3.tellMembers
    exact hs4.pumpColl

theorem State.Bounded.onColl (hs : s.Bounded) {ok : Nat → Bool} {empty : Bool} {mem : Nat → Nat → Option Outcm} :
    Result.Bounded (s.onColl d op ok empty mem) := by
  unfold State.onColl
  split
  · exact .next (.ite hs.pumpColl hs)
  · refine hs.onDesc fun t ht => ?_
    split
    · exact ht.finish
    · extract_lets n
      refine .ite ht.finish ?_
      split
      · exact ht.finish
      · exact ht.startColl

theorem State.Bounded.execPruGroup (hs : s.Bounded) : Result.Bounded (execPruGroup d s) := by
  unfold Sys2Proof.Machine.execPruGroup
  refine hs.onDesc fun t ht => ?_
  extract_lets gi op pod n a known
  refine .ite ht.finish (.ite (.ite ht.finish (.ite ht (ht.runNow fun _ hu => hu.update))) ?_)
  exact .ite ht.finish (.ite ht.finish
      (.ite ht.finish (.ite ht.noteRead.finish (.ite ht.finish (ht.runNow fun _ hu => hu.noteRead.update)))))

end Sys2Proof.Machine
end

section
/-!
PROOF. O5, transfers, stash, aborts and the tiers (R136 to R140, R203 to R249, R296 to R300, R320).
-/

namespace Sys2Proof.Machine

open Sys2Proof

variable {s : State} {core die fuel j l n size : Nat} {q seq : BitVec 16} {o : TierObj} {d : Desc} {op st : Byte}
    {x : Xfer} {m : McastSend} {all two : Bool}

/-! ### Rings -/

theorem State.Bounded.sqDoorbell (hs : s.Bounded) {w : BitVec 32} : (s.sqDoorbell q w).Bounded :=
  .ite hs.count.count (.ite hs.count (.ite hs.count.setQueue hs.count.count))

theorem State.Bounded.cqDoorbell (hs : s.Bounded) {w : BitVec 32} : (s.cqDoorbell q w).Bounded :=
  .ite hs.count.count (.ite hs.count.setQueue.pump hs.count.count)

theorem State.Bounded.accept (hs : s.Bounded) {b : List Byte} {p : Phase} : (s.accept q b p).Bounded :=
  hs.setQueue.count

theorem State.Bounded.fetchReturn (hs : s.Bounded) {f : FetchData} : (s.fetchReturn q f).Bounded := by
  unfold State.fetchReturn
  extract_lets c r b s1 seq crc seqOk crcOk
  have hs1 : s1.Bounded := .ite hs hs.noteRead
  exact .ite hs1.accept.pump (.ite (State.Bounded.ite hs1.count (.ite hs1.count hs1)).accept.pump hs1.setQueue)

theorem State.Bounded.execSqDb (hs : s.Bounded) {width : Nat} {value : BitVec 32} :
    Result.Bounded (execSqDb q width value s) := .ite (.next hs.sqDoorbell) (.next hs)

theorem State.Bounded.execCqDb (hs : s.Bounded) {width : Nat} {value : BitVec 32} :
    Result.Bounded (execCqDb q width value s) := .ite (.next hs.cqDoorbell) (.next hs)

theorem State.Bounded.execFlushReadReturn (hs : s.Bounded) : Result.Bounded (execFlushReadReturn q s) := by
  unfold Sys2Proof.Machine.execFlushReadReturn
  extract_lets c
  split
  · exact .next hs
  · exact .next hs.setQueue.count.pump

/-! ### Cores -/

theorem State.Bounded.setCore (hs : s.Bounded) {c : CtrlCore} : (s.setCore die core c).Bounded := hs.update

theorem State.Bounded.endProgram (hs : s.Bounded) {o : Outcm} : (s.endProgram die core o).Bounded :=
  .ite hs hs.setCore.complete

theorem State.Bounded.execSeqLoad (hs : s.Bounded) : Result.Bounded (execSeqLoad d s) :=
  hs.onDesc fun _ ht => .ite ht.finish
      (.ite ht.finish (.ite ht.finish (ht.runNow fun _ hu => .ite_fst hu.noteRead hu.noteRead.setCore)))

theorem State.Bounded.execTiSubmit (hs : s.Bounded) {rd : BitVec 5} {rs1 rs2 : BitVec 64} :
    Result.Bounded (execTiSubmit die core rd rs1 rs2 s) := by
  unfold Sys2Proof.Machine.execTiSubmit
  refine .ite (.next hs) ?_
  extract_lets c a q x refuse
  have hrefuse : Result.Bounded refuse := .next hs.setCore
  refine .ite hrefuse ?_
  exact .ite (.next hs.endProgram)
      (.ite (.next hs.endProgram)
      (.ite (.next hs) (.ite (.next hs.endProgram) (.next hs.writeMem.sqDoorbell.count.setCore))))

theorem State.Bounded.retireCore (hs : s.Bounded) : (s.retireCore die core).Bounded := by
  unfold State.retireCore
  extract_lets was s1 c s2
  have hs1 : s1.Bounded := hs.endProgram
  have hs2 : s2.Bounded := hs1.setCore
  refine .ite hs2 ?_
  split
  · exact hs2
  · exact hs2.endProgram.setCore

/-! ### Atomics -/

theorem State.Bounded.atomicAt (hs : s.Bounded) {a op width x compare : Nat} :
    (s.atomicAt a op width x compare).2.Bounded := by
  unfold State.atomicAt
  exact hs.noteRead.writeMem

/-! ### Stash -/

theorem State.Bounded.setStash (hs : s.Bounded) {x : Stash} : (s.setStash l x).Bounded := hs.update

theorem State.Bounded.latchFull (hs : s.Bounded) {st : Nat} : (s.latchFull l st).Bounded := .ite hs hs.setStash.count

theorem State.Bounded.placePut (hs : s.Bounded) {b : BitVec 352} {st : Nat} : (s.placePut l b st n).1.Bounded := by
  unfold State.placePut
  extract_lets -underBinder +onlyGivenNames elig x
  refine .ite_fst hs.count ?_
  extract_lets -underBinder +onlyGivenNames s1 x1
  have hs1 : s1.Bounded := by
    unfold s1
    split
    · exact .ite hs.setStash hs
    · exact hs
  split
  · exact hs1
  · extract_lets -underBinder +onlyGivenNames s2
    have hs2 : s2.Bounded := hs1.latchFull
    refine .ite_fst hs2.count ?_
    extract_lets -underBinder +onlyGivenNames x2
    split
    · exact hs2
    · extract_lets -underBinder +onlyGivenNames x3 s3
      have hs3 : s3.Bounded := hs2.setStash.count
      split <;> exact hs3

theorem State.Bounded.chargePut (hs : s.Bounded) {b : BitVec 352} {st : Nat} {tier2 : Bool} :
    (s.chargePut l q seq b st n tier2).Bounded := hs.setStash

theorem State.Bounded.endPut (hs : s.Bounded) {bytes : Option (List Byte)} : (s.endPut l q seq bytes).Bounded := by
  unfold State.endPut
  extract_lets x mine
  split
  · exact hs.setStash.count
  · exact hs.setStash

theorem State.Bounded.getCount (hs : s.Bounded) {k : StashKey} {up release : Bool} :
    (s.getCount l k up release).Bounded :=
  hs.setStash

theorem State.Bounded.execStashDrop (hs : s.Bounded) : Result.Bounded (execStashDrop d s) :=
  hs.onDesc fun _ ht => .ite ht.finish (.ite ht.setStash (ht.setStash.runNow fun _ hu => hu))

/-! ### Shuttles -/

theorem State.Bounded.updXfer (hs : s.Bounded) {g : Xfer → Xfer} : (s.updXfer q seq g).Bounded := hs.update

theorem State.Bounded.failXfer (hs : s.Bounded) {off : Nat} : (s.failXfer q seq st off).Bounded := hs.updXfer

theorem State.Bounded.issueTodo (hs : s.Bounded) : (s.issueTodo q seq fuel).Bounded := by
  induction fuel generalizing s with
  | zero => exact hs
  | succ k ih =>
    unfold State.issueTodo
    split
    · exact hs
    · split
      · exact hs
      · extract_lets rows
        split
        · exact hs
        · exact .ite hs.updXfer.failXfer (.ite hs (ih hs.updXfer.sendXact))

theorem State.Bounded.issueReads (hs : s.Bounded) : (s.issueReads q seq).Bounded := by
  unfold State.issueReads
  split
  · exact hs
  · extract_lets rows s1 todo reads s2 s3
    have hs1 : s1.Bounded := by
      unfold s1
      split
      · split
        · exact hs.failXfer
        · exact hs
      · exact hs
    have hs2 : s2.Bounded := hs1.updXfer
    have hs3 : s3.Bounded := hs2.foldl fun _ _ ht => ht.emit
    exact hs3.issueTodo

theorem State.Bounded.issueWrites (hs : s.Bounded) : (s.issueWrites q seq).Bounded := by
  unfold State.issueWrites
  split
  · exact hs
  · refine .ite hs ?_
    extract_lets rows total stop cut s1 puts bus s2 s3
    have hs1 : s1.Bounded := hs.updXfer
    have hs2 : s2.Bounded := hs1.foldl fun _ _ ht => ht.emit
    have hs3 : s3.Bounded := by
      unfold s3
      split
      · exact hs2.updXfer.emit
      · exact hs2
    exact hs3.updXfer.issueTodo

theorem State.Bounded.issueSignal (hs : s.Bounded) : (s.issueSignal q seq).Bounded := by
  unfold State.issueSignal
  split
  · exact hs
  · extract_lets -underBinder +onlyGivenNames f
    refine .ite hs ?_
    extract_lets -underBinder +onlyGivenNames p s1
    have hs1 : s1.Bounded := hs.updXfer
    refine .ite hs1 ?_
    split
    · exact hs1.failXfer
    · exact hs1.sendXact

theorem State.Bounded.drive (hs : s.Bounded) : (s.drive q seq).Bounded := hs.issueTodo.issueWrites.issueSignal

theorem State.Bounded.noteHold (hs : s.Bounded) : (s.noteHold x).Bounded := .ite hs.updXfer.count hs

theorem State.Bounded.readDeliveries (hs : s.Bounded) : (s.readDeliveries m fuel).1.Bounded := by
  induction fuel generalizing s m with
  | zero => exact hs
  | succ k ih =>
    unfold State.readDeliveries
    exact .ite_fst (ih hs.noteRead) hs

theorem State.Bounded.setSend (hs : s.Bounded) : (s.setSend m).Bounded := hs.update

theorem State.Bounded.releaseSend (hs : s.Bounded) {shuttle : Nat} : (s.releaseSend m shuttle fuel).1.Bounded := by
  induction fuel generalizing s m with
  | zero => exact hs
  | succ k ih =>
    unfold State.releaseSend
    exact .ite_fst (ih hs.count.readDeliveries) hs.count.readDeliveries

theorem State.Bounded.releaseHeld (hs : s.Bounded) {shuttle : Nat} : (s.releaseHeld m shuttle).Bounded :=
  hs.releaseSend.setSend

theorem State.Bounded.issueAtomic (hs : s.Bounded) : (s.issueAtomic x).Bounded := by
  unfold State.issueAtomic
  extract_lets -underBinder +onlyGivenNames op width ref n bytes
  refine .ite hs.noteRead.failXfer ?_
  extract_lets -underBinder +onlyGivenNames s1
  have hs1 : s1.Bounded := hs.noteRead
  split
  · exact .ite hs1.noteRead.failXfer (State.Bounded.ite_snd hs1.atomicAt hs1.atomicAt).updXfer
  · extract_lets -underBinder +onlyGivenNames p
    split
    · exact hs1.failXfer
    · exact hs1.sendXact
  · exact hs1

theorem State.Bounded.acceptXfer (hs : s.Bounded) : (s.acceptXfer q seq).Bounded := by
  unfold State.acceptXfer
  split
  · exact hs
  · refine .ite hs ?_
    extract_lets -underBinder +onlyGivenNames s1
    have hs1 : s1.Bounded := hs.noteHold
    refine .ite hs1 ?_
    extract_lets -underBinder +onlyGivenNames go c
    have hgo : ∀ (t : State), t.Bounded → (go t).Bounded := fun _ ht => ht.updXfer
    split
    · exact .ite hs1 (.ite (hgo _ hs1.setRing).updXfer.failXfer (hgo _ hs1.setRing).updXfer.issueReads.drive)
    · exact .ite (hgo _ hs1.update).releaseHeld (.ite (hgo _ hs1).issueAtomic (hgo _ hs1).issueReads.drive)

theorem State.Bounded.countXfer (hs : s.Bounded) {rows : List XRow} : (s.countXfer x rows n).Bounded := by
  unfold State.countXfer
  extract_lets k b path s1 shorts
  have hs1 : s1.Bounded := hs.count.count.count
  clear_value path
  split
  exacts [hs1.count, hs1.count, hs1.count, hs1]

theorem State.Bounded.retireXfer (hs : s.Bounded) {o : Outcm} : (s.retireXfer x o).Bounded := by
  unfold State.retireXfer
  extract_lets s1 s2
  have hs1 : s1.Bounded := hs.update
  have hs2 : s2.Bounded := by
    unfold s2
    split
    · exact hs1.fillSlot
    · exact hs1
  exact hs2.complete

theorem State.Bounded.moveCopy (hs : s.Bounded) : (s.moveCopy x).1.Bounded := by
  unfold State.moveCopy
  extract_lets rows total stop shut fail limit data s1 s2 s3 l s4 s5
  have hs1 : s1.Bounded := by
    refine hs.foldl fun t x ht => ?_
    split
    · exact .ite ht ht.noteRead
    · exact ht
  have hs2 : s2.Bounded := by
    refine hs1.foldl fun t x ht => ?_
    split
    exacts [ht.writeMem, ht.foldl fun _ _ hu => hu.emit.count, ht]
  have hs3 : s3.Bounded := by
    unfold s3
    clear_value stop
    split
    · exact .ite (hs2.foldl fun _ _ ht => ht.storePoison) hs2
    · exact hs2
  have hs4 : s4.Bounded := .ite hs3.endPut (.ite hs3.getCount hs3)
  have hs5 : s5.Bounded := .ite hs4.signalToken hs4
  exact hs5.countXfer

theorem State.Bounded.endCopy (hs : s.Bounded) : (s.endCopy x).Bounded := hs.moveCopy.retireXfer

theorem State.Bounded.endAtEpoch (hs : s.Bounded) : (s.endAtEpoch x).Bounded := hs.setHost.moveCopy.setHost.retireXfer

theorem State.Bounded.endAtomic (hs : s.Bounded) : (s.endAtomic x).Bounded := by
  unfold State.endAtomic
  extract_lets width
  split
  exacts [hs.retireXfer, .ite hs.retireXfer hs.writeMem.retireXfer, hs.retireXfer]

theorem State.Bounded.endMcast (hs : s.Bounded) {o : Outcm} : (s.endMcast x m o).Bounded := by
  unfold State.endMcast
  extract_lets s1 k s2 s3
  have hs1 : s1.Bounded := hs.update
  have hs2 : s2.Bounded := hs1.count.count
  have hs3 : s3.Bounded := by
    unfold s3
    split
    exacts [hs2.count, hs2.count, hs2]
  exact hs3.retireXfer

theorem State.Bounded.dropXacts (hs : s.Bounded) : (s.dropXacts q seq).Bounded := hs.update

theorem State.Bounded.endXfer (hs : s.Bounded) : (s.endXfer x).Bounded := by
  unfold State.endXfer
  extract_lets s1
  have hs1 : s1.Bounded := hs.dropXacts
  split
  · split
    · exact hs1.endMcast
    · exact hs1.retireXfer
  · exact hs1.endAtomic
  · exact hs1.endCopy

theorem State.Bounded.completeXfer (hs : s.Bounded) : (s.completeXfer q seq).Bounded := by
  unfold State.completeXfer
  split
  · exact hs
  · exact .ite hs.endXfer hs

theorem State.Bounded.handXfer (hs : s.Bounded) {k : Nat} : (s.handXfer d op k).Bounded := hs.handOver.update.acceptXfer

theorem State.Bounded.dispatchCopy (hs : s.Bounded) : (s.dispatchCopy d op).Bounded :=
  .ite hs.finish (.ite hs.finish (.ite hs.finish hs.handXfer))

theorem State.Bounded.execShutMcast (hs : s.Bounded) : Result.Bounded (execShutMcast d s) := by
  unfold Sys2Proof.Machine.execShutMcast
  refine hs.onDesc fun t ht => ?_
  extract_lets die bytes count stride
  split
  · exact .ite ht.finish (.ite ht.finish (.ite ht.finish ht.handXfer))
  · exact ht.finish

theorem State.Bounded.deliver (hs : s.Bounded) {shuttle loom : Nat} : (s.deliver m shuttle die loom).Bounded := by
  unfold State.deliver
  extract_lets x
  split
  · exact hs
  · extract_lets f
    refine .ite hs ?_
    split
    · exact hs
    · exact .ite hs hs.setLoom.setSend.releaseHeld

theorem State.Bounded.execMcastDelivery (hs : s.Bounded) {loom : Nat} :
    Result.Bounded (execMcastDelivery q seq die loom s) := by
  unfold Sys2Proof.Machine.execMcastDelivery
  split
  · exact .next hs
  · split
    · exact .ite (.next hs.deliver) (.next hs)
    · exact .next hs

theorem State.Bounded.execMcastSet (hs : s.Bounded) : Result.Bounded (execMcastSet d s) := by
  unfold Sys2Proof.Machine.execMcastSet
  refine hs.onDesc fun t ht => ?_
  exact .ite ht.finish (.ite ht.finish
      (.ite ht (ht.runNow fun _ hu => ((hu.foldl fun _ _ hv => hv.setLoom).foldl fun _ _ hv => hv.setLoom).update)))

theorem State.Bounded.execShutLimit (hs : s.Bounded) : Result.Bounded (execShutLimit d s) :=
  hs.onDesc fun _ ht => .ite ht.finish (.ite ht.finish (ht.runNow fun _ hu => hu.setQueue))

theorem State.Bounded.actPut (hs : s.Bounded) : (s.actPut d).Bounded := by
  unfold State.actPut
  extract_lets c n r
  have hr : r.1.Bounded := hs.placePut
  split
  exacts [hr.runNow fun _ ht => ht, hr.chargePut.handXfer, hr.setStash.setQueue]

theorem State.Bounded.execStashPut (hs : s.Bounded) : Result.Bounded (execStashPut d s) :=
  hs.onDesc fun _ ht => .ite ht.finish
      (.ite ht (.ite ht.finish (.ite ht (.ite ht.finish (.ite ht.finish (.ite ht.finish (.ite ht ht.actPut)))))))

theorem State.Bounded.execStashGet (hs : s.Bounded) : Result.Bounded (execStashGet d s) := by
  unfold Sys2Proof.Machine.execStashGet
  refine hs.onDesc fun t ht => ?_
  extract_lets c n e sizeOff
  refine .ite ht.finish (.ite ht (.ite ht.finish (.ite ht.finish (.ite ht.finish ?_))))
  clear_value e
  split
  · exact ht.runNow fun _ hu => hu.count
  · exact ht.getCount.handXfer

theorem State.Bounded.retryPuts (hs : s.Bounded) {ws : List StashWait} : (s.retryPuts l ws).Bounded := by
  unfold State.retryPuts
  refine hs.foldl fun t x ht => ?_
  extract_lets x1 n gone
  have hgone : ∀ (t : State), t.Bounded → (gone t).Bounded := fun _ hu => hu.setStash
  refine .ite (hgone _ ht).complete ?_
  split
  · exact ht
  · exact (hgone _ ht).chargePut.handXfer

theorem State.Bounded.peerReadEnds (hs : s.Bounded) {r : RemoteData} : (s.peerReadEnds q seq r).Bounded := by
  unfold State.peerReadEnds
  split
  · exact hs
  · split
    · exact hs.updXfer.drive
    · exact .ite hs.updXfer hs

theorem State.Bounded.execPeerTimeout (hs : s.Bounded) : Result.Bounded (execPeerTimeout q seq s) := by
  unfold Sys2Proof.Machine.execPeerTimeout
  split
  · exact .next hs
  · exact .ite (.next hs) (.ite (.next hs.count.updXfer.failXfer) (.next hs.count.peerReadEnds))

/-! ### Aborts -/

theorem State.Bounded.failPass (hs : s.Bounded) {bwd : Bool} {body : BitVec 352} {o : Outcm} :
    (s.failPass die l q bwd body o).Bounded := by
  unfold State.failPass
  extract_lets f m
  refine .ite hs ?_
  split
  · exact .ite hs.setLoom.failChain.setLoom.settleDie hs.setLoom.failChain
  · exact hs

theorem State.Bounded.cutPick (hs : s.Bounded) : (s.cutPick die l q seq st all).Bounded := by
  unfold State.cutPick
  extract_lets m mine
  split
  · exact hs
  · exact .ite hs (.ite hs.setLoom.releaseClaims.endUnrun.settleDie
        hs.setLoom.releaseClaims.failPass.complete.settleDie)

theorem State.Bounded.cutVec (hs : s.Bounded) {e : Nat} : (s.cutVec die e q seq st all).Bounded := by
  unfold State.cutVec
  extract_lets mine
  split
  · exact hs
  · exact .ite hs hs.setVec.releaseClaims.complete.settleDie

theorem State.Bounded.cutXfer (hs : s.Bounded) : (s.cutXfer x st).Bounded := by
  unfold State.cutXfer
  split
  · split
    · exact hs.endMcast
    · exact hs.retireXfer
  · extract_lets rows total k moved off s1
    have hk : k.2.Bounded := hs.draw
    have hs1 : s1.Bounded := hk.failXfer
    split
    · exact .ite hs1.dropXacts.endAtEpoch hs1.endXfer
    · exact hs1

theorem State.Bounded.cutShuttle (hs : s.Bounded) : (s.cutShuttle q seq st all).Bounded := by
  unfold State.cutShuttle
  split
  · exact hs
  · exact .ite (State.Bounded.ite hs.endPut (.ite hs.getCount hs)).retireXfer (.ite hs hs.cutXfer)

theorem State.Bounded.dropWaits (hs : s.Bounded) : (s.dropWaits q seq).Bounded :=
  (State.Bounded.ite hs.setStash hs).update

theorem State.Bounded.cutOne (hs : s.Bounded) {f : Fetched} : (s.cutOne q st all f).Bounded := by
  unfold State.cutOne
  extract_lets die o
  split
  · exact hs
  · exact (State.Bounded.ite hs.failPass hs).dropWaits.complete
  · split
    · exact hs.cutPick
    · exact hs.cutVec
    · exact hs.cutShuttle
    · split
      · exact hs.endProgram
      · exact hs
    · split
      · exact (State.Bounded.ite hs.spoilColl hs).endColl
      · exact hs.complete
    · exact .ite hs hs.dropWaits.complete
    · exact hs.dropWaits.complete

theorem State.Bounded.cutPending (hs : s.Bounded) {f : Fetched} : (s.cutPending q f).Bounded := by
  unfold State.cutPending
  split
  exacts [.ite hs hs.cutOne, hs, hs.cutOne]

theorem State.Bounded.cutQueue (hs : s.Bounded) : (s.cutQueue q st all).Bounded := hs.foldl fun _ _ ht => ht.cutOne

/-! ### Dies -/

theorem State.Bounded.watchForecasts (hs : s.Bounded) {f : State → State}
    (hf : ∀ t : State, t.Bounded → (f t).Bounded) :
    (s.watchForecasts f).Bounded := (hf _ hs).foldl fun _ _ ht => ht.event

theorem State.Bounded.roleRecord (hs : s.Bounded) {kind a b : Nat} : (s.roleRecord kind a b).Bounded := hs.record.update

theorem State.Bounded.setDieState (hs : s.Bounded) {d st : Nat} : (s.setDieState d st).Bounded :=
  hs.watchForecasts fun _ ht => ht.roleRecord.update.event

/-! ### Spindle -/

theorem State.Bounded.countEncode (hs : s.Bounded) {opf : Byte} {rows cols : Nat} :
    (s.countEncode j size opf rows cols).Bounded := hs.foldl fun _ _ ht => ht.count.count.count.count

theorem State.Bounded.countDecode (hs : s.Bounded) {fs : List Nat} : (s.countDecode j o fs).Bounded :=
  hs.foldl fun _ _ ht => ht.count.count

theorem State.Bounded.countGranules (hs : s.Bounded) {w : Bool} : (s.countGranules size w).Bounded :=
  hs.foldl fun _ _ ht => ht.count

/-! ### Tiers -/

theorem State.Bounded.setObj (hs : s.Bounded) : (s.setObj j o).Bounded := hs.update

theorem State.Bounded.gatherObj (hs : s.Bounded) : (s.gatherObj j size).Bounded := by
  unfold State.gatherObj
  extract_lets lo hi s1 ours s2
  have hs1 : s1.Bounded := hs.drain
  have hs2 : s2.Bounded := (hs1.foldl fun _ _ ht => ht.recallLine).dropCopies
  exact .ite hs2 (hs2.foldl fun _ _ ht => ht.storePoison).settleLines

theorem State.Bounded.beginPromote (hs : s.Bounded) : (s.beginPromote j o).Bounded := hs.gatherObj.setObj

theorem State.Bounded.beginDemote (hs : s.Bounded) {byDevice : Bool} : (s.beginDemote j o byDevice).Bounded :=
  hs.gatherObj.setObj

theorem State.Bounded.restoreFrames (hs : s.Bounded) : (s.restoreFrames j o).Bounded := hs.clearRange.update

theorem State.Bounded.freeObj (hs : s.Bounded) : (s.freeObj j size).Bounded := hs.clearRange.update

theorem State.Bounded.tierAct (hs : s.Bounded) : (s.tierAct q seq op j).Bounded := by
  unfold State.tierAct
  extract_lets x
  split
  · exact hs.complete
  · extract_lets wait
    split
    · split
      exacts [.ite hs.beginPromote hs.complete, .ite hs.setObj (.ite hs.setObj hs.complete), .ite hs.complete
        (.ite hs.setObj.complete hs.complete), hs.setObj]
    · split
      exacts [hs.complete, hs.setObj, .ite hs.complete (.ite hs.beginDemote hs.setObj.count.complete), .ite hs.setObj
        hs.complete]

theorem State.Bounded.settleWaiters (hs : s.Bounded) {ws : List (BitVec 16 × BitVec 16 × Byte)} {out : Outcm} :
    (s.settleWaiters j ws op out).Bounded := (hs.foldl fun _ _ ht => ht.complete).foldl fun _ _ ht => ht.tierAct

theorem State.Bounded.unpinned (hs : s.Bounded) : (s.unpinned j).Bounded := by
  unfold State.unpinned
  split
  · exact hs
  · exact .ite hs (.ite (hs.freeObj.foldl fun _ _ ht => ht.complete) (.ite hs.beginDemote hs))

theorem State.Bounded.omitAll (hs : s.Bounded) : (s.omitAll j o).Bounded :=
  .ite hs (hs.foldl fun _ _ ht => ht.omitFrame)

theorem State.Bounded.moveOver (hs : s.Bounded) : s.moveOver.Bounded := hs.beginAll.foldl fun _ _ ht => ht.pump

theorem State.Bounded.moveEnds (hs : s.Bounded) : (s.moveEnds j).Bounded := by
  unfold State.moveEnds
  split
  · exact hs
  · refine .ite hs ?_
    split
    · exact hs.gatherObj.countDecode.countGranules.setObj.count.freshRange.settleWaiters.unpinned.moveOver
    · extract_lets s1 n s2 fits
      have hs1 : s1.Bounded := hs.gatherObj.countGranules
      have hs2 : s2.Bounded := hs1.countEncode
      split
      · exact hs2.omitAll.setObj.noteFrames.freshRange.count.settleWaiters.unpinned.moveOver
      · exact .ite hs2.restoreFrames.setObj.count.settleWaiters.unpinned.moveOver
            hs2.setObj.count.settleWaiters.moveOver
    · exact hs

theorem State.Bounded.moveFails (hs : s.Bounded) : (s.moveFails j).Bounded := by
  unfold State.moveFails
  extract_lets stall
  split
  · exact hs
  · split
    exacts [((hs.setObj.count.foldl fun _ _ ht => ht.complete).foldl fun _ _ ht => ht.complete).unpinned.moveOver,
      hs.setObj.count.settleWaiters.moveOver, hs]

theorem State.Bounded.execTierFree (hs : s.Bounded) : Result.Bounded (execTierFree d s) := by
  unfold Sys2Proof.Machine.execTierFree
  refine hs.onDesc fun t ht => ?_
  extract_lets j
  split
  · exact ht.finish
  · exact .ite ht.finish (ht.runNow fun _ hu => hu.freeObj)

theorem State.Bounded.execTierRegister (hs : s.Bounded) : Result.Bounded (execTierRegister d s) := by
  unfold Sys2Proof.Machine.execTierRegister
  refine hs.onDesc fun t ht => ?_
  extract_lets j kind opf rows cols x size
  clear_value size
  split
  · exact ht.finish
  · exact .ite ht.finish
        (.ite ht.finish (.ite ht (.ite ht.finish (ht.runNow fun _ hu => hu.setObj.clearRange.freshRange))))

theorem State.Bounded.packFrom (hs : s.Bounded) {src : Nat} : (s.packFrom j src n).Bounded :=
  hs.clearRange.storeBytes.noteFrames.freshRange.foldl fun _ _ ht => ht.storePoison

theorem State.Bounded.execTierPack (hs : s.Bounded) : Result.Bounded (execTierPack d s) := by
  unfold Sys2Proof.Machine.execTierPack
  refine hs.onDesc fun t ht => ?_
  extract_lets j x
  split
  · exact .ite ht.finish
        (.ite ht (.ite ht.finish
        (ht.runNow fun _ hu => .ite_fst hu.noteRead.packFrom.countEncode.setObj hu.noteRead.count)))
  · exact ht.finish

theorem State.Bounded.execDemotionRetry (hs : s.Bounded) {obj : Nat} : Result.Bounded (execDemotionRetry obj s) := by
  unfold Sys2Proof.Machine.execDemotionRetry
  split
  · exact .ite (.next hs.beginDemote) (.next hs)
  · exact .next hs

theorem State.Bounded.stallDelivery (hs : s.Bounded) {i : Nat} : MaybeState.Bounded (s.stallDelivery m i) :=
  .ite .none (.some hs.setSend)

theorem State.Bounded.stallDesc (hs : s.Bounded) {element : Nat} : MaybeState.Bounded (s.stallDesc q seq element) := by
  unfold State.stallDesc
  extract_lets stall
  split
  · exact .ite (.some hs.updResume) (.ite (.some hs.update.complete) .none)
  · split
    · exact .ite (.some hs.endColl) .none
    · split
      · exact .none
      · exact .ite .none (.ite (.some hs.dispatchUpd) (.ite (.some hs.handOver.finish) .none))

theorem State.Bounded.stallMove (hs : s.Bounded) : MaybeState.Bounded (s.stallMove j) := by
  unfold State.stallMove
  split
  · exact .ite (.some hs.moveFails) .none
  · exact .none

theorem State.Bounded.stallXfer (hs : s.Bounded) {off : Nat} : MaybeState.Bounded (s.stallXfer q seq off) := by
  unfold State.stallXfer
  split
  · exact .none
  · refine .ite .none ?_
    split
    · exact hs.stallDelivery
    · exact .some hs.failXfer

theorem State.Bounded.execT2StallTimeoutExpiry (hs : s.Bounded) {issuer : T2Issuer} :
    Result.Bounded (execT2StallTimeoutExpiry issuer s) := by
  unfold Sys2Proof.Machine.execT2StallTimeoutExpiry
  refine .ite (.next hs) ?_
  extract_lets stalled
  have hstalled : MaybeState.Bounded stalled := by
    unfold stalled
    cases issuer
    · exact hs.stallXfer
    · exact hs.stallDesc
    · exact hs.stallMove
    · exact hs.stallRead
  refine .next ?_
  clear_value stalled
  cases stalled with
  | none => exact hs
  | some t => exact (hstalled t rfl).count

theorem State.Bounded.grantLease (hs : s.Bounded) : s.grantLease.Bounded := by
  unfold State.grantLease
  split
  · exact hs.count.update
  · exact (hs.clearRange.clearRange.freshRange.freshRange.foldl fun _ _ ht => ht.clearRange).count.update

theorem State.Bounded.dropRegions (hs : s.Bounded) : (s.dropRegions n).Bounded := hs.update

theorem State.Bounded.freeLease (hs : s.Bounded) : (s.freeLease n).Bounded :=
  (hs.dropRegions.foldl fun _ _ ht => ht.freeObj).update.clearRange.clearRange.update

theorem State.Bounded.releaseLease (hs : s.Bounded) : (s.releaseLease n).Bounded :=
  (State.Bounded.ite hs.freeLease hs).update

theorem State.Bounded.execLeaseGrant (hs : s.Bounded) {_value : Byte} : Result.Bounded (execLeaseGrant _value s) :=
  hs.onCmd fun _ ht => ht.grantLease

theorem State.Bounded.execLeaseRelease (hs : s.Bounded) {lease : BitVec 16} :
    Result.Bounded (execLeaseRelease lease s) :=
  hs.onCmd fun _ ht => ht.releaseLease

theorem State.Bounded.revokeLease (hs : s.Bounded) : (s.revokeLease n).Bounded := by
  unfold State.revokeLease
  extract_lets l s1 s2 qs s3 pinned owned s4 s5
  have hs1 : s1.Bounded := hs.update
  have hs2 : s2.Bounded := hs1.dropRegions.count.event
  have hs3 : s3.Bounded := hs2.foldl fun _ _ ht => (ht.foldl fun _ _ hu => hu.cutPending).setQueue
  have hs4 : s4.Bounded := hs3.update
  have hs5 : s5.Bounded := hs4.foldl fun _ _ ht => ht.unpinned
  exact .ite hs5 hs5.freeLease

theorem State.Bounded.fitStash (hs : s.Bounded) {tier2 : Bool} {quota : Nat} :
    (s.fitStash n tier2 quota fuel).Bounded := by
  induction fuel generalizing s with
  | zero => exact hs
  | succ k ih =>
    unfold State.fitStash
    extract_lets x
    refine .ite hs ?_
    split
    · exact hs
    · exact ih hs.setStash

theorem State.Bounded.setStashQuota (hs : s.Bounded) {v : Nat} : (s.setStashQuota n two v).Bounded := hs.update

theorem State.Bounded.cutStashQuota (hs : s.Bounded) : (s.cutStashQuota two n).Bounded :=
  .ite hs hs.setStashQuota.count.event.fitStash

theorem State.Bounded.cutLease (hs : s.Bounded) : (s.cutLease two n).Bounded := .ite hs hs.revokeLease

theorem State.Bounded.restoreTier (hs : s.Bounded) : (s.restoreTier two).Bounded :=
  (hs.foldl fun _ _ ht => ht.cutStashQuota).foldl fun _ _ ht => ht.cutLease

theorem State.Bounded.restoreLedger (hs : s.Bounded) : s.restoreLedger.Bounded :=
  .ite hs (hs.restoreTier.restoreTier.foldl fun _ _ ht => ht.moveFails).update

theorem State.Bounded.dropStashOn (hs : s.Bounded) : s.dropStashOn.Bounded :=
  hs.foldl fun _ _ ht => ht.foldl fun _ _ hu => .ite hu.draw.setStash hu.draw

theorem State.Bounded.retireHub (hs : s.Bounded) {k : Nat} : (s.retireHub k).Bounded :=
  hs.setDieState.update.update.dropStashOn.update

end Sys2Proof.Machine
end

section
/-!
PROOF. O5, agents of the fabric, the host interface, the journal and the peers (R250 to R301, R303 to R335, R376 to
R422).
-/

namespace Sys2Proof.Machine

open Sys2Proof

variable {s : State} {a agent k line n p : Nat} {_value : Byte} {q : BitVec 16} {b : AdminBlock} {h : XHdr}

/-! ### Coherence -/

theorem State.Bounded.coreAsks (hs : s.Bounded) {r : Req} : (s.coreAsks r).Bounded := .ite hs.trapReq hs.ask

theorem State.Bounded.execUpg (hs : s.Bounded) {x : ByteAt} : Result.Bounded (execUpg agent x s) := by
  unfold Sys2Proof.Machine.execUpg
  split
  · exact .ite (.next hs.coreAsks) (.next hs)
  · exact .next hs

theorem State.Bounded.evict (hs : s.Bounded) {l : CacheLine} {k : ReqKind} : (s.evict l k).Bounded := hs.setCoh.arrive

theorem State.Bounded.execWb (hs : s.Bounded) {x : StoredLine} : Result.Bounded (execWb agent x s) := by
  unfold Sys2Proof.Machine.execWb
  refine .ite (.next hs) ?_
  extract_lets t
  have ht : t.Bounded := hs.storedIn
  split
  · exact .ite (.next ht.evict) (.ite (.next ht.evict) (.next hs))
  · exact .next hs

theorem State.Bounded.execCln (hs : s.Bounded) : Result.Bounded (execCln agent line s) := by
  unfold Sys2Proof.Machine.execCln
  split
  · exact .ite (.next hs.evict) (.next hs)
  · exact .next hs

theorem State.Bounded.snooped (hs : s.Bounded) {k : SnoopKind} {f : StoredLine} : (s.snooped k agent f).Bounded := by
  unfold State.snooped
  split
  · exact hs
  · exact hs.storedIn.snoopArrives

theorem State.Bounded.execLrSnoopDelayExpiry (hs : s.Bounded) :
    Result.Bounded (execLrSnoopDelayExpiry agent line s) := by
  unfold Sys2Proof.Machine.execLrSnoopDelayExpiry
  split
  · exact .next hs
  · exact .next hs.endDelay

theorem State.Bounded.deliverIf (hs : s.Bounded) {m : CohMsg} : (s.deliverIf m).Bounded := .ite hs.deliverMsg hs

theorem State.Bounded.execGrant (hs : s.Bounded) : Result.Bounded (execGrant agent line s) := by
  unfold Sys2Proof.Machine.execGrant
  split
  · exact .next hs
  · exact .next hs.grantArrives

theorem State.Bounded.execData (hs : s.Bounded) : Result.Bounded (execData agent line s) := by
  unfold Sys2Proof.Machine.execData
  split
  · exact .next hs
  · exact .next hs.dataArrives

theorem State.Bounded.execCxlCacheResponse (hs : s.Bounded) {hostData : Option (List Byte)} :
    Result.Bounded (execCxlCacheResponse line hostData s) := by
  unfold Sys2Proof.Machine.execCxlCacheResponse
  split
  · exact .next hs
  · refine .ite (.next hs) ?_
    split
    · exact .next hs.putLine.setCoh.advance
    · exact .next hs.setCoh.advance

theorem State.Bounded.hostSnoops (hs : s.Bounded) {k : ReqKind} : (s.hostSnoops k line).Bounded :=
  .ite hs.drain.count.count.emit (.ite hs.drain.count hs.drain.count.openTxn.advance)

theorem State.Bounded.execBirsp (hs : s.Bounded) {hostData : Option (List Byte)} {keeps : Bool} :
    Result.Bounded (execBirsp line hostData keeps s) := by
  unfold Sys2Proof.Machine.execBirsp
  split
  · exact .next hs
  · exact .next hs.hostReturns

theorem State.Bounded.saveFromSharer (hs : s.Bounded) {sh : List Nat} : (s.saveFromSharer line sh).Bounded := by
  unfold State.saveFromSharer
  extract_lets held s1
  have hs1 : s1.Bounded := by
    unfold s1
    split
    · exact hs.putLine
    · exact hs
  exact hs1.setCoh

theorem State.Bounded.settleEntry (hs : s.Bounded) {why : Nat} : (s.settleEntry line a why).Bounded :=
  .ite (.ite hs.saveFromSharer (.ite (State.Bounded.ite hs.count hs).setCoh hs.poisonLine)) (.ite hs.setCoh hs)

theorem State.Bounded.sinkAnswers (hs : s.Bounded) : (s.sinkAnswers a).Bounded := hs.foldl fun _ _ ht => ht.deliverIf

theorem State.Bounded.dropTxnsOf (hs : s.Bounded) : (s.dropTxnsOf a).Bounded :=
  hs.foldl fun _ _ ht => .ite ht.setCoh.beginAll ht.setCoh.advance

theorem State.Bounded.dropWaitsOf (hs : s.Bounded) : (s.dropWaitsOf a).Bounded :=
  hs.update.foldl fun _ _ ht => ht.finishWb

theorem State.Bounded.unwaitAgent (hs : s.Bounded) : (s.unwaitAgent a).Bounded := hs.foldl fun _ _ ht => ht.answered

theorem State.Bounded.reclaim (hs : s.Bounded) : (s.reclaim a).Bounded :=
  (hs.sinkAnswers.dropWaitsOf.foldl fun _ _ ht => .ite ht.cohCount.settleEntry.cohCount
      ht.cohCount.settleEntry).dropTxnsOf.setCoh.unwaitAgent.beginAll

theorem State.Bounded.privTimeout (hs : s.Bounded) : (s.privTimeout line).Bounded := by
  unfold State.privTimeout
  split
  · exact hs
  · split
    · exact hs
    · exact hs.cohCount.settleEntry.setCoh.answered

theorem State.Bounded.purgeLines (hs : s.Bounded) {p : Nat → Bool} : (s.purgeLines p).Bounded :=
  (hs.setCoh.foldl fun _ _ ht => ht.cohCount.answerPoison).foldl fun _ _ ht => ht.cohCount.setCoh

theorem State.Bounded.purgeHub (hs : s.Bounded) {before : List Nat} : (s.purgeHub before k).Bounded :=
  hs.purgeLines.beginAll

theorem State.Bounded.settleHost (hs : s.Bounded) : s.settleHost.Bounded :=
  (hs.foldl fun _ _ ht => .ite ht.settleEntry.count
      ht.settleEntry).count.purgeLines.dropWaitsOf.dropTxnsOf.setCoh.unwaitAgent.beginAll

theorem State.Bounded.probeDir (hs : s.Bounded) {v : Nat} : (s.probeDir v).Bounded := hs.update

theorem State.Bounded.execDirProbeAddr (hs : s.Bounded) {value : BitVec 64} :
    Result.Bounded (execDirProbeAddr value s) :=
  hs.onCmd fun _ ht => ht.probeDir

/-! ### Host -/

theorem State.Bounded.readPieces (hs : s.Bounded) {ps : List (Nat × Nat × Option Nat)} :
    (s.readPieces ps).1.Bounded := by
  unfold State.readPieces
  refine .foldl_fst hs fun r p hr => ?_
  split
  · exact hr
  · exact hr.noteRead

theorem State.Bounded.inboundWrite (hs : s.Bounded) {d : List (Option Byte)} {poison : Bool} :
    (s.inboundWrite a d poison).Bounded := by
  unfold State.inboundWrite
  refine .ite hs (.ite hs.poisonRange (.ite hs.writeMem ?_))
  refine hs.foldl fun t x ht => ?_
  split
  · exact ht.writeMem
  · exact ht

theorem State.Bounded.barStore (hs : s.Bounded) {ps : List (Nat × Nat × Option Nat)} {data : List Byte}
    {poison : Bool} :
    (s.barStore ps data poison).Bounded := by
  unfold State.barStore
  refine hs.foldl fun t x ht => ?_
  split
  · exact ht.inboundWrite
  · exact ht

theorem State.Bounded.execMemwr (hs : s.Bounded) {offset : Nat} {mask : BitVec 64} {data : List Byte} {poison : Bool} :
    Result.Bounded (execMemwr offset mask data poison s) := by
  unfold Sys2Proof.Machine.execMemwr
  refine .ite (.next hs) ?_
  extract_lets ps
  refine .ite (.next hs) ?_
  refine .next ?_
  refine .emit ?_
  refine hs.foldl fun t x ht => ?_
  split
  · exact ht.inboundWrite
  · exact ht.count

theorem State.Bounded.execConfigurationRequest (hs : s.Bounded) {r : CfgRequest} :
    Result.Bounded (execConfigurationRequest r s) := by
  unfold Sys2Proof.Machine.execConfigurationRequest
  refine .ite (.next (.ite hs hs.emit)) ?_
  split
  · exact .next hs.emit
  · exact .next (State.Bounded.ite hs.setHost hs).emit

theorem State.Bounded.cutHostEnds (hs : s.Bounded) : (s.cutHostEnds q).Bounded := hs.foldl fun _ _ ht => ht.cutOne

theorem State.Bounded.orphan (hs : s.Bounded) : (s.orphan q).Bounded := .ite hs hs.setQueue.count

theorem State.Bounded.hostLeaves (hs : s.Bounded) {st : AttachState} : (s.hostLeaves st).Bounded :=
  (hs.update.count.event.settleHost.foldl fun _ _ ht => ht.orphan).foldl fun _ _ ht => ht.cutHostEnds

theorem State.Bounded.perstCounts (hs : s.Bounded) {lowNs : Nat} : (perstCounts s lowNs).2.Bounded := by
  unfold Sys2Proof.Machine.perstCounts
  exact .ite_snd hs (.ite_snd hs hs.draw)

theorem State.Bounded.epochChange (hs : s.Bounded) {c : EpochCause} : (s.epochChange c).Bounded := by
  unfold State.epochChange
  refine .ite hs ?_
  extract_lets down
  have hdown : ∀ (t : State), t.Bounded → (down t).Bounded := fun _ ht => ht.setHost
  split
  exacts [.ite (hdown _ hs.perstCounts.count.hostLeaves).setHost hs.perstCounts, .ite (hdown _ hs.hostLeaves) hs,
    .ite (hdown _ hs.hostLeaves) hs, .ite hs.hostLeaves hs]

theorem State.Bounded.setAdmin (hs : s.Bounded) {a : Admin} : (s.setAdmin b a).Bounded := hs.setHost

theorem State.Bounded.adminEnd (hs : s.Bounded) {result value : Nat} : (s.adminEnd b result value).Bounded :=
  hs.setAdmin

theorem State.Bounded.onAdmin (hs : s.Bounded) {f : State → Admin → Except Nat (State × Nat)}
    (hf : ∀ (t : State) a, t.Bounded → AdminAnswer.Bounded (f t a)) :
    Result.Bounded (s.onAdmin b f) := by
  unfold State.onAdmin
  refine .ite (.next hs) ?_
  split
  next => exact .next hs.adminEnd
  next x e => exact .next (hf _ _ hs x e).adminEnd

theorem State.Bounded.createQueue (hs : s.Bounded) {a : Admin} : AdminAnswer.Bounded (s.createQueue b a) := by
  unfold State.createQueue
  extract_lets l depth fieldsOk
  refine .ite .error (.ite .error (.ite .error (.ite .error ?_)))
  split
  · exact .error
  · refine .ite .error ?_
    split
    · exact .error
    · exact .ok hs.setQueue

theorem State.Bounded.execCreate (hs : s.Bounded) : Result.Bounded (execCreate b s) :=
  hs.onAdmin fun _ _ ht => ht.createQueue

theorem State.Bounded.destroyQueue (hs : s.Bounded) {a : Admin} : AdminAnswer.Bounded (s.destroyQueue b a) := by
  unfold State.destroyQueue
  extract_lets q c s1 s2 s3
  have hs1 : s1.Bounded := hs.foldl fun _ _ ht => ht.dropChain
  clear_value s1
  have hs2 : s2.Bounded := hs1.update
  have hs3 : s3.Bounded := .ite hs2.freeLease hs2
  refine .ite .error (.ite (.ok hs) (.ite .error ?_))
  exact .ok hs3

theorem State.Bounded.execDestroy (hs : s.Bounded) : Result.Bounded (execDestroy b s) :=
  hs.onAdmin fun _ _ ht => ht.destroyQueue

theorem State.Bounded.replay (hs : s.Bounded) {held : List CRec} {uncertain : Nat} :
    (s.replay q held uncertain).Bounded :=
  hs.foldl fun _ _ ht => ht.putRecord

theorem State.Bounded.reattachQueue (hs : s.Bounded) {a : Admin} : AdminAnswer.Bounded (s.reattachQueue b a) := by
  unfold State.reattachQueue
  extract_lets q c sq cq
  refine .ite .error (.ite .error (.ite .error ?_))
  split
  · exact .error
  · exact .ok (State.Bounded.ite hs.setQueue.replay.issueFlush hs.setQueue.replay).pump

theorem State.Bounded.execReattach (hs : s.Bounded) : Result.Bounded (execReattach b s) :=
  hs.onAdmin fun _ _ ht => ht.reattachQueue

theorem State.Bounded.attachHost (hs : s.Bounded) {a : Admin} : AdminAnswer.Bounded (s.attachHost a) :=
  .ite .error (.ite .error (.ok hs.setHost))

theorem State.Bounded.execAttach (hs : s.Bounded) : Result.Bounded (execAttach b s) :=
  hs.onAdmin fun _ _ ht => ht.attachHost

theorem State.Bounded.registerRegion (hs : s.Bounded) {a : Admin} : AdminAnswer.Bounded (s.registerRegion b a) := by
  unfold State.registerRegion
  extract_lets l r t n bad
  refine .ite .error (.ite .error (.ite .error (.ite .error (.ite .error ?_))))
  split
  · exact .error
  · exact .ok hs.setHost

theorem State.Bounded.execRegionRegister (hs : s.Bounded) : Result.Bounded (execRegionRegister b s) :=
  hs.onAdmin fun _ _ ht => ht.registerRegion

theorem State.Bounded.releaseRegion (hs : s.Bounded) {a : Admin} : AdminAnswer.Bounded (s.releaseRegion b a) :=
  .ite .error (.ite .error (.ite .error (.ok hs.setHost)))

theorem State.Bounded.execRegionRelease (hs : s.Bounded) : Result.Bounded (execRegionRelease b s) :=
  hs.onAdmin fun _ _ ht => ht.releaseRegion

theorem State.Bounded.execBadCommand (hs : s.Bounded) {code : Byte} : Result.Bounded (execBadCommand b code s) :=
  .ite (.next hs) (hs.onAdmin fun _ _ _ => .error)

theorem State.Bounded.adminWrite (hs : s.Bounded) {code : Byte} : Result.Bounded (s.adminWrite b code) := by
  unfold State.adminWrite
  split
  exacts [hs.execCreate, hs.execDestroy, hs.execReattach, hs.execAttach, hs.execRegionRegister, hs.execRegionRelease,
    hs.execBadCommand]

theorem State.Bounded.abortQueue (hs : s.Bounded) : (s.abortQueue q).Bounded :=
  .ite hs (.ite hs.cutQueue hs.cutQueue.setQueue.pump)

theorem State.Bounded.execQueueAbort (hs : s.Bounded) : Result.Bounded (execQueueAbort q s) :=
  hs.onCmd fun _ ht => ht.abortQueue

/-! ### Trust -/

theorem State.Bounded.blowTo (hs : s.Bounded) {i v : Nat} : (s.blowTo i v).Bounded := hs.update.count

theorem State.Bounded.topUp (hs : s.Bounded) : s.topUp.Bounded := hs.foldl fun _ _ ht => ht.blowTo

theorem State.Bounded.rom (hs : s.Bounded) {recorded : Nat} : (s.rom recorded).1.Bounded := by
  unfold State.rom
  extract_lets s1 copies pick reject
  have hs1 : s1.Bounded := hs.topUp
  have hreject : ∀ (t : State) n, t.Bounded → (reject t n).Bounded := fun _ _ ht => ht.count
  clear_value s1 pick reject
  split
  · exact hreject _ _ hs1
  · refine .ite_fst hs1 ?_
    extract_lets s2
    have hs2 : s2.Bounded := .ite hs1 (hreject _ _ hs1)
    exact hs2.update

theorem State.Bounded.keepValue (hs : s.Bounded) {index sub : Nat} {v : List Byte} :
    (s.keepValue index sub v).Bounded :=
  hs.record

theorem State.Bounded.setKey (hs : s.Bounded) {owner : Bool} {key : List Byte} : (s.setKey owner key).Bounded :=
  (State.Bounded.ite hs.keepValue.keepValue hs.keepValue.keepValue.keepValue).update.count

theorem State.Bounded.endSessions (hs : s.Bounded) {p : Session → Bool} : (s.endSessions p).Bounded := hs.update

theorem State.Bounded.endKeySessions (hs : s.Bounded) {owner : Bool} : (s.endKeySessions owner).Bounded :=
  hs.endSessions.count

theorem State.Bounded.writeKey (hs : s.Bounded) {owner : Bool} {key : List Byte} :
    (s.writeKey owner key).1.Bounded := by
  unfold State.writeKey
  split
  · exact hs.setKey.endKeySessions
  · exact hs

theorem State.Bounded.ownerRelease (hs : s.Bounded) {value : Byte} : (s.ownerRelease value).1.Bounded := by
  unfold State.ownerRelease
  exact .ite_fst hs hs.blowTo.keepValue.keepValue.keepValue.update.endSessions

theorem State.Bounded.execOwnerRelease (hs : s.Bounded) {value : Byte} : Result.Bounded (execOwnerRelease value s) :=
  hs.onCmd fun _ ht => ht.ownerRelease

/-! ### Firmware -/

theorem State.Bounded.fwImage (hs : s.Bounded) {offset : Nat} {last : Bool} {b : List Byte} :
    (s.fwImage offset last b).1.Bounded := by
  unfold State.fwImage
  split
  · exact hs
  · exact hs.update

theorem State.Bounded.fwRecord (hs : s.Bounded) {what v : Nat} : (s.fwRecord what a v).Bounded := hs.record

theorem State.Bounded.setCheck (hs : s.Bounded) {c : Nat} : (s.setCheck c).Bounded := hs.update

theorem State.Bounded.fwInstall (hs : s.Bounded) : s.fwInstall.1.Bounded := by
  unfold State.fwInstall
  exact .ite_fst hs.setCheck.count (.ite_fst hs.setCheck hs.update.setCheck.fwRecord)

theorem State.Bounded.execFwInstall (hs : s.Bounded) : Result.Bounded (execFwInstall _value s) :=
  hs.onCmd fun _ ht => ht.fwInstall

theorem State.Bounded.switchover (hs : s.Bounded) : s.switchover.Bounded := by
  unfold State.switchover
  split
  · exact hs.setDieState.setDieState
  · exact hs

theorem State.Bounded.loadDie (hs : s.Bounded) {d : Nat} : (s.loadDie k d).Bounded := hs.update.fwRecord

theorem State.Bounded.moveDies (hs : s.Bounded) {l : List Nat} : (s.moveDies k l).Bounded :=
  hs.foldl fun _ _ ht => ht.loadDie.count

theorem State.Bounded.remeasure (hs : s.Bounded) : (s.remeasure k).Bounded := hs.rom

theorem State.Bounded.burnSvn (hs : s.Bounded) {svn : Nat} : (s.burnSvn svn).Bounded :=
  .ite hs hs.update.fwRecord.blowTo.event

theorem State.Bounded.rollBack (hs : s.Bounded) {f : Nat} {moved : List Nat} : (s.rollBack k f moved).Bounded := by
  unfold State.rollBack
  extract_lets m s1 s2 s3
  have hs1 : s1.Bounded := hs.foldl fun _ _ ht => ht.loadDie
  have hs2 : s2.Bounded := .ite hs1 hs1.remeasure
  have hs3 : s3.Bounded := .ite hs2 hs2.switchover
  exact hs3.event

theorem State.Bounded.fwActivate (hs : s.Bounded) {failing : Option Nat} : (s.fwActivate failing).1.Bounded := by
  unfold State.fwActivate
  extract_lets -underBinder +onlyGivenNames old k
  split
  · exact hs.setCheck
  · refine .ite_fst hs.setCheck (.ite_fst hs ?_)
    extract_lets -underBinder +onlyGivenNames mg order moved s1 s2 s3
    have hs1 : s1.Bounded := hs.moveDies
    have hs2 : s2.Bounded := .ite hs1.switchover hs1
    have hs3 : s3.Bounded := .ite hs2.remeasure hs2
    exact .ite_fst hs3.rollBack hs3.update.burnSvn

theorem State.Bounded.execFwActivate (hs : s.Bounded) {failing : Option Nat} :
    Result.Bounded (execFwActivate _value failing s) := hs.onCmd fun _ ht => ht.fwActivate

/-! ### Journal -/

theorem State.Bounded.failNand (hs : s.Bounded) : (s.failNand k).Bounded := .ite hs hs.update.setDieState

theorem State.Bounded.checkNands (hs : s.Bounded) : s.checkNands.Bounded := hs.foldl fun _ _ ht => .ite ht.failNand ht

theorem State.Bounded.lifetimeRecord (hs : s.Bounded) : s.lifetimeRecord.Bounded := hs.record

theorem State.Bounded.execWearLevelRelocation (hs : s.Bounded) {die : Nat} :
    Result.Bounded (execWearLevelRelocation die s) := by
  unfold Sys2Proof.Machine.execWearLevelRelocation
  refine .ite (.next hs) ?_
  extract_lets n
  split
  · exact .next hs
  · exact .next hs.record.update.count

/-! ### Peers -/

theorem State.Bounded.failXact (hs : s.Bounded) {x : Xact} {st : Byte} : (s.failXact x st).Bounded := by
  unfold State.failXact
  refine .ite hs ?_
  extract_lets _ s1
  have hs1 : s1.Bounded := hs.update
  split
  · exact hs1.failXfer
  · exact hs1.complete

theorem State.Bounded.failPeer (hs : s.Bounded) {st : Byte} : (s.failPeer p st).Bounded :=
  (hs.update.foldl fun _ _ ht => ht.failXact).pumpColls

theorem State.Bounded.markLost (hs : s.Bounded) : (s.markLost p).Bounded := hs.setPeer.count.failPeer

theorem State.Bounded.declareLost (hs : s.Bounded) : (s.declareLost p).Bounded :=
  .ite (hs.setPeer.foldl fun _ _ ht => ht.sendNow).markLost hs

theorem State.Bounded.noteStranger (hs : s.Bounded) {t : Nat} : (s.noteStranger h t).Bounded := .ite hs.count hs

theorem State.Bounded.respond (hs : s.Bounded) {t : Nat} {pod : Bool} {r : OutRec} : (s.respond h t pod r).Bounded :=
  hs.sendNow

theorem State.Bounded.onRecord (hs : s.Bounded) {t : Nat} {pod : Bool} {f : State → State}
    (hf : ∀ (t : State), t.Bounded → (f t).Bounded) :
    Result.Bounded (s.onRecord h t pod f) := by
  unfold State.onRecord
  refine .ite (.next hs) ?_
  split
  exacts [.next hs.noteStranger, .next hs.count.respond, .next (hf _ hs)]

theorem State.Bounded.execPut (hs : s.Bounded) {r : PutRec} : Result.Bounded (execPut h r s) := by
  unfold Sys2Proof.Machine.execPut
  refine hs.onRecord fun t ht => ?_
  split
  · exact ht.respond
  · split
    exacts [ht, ht.respond, ht.writeMem.poisonResult.respond]

theorem State.Bounded.cacheAtomic (hs : s.Bounded) {src : Nat} {tag : BitVec 12} {r : OutRec} :
    (s.cacheAtomic src tag r).Bounded := hs.update

theorem State.Bounded.execAtom (hs : s.Bounded) {r : AtomRec} : Result.Bounded (execAtom h r s) := by
  unfold Sys2Proof.Machine.execAtom
  refine hs.onRecord fun t ht => ?_
  extract_lets refuse
  have hrefuse : ∀ (t : State) st, t.Bounded → (refuse t st).Bounded := fun _ _ hu => hu.respond
  split
  · exact ht.count.respond
  · refine .ite (hrefuse _ _ ht) (.ite (hrefuse _ _ ht) ?_)
    split
    exacts [ht, hrefuse _ _ ht, .ite (hrefuse _ _ ht.noteRead)
      (State.Bounded.ite_snd ht.atomicAt ht.atomicAt).cacheAtomic.respond]

theorem State.Bounded.refuseColl (hs : s.Bounded) {x : Xact} {st : Byte} {detail : BitVec 32} :
    (s.refuseColl x st detail).Bounded := by
  unfold State.refuseColl
  split
  · exact hs.endColl
  · exact hs

theorem State.Bounded.takeRsp (hs : s.Bounded) {x : Xact} {r : RspRec} : (s.takeRsp x r).Bounded := by
  unfold State.takeRsp
  refine .ite (.ite hs hs.refuseColl) ?_
  extract_lets _ s1
  have hs1 : s1.Bounded := hs.update
  split
  · exact hs1.complete
  · exact (State.Bounded.ite hs1.failXfer (.ite hs1.updXfer (.ite hs1.updXfer hs1))).drive

theorem State.Bounded.execRsp (hs : s.Bounded) {r : RspRec} : Result.Bounded (execRsp h r s) := by
  unfold Sys2Proof.Machine.execRsp
  extract_lets t
  refine .ite (.next hs) (.ite (.next hs.noteStranger) ?_)
  split
  · exact .next hs
  · exact .next hs.takeRsp

theorem State.Bounded.pumpGroup (hs : s.Bounded) {g : Nat} : (s.pumpGroup g).Bounded :=
  hs.foldl fun _ _ ht => .ite ht.pumpColl ht

theorem State.Bounded.takeHello (hs : s.Bounded) {r : HelloRec} : (s.takeHello p r).Bounded :=
  .ite (State.Bounded.ite hs.update hs.sendNow).setPeer.event.failPeer
      (State.Bounded.ite hs.update hs.sendNow).releaseRecs

theorem State.Bounded.exclude (hs : s.Bounded) : s.exclude.Bounded :=
  hs.setPeer.pumpColls.foldl fun _ _ ht => ht.failPeer

theorem State.Bounded.execPeerDown (hs : s.Bounded) {lost : Nat} {view : BitVec 32} :
    Result.Bounded (execPeerDown h lost view s) :=
  .ite (.next hs) (.ite (.next hs.count)
      (.ite (.next hs) (.ite (.next hs.exclude) (.ite (.next hs.markLost) (.next hs)))))

theorem State.Bounded.execPruAtomic (hs : s.Bounded) {d : Desc} : Result.Bounded (execPruAtomic d s) :=
  hs.onDesc fun _ ht => .ite ht.finish (.ite ht.finish (.ite ht.finish (.ite ht ht.handXfer)))

theorem State.Bounded.execPruSignal (hs : s.Bounded) {d : Desc} : Result.Bounded (execPruSignal d s) := by
  unfold Sys2Proof.Machine.execPruSignal
  refine hs.onDesc fun t ht => ?_
  extract_lets scope peer die mode token inc p t1
  refine .ite ht.finish (.ite ht (.ite (ht.runNow fun _ hu => hu.signalToken) ?_))
  split
  · exact ht.finish
  · exact .ite ht ht.handOver.sendXact

theorem State.Bounded.execPruRegion (hs : s.Bounded) {d : Desc} : Result.Bounded (execPruRegion d s) := by
  unfold Sys2Proof.Machine.execPruRegion
  refine hs.onDesc fun t ht => ?_
  exact .ite ht.finish (.ite (.ite ht.finish (ht.runNow fun _ hu => hu.update))
      (.ite ht.finish (.ite ht.finish (.ite ht.finish (ht.runNow fun _ hu => hu.update)))))

/-! ### Lanes -/

theorem State.Bounded.moveRecs (hs : s.Bounded) : (s.moveRecs n).Bounded := by
  unfold State.moveRecs
  extract_lets x s1
  have hs1 : s1.Bounded := hs.setLane
  refine hs1.foldl fun t x ht => ?_
  extract_lets pa
  split
  · exact ht
  · exact ht.pushRec

theorem State.Bounded.loseUnreachable (hs : s.Bounded) : s.loseUnreachable.Bounded :=
  hs.foldl fun _ _ ht => .ite ht.declareLost ht

theorem State.Bounded.setLaneRole (hs : s.Bounded) {x : Lane} : (s.setLaneRole n x).Bounded :=
  hs.watchForecasts fun _ ht => ht.roleRecord.setLane.event

theorem State.Bounded.useSpare (hs : s.Bounded) : s.useSpare.Bounded := hs.update

theorem State.Bounded.failLane (hs : s.Bounded) : (s.failLane n).Bounded := by
  unfold State.failLane
  extract_lets -underBinder +onlyGivenNames x served
  refine .ite hs ?_
  extract_lets -underBinder +onlyGivenNames carried s1 s2 s3
  have hs1 : s1.Bounded := hs.setLaneRole.count
  have hs2 : s2.Bounded := .ite hs1.useSpare hs1
  have hs3 : s3.Bounded := by
    refine .ite hs2 ?_
    split
    · exact hs2
    · exact (State.Bounded.ite hs2.useSpare hs2).setLaneRole.count
  exact hs3.moveRecs.loseUnreachable

theorem State.Bounded.forceRetrain (hs : s.Bounded) : (s.forceRetrain n).Bounded :=
  .ite hs.setLane.count.failLane hs.setLane.count

theorem State.Bounded.laneUp (hs : s.Bounded) : (s.laneUp n).Bounded := by
  unfold State.laneUp
  extract_lets x eth s1 s2 s3
  have hs1 : s1.Bounded := hs.setLane
  have hs2 : s2.Bounded := by
    unfold s2
    split
    · exact hs1.emit
    · exact hs1
  have hs3 : s3.Bounded := .ite hs2 hs2.drainLane
  split
  · split
    · exact (State.Bounded.ite hs3.update hs3).sendHello
    · exact hs3
  · exact hs3

theorem State.Bounded.execLaneMarker (hs : s.Bounded) {lane pod linkDie laneNo : Nat} {credits : List Nat} :
    Result.Bounded (execLaneMarker lane pod linkDie laneNo credits s) :=
  .ite (.next hs) (.ite (.next hs.setLane.event.moveRecs.loseUnreachable)
      (.ite (.next hs.setLane.drainLane) (.next hs)))

theorem State.Bounded.askReplay (hs : s.Bounded) : (s.askReplay n).Bounded := .ite hs hs.setLane.emit

theorem State.Bounded.dropBlock (hs : s.Bounded) : (s.dropBlock n).Bounded :=
  .ite hs.setLane.count.failLane hs.setLane.count.askReplay

theorem State.Bounded.takeNak (hs : s.Bounded) {a : BitVec 12} : (s.takeNak n a).Bounded := by
  unfold State.takeNak
  extract_lets y
  split
  · exact hs.setLane
  · exact .ite hs.setLane.count.forceRetrain hs.setLane.count.emit

theorem State.Bounded.countFlit (hs : s.Bounded) {die : Nat} {f : Flit} : (s.countFlit die f).Bounded := by
  unfold State.countFlit
  split
  exacts [hs, hs, hs.count.count, hs.count.count]

theorem State.Bounded.takeHeader (hs : s.Bounded) {f : Flit} : (s.takeHeader n f).Bounded :=
  .ite hs.setLane.takeNak hs.setLane.setLane

theorem State.Bounded.takeFlit (hs : s.Bounded) {f : Flit} : (s.takeFlit n f).Bounded := by
  unfold State.takeFlit
  extract_lets s1 x
  have hs1 : s1.Bounded := hs.takeHeader
  split
  exacts [hs1, hs1.askReplay, .ite hs1.setLane.countFlit (.ite hs1.askReplay hs1)]

theorem State.Bounded.execFlitReceive (hs : s.Bounded) {lane : Nat} {b : Block} :
    Result.Bounded (execFlitReceive lane b s) := by
  unfold Sys2Proof.Machine.execFlitReceive
  refine .ite (.next hs) ?_
  exact .ite (.next hs.count.dropBlock)
      (.ite (.next hs.count.count.dropBlock)
      (.ite (.next hs.count.count.dropBlock) (.next hs.count.takeFlit.drainLane)))

theorem State.Bounded.ethResend (hs : s.Bounded) : (s.ethResend p).Bounded := .ite hs hs.count.sendPackets

theorem State.Bounded.ethAcked (hs : s.Bounded) {k : EthPacket} : (s.ethAcked p k).Bounded :=
  .ite (State.Bounded.ite hs.count hs).drainEth.ethResend (State.Bounded.ite hs.count hs).drainEth

theorem State.Bounded.sendAck (hs : s.Bounded) {nak ce : Bool} : (s.sendAck p nak ce).Bounded := hs.emit

theorem State.Bounded.takePacket (hs : s.Bounded) {l : List (List Byte)} : (s.takePacket l).Bounded :=
  hs.foldl fun _ _ ht => .ite ht.count (.ite ht.count ht.countFlit)

theorem State.Bounded.ethTake (hs : s.Bounded) {k : EthPacket} : (s.ethTake p k).Bounded :=
  .ite hs (.ite hs.setEth.takePacket.sendAck hs.sendAck)

theorem State.Bounded.onDatagram (hs : s.Bounded) {frame : List Byte} {port : Nat} {f : State → Datagram → State}
    (hf : ∀ (t : State) a1, t.Bounded → (f t a1).Bounded) :
    Result.Bounded (s.onDatagram frame port f) := by
  unfold State.onDatagram
  refine .ite (.next hs) ?_
  split
  · exact .next hs
  · exact .ite (.next hs) (.ite (.next hs.count) (.next (hf _ _ hs)))

theorem State.Bounded.takeEth (hs : s.Bounded) {k : EthPacket} : (s.takeEth k).Bounded :=
  .ite hs (.ite hs.count hs.ethAcked.ethTake)

theorem State.Bounded.takeFar (hs : s.Bounded) {p : FarDatagram} : (s.takeFar p).Bounded := by
  unfold State.takeFar
  split
  · exact hs.count
  · exact .ite hs.count hs.writeMem

end Sys2Proof.Machine
end

section
/-!
PROOF. O5, power, parts that leave service, the Draft and its sessions (R102, R341 to R363, R402 to R444).
-/

namespace Sys2Proof.Machine

open Sys2Proof

variable {s : State} {d k req step t : Nat} {_value p1 p2 : Byte} {env : StartEnv} {b msg v : List Byte}
    {num : BitVec 32} {role : Role} {o : ObjId} {x : Session}

/-! ### Power -/

theorem State.Bounded.setPower (hs : s.Bounded) {p : Power} : (s.setPower p).Bounded := hs.update

theorem State.Bounded.losePower {m : PowerMode} : (s.losePower m).Bounded :=
  fun _ he => absurd he (by simp [State.losePower, State.reset])

theorem State.Bounded.powerFail {c : Nat} {m : PowerMode} : (s.powerFail c m).Bounded := State.Bounded.losePower

theorem State.Bounded.setRoots (hs : s.Bounded) {v : BitVec 2} : (s.setRoots v).Bounded := hs.setPower.setAlert

theorem State.Bounded.switchRoot (hs : s.Bounded) : s.switchRoot.Bounded := hs.setPower.count.event

theorem State.Bounded.noClock : s.noClock.Bounded := State.Bounded.losePower.setPower.setAlert

theorem State.Bounded.loseRoot (hs : s.Bounded) : (s.loseRoot k).Bounded :=
  .ite State.Bounded.noClock (State.Bounded.ite hs.switchRoot hs).setRoots

theorem State.Bounded.execRootSwitch (hs : s.Bounded) : Result.Bounded (execRootSwitch _value s) :=
  hs.onCmd fun _ ht => .ite_fst ht.switchRoot ht

theorem State.Bounded.mgmtFails (hs : s.Bounded) : s.mgmtFails.Bounded := by
  unfold State.mgmtFails
  split
  exacts [hs.setDieState.setDieState.loseRoot, State.Bounded.noClock, hs]

theorem State.Bounded.setInput (hs : s.Bounded) {mv : Nat} : (s.setInput mv).Bounded := hs.setPower

theorem State.Bounded.filtered (hs : s.Bounded) {n lo hi : Nat} : (s.filtered n lo hi).2.Bounded := by
  unfold State.filtered
  exact .ite_snd hs (.ite_snd hs hs.draw)

theorem State.Bounded.execPwrfailN (hs : s.Bounded) {src : PwrFailSource} : Result.Bounded (execPwrfailN src s) := by
  unfold Sys2Proof.Machine.execPwrfailN
  refine .ite (.next hs) ?_
  split
  exacts [.ite (.next State.Bounded.powerFail) (.next hs), .ite (.next State.Bounded.powerFail) (.next hs), .ite
    (.next State.Bounded.powerFail) (.next hs.filtered)]

theorem State.Bounded.execLossOfInput (hs : s.Bounded) : Result.Bounded (execLossOfInput s) := by
  unfold Sys2Proof.Machine.execLossOfInput
  split
  exacts [.next State.Bounded.powerFail, .next State.Bounded.powerFail, .next hs]

theorem State.Bounded.stageFails (hs : s.Bounded) : (s.stageFails k).Bounded :=
  .ite State.Bounded.powerFail (hs.watchForecasts fun _ ht => ht.roleRecord.setPower.count.event).setAlert

theorem State.Bounded.raiseExcursion (hs : s.Bounded) {i code : Nat} {was : Bool} :
    (s.raiseExcursion i code was).Bounded :=
  .ite (State.Bounded.ite hs hs.count).setAlert (State.Bounded.ite hs hs.count).setAlert.event

theorem State.Bounded.execCoolantExcursion (hs : s.Bounded) {e : CoolantEvent} :
    Result.Bounded (execCoolantExcursion e s) := by
  unfold Sys2Proof.Machine.execCoolantExcursion
  extract_lets m
  refine .ite (.next hs) ?_
  split
  exacts [.ite (.next hs) (.next hs.update.raiseExcursion.count), .ite (.next hs)
    (.next hs.update.raiseExcursion.count), .ite (.next hs.update.setAlert) (.next hs)]

theorem State.Bounded.execAirExcursion (hs : s.Bounded) {e : AirEvent} : Result.Bounded (execAirExcursion e s) := by
  unfold Sys2Proof.Machine.execAirExcursion
  extract_lets m
  refine .ite (.next hs) ?_
  split
  · exact .ite (.next hs) (.next hs.update.raiseExcursion)
  · exact .ite (.next hs.update.setAlert) (.next hs)

theorem State.Bounded.halt (hs : s.Bounded) : s.halt.Bounded := hs.setPower.setAlert

theorem State.Bounded.sense (hs : s.Bounded) : s.sense.Bounded := hs.update

theorem State.Bounded.startStages (hs : s.Bounded) : s.startStages.Bounded := hs.draw.setInput.sense.setAlert

theorem State.Bounded.startRoots (hs : s.Bounded) : (s.startRoots env).Bounded := hs.setPower.setRoots

theorem State.Bounded.startRom (hs : s.Bounded) : (s.startRom env).1.Bounded := by
  unfold State.startRom
  exact .ite_fst (.ite hs hs.count)
      (.ite_fst (State.Bounded.ite hs hs.count).blowTo.rom.update (State.Bounded.ite hs hs.count).blowTo.rom)

theorem State.Bounded.stepIn (hs : s.Bounded) {lo n : Nat} : (s.stepIn d lo n).1.Bounded := by
  unfold State.stepIn
  split
  · exact hs
  · exact .ite hs.update.setDieState.freshLooms hs.update.setDieState.update

theorem State.Bounded.failLinkDie (hs : s.Bounded) : (s.failLinkDie k).Bounded := hs.foldl fun _ _ ht => ht.failLane

theorem State.Bounded.selfTestFails (hs : s.Bounded) : (s.selfTestFails d).Bounded := by
  unfold State.selfTestFails
  refine .ite hs ?_
  extract_lets was s1
  have hs1 : s1.Bounded := hs.count
  refine .ite (.ite hs1.setDieState.stepIn hs1.setDieState) (.ite hs1.retireHub ?_)
  refine .ite (.ite hs1.setDieState.retireHub hs1.setDieState) (.ite (.ite hs1.setDieState.stepIn hs1.setDieState) ?_)
  exact .ite hs1.setDieState.failLinkDie
      (.ite hs1.setDieState.setHost (.ite (.ite hs1.mgmtFails hs1.setDieState.loseRoot) hs1.failNand))

theorem State.Bounded.startRest (hs : s.Bounded) : (s.startRest env).Bounded := by
  unfold State.startRest
  extract_lets -underBinder +onlyGivenNames _ s1
  have hs1 : s1.Bounded := hs.setPower
  refine .ite hs1.halt ?_
  extract_lets -underBinder +onlyGivenNames s2 s3
  have hs2 : s2.Bounded := hs1.foldl fun _ _ ht => ht.freshLooms
  have hs3 : s3.Bounded := hs2.foldl fun _ _ ht => ht.selfTestFails
  exact .ite hs3 (hs3.setPower.foldl fun _ _ ht => .ite ht.laneUp ht).event

theorem State.Bounded.startFrom4 (hs : s.Bounded) : (s.startFrom4 env).Bounded :=
  .ite hs.startRom.startRest hs.startRom.halt

theorem State.Bounded.startFrom3 (hs : s.Bounded) : (s.startFrom3 env).Bounded :=
  .ite hs.update.startRoots.halt hs.update.startRoots.startFrom4

theorem State.Bounded.coldStart (hs : s.Bounded) : (s.coldStart env).Bounded :=
  .ite hs.setPower.startStages.halt hs.setPower.startStages.startFrom3

theorem State.Bounded.holdReset {c : Nat} : (s.holdReset c).Bounded := State.Bounded.losePower.update

theorem State.Bounded.execMrstN (hs : s.Bounded) {lowMs : Nat} : Result.Bounded (execMrstN lowMs s) := by
  unfold Sys2Proof.Machine.execMrstN
  split
  · exact .ite (.next State.Bounded.holdReset.update) (.next hs.filtered)
  · exact .ite (.next State.Bounded.holdReset.update) (.next hs.filtered)
  · exact .ite (.next State.Bounded.holdReset.update) (.next hs.filtered)
  · exact .ite (.next hs.filtered.setPower) (.next hs.filtered)
  · exact .next hs

theorem State.Bounded.moduleReset (hs : s.Bounded) {value : Byte} : (s.moduleReset value).1.Bounded := by
  unfold State.moduleReset
  exact .ite_fst hs.setPower hs

theorem State.Bounded.execModuleReset (hs : s.Bounded) {value : Byte} : Result.Bounded (execModuleReset value s) :=
  hs.onCmd fun _ ht => ht.moduleReset

theorem State.Bounded.warmStart (hs : s.Bounded) : (s.warmStart env).Bounded :=
  .ite hs.update.sense.setPower.setAlert.halt
      (.ite hs.update.sense.setPower.setAlert.startFrom3 hs.update.sense.setPower.setAlert.setRoots.startFrom4)

/-! ### Deaths -/

theorem State.Bounded.loseHub (hs : s.Bounded) : (s.loseHub k).Bounded := hs.retireHub.purgeHub

theorem State.Bounded.cutDead (hs : s.Bounded) {q : BitVec 16} {f : Fetched} : (s.cutDead q f).Bounded := by
  unfold State.cutDead
  extract_lets l mine
  split
  · exact hs
  · exact hs.dropWaits.complete
  · split
    · exact (State.Bounded.ite hs.endPut (.ite hs.getCount hs)).update.dropWaits.complete
    · split
      · exact hs.endColl
      · exact hs.complete
    · exact hs.dropWaits.complete

theorem State.Bounded.cutDeadQueue (hs : s.Bounded) {q : BitVec 16} : (s.cutDeadQueue q).Bounded :=
  hs.foldl fun _ _ ht => ht.cutDead

theorem State.Bounded.leaveGroups (hs : s.Bounded) : (s.leaveGroups d).Bounded := by
  unfold State.leaveGroups
  extract_lets stay s1
  have hs1 : s1.Bounded := hs.update
  refine hs1.foldl fun t x ht => ?_
  split
  · exact ht.releaseHeld
  · exact ht

theorem State.Bounded.clearDie (hs : s.Bounded) : (s.clearDie d).Bounded := hs.update.clearRange.leaveGroups

theorem State.Bounded.rebind (hs : s.Bounded) {q x : Nat} : (s.rebind q x).Bounded := hs.setQueue.update

theorem State.Bounded.setMask (hs : s.Bounded) {n m : Nat} : (s.setMask n m).Bounded := hs.update

theorem State.Bounded.moveToSpare (hs : s.Bounded) {x : Nat} : (s.moveToSpare d x).Bounded :=
  (hs.clearRange.foldl fun _ _ ht => ht.setMask).foldl fun _ _ ht => ht.rebind

theorem State.Bounded.moveToRest (hs : s.Bounded) : (s.moveToRest d).Bounded := by
  unfold State.moveToRest
  extract_lets ls s1 s2
  have hs1 : s1.Bounded := hs.foldl fun _ _ ht => ht.setMask
  have hs2 : s2.Bounded := by
    refine hs1.foldl fun t x ht => ?_
    split
    · exact ht
    · exact ht.rebind.event
  exact hs2.foldl fun _ _ ht => ht.revokeLease

theorem State.Bounded.tensorDies (hs : s.Bounded) : (s.tensorDies d).Bounded := by
  unfold State.tensorDies
  extract_lets -underBinder +onlyGivenNames qs was s1
  have hs1 : s1.Bounded := hs.setDieState
  refine .ite hs1 ?_
  extract_lets -underBinder +onlyGivenNames r s2 s3
  have hr : r.1.Bounded := hs1.stepIn
  have hs2 : s2.Bounded := hr.foldl fun _ _ ht => ht.cutDeadQueue
  have hs3 : s3.Bounded := hs2.clearDie
  split
  · exact hs3.moveToSpare
  · exact hs3.moveToRest

theorem State.Bounded.coreDies (hs : s.Bounded) : (s.coreDies d).Bounded :=
  .ite hs.setDieState (State.Bounded.ite hs.setDieState.update.stepIn.update hs.setDieState.update.stepIn).event

theorem State.Bounded.hostDies (hs : s.Bounded) : s.hostDies.Bounded := by
  unfold State.hostDies
  extract_lets s1 _ s2
  have h2 : s2.Bounded := hs.setDieState.setHost
  exact h2.hostLeaves

theorem State.Bounded.mgmtDies (hs : s.Bounded) : (s.mgmtDies d).Bounded := .ite hs.mgmtFails hs.setDieState.loseRoot

theorem State.Bounded.buryAgent (hs : s.Bounded) {a : Nat} : (s.buryAgent a).Bounded := hs.setCoh.reclaim

theorem State.Bounded.agentDies (hs : s.Bounded) {a : Nat} : (s.agentDies a).Bounded :=
  .ite hs (.ite hs.tensorDies.buryAgent
      (.ite hs.coreDies.buryAgent
      (.ite hs.setDieState.failLinkDie.buryAgent (.ite hs.hostDies.setCoh hs.mgmtDies.setCoh))))

theorem State.Bounded.answerForHolder (hs : s.Bounded) {line : Nat} {t : Txn} : (s.answerForHolder line t).Bounded :=
  hs.setCoh.advance.count.emit

theorem State.Bounded.execSnoopDeadlineMiss (hs : s.Bounded) {agent line : Nat} :
    Result.Bounded (execSnoopDeadlineMiss agent line s) := by
  unfold Sys2Proof.Machine.execSnoopDeadlineMiss
  split
  · exact .next hs
  · exact .ite (.next hs) (.next (.ite hs.answerForHolder hs.answerForHolder.agentDies))

theorem State.Bounded.execControlCoreRetire (hs : s.Bounded) {die core : Nat} :
    Result.Bounded (execControlCoreRetire die core s) :=
  .ite (.next hs) (.next (.ite hs.roleRecord.retireCore.event hs.roleRecord.retireCore.event.agentDies))

/-! ### Spdm -/

theorem State.Bounded.spdmNonce (hs : s.Bounded) : s.spdmNonce.2.Bounded := by
  unfold State.spdmNonce
  exact hs.update

theorem State.Bounded.setConn (hs : s.Bounded) {c : Spdm} : (s.setConn t c).Bounded := hs.update

theorem State.Bounded.countSign (hs : s.Bounded) : s.countSign.Bounded := hs.count

theorem State.Bounded.spdmVersion (hs : s.Bounded) : (s.spdmVersion t msg).1.Bounded := by
  unfold State.spdmVersion
  exact hs.setConn

theorem State.Bounded.spdmCapabilities (hs : s.Bounded) : (s.spdmCapabilities t msg).1.Bounded := by
  unfold State.spdmCapabilities
  exact .ite_fst hs (.ite_fst hs hs.setConn)

theorem State.Bounded.spdmAlgorithms (hs : s.Bounded) : (s.spdmAlgorithms t msg b).1.Bounded := by
  unfold State.spdmAlgorithms
  exact .ite_fst hs (.ite_fst hs hs.setConn)

theorem State.Bounded.spdmDigests (hs : s.Bounded) : (s.spdmDigests t msg).1.Bounded := by
  unfold State.spdmDigests
  exact .ite_fst hs hs.setConn

theorem State.Bounded.spdmCertificate (hs : s.Bounded) : (s.spdmCertificate t msg p1 p2 b).1.Bounded := by
  unfold State.spdmCertificate
  exact .ite_fst hs (.ite_fst hs hs.setConn)

theorem State.Bounded.spdmChallenge (hs : s.Bounded) : (s.spdmChallenge t msg p1 p2 b).1.Bounded := by
  unfold State.spdmChallenge
  exact .ite_fst hs (.ite_fst hs hs.spdmNonce.setConn.countSign)

theorem State.Bounded.spdmMeasurements (hs : s.Bounded) : (s.spdmMeasurements t msg p1 p2 b).1.Bounded := by
  unfold State.spdmMeasurements
  exact .ite_fst hs (.ite_fst hs (.ite_fst hs.spdmNonce.setConn.countSign hs.spdmNonce.setConn))

theorem State.Bounded.spdmPlain (hs : s.Bounded) {version code : Byte} :
    (s.spdmPlain t version code p1 p2 b).1.Bounded := by
  unfold State.spdmPlain
  extract_lets msg
  refine .ite_fst hs.spdmVersion (.ite_fst hs ?_)
  split
  exacts [hs.spdmCapabilities, hs.spdmAlgorithms, hs.spdmDigests, hs.spdmCertificate, hs.spdmChallenge,
    hs.spdmMeasurements, hs]

theorem State.Bounded.largeOut (hs : s.Bounded) {r : List Byte} : (s.largeOut t r).1.Bounded := by
  unfold State.largeOut
  exact .ite_fst hs hs.setConn

theorem State.Bounded.spdmChunkGet (hs : s.Bounded) : (s.spdmChunkGet t p2 b).1.Bounded := by
  unfold State.spdmChunkGet
  exact .ite_fst hs (.ite_fst hs hs.setConn)

theorem State.Bounded.spdmChunkSend (hs : s.Bounded) : (s.spdmChunkSend t p1 p2 b).1.Bounded := by
  unfold State.spdmChunkSend
  exact .ite_fst hs (.ite_fst hs.setConn
      (.ite_fst hs.setConn (.ite_fst hs.setConn.spdmPlain hs.setConn.spdmPlain.largeOut)))

theorem State.Bounded.spdmRequest (hs : s.Bounded) {version code : Byte} :
    (s.spdmRequest t version code p1 p2 b).1.Bounded := by
  unfold State.spdmRequest
  extract_lets s1 chunk _ r wrong
  have hs1 : s1.Bounded := hs.count
  have hr : r.1.Bounded := .ite_fst hs1 (.ite_fst hs1.spdmChunkSend (.ite_fst hs1.spdmChunkGet hs1.spdmPlain.largeOut))
  exact .ite hr.count hr

theorem State.Bounded.spdmOver (hs : s.Bounded) {code : Byte} {m : SpdmMsg} : Result.Bounded (s.spdmOver code m) :=
  .ite (.next hs.spdmRequest.emit) (.next hs)

/-! ### Arm -/

theorem State.Bounded.configDefaults (hs : s.Bounded) : (s.configDefaults num).1.Bounded := by
  unfold State.configDefaults
  exact .ite_fst hs hs.update

theorem State.Bounded.reuseLanes (hs : s.Bounded) {old : State} : (s.reuseLanes old).Bounded :=
  hs.foldl fun _ _ ht => .ite ht ht.setLane.moveRecs

theorem State.Bounded.newView (hs : s.Bounded) : s.newView.Bounded := hs.update.foldl fun _ _ ht => ht.sendHello

theorem State.Bounded.reconfigured (hs : s.Bounded) {old : State} : (s.reconfigured old).Bounded :=
  (State.Bounded.ite hs.reuseLanes hs.reuseLanes.newView).driveAlert

theorem State.Bounded.armRecord (hs : s.Bounded) {flags : Byte} {epoch : Nat} {v : Tab (List Byte)} :
    (s.armRecord flags epoch step v).Bounded := hs.record

theorem State.Bounded.armStop (hs : s.Bounded) {r : DapResult} : (s.armStop r).2.2.Bounded := by
  unfold State.armStop
  exact hs

theorem State.Bounded.armChecked (hs : s.Bounded) {stepped : Bool} {f : State → Nat → ArmEnd}
    (hf : ∀ (t : State) a1, t.Bounded → (f t a1).2.2.Bounded) :
    (s.armChecked stepped req f).2.2.Bounded := by
  unfold State.armChecked
  refine .ite_third hs.armStop ?_
  split
  · exact hs.count
  · exact .ite_third hs.armStop (hf _ _ hs.count)

theorem State.Bounded.armAtOnce (hs : s.Bounded) : (s.armAtOnce req).2.2.Bounded := by
  unfold State.armAtOnce
  exact .ite_third hs.armStop (hs.armChecked fun _ _ ht => ht.armRecord.update.reconfigured)

theorem State.Bounded.armStepped (hs : s.Bounded) {by_ : BitVec 32} : (s.armStepped by_ req step).2.2.Bounded := by
  unfold State.armStepped
  exact .ite_third hs.armStop (.ite_third hs.armStop (hs.armChecked fun _ _ ht => ht.armRecord.update))

theorem State.Bounded.armCancel (hs : s.Bounded) : (s.armCancel num role).2.2.Bounded := by
  unfold State.armCancel
  split
  · exact hs.armStop
  · exact .ite_third hs.armStop (.ite_third hs.armStop hs.armRecord.update)

theorem State.Bounded.armOf (hs : s.Bounded) {atStep cancel : Bool} :
    (s.armOf num role atStep cancel req step).2.2.Bounded := by
  unfold State.armOf
  exact .ite_third hs.armCancel (.ite_third hs.armStop (.ite_third hs.armStepped hs.armAtOnce))

theorem State.Bounded.switchTo (hs : s.Bounded) {p : PendingArm} : (s.switchTo p).Bounded :=
  hs.record.update.reconfigured.count

theorem State.Bounded.setStep (hs : s.Bounded) {q : BitVec 16} : (s.setStep q step).Bounded := by
  unfold State.setStep
  extract_lets s1 _ s2
  have hs1 : s1.Bounded := by
    unfold s1
    split
    · exact hs
    · exact hs.switchTo
  have hs2 : s2.Bounded := hs1.setQueue
  exact hs2.update

theorem State.Bounded.execQctlStep (hs : s.Bounded) {d : Desc} : Result.Bounded (execQctlStep d s) :=
  .ite (.next hs) (hs.onDesc fun _ ht => .ite ht.finish (ht.runNow fun _ hu => hu.setStep))

/-! ### Backward -/

theorem State.Bounded.attnOutcm (hs : s.Bounded) {st : Byte} {row : Nat} : (s.attnOutcm st row).1.Bounded := by
  unfold State.attnOutcm
  exact hs.draw

theorem State.Bounded.runAttn (hs : s.Bounded) {d : Desc} {die : Nat} {f : AttnF} {r : AttnRec} {oi os oo : Opf} :
    (s.runAttn d die f r oi os oo).1.Bounded := by
  unfold State.runAttn
  extract_lets -underBinder +onlyGivenNames cfg view env scaleBad
  refine .ite_fst hs.attnOutcm ?_
  extract_lets -underBinder +onlyGivenNames ps sat plane badQ badK outs imgs s1 _ s2 b s3 narRow
  have hs1 : s1.Bounded := hs.foldl fun _ _ ht => ht.writeSkeins.countWatched
  have hs2 : s2.Bounded := hs1.countWatched
  have hs3 : s3.Bounded := hs2.count.count
  clear_value narRow badQ
  split
  exacts [hs3.attnOutcm, hs3.attnOutcm, hs3.attnOutcm, hs3]

theorem State.Bounded.attnEnds (hs : s.Bounded) {d : Desc} {st : Byte} : (s.attnEnds d st).Bounded :=
  .ite hs.finish hs.attnOutcm.finish

theorem State.Bounded.execBwdAttn (hs : s.Bounded) {d : Desc} : Result.Bounded (execBwdAttn d s) := by
  unfold Sys2Proof.Machine.execBwdAttn
  refine hs.onDesc fun t ht => ?_
  extract_lets die f
  split
  · refine .ite ht.attnEnds ?_
    split
    · exact ht.attnEnds
    · exact ht.runNow fun _ hu => hu.runAttn
  · exact ht.attnEnds

/-! ### Dap -/

theorem State.Bounded.dapStop (hs : s.Bounded) {r : DapResult} : (s.dapStop r).2.2.Bounded := by
  unfold State.dapStop
  exact hs

theorem State.Bounded.dapRead (hs : s.Bounded) : (s.dapRead role b).2.2.Bounded := by
  unfold State.dapRead
  extract_lets o
  split
  · exact hs.dapStop
  · exact .ite_third hs.dapStop (.ite_third hs.dapStop hs)

theorem State.Bounded.dapDescribe (hs : s.Bounded) : (s.dapDescribe role b).2.2.Bounded := by
  unfold State.dapDescribe
  extract_lets o
  split
  · exact hs.dapStop
  · exact hs

theorem State.Bounded.dapEnumerate (hs : s.Bounded) : (s.dapEnumerate b).2.2.Bounded := by
  unfold State.dapEnumerate
  exact hs

theorem State.Bounded.dapStagedList (hs : s.Bounded) : (s.dapStagedList b).2.2.Bounded := by
  unfold State.dapStagedList
  exact hs

theorem State.Bounded.dapEvents (hs : s.Bounded) : (s.dapEvents b).2.2.Bounded := by
  unfold State.dapEvents
  exact hs

theorem State.Bounded.runAs (hs : s.Bounded) {f : State → Result}
    (hf : ∀ t : State, t.Bounded → Result.Bounded (f t)) :
    (s.runAs f).1.Bounded := by
  unfold State.runAs
  split
  next t e =>
    have ht : t.Bounded := hf _ hs _ e
    exact ht
  · exact hs

theorem State.Bounded.cmdObject (hs : s.Bounded) : (s.cmdObject num o v).1.Bounded := by
  unfold State.cmdObject
  extract_lets b w u64 u32 u16
  split
  · exact hs.configDefaults
  · exact hs.runAs fun _ ht => ht.execLeaseGrant
  · exact hs.runAs fun _ ht => ht.execLeaseRelease
  · exact hs.runAs fun _ ht => ht.execTempleAlarmClear
  · exact hs.runAs fun _ ht => ht.execQueueAbort
  · exact hs.runAs fun _ ht => ht.execStepCommit
  · exact hs.runAs fun _ ht => ht.execGroupRestore
  · exact hs.runAs fun _ ht => ht.execOutcomeAdopt
  · exact hs.runAs fun _ ht => ht.execCommitRebase
  · exact hs.runAs fun _ ht => ht.execFwInstall
  · exact hs.runAs fun _ ht => ht.execFwActivate
  · exact hs.runAs fun _ ht => ht.execBoltNote
  · exact hs.runAs fun _ ht => ht.execOwnerRelease

theorem State.Bounded.cmdControl (hs : s.Bounded) : (s.cmdControl o v).1.Bounded := by
  unfold State.cmdControl
  extract_lets b
  split
  · exact hs.runAs fun _ ht => ht.execModuleReset
  · exact hs.runAs fun _ ht => ht.execRootSwitch
  · exact hs.runAs fun _ ht => ht.clearCommand
  · exact hs.runAs fun _ ht => ht.clearCommand
  · exact hs.runAs fun _ ht => ht.clearCommand
  · exact hs.runAs fun _ ht => ht.clearCommand
  · exact hs.runAs fun _ ht => ht.clearCommand
  · exact hs.runAs fun _ ht => ht.clearCommand
  · exact hs.runAs fun _ ht => ht.clearCommand
  · exact hs.runAs fun _ ht => ht.clearCommand
  · exact hs.runAs fun _ ht => ht.clearCommand
  · exact hs.runAs fun _ ht => ht.clearCommand
  · exact hs.runAs fun _ ht => ht.clearCommand
  · exact hs.runAs fun _ ht => ht.clearCommand
  · exact hs.runAs fun _ ht => ht.clearCommand
  · exact hs.runAs fun _ ht => ht.clearCommand
  · exact hs.runAs fun _ ht => ht.clearCommand
  · exact hs.runAs fun _ ht => ht.clearCommand
  · exact hs.runAs fun _ ht => ht.clearCommand

theorem State.Bounded.writeNow (hs : s.Bounded) : (s.writeNow o v).1.Bounded := by
  unfold State.writeNow
  exact .ite_fst hs.update (hs.runAs fun _ ht => ht.execDirProbeAddr)

theorem State.Bounded.stageValue (hs : s.Bounded) {r : ObjRow} : (s.stageValue num o r v).1.Bounded := by
  unfold State.stageValue
  exact .ite_fst hs (.ite_fst hs hs.update)

theorem State.Bounded.stageSegment (hs : s.Bounded) {r : ObjRow} {off : Nat} {last : Bool} :
    (s.stageSegment num o r off last v).1.Bounded := by
  unfold State.stageSegment
  extract_lets d done
  split
  · exact hs
  · exact .ite_fst hs (.ite_fst hs.update hs.update)

theorem State.Bounded.writeObject (hs : s.Bounded) {r : ObjRow} : (s.writeObject num o r v).1.Bounded := by
  unfold State.writeObject
  exact .ite_fst hs.stageValue (.ite_fst hs.writeNow (.ite_fst hs.writeKey (.ite_fst hs.cmdObject hs.cmdControl)))

theorem State.Bounded.dapWrite (hs : s.Bounded) : (s.dapWrite num role b).2.2.Bounded := by
  unfold State.dapWrite
  extract_lets o off last v ends
  have hends : ∀ x, x.1.Bounded → (ends x).2.2.Bounded := fun _ hx => hx
  split
  · exact hs.dapStop
  · exact .ite_third hs.dapStop (.ite_third (.ite_third (hends _ hs.stageSegment) (hends _ hs.fwImage))
      (.ite_third hs.dapStop (.ite_third hs.dapStop (hends _ hs.writeObject))))

theorem State.Bounded.dapDiscard (hs : s.Bounded) : (s.dapDiscard num role).2.2.Bounded := by
  unfold State.dapDiscard
  exact .ite_third hs.update hs.dapStop

theorem State.Bounded.dapArm (hs : s.Bounded) : (s.dapArm num role b).2.2.Bounded := by
  unfold State.dapArm
  exact hs.armOf

theorem State.Bounded.dapTunnel (hs : s.Bounded) {t : Transport} : (s.dapTunnel t b).2.2.Bounded := by
  unfold State.dapTunnel
  exact hs.spdmRequest

theorem State.Bounded.dapRun (hs : s.Bounded) {mtype : Nat} : (s.dapRun x mtype b).2.2.Bounded := by
  unfold State.dapRun
  refine .ite_third hs.dapStop ?_
  split
  exacts [hs.endSessions, hs.dapRead, hs.dapWrite, hs.dapDescribe, hs.dapEnumerate, hs.dapArm, hs.dapDiscard,
    hs.dapStagedList, hs.dapEvents, hs.dapTunnel]

theorem State.Bounded.setSession (hs : s.Bounded) : (s.setSession x).Bounded := hs.update

theorem State.Bounded.dapRespond (hs : s.Bounded) {k : Kept} {keep : Bool} : (s.dapRespond x k keep).1.Bounded := by
  unfold State.dapRespond
  exact hs.setSession

theorem State.Bounded.dapAccepted (hs : s.Bounded) : (s.dapAccepted x b).1.Bounded := by
  unfold State.dapAccepted
  extract_lets id mtype body x s1
  have hs1 : s1.Bounded := hs.setSession
  split
  · exact hs1.count.dapRespond
  · exact (State.Bounded.ite_third hs1.dapRun hs1.count.dapStop).dapRespond

theorem State.Bounded.openFails (hs : s.Bounded) {key : List Byte} {r : DapResult} :
    (s.openFails key b r).1.Bounded := by
  unfold State.openFails
  exact hs.draw

theorem State.Bounded.openSession (hs : s.Bounded) {t : Transport} {owner : Bool} :
    (s.openSession t owner role b).1.Bounded := by
  unfold State.openSession
  exact .ite_fst hs.count.openFails (.ite_fst hs.openFails hs.update.count)

theorem State.Bounded.dapOpen (hs : s.Bounded) {t : Transport} : (s.dapOpen t b).1.Bounded := by
  unfold State.dapOpen
  extract_lets body key
  refine .ite_fst hs ?_
  split
  · exact hs.count
  · exact .ite_fst hs.count hs.openSession

theorem State.Bounded.dapIdentify (hs : s.Bounded) : (s.dapIdentify b).1.Bounded := by
  unfold State.dapIdentify
  exact .ite_fst hs.count hs.count

theorem State.Bounded.dapHandle (hs : s.Bounded) {t : Transport} {multicast : Bool} :
    (s.dapHandle t multicast b).1.Bounded := by
  unfold State.dapHandle
  extract_lets mtype s1
  have hs1 : s1.Bounded := hs.count
  refine .ite_fst hs1.dapIdentify (.ite_fst hs1 (.ite_fst hs1.count (.ite_fst hs1.dapOpen ?_)))
  split
  · exact hs1.count
  · exact .ite_fst hs1.count (.ite_fst hs1.count (.ite_fst hs1.count hs1.dapAccepted))

theorem State.Bounded.dapOver (hs : s.Bounded) {t : Transport} {multicast : Bool} :
    (s.dapOver t multicast b).Bounded := by
  unfold State.dapOver
  refine .ite hs ?_
  extract_lets r
  have hr : r.1.Bounded := hs.dapHandle
  split
  · exact hr
  · exact hr.emit

theorem State.Bounded.setMailbox (hs : s.Bounded) {m : Mailbox} : (s.setMailbox m).Bounded := hs.update

theorem State.Bounded.doorbell (hs : s.Bounded) {value : Nat} : (s.doorbell value).Bounded := by
  unfold State.doorbell
  extract_lets -underBinder +onlyGivenNames m n
  refine .ite hs.count ?_
  extract_lets -underBinder +onlyGivenNames b r _ t
  have hr : r.1.Bounded := hs.update.dapHandle
  have ht : t.Bounded := hr.setMailbox
  split
  · exact ht
  · exact ht.setMailbox

theorem State.Bounded.fillRequest (hs : s.Bounded) {i : Nat} : (s.fillRequest i b).Bounded := hs.setMailbox

theorem State.Bounded.execMbxDoorbell (hs : s.Bounded) {value : BitVec 32} : Result.Bounded (execMbxDoorbell value s) :=
  .ite (.next hs.doorbell) (.next hs)

theorem State.Bounded.execMbxAck (hs : s.Bounded) {value : BitVec 32} : Result.Bounded (execMbxAck value s) :=
  .ite (.next hs.setMailbox) (.next hs)

theorem State.Bounded.onDap (hs : s.Bounded) {m : DapMsg} {mtype : Byte} : Result.Bounded (s.onDap m mtype) := by
  unfold State.onDap
  extract_lets b
  split
  exacts [.ite (.next hs.dapOver) (.next hs), .ite (.next hs.dapOver) (.next hs), .ite
    (.next hs.fillRequest.doorbell) (.next hs)]

end Sys2Proof.Machine
end

section
/-!
PROOF. O5, the reed, registers, repairs, the dispatch of descriptors and the tick (R106 to R128, R280 to R300, R345,
R380 to R393, R427).
-/

namespace Sys2Proof.Machine

open Sys2Proof

variable {s : State} {agent die line offset width : Nat} {v : List Byte} {op : AtomicOp}

/-! ### Reed -/

theorem State.Bounded.countPasses (hs : s.Bounded) {l : List ReedPass} : (s.countPasses die l).Bounded :=
  hs.foldl fun _ _ ht => ht.count.count

theorem State.Bounded.writeDense (hs : s.Bounded) {f : Fmt} {base size : Nat} {codes : List (Nat × Nat)} :
    (s.writeDense f base size codes).Bounded := by
  unfold State.writeDense
  extract_lets put t
  split
  · exact hs.writeRuns
  · exact hs

theorem State.Bounded.writeReedPlane (hs : s.Bounded) {v : ReedEnv} {pl : Nat} {bad : List Bool} {sk : SkeinOut} :
    (s.writeReedPlane v pl bad sk).Bounded := (hs.foldl fun _ _ ht => ht.writeMem).writeDense

theorem State.Bounded.runReed (hs : s.Bounded) {d : Desc} {v : ReedEnv} {cfg : NumCfg} :
    (s.runReed d die v cfg).1.Bounded := by
  unfold State.runReed
  refine .ite_fst hs ?_
  extract_lets rd bad planes vals good wrapped idx blocks live ntaps rows k t t1 _ t2 t3 t4 t5 passes t6 t7 t8 t9 t10
      nar
  have ht : t.Bounded := hs.foldl fun _ _ ht => ht.writeReedPlane
  have ht1 : t1.Bounded := ht.foldl fun _ _ hu => hu.countWatched
  have ht2 : t2.Bounded := ht1.countWatched
  have ht3 : t3.Bounded := ht2.foldl fun _ _ hu => .ite hu.writeMem.count hu.writeMem
  have ht4 : t4.Bounded := ht3.count
  have ht5 : t5.Bounded := ht4.count
  have ht6 : t6.Bounded := ht5.count.countPasses
  have ht7 : t7.Bounded := ht6.count
  have ht8 : t8.Bounded := ht7.count
  have ht9 : t9.Bounded := ht8.count
  have ht10 : t10.Bounded := .ite ht9.undefine ht9
  split <;> exact ht10

theorem State.Bounded.execReedConv (hs : s.Bounded) {d : Desc} : Result.Bounded (execReedConv d s) := by
  unfold Sys2Proof.Machine.execReedConv
  refine hs.onDesc fun t ht => ?_
  extract_lets die cfg f
  split
  · split
    · exact (State.Bounded.ite ht.count ht).finish
    · exact ht.runNow fun _ hu => hu.runReed
  · exact ht.finish
  · exact ht.finish

/-! ### Registers -/

theorem State.Bounded.adminStore (hs : s.Bounded) {blk : AdminBlock} {i : Nat} :
    Result.Bounded (s.adminStore blk i v) :=
  .ite hs.setAdmin.adminWrite (.next hs.setAdmin)

theorem State.Bounded.doorbellWrite (hs : s.Bounded) {v : BitVec 32} :
    Result.Bounded (s.doorbellWrite offset width v) :=
  .ite hs.execSqDb (.ite hs.execCqDb (.next hs))

theorem State.Bounded.sendPending (hs : s.Bounded) : s.sendPending.Bounded := hs.update.foldl fun _ _ ht => ht.msix

theorem State.Bounded.storeRegs (hs : s.Bounded) : (s.storeRegs offset v).Bounded := hs.setHost.sendPending

theorem State.Bounded.globalWrite (hs : s.Bounded) {i : Nat} : (s.globalWrite i v).Bounded := .ite hs.setHost hs

theorem State.Bounded.mailboxWrite (hs : s.Bounded) {i : Nat} : Result.Bounded (s.mailboxWrite i width v) :=
  .ite hs.execMbxDoorbell (.ite hs.execMbxAck (.ite (.ite (.next hs.fillRequest) (.next hs)) (.next hs)))

theorem State.Bounded.mapWrite (hs : s.Bounded) {sp : RegSpace} {value : BitVec 64} :
    Result.Bounded (s.mapWrite sp offset width value) := by
  unfold State.mapWrite
  extract_lets v host blk
  refine .ite hs.doorbellWrite (.ite (.next hs) (.ite (.next (.ite hs.globalWrite hs)) ?_))
  exact .ite hs.adminStore
      (.ite (.next (.ite hs.storeRegs hs)) (.ite (.next (.ite hs.storeRegs hs)) (.ite hs.mailboxWrite (.next hs))))

theorem State.Bounded.execRegisterWrite (hs : s.Bounded) {sp : RegSpace} {value : BitVec 64} :
    Result.Bounded (execRegisterWrite sp offset width value s) := .ite hs.mapWrite (.next hs)

theorem State.Bounded.mctpAnswer (hs : s.Bounded) {code completion : Byte} {data : List Byte} :
    (s.mctpAnswer code completion data).Bounded := hs.emit

/-! ### Repair -/

theorem State.Bounded.repairRecord (hs : s.Bounded) {done channel bank row : Nat} :
    (s.repairRecord done die channel bank row).Bounded := hs.record

theorem State.Bounded.poisonT2 (hs : s.Bounded) : (s.poisonT2 line).Bounded := by
  unfold State.poisonT2
  extract_lets -underBinder +onlyGivenNames f
  refine .ite ?_ (.ite hs.draw.poisonRange hs.draw.poisonRange)
  extract_lets -underBinder +onlyGivenNames s1
  have hs1 : s1.Bounded := by
    unfold s1
    split
    · exact hs.count
    · exact hs
  exact hs1.poisonRange

theorem State.Bounded.poisonRow (hs : s.Bounded) {ls : List Nat} : (s.poisonRow ls).Bounded :=
  hs.foldl fun _ _ ht => .ite ht.poisonT2 ht.poisonRange

theorem State.Bounded.poisonStash (hs : s.Bounded) {tier2 : Bool} : (s.poisonStash tier2).Bounded :=
  hs.foldl fun _ _ ht => ht.foldl fun _ _ hu => .ite hu (.ite hu.draw hu.draw.setStash)

theorem State.Bounded.rowRepair (hs : s.Bounded) {channel bank row : Nat} {bad : List Nat} :
    (s.rowRepair die channel bank row bad).Bounded := by
  unfold State.rowRepair
  extract_lets k used s1 s2
  have hs1 : s1.Bounded := hs.repairRecord.poisonRow
  have hs2 : s2.Bounded := .ite hs1 hs1.poisonStash
  exact .ite hs2 (hs2.watchForecasts fun _ ht => ht.update.repairRecord.count)

/-! ### Spans -/

theorem State.Bounded.controlWrite (hs : s.Bounded) {mask : BitVec 64} {data : List Byte} :
    Result.Bounded (s.controlWrite line mask data) := by
  unfold State.controlWrite
  refine foldl_keeps Result.Bounded _ _ _ (.next hs) fun r a hr => ?_
  split
  next t => exact (hr t rfl).execRegisterWrite
  next => exact hr

theorem State.Bounded.controlAtomic (hs : s.Bounded) : Result.Bounded (s.controlAtomic agent line offset op) := by
  unfold State.controlAtomic
  extract_lets old mask
  split
  next t e => exact .next (hs.controlWrite t e).emit
  next => exact hs.controlWrite

theorem State.Bounded.farAsks (hs : s.Bounded) {k : ReqKind} : (s.farAsks k agent line offset op).Bounded :=
  hs.setCoh.ask

theorem State.Bounded.farAtomic (hs : s.Bounded) : (s.farAtomic agent line offset op).Bounded := by
  unfold State.farAtomic
  split
  · exact hs.farAsks
  · refine .ite hs.farAsks ?_
    extract_lets may
    clear_value may
    split
    exacts [hs, hs.trapReq, (State.Bounded.ite hs.setCoh hs).farRuns]

theorem State.Bounded.sendAtomic (hs : s.Bounded) : (s.sendAtomic agent line offset op).Bounded :=
  .ite hs.trapReq (.ite (.ite hs.arrive hs.ask) (.ite hs.emit hs.farAtomic))

theorem State.Bounded.execAtomN (hs : s.Bounded) : Result.Bounded (execAtomN agent line offset op s) :=
  .ite (.next hs) (.ite (.ite hs.controlAtomic (.next hs)) (.ite (.next hs.sendAtomic) (.next hs)))

/-! ### Tick -/

theorem State.Bounded.tickVec (hs : s.Bounded) {e : Nat} {busy : Bool} : (s.tickVec die e busy).Bounded := by
  unfold State.tickVec
  extract_lets n l
  split
  · exact hs.count
  · exact .ite hs.count (.ite hs.storeGrant.count hs.storeGrant.setVec.count)

theorem State.Bounded.tickShuttle (hs : s.Bounded) {k : Nat} {busy : Bool} : (s.tickShuttle die k busy).Bounded := by
  unfold State.tickShuttle
  extract_lets next flying capacity alone tally s1 s2 s3 s4 s5
  have htally : ∀ (t : State) code on, t.Bounded → (tally t code on).Bounded := fun _ _ _ ht => .ite ht.count ht
  have hs1 : s1.Bounded := htally _ _ _ hs
  have hs2 : s2.Bounded := htally _ _ _ hs1
  have hs3 : s3.Bounded := htally _ _ _ hs2
  have hs4 : s4.Bounded := htally _ _ _ hs3
  have hs5 : s5.Bounded := htally _ _ _ hs4
  exact .ite hs5 (htally _ _ _ hs5.storeGrant)

theorem State.Bounded.tickTreadle (hs : s.Bounded) {idle : Bool} : (s.tickTreadle die idle).Bounded := by
  unfold State.tickTreadle
  extract_lets s1 heads
  have hs1 : s1.Bounded := hs.noteReady
  clear_value heads
  split
  · exact hs1
  · exact .ite hs1.count hs1

theorem State.Bounded.tickDie (hs : s.Bounded) : (s.tickDie die).Bounded := by
  unfold State.tickDie
  extract_lets idle busy s1 s2 s3
  have hs1 : s1.Bounded := hs.foldl fun _ _ ht => ht.tickHeddle
  have hs2 : s2.Bounded := hs1.foldl fun _ _ ht => ht.tickVec
  have hs3 : s3.Bounded := hs2.foldl fun _ _ ht => ht.tickShuttle
  exact .ite hs3.tickTreadle hs3

theorem State.Bounded.tickPacing (hs : s.Bounded) : s.tickPacing.Bounded := by
  unfold State.tickPacing
  split
  · exact hs
  · exact .ite hs.count hs

theorem State.Bounded.tickLanes (hs : s.Bounded) : s.tickLanes.Bounded := hs.foldl fun _ _ ht => ht.count

theorem State.Bounded.tickHubs (hs : s.Bounded) : s.tickHubs.Bounded := hs.foldl fun _ _ ht => ht.cohCount

theorem State.Bounded.tickUpdates (hs : s.Bounded) : s.tickUpdates.Bounded := hs.count

theorem State.Bounded.tick (hs : s.Bounded) : s.tick.Bounded :=
  .ite hs (State.Bounded.ite
      (hs.restoreLedger.pumpColls.foldl fun _ _ ht => ht.tickDie).tickUpdates.tickLanes.tickHubs.tickPacing
      hs).setPower

end Sys2Proof.Machine
end

section
/-!
PROOF. O5: every step keeps every counter within its maximum (R53), since each of the 248 commands and the tick do.
-/

namespace Sys2Proof.Machine

open Sys2Proof

variable {s : State}

/-- Every command keeps the bound, each by the law of what it runs. -/
theorem State.Bounded.exec (hs : s.Bounded) {i : Instr} : Result.Bounded (exec i s) := by
  unfold Sys2Proof.Machine.exec
  cases i with
  | qctlNop => exact hs.onDesc fun _ ht => .ite ht.finish (ht.runNow fun _ hu => hu)
  | qctlStep => exact hs.execQctlStep
  | qctlFlush => exact hs.onDesc fun _ ht => .ite ht.finish ht.handOver.pump
  | sqDb => exact hs.execSqDb
  | cqDb => exact hs.execCqDb
  | descriptorFetch => exact .ite (.next hs.fetchReturn) (.next hs)
  | dbRetryExpiry => exact .ite (.next hs.setQueue.count) (.next hs)
  | flushReadReturn => exact hs.execFlushReadReturn
  | shutCopy => exact hs.onDesc fun _ ht => ht.dispatchCopy
  | shutCopy2d => exact hs.onDesc fun _ ht => ht.dispatchCopy
  | transferAccept => exact .ite (.next hs.acceptXfer) (.next hs)
  | transferComplete => exact .ite (.next hs.completeXfer) (.next hs)
  | shutMcast => exact hs.execShutMcast
  | mcastDelivery => exact hs.execMcastDelivery
  | mcastSet => exact hs.execMcastSet
  | creelSet => exact hs.onDesc fun _ ht => .ite ht.finish (ht.runNow fun _ hu => hu.setRing)
  | shutLimit => exact hs.execShutLimit
  | slotEmpty => exact .ite (.next hs.emptyHead) (.next hs)
  | loomPick => exact .next hs.dispatchPick
  | pickAccept => exact .ite (.next hs.acceptWaiting) (.next hs)
  | pickComplete => exact .ite (.next hs.completePick) (.next hs)
  | loomChainDrop => exact hs.onDesc fun _ ht => .ite ht.finish (.ite ht (ht.runNow fun _ hu => hu.dropChain))
  | loomSetMode => exact hs.execLoomSetMode
  | vecEw2 => exact .next hs.dispatchVec
  | vecEw1 => exact .next hs.dispatchVec
  | vecFma => exact .next hs.dispatchVec
  | vecReduce => exact .next hs.dispatchVec
  | vecArgmax => exact .next hs.dispatchVec
  | vecRequant => exact .next hs.dispatchVec
  | vecConvert => exact .next hs.dispatchVec
  | vecCurve => exact .next hs.dispatchVec
  | vecGather => exact .next hs.dispatchVec
  | vecInstructionComplete => exact .ite (.next hs.completeVec) (.next hs)
  | seqLoad => exact hs.execSeqLoad
  | seqStart => exact hs.onDesc fun _ ht => .ite ht.finish (.ite ht.finish ht.handOver.setCore)
  | seqStop => exact hs.onDesc fun _ ht => .ite ht.finish (ht.runNow fun _ hu => hu.endProgram)
  | ecall => exact .ite (.next hs.endProgram) (.next hs)
  | seqAccessFault => exact .ite (.next hs.endProgram) (.next hs)
  | tiSubmit => exact hs.execTiSubmit
  | tiWait => exact .ite (.next hs.setCore) (.next hs)
  | tiPoll => exact .ite (.next hs.setCore) (.next hs)
  | tiStep => exact .ite (.next hs.setCore) (.next hs)
  | tiFence => exact .ite (.next hs.setCore) (.next hs)
  | controlCoreRetire => exact hs.execControlCoreRetire
  | reedConv => exact hs.execReedConv
  | bwdPick => exact .next hs.dispatchPick
  | bwdAttn => exact hs.execBwdAttn
  | stashPut => exact hs.execStashPut
  | stashRoomFreed => exact .ite (.next hs.retryPuts) (.next hs)
  | stashFullWaitExpiry => exact .ite (.next hs.setStash.count.complete) (.next hs)
  | stashGet => exact hs.execStashGet
  | stashDrop => exact hs.execStashDrop
  | treadleBind => exact hs.execTreadleBind
  | treadleGrant => exact .ite (.next hs.grantTurn) (.next hs)
  | treadleWait => exact hs.onDesc fun _ ht => .ite ht.finish (.ite ht (ht.runNow fun _ hu => hu))
  | treadleSignal => exact hs.onDesc fun _ ht => .ite ht.finish (.ite ht (ht.runNow fun _ hu => hu.signalToken))
  | mbAdmit => exact hs.execMbAdmit
  | mbRetire => exact hs.onDesc fun _ ht => .ite ht.finish (ht.runNow fun _ hu => hu.update)
  | updStat => exact hs.onDesc fun _ ht => ht.dispatchUpd
  | updApply => exact hs.onDesc fun _ ht => ht.dispatchUpd
  | barrierOutcomeHeld => exact hs.execBarrierOutcomeHeld
  | templeOpen => exact hs.execTempleOpen
  | templeAttach => exact hs.onDesc fun _ ht => .ite ht.finish (ht.runNow fun _ hu => hu.update)
  | templeTally => exact hs.execTempleTally
  | templeSeal => exact hs.execTempleSeal
  | templeDecide => exact hs.execTempleDecide
  | templeClose => exact hs.onDesc fun _ ht => .ite ht.finish (.ite ht (ht.runNow fun _ hu => hu.setCtx.update))
  | tierRegister => exact hs.execTierRegister
  | tierFree => exact hs.execTierFree
  | tierPromote => exact hs.onDesc fun _ ht => .ite ht.finish (.ite ht ht.handOver.tierAct)
  | tierEvict => exact hs.onDesc fun _ ht => .ite ht.finish ht.handOver.tierAct
  | tierPack => exact hs.execTierPack
  | moveEnds => exact .ite (.next hs.moveEnds) (.next hs)
  | t2LateThresholdExpiry => exact .ite (.next hs.count.count) (.next hs)
  | t2StallTimeoutExpiry => exact hs.execT2StallTimeoutExpiry
  | demotionRetry => exact hs.execDemotionRetry
  | hubRetire => exact .ite (.next hs.loseHub) (.next hs)
  | leaseGrant => exact hs.execLeaseGrant
  | leaseRelease => exact hs.execLeaseRelease
  | pruPut => exact hs.onDesc fun _ ht => .ite ht.finish (.ite ht.finish (.ite ht.finish ht.handXfer))
  | pruAtomic => exact hs.execPruAtomic
  | pruSignal => exact hs.execPruSignal
  | pruGroup => exact hs.execPruGroup
  | pruReduce => exact hs.onColl
  | pruGather => exact hs.onColl
  | pruBarrier => exact hs.onColl
  | pruRegion => exact hs.execPruRegion
  | laneTrained => exact .ite (.next hs.laneUp) (.next hs)
  | laneMarker => exact hs.execLaneMarker
  | flitReceive => exact hs.execFlitReceive
  | nak => exact .ite (.next hs.takeNak.drainLane) (.next hs)
  | laneFail => exact .ite (.next hs.failLane) (.next hs)
  | put => exact hs.execPut
  | get => exact hs.onRecord fun _ ht => .ite ht.respond (.ite ht.respond ht.noteRead.respond)
  | atom => exact hs.execAtom
  | signal => exact hs.onRecord fun _ ht => .ite ht.respond ht.signalToken.respond
  | rsp => exact hs.execRsp
  | coll => exact hs.onRecord fun _ ht => .ite ht ht.putMsg.pumpGroup
  | exp => exact hs.onRecord fun _ ht => .ite ht ht.putMsg.pumpGroup
  | barrier => exact hs.onRecord fun _ ht => .ite ht ht.putMsg.pumpGroup
  | hello => exact .ite (.next hs) (.ite (.next hs.noteStranger) (.ite (.next hs) (.next hs.takeHello)))
  | peerDown => exact hs.execPeerDown
  | xactTimeoutExpiry => exact .ite (.next hs.declareLost) (.next hs)
  | ethFrameReceive => exact hs.onDatagram fun _ _ ht => ht.takeEth
  | ethRtoExpiry => exact .ite (.next hs.ethResend) (.next hs)
  | farDatagramReceive => exact hs.onDatagram fun _ _ ht => ht.takeFar
  | rdS => exact .ite (.next hs.coreAsks) (.next hs)
  | rdX => exact .ite (.next hs.coreAsks) (.next hs)
  | upg => exact hs.execUpg
  | rdNc => exact .ite (.next hs.setCoh) (.ite (.next hs.arrive) (.next hs))
  | wrNc => exact .ite hs.controlWrite (.ite (.next hs.arrive) (.next hs))
  | wb => exact hs.execWb
  | cln => exact hs.execCln
  | atomN => exact hs.execAtomN
  | snpS => exact .next hs.snooped
  | snpX => exact .next hs.snooped
  | snpCur => exact .next hs.snooped
  | snpInv => exact .next hs.snooped
  | lrSnoopDelayExpiry => exact hs.execLrSnoopDelayExpiry
  | rspI => exact .next hs.deliverIf
  | rspS => exact .next hs.deliverIf
  | rspO => exact .next hs.deliverIf
  | rspFwd => exact .next hs.deliverIf
  | grant => exact hs.execGrant
  | ack => exact .next hs.deliverIf
  | wbAck => exact .next hs.deliverIf
  | data => exact hs.execData
  | agentSnoopLimitExpiry => exact .ite (.next hs.agentDies) (.next hs)
  | agentDead => exact .ite (.next hs.agentDies) (.next hs)
  | privSnoopTimeoutExpiry => exact .ite (.next hs.privTimeout) (.next hs)
  | snpdata => exact .ite (.next hs.hostSnoops) (.next hs)
  | snpinv => exact .ite (.next hs.hostSnoops) (.next hs)
  | snpcur => exact .ite (.next hs.hostSnoops) (.next hs)
  | snoopDeadlineMiss => exact hs.execSnoopDeadlineMiss
  | birsp => exact hs.execBirsp
  | memrd => exact .ite (.next hs) (.ite (.next hs.count.emit) (.next hs.readPieces.emit))
  | memwr => exact hs.execMemwr
  | bar2Read => exact .ite (.next hs) (.ite (.next hs.count.emit) (.next hs.readPieces.emit))
  | bar2Write => exact .ite (.next hs) (.ite (.next hs) (.next (State.Bounded.ite hs.count hs).barStore))
  | peerTimeout => exact hs.execPeerTimeout
  | hostEpochChange => exact .next hs.epochChange
  | portReady => exact .ite (.next hs.setHost) (.next hs)
  | create => exact hs.execCreate
  | destroy => exact hs.execDestroy
  | reattach => exact hs.execReattach
  | attach => exact hs.execAttach
  | regionRegister => exact hs.execRegionRegister
  | regionRelease => exact hs.execRegionRelease
  | registerWrite => exact hs.execRegisterWrite
  | queueAbort => exact hs.execQueueAbort
  | identify => exact hs.onDap
  | sessionOpen => exact hs.onDap
  | sessionClose => exact hs.onDap
  | sessionIdleTimeout => exact .ite (.next hs.endSessions.count) (.next hs)
  | read => exact hs.onDap
  | write => exact hs.onDap
  | describe => exact hs.onDap
  | enumerate => exact hs.onDap
  | arm => exact hs.onDap
  | armAtStep => exact hs.onDap
  | armCancel => exact hs.onDap
  | discard => exact hs.onDap
  | stagedList => exact hs.onDap
  | eventRead => exact hs.onDap
  | spdmTunnel => exact hs.onDap
  | mbxDoorbell => exact hs.execMbxDoorbell
  | mbxAck => exact hs.execMbxAck
  | neighborSolicitation => exact .ite (.next hs.emit) (.next hs)
  | echoRequest => exact .ite (.next hs.emit) (.next hs)
  | setEndpointId => exact .ite (.next hs) (.ite (.next hs.mctpAnswer) (.next hs.update.mctpAnswer))
  | getEndpointId => exact .ite (.next hs.mctpAnswer) (.next hs)
  | getMctpVersionSupport => exact .ite (.next hs) (.ite (.next hs.mctpAnswer) (.next hs.mctpAnswer))
  | getMessageTypeSupport => exact .ite (.next hs.mctpAnswer) (.next hs)
  | getVendorDefinedMessageSupport => exact .ite (.next hs) (.ite (.next hs.mctpAnswer) (.next hs.mctpAnswer))
  | getVersion => exact hs.spdmOver
  | getCapabilities => exact hs.spdmOver
  | negotiateAlgorithms => exact hs.spdmOver
  | getDigests => exact hs.spdmOver
  | getCertificate => exact hs.spdmOver
  | challenge => exact hs.spdmOver
  | getMeasurements => exact hs.spdmOver
  | chunkSend => exact hs.spdmOver
  | chunkGet => exact hs.spdmOver
  | spdmUnsupportedRequest => exact hs.spdmOver
  | fmtCountersClear => exact hs.clearCommand
  | loomCountersClear => exact hs.clearCommand
  | vecCountersClear => exact hs.clearCommand
  | reedCountersClear => exact hs.clearCommand
  | bwdCountersClear => exact hs.clearCommand
  | updCountersClear => exact hs.clearCommand
  | templeCountersClear => exact hs.clearCommand
  | templeAlarmClear => exact hs.execTempleAlarmClear
  | strCountersClear => exact hs.clearCommand
  | tirCountersClear => exact hs.clearCommand
  | cohCountersClear => exact hs.clearCommand
  | dirProbeAddr => exact hs.execDirProbeAddr
  | hstCountersClear => exact hs.clearCommand
  | pruCountersClear => exact hs.clearCommand
  | configDefaults => exact hs.onCmd fun _ ht => .ite_fst ht.configDefaults ht
  | dftCountersClear => exact hs.clearCommand
  | stepCommit => exact hs.execStepCommit
  | groupRestore => exact hs.execGroupRestore
  | outcomeAdopt => exact hs.execOutcomeAdopt
  | commitRebase => exact hs.execCommitRebase
  | boltNote => exact hs.execBoltNote
  | fwImage => exact hs.onCmd fun _ ht => ht.fwImage
  | fwInstall => exact hs.execFwInstall
  | fwActivate => exact hs.execFwActivate
  | recCountersClear => exact hs.clearCommand
  | ownerKey => exact hs.onCmd fun _ ht => ht.writeKey
  | operatorKey => exact hs.onCmd fun _ ht => ht.writeKey
  | ownerRelease => exact hs.execOwnerRelease
  | secCountersClear => exact hs.clearCommand
  | moduleReset => exact hs.execModuleReset
  | rootSwitch => exact hs.execRootSwitch
  | pwrCountersClear => exact hs.clearCommand
  | modCountersClear => exact hs.clearCommand
  | journalPageProgrammed => exact .next (hs.count.update.watchForecasts fun _ ht => ht.checkNands)
  | checkpoint => exact .ite (.next hs) (.next hs.record.update)
  | lifetime => exact .ite (.next (hs.watchForecasts fun _ ht => ht.update.lifetimeRecord)) (.next hs)
  | nandDieFail => exact .ite (.next hs.failNand) (.next hs)
  | wearLevelRelocation => exact hs.execWearLevelRelocation
  | rowRepair => exact .ite (.next hs.rowRepair) (.next hs)
  | mgmtSwitchover => exact .ite (.next hs.mgmtFails) (.next hs)
  | noManagementDie => exact .ite (.next State.Bounded.noClock) (.next hs)
  | rootLossOfLock => exact .ite (.next hs.loseRoot) (.next hs)
  | pwrfailN => exact hs.execPwrfailN
  | inputLow => exact .ite (.next hs.setInput.count.event) (.next hs)
  | inputHighBand => exact .ite (.next hs.setInput.event) (.next hs)
  | overvoltageShutdown => exact .ite (.next State.Bounded.powerFail) (.next hs)
  | stageFailure => exact .ite (.next hs.stageFails) (.next hs)
  | pacingEngage => exact .ite (.next hs.setPower) (.next hs)
  | pacingAdjust => exact .ite (.next hs) (.ite (.next hs.setPower) (.ite (.next hs) (.next hs.setPower)))
  | thermalShutdown => exact .ite (.next State.Bounded.powerFail) (.next hs)
  | holdupLow => exact .ite (.next hs.setPower.count.event.setAlert) (.next hs)
  | coldStart => exact .ite (.next hs.coldStart) (.next hs)
  | mrstN => exact hs.execMrstN
  | warmStart => exact .ite (.next hs.warmStart) (.ite (.next State.Bounded.holdReset.warmStart) (.next hs))
  | coolantExcursion => exact hs.execCoolantExcursion
  | airExcursion => exact hs.execAirExcursion
  | lossOfInput => exact hs.execLossOfInput
  | standbyRootLock => exact .ite (.next hs.setRoots) (.next hs)
  | hartStart => exact .ite (.next hs.update) (.next hs)
  | configurationRequest => exact hs.execConfigurationRequest
  | cxlCacheResponse => exact hs.execCxlCacheResponse
  | peerReadCompletion => exact .ite (.next hs.peerReadEnds) (.next hs)
  | unknownMtype => exact hs.onDap
  | badCommand => exact hs.execBadCommand

/-- A step is a tick or the front command, run on the state with the rest of the queue. -/
theorem State.Bounded.step (hs : s.Bounded) : Result.Bounded (step s) := by
  unfold Sys2Proof.Machine.step
  split
  · exact .next hs.tick
  · exact hs.update.exec

/-- Settles O5: a state that a step answers is bounded, whichever step it was. -/
theorem stepKeepsCountersWithinMaximum : Obligations.StepKeepsCountersWithinMaximum := by
  unfold Obligations.StepKeepsCountersWithinMaximum
  exact fun s t hs hstep => State.Bounded.step (s := s) hs t hstep

end Sys2Proof.Machine
end
